-- ==== Sys2Proof/Syntax.lean ====
section
/-! DEFINITION. Sys2Proof/Syntax.lean: the rows of the spec's table of operations and events as one inductive type.
A row with an encoding carries the operand fields of R44 to R47 as bit vectors, under the letters the table gives
them; a row without an encoding is an event of the device and carries the data that says which one it is.
The row EXT carries the second word of its pair (R49): the pair issues as one instruction. -/

namespace Sys2Proof

/-- What a peer window maps (R388): the number of the export on the remote device, and what that export allows, its length in units of
64 KiB and its R, W and atomic permissions (R387). -/
structure RemoteExport where
  number : Nat
  units : Nat
  perm : BitVec 3
  deriving DecidableEq, Repr

/-- The device record (R389): the number that stands for its stored bytes, the module's identity public key, the management host's fabric
address, the authorised destinations, the egress cap of each port, the voltage of each clock step, and the trip limit in degrees. -/
structure DeviceRecord where
  stored : Nat
  key : BitVec 256
  host : Nat
  dests : List Nat
  caps : List Nat
  volts : List Nat
  trip : Int
  deriving DecidableEq, Repr

/-- Something signed, and whether its signature verifies against the root key (R389). -/
structure Signed (α : Type) where
  item : α
  verifies : Bool
  deriving DecidableEq, Repr

/-- A packet delivery mode of the transport (R382). -/
inductive Delivery where
  | rud
  | rod
  | rudi
  | uud
  | other
  deriving DecidableEq, Repr

/-- What a peer offers at the setup of a session (R382): the port, the lanes of the link, whether the transport is UEC 1.0 in the AI Full
profile, the delivery modes, and whether the session has transport security. -/
structure Offer where
  port : Nat
  lanes : Nat
  aiFull : Bool
  modes : List Delivery
  secured : Bool
  deriving DecidableEq, Repr

/-- A reading of one of a row's sensors (R394): 0 and 1 are its temperature sensors, in degrees, 2 its current sensor. -/
structure SensorReading where
  sensor : Nat
  value : Int
  deriving DecidableEq, Repr

/-- One row of the table of operations and events. -/
inductive Instr where
  /-- TRAP (R111). -/
  | trap (c : BitVec 7)
  /-- ADD (R113). -/
  | add (d : BitVec 7) (a : BitVec 7) (b : BitVec 7)
  /-- SUB (R113). -/
  | sub (d : BitVec 7) (a : BitVec 7) (b : BitVec 7)
  /-- MUL (R113). -/
  | mul (d : BitVec 7) (a : BitVec 7) (b : BitVec 7)
  /-- MULH (R113). -/
  | mulh (d : BitVec 7) (a : BitVec 7) (b : BitVec 7)
  /-- MULHN (R113). -/
  | mulhn (d : BitVec 7) (a : BitVec 7) (b : BitVec 7)
  /-- DIV (R113). -/
  | div (d : BitVec 7) (a : BitVec 7) (b : BitVec 7)
  /-- DIVN (R113). -/
  | divn (d : BitVec 7) (a : BitVec 7) (b : BitVec 7)
  /-- REM (R113). -/
  | rem (d : BitVec 7) (a : BitVec 7) (b : BitVec 7)
  /-- REMN (R113). -/
  | remn (d : BitVec 7) (a : BitVec 7) (b : BitVec 7)
  /-- AND (R113). -/
  | and (d : BitVec 7) (a : BitVec 7) (b : BitVec 7)
  /-- OR (R113). -/
  | or (d : BitVec 7) (a : BitVec 7) (b : BitVec 7)
  /-- XOR (R113). -/
  | xor (d : BitVec 7) (a : BitVec 7) (b : BitVec 7)
  /-- ANDN (R113). -/
  | andn (d : BitVec 7) (a : BitVec 7) (b : BitVec 7)
  /-- SHL (R113). -/
  | shl (d : BitVec 7) (a : BitVec 7) (b : BitVec 7)
  /-- SHR (R113). -/
  | shr (d : BitVec 7) (a : BitVec 7) (b : BitVec 7)
  /-- SRA (R113). -/
  | sra (d : BitVec 7) (a : BitVec 7) (b : BitVec 7)
  /-- ROTR (R113). -/
  | rotr (d : BitVec 7) (a : BitVec 7) (b : BitVec 7)
  /-- MIN (R113). -/
  | min (d : BitVec 7) (a : BitVec 7) (b : BitVec 7)
  /-- MAX (R113). -/
  | max (d : BitVec 7) (a : BitVec 7) (b : BitVec 7)
  /-- MINN (R113). -/
  | minn (d : BitVec 7) (a : BitVec 7) (b : BitVec 7)
  /-- MAXN (R113). -/
  | maxn (d : BitVec 7) (a : BitVec 7) (b : BitVec 7)
  /-- CMPEQ (R113). -/
  | cmpeq (d : BitVec 7) (a : BitVec 7) (b : BitVec 7)
  /-- CMPLT (R113). -/
  | cmplt (d : BitVec 7) (a : BitVec 7) (b : BitVec 7)
  /-- CMPLTN (R113). -/
  | cmpltn (d : BitVec 7) (a : BitVec 7) (b : BitVec 7)
  /-- CLZ (R113). -/
  | clz (d : BitVec 7) (a : BitVec 7)
  /-- CTZ (R113). -/
  | ctz (d : BitVec 7) (a : BitVec 7)
  /-- POPC (R113). -/
  | popc (d : BitVec 7) (a : BitVec 7)
  /-- SEXT (R113). -/
  | sext (d : BitVec 7) (a : BitVec 7) (w : BitVec 7)
  /-- ZEXT (R113). -/
  | zext (d : BitVec 7) (a : BitVec 7) (w : BitVec 7)
  /-- ADDI (R114). -/
  | addi (d : BitVec 7) (a : BitVec 7) (i : BitVec 12)
  /-- ANDI (R114). -/
  | andi (d : BitVec 7) (a : BitVec 7) (i : BitVec 12)
  /-- ORI (R114). -/
  | ori (d : BitVec 7) (a : BitVec 7) (i : BitVec 12)
  /-- XORI (R114). -/
  | xori (d : BitVec 7) (a : BitVec 7) (i : BitVec 12)
  /-- SHLI (R115). -/
  | shli (d : BitVec 7) (a : BitVec 7) (n : BitVec 6)
  /-- SHRI (R115). -/
  | shri (d : BitVec 7) (a : BitVec 7) (n : BitVec 6)
  /-- SRAI (R115). -/
  | srai (d : BitVec 7) (a : BitVec 7) (n : BitVec 6)
  /-- ROTI (R115). -/
  | roti (d : BitVec 7) (a : BitVec 7) (n : BitVec 6)
  /-- SEQI (R116). -/
  | seqi (d : BitVec 7) (a : BitVec 7) (i : BitVec 10)
  /-- SLTI (R116). -/
  | slti (d : BitVec 7) (a : BitVec 7) (i : BitVec 10)
  /-- SLTNI (R116). -/
  | sltni (d : BitVec 7) (a : BitVec 7) (i : BitVec 10)
  /-- MOVI (R117). -/
  | movi (d : BitVec 7) (i : BitVec 19)
  /-- MOVK (R117). -/
  | movk (d : BitVec 7) (q : BitVec 2) (v : BitVec 16)
  /-- SEL (R118). -/
  | sel (d : BitVec 7) (a : BitVec 7) (b : BitVec 7) (k : BitVec 3)
  /-- KCMP (R119). -/
  | kcmp (d : BitVec 3) (a : BitVec 7) (b : BitVec 7) (c : BitVec 3)
  /-- KAND (R120). -/
  | kand (d : BitVec 3) (a : BitVec 3) (b : BitVec 3)
  /-- KOR (R120). -/
  | kor (d : BitVec 3) (a : BitVec 3) (b : BitVec 3)
  /-- KXOR (R120). -/
  | kxor (d : BitVec 3) (a : BitVec 3) (b : BitVec 3)
  /-- KANDN (R120). -/
  | kandn (d : BitVec 3) (a : BitVec 3) (b : BitVec 3)
  /-- KNOT (R120). -/
  | knot (d : BitVec 3) (a : BitVec 3)
  /-- KMOV (R120). -/
  | kmov (d : BitVec 3) (a : BitVec 3)
  /-- VTOK (R120). -/
  | vtok (d : BitVec 3) (a : BitVec 7)
  /-- KTOV (R120). -/
  | ktov (d : BitVec 7) (a : BitVec 3)
  /-- KPOPC (R120). -/
  | kpopc (d : BitVec 7) (a : BitVec 3)
  /-- VMASK (R120). -/
  | vmask (d : BitVec 3) (a : BitVec 7) (w : BitVec 2)
  /-- KFIRST (R120). -/
  | kfirst (d : BitVec 3) (a : BitVec 3)
  /-- CTLR (R121). -/
  | ctlr (d : BitVec 7) (n : BitVec 10)
  /-- CTLW (R121). -/
  | ctlw (a : BitVec 7) (n : BitVec 10)
  /-- CTLS (R121). -/
  | ctls (a : BitVec 7) (n : BitVec 10)
  /-- CTLC (R121). -/
  | ctlc (a : BitVec 7) (n : BitVec 10)
  /-- EXT (R48). -/
  | ext (i : BitVec 26) (w : BitVec 32)
  /-- BT (R122). -/
  | bt (k : BitVec 3) (d : BitVec 22)
  /-- BF (R122). -/
  | bf (k : BitVec 3) (d : BitVec 22)
  /-- JMP (R123). -/
  | jmp (d : BitVec 26)
  /-- CALL (R123). -/
  | call (d : BitVec 26)
  /-- JR (R124). -/
  | jr (a : BitVec 7)
  /-- CALLR (R124). -/
  | callr (a : BitVec 7)
  /-- LOOPI (R125). -/
  | loopi (l : BitVec 1) (c : BitVec 10) (e : BitVec 14)
  /-- LOOP (R125). -/
  | loop (l : BitVec 1) (a : BitVec 7) (e : BitVec 14)
  /-- RPT (R127). -/
  | rpt (n : BitVec 4) (r : BitVec 6) (d : BitVec 4) (a : BitVec 4) (b : BitVec 4)
  /-- JOIN (R23). -/
  | join (i : BitVec 7)
  /-- FSTAT (R129). -/
  | fstat (d : BitVec 7)
  /-- FIDX (R129). -/
  | fidx (d : BitVec 7)
  /-- PICK (R131). -/
  | pick (d : BitVec 7) (n : BitVec 5) (s : BitVec 12)
  /-- MREAD (R130). -/
  | mread (d : BitVec 7) (f : BitVec 5) (s : BitVec 12)
  /-- MNOTE (R132). -/
  | mnote (s : BitVec 12)
  /-- WAIT (R360). -/
  | wait (l : BitVec 4) (s : BitVec 4) (c : BitVec 4) (m : BitVec 4)
  /-- TLWAIT (R362). -/
  | tlwait (a : BitVec 7) (b : BitVec 7)
  /-- TLREAD (R363). -/
  | tlread (d : BitVec 7) (a : BitVec 7)
  /-- TLNEXT (R363). -/
  | tlnext (d : BitVec 7) (a : BitVec 7)
  /-- ARRIVE (R364). -/
  | arrive (d : BitVec 7) (i : BitVec 7)
  /-- AWAIT (R364). -/
  | await (a : BitVec 7) (i : BitVec 7)
  /-- ARWT (R364). -/
  | arwt (d : BitVec 7) (i : BitVec 7)
  /-- BSTAT (R364). -/
  | bstat (d : BitVec 7) (i : BitVec 7)
  /-- SEND (R294). -/
  | send (h : BitVec 4) (a : BitVec 7) (b : BitVec 7)
  /-- RCV (R295). -/
  | rcv (d : BitVec 7)
  /-- MSK (R296). -/
  | msk (n : BitVec 7)
  /-- DEP (R134). -/
  | dep (d : BitVec 7) (a : BitVec 7) (b : BitVec 7)
  /-- ARM (R63). -/
  | arm (d : BitVec 7)
  /-- PROBE (R298). -/
  | probe (d : BitVec 7)
  /-- MIG (R299). -/
  | mig (a : BitVec 7)
  /-- MIGST (R302). -/
  | migst (d : BitVec 7) (a : BitVec 7)
  /-- SPAWN (R303). -/
  | spawn (d : BitVec 7) (a : BitVec 7) (b : BitVec 7)
  /-- DEC (R304). -/
  | dec (a : BitVec 7)
  /-- TSELF (R306). -/
  | tself (d : BitVec 7)
  /-- RTOPEN (R274). -/
  | rtopen (d : BitVec 7) (a : BitVec 7)
  /-- RTSUB (R275). -/
  | rtsub (d : BitVec 7) (a : BitVec 7) (b : BitVec 7)
  /-- RTCLOSE (R307). -/
  | rtclose (d : BitVec 7) (a : BitVec 7)
  /-- RTGET (R308). -/
  | rtget (d : BitVec 7) (a : BitVec 7) (b : BitVec 7)
  /-- RTSTAT (R307). -/
  | rtstat (d : BitVec 7) (a : BitVec 7)
  /-- VADD (R139). -/
  | vadd (d : BitVec 7) (a : BitVec 7) (b : BitVec 7) (w : BitVec 2)
  /-- VSUB (R139). -/
  | vsub (d : BitVec 7) (a : BitVec 7) (b : BitVec 7) (w : BitVec 2)
  /-- VMUL (R139). -/
  | vmul (d : BitVec 7) (a : BitVec 7) (b : BitVec 7) (w : BitVec 2)
  /-- VMAC (R139). -/
  | vmac (d : BitVec 7) (a : BitVec 7) (b : BitVec 7) (w : BitVec 2)
  /-- VMIN (R139). -/
  | vmin (d : BitVec 7) (a : BitVec 7) (b : BitVec 7) (w : BitVec 2)
  /-- VMAX (R139). -/
  | vmax (d : BitVec 7) (a : BitVec 7) (b : BitVec 7) (w : BitVec 2)
  /-- VMINN (R139). -/
  | vminn (d : BitVec 7) (a : BitVec 7) (b : BitVec 7) (w : BitVec 2)
  /-- VMAXN (R139). -/
  | vmaxn (d : BitVec 7) (a : BitVec 7) (b : BitVec 7) (w : BitVec 2)
  /-- VAND (R140). -/
  | vand (d : BitVec 7) (a : BitVec 7) (b : BitVec 7) (w : BitVec 2)
  /-- VOR (R140). -/
  | vor (d : BitVec 7) (a : BitVec 7) (b : BitVec 7) (w : BitVec 2)
  /-- VXOR (R140). -/
  | vxor (d : BitVec 7) (a : BitVec 7) (b : BitVec 7) (w : BitVec 2)
  /-- VANDN (R140). -/
  | vandn (d : BitVec 7) (a : BitVec 7) (b : BitVec 7) (w : BitVec 2)
  /-- VSHL (R140). -/
  | vshl (d : BitVec 7) (a : BitVec 7) (b : BitVec 7) (w : BitVec 2)
  /-- VSHR (R140). -/
  | vshr (d : BitVec 7) (a : BitVec 7) (b : BitVec 7) (w : BitVec 2)
  /-- VSRA (R140). -/
  | vsra (d : BitVec 7) (a : BitVec 7) (b : BitVec 7) (w : BitVec 2)
  /-- VPOPC (R140). -/
  | vpopc (d : BitVec 7) (a : BitVec 7) (w : BitVec 2)
  /-- VCEQ (R141). -/
  | vceq (d : BitVec 3) (a : BitVec 7) (b : BitVec 7) (w : BitVec 2)
  /-- VCNE (R141). -/
  | vcne (d : BitVec 3) (a : BitVec 7) (b : BitVec 7) (w : BitVec 2)
  /-- VCLT (R141). -/
  | vclt (d : BitVec 3) (a : BitVec 7) (b : BitVec 7) (w : BitVec 2)
  /-- VCGE (R141). -/
  | vcge (d : BitVec 3) (a : BitVec 7) (b : BitVec 7) (w : BitVec 2)
  /-- VCLTN (R141). -/
  | vcltn (d : BitVec 3) (a : BitVec 7) (b : BitVec 7) (w : BitVec 2)
  /-- VCGEN (R141). -/
  | vcgen (d : BitVec 3) (a : BitVec 7) (b : BitVec 7) (w : BitVec 2)
  /-- VFADD (R142). -/
  | vfadd (d : BitVec 7) (a : BitVec 7) (b : BitVec 7) (f : BitVec 2)
  /-- VFSUB (R142). -/
  | vfsub (d : BitVec 7) (a : BitVec 7) (b : BitVec 7) (f : BitVec 2)
  /-- VFMUL (R142). -/
  | vfmul (d : BitVec 7) (a : BitVec 7) (b : BitVec 7) (f : BitVec 2)
  /-- VFMA (R142). -/
  | vfma (d : BitVec 7) (a : BitVec 7) (b : BitVec 7) (f : BitVec 2)
  /-- VFMIN (R142). -/
  | vfmin (d : BitVec 7) (a : BitVec 7) (b : BitVec 7) (f : BitVec 2)
  /-- VFMAX (R142). -/
  | vfmax (d : BitVec 7) (a : BitVec 7) (b : BitVec 7) (f : BitVec 2)
  /-- VFDIV (R142). -/
  | vfdiv (d : BitVec 7) (a : BitVec 7) (b : BitVec 7) (f : BitVec 2)
  /-- VFSQRT (R142). -/
  | vfsqrt (d : BitVec 7) (a : BitVec 7) (f : BitVec 2)
  /-- VFRCP (R143). -/
  | vfrcp (d : BitVec 7) (a : BitVec 7) (f : BitVec 2)
  /-- VFRSQ (R143). -/
  | vfrsq (d : BitVec 7) (a : BitVec 7) (f : BitVec 2)
  /-- VFEXP2 (R143). -/
  | vfexp2 (d : BitVec 7) (a : BitVec 7) (f : BitVec 2)
  /-- VFLOG2 (R143). -/
  | vflog2 (d : BitVec 7) (a : BitVec 7) (f : BitVec 2)
  /-- VFABS (R144). -/
  | vfabs (d : BitVec 7) (a : BitVec 7) (f : BitVec 2)
  /-- VFNEG (R144). -/
  | vfneg (d : BitVec 7) (a : BitVec 7) (f : BitVec 2)
  /-- VFCLT (R144). -/
  | vfclt (d : BitVec 3) (a : BitVec 7) (b : BitVec 7) (f : BitVec 2)
  /-- VFCEQ (R144). -/
  | vfceq (d : BitVec 3) (a : BitVec 7) (b : BitVec 7) (f : BitVec 2)
  /-- CVT_BF16_F32 (R145). -/
  | cvtBf16F32 (d : BitVec 7) (a : BitVec 7) (s : BitVec 1) (r : BitVec 3)
  /-- CVT_F16_F32 (R145). -/
  | cvtF16F32 (d : BitVec 7) (a : BitVec 7) (s : BitVec 1) (r : BitVec 3)
  /-- CVT_F32_BF16 (R145). -/
  | cvtF32Bf16 (d : BitVec 7) (a : BitVec 7) (s : BitVec 1) (r : BitVec 3)
  /-- CVT_F32_F16 (R145). -/
  | cvtF32F16 (d : BitVec 7) (a : BitVec 7) (s : BitVec 1) (r : BitVec 3)
  /-- CVT_E4M3_F32 (R145). -/
  | cvtE4m3F32 (d : BitVec 7) (a : BitVec 7) (s : BitVec 1) (r : BitVec 3)
  /-- CVT_E5M2_F32 (R145). -/
  | cvtE5m2F32 (d : BitVec 7) (a : BitVec 7) (s : BitVec 1) (r : BitVec 3)
  /-- CVT_F32_E4M3 (R145). -/
  | cvtF32E4m3 (d : BitVec 7) (a : BitVec 7) (s : BitVec 1) (r : BitVec 3)
  /-- CVT_F32_E5M2 (R145). -/
  | cvtF32E5m2 (d : BitVec 7) (a : BitVec 7) (s : BitVec 1) (r : BitVec 3)
  /-- CVT_I32_F32 (R94). -/
  | cvtI32F32 (d : BitVec 7) (a : BitVec 7) (s : BitVec 1) (r : BitVec 3)
  /-- CVT_F32_I32 (R145). -/
  | cvtF32I32 (d : BitVec 7) (a : BitVec 7) (s : BitVec 1) (r : BitVec 3)
  /-- CVT_I8_I32 (R145). -/
  | cvtI8I32 (d : BitVec 7) (a : BitVec 7) (s : BitVec 1) (r : BitVec 3)
  /-- CVT_I32_I8 (R145). -/
  | cvtI32I8 (d : BitVec 7) (a : BitVec 7) (s : BitVec 1) (r : BitVec 3)
  /-- Q4PACK (R147). -/
  | q4pack (d : BitVec 7) (a : BitVec 7) (s : BitVec 1) (r : BitVec 3) (t : BitVec 2)
  /-- Q4UNPK (R147). -/
  | q4unpk (d : BitVec 7) (a : BitVec 7) (s : BitVec 1) (r : BitVec 3)
  /-- VRSUM (R148). -/
  | vrsum (d : BitVec 7) (a : BitVec 7) (t : BitVec 2)
  /-- VRMAX (R148). -/
  | vrmax (d : BitVec 7) (a : BitVec 7) (t : BitVec 2)
  /-- VRMIN (R148). -/
  | vrmin (d : BitVec 7) (a : BitVec 7) (t : BitVec 2)
  /-- VRARG (R149). -/
  | vrarg (d : BitVec 7) (a : BitVec 7) (t : BitVec 2)
  /-- VRDOT (R148). -/
  | vrdot (d : BitVec 7) (a : BitVec 7) (b : BitVec 7) (t : BitVec 2)
  /-- VSPLAT (R150). -/
  | vsplat (d : BitVec 7) (a : BitVec 7) (w : BitVec 2)
  /-- VSHUF (R150). -/
  | vshuf (d : BitVec 7) (a : BitVec 7) (b : BitVec 7) (w : BitVec 2)
  /-- VSLUP (R150). -/
  | vslup (d : BitVec 7) (a : BitVec 7) (b : BitVec 7) (w : BitVec 2)
  /-- VSLDN (R150). -/
  | vsldn (d : BitVec 7) (a : BitVec 7) (b : BitVec 7) (w : BitVec 2)
  /-- VCOMP (R150). -/
  | vcomp (d : BitVec 7) (a : BitVec 7) (w : BitVec 2)
  /-- VEXPD (R150). -/
  | vexpd (d : BitVec 7) (a : BitVec 7) (w : BitVec 2)
  /-- VZIP (R150). -/
  | vzip (d : BitVec 7) (a : BitVec 7) (b : BitVec 7) (w : BitVec 2)
  /-- VUNZIP (R150). -/
  | vunzip (d : BitVec 7) (a : BitVec 7) (b : BitVec 7) (w : BitVec 2)
  /-- IXDOT (R153). -/
  | ixdot (d : BitVec 7) (a : BitVec 7) (b : BitVec 7)
  /-- BMPFX (R151). -/
  | bmpfx (d : BitVec 7) (a : BitVec 7)
  /-- IXCNT (R152). -/
  | ixcnt (d : BitVec 7) (a : BitVec 7) (b : BitVec 7)
  /-- VTOPK (R155). -/
  | vtopk (d : BitVec 7) (a : BitVec 7) (b : BitVec 7)
  /-- VSORT (R155). -/
  | vsort (d : BitVec 7) (a : BitVec 7)
  /-- VMRG (R155). -/
  | vmrg (d : BitVec 7) (a : BitVec 7) (b : BitVec 7)
  /-- LD (R233). -/
  | ld (d : BitVec 7) (a : BitVec 7) (s : BitVec 3) (i : BitVec 9)
  /-- ST (R234). -/
  | st (d : BitVec 7) (a : BitVec 7) (s : BitVec 3) (i : BitVec 9)
  /-- VLD (R236). -/
  | vld (d : BitVec 7) (a : BitVec 7) (i : BitVec 9)
  /-- VST (R236). -/
  | vst (d : BitVec 7) (a : BitVec 7) (i : BitVec 9)
  /-- LDX (R235). -/
  | ldx (d : BitVec 7) (a : BitVec 7) (b : BitVec 7) (s : BitVec 3) (x : BitVec 2)
  /-- STX (R235). -/
  | stx (d : BitVec 7) (a : BitVec 7) (b : BitVec 7) (s : BitVec 3) (x : BitVec 2)
  /-- ATOM_SWAP (R237). -/
  | atomSwap (d : BitVec 7) (a : BitVec 7) (b : BitVec 7) (w : BitVec 1)
  /-- ATOM_ADD (R237). -/
  | atomAdd (d : BitVec 7) (a : BitVec 7) (b : BitVec 7) (w : BitVec 1)
  /-- ATOM_AND (R237). -/
  | atomAnd (d : BitVec 7) (a : BitVec 7) (b : BitVec 7) (w : BitVec 1)
  /-- ATOM_OR (R237). -/
  | atomOr (d : BitVec 7) (a : BitVec 7) (b : BitVec 7) (w : BitVec 1)
  /-- ATOM_XOR (R237). -/
  | atomXor (d : BitVec 7) (a : BitVec 7) (b : BitVec 7) (w : BitVec 1)
  /-- ATOM_MIN (R237). -/
  | atomMin (d : BitVec 7) (a : BitVec 7) (b : BitVec 7) (w : BitVec 1)
  /-- ATOM_MAX (R237). -/
  | atomMax (d : BitVec 7) (a : BitVec 7) (b : BitVec 7) (w : BitVec 1)
  /-- ATOM_MINN (R237). -/
  | atomMinn (d : BitVec 7) (a : BitVec 7) (b : BitVec 7) (w : BitVec 1)
  /-- ATOM_MAXN (R237). -/
  | atomMaxn (d : BitVec 7) (a : BitVec 7) (b : BitVec 7) (w : BitVec 1)
  /-- ATOM_CAS (R237). -/
  | atomCas (d : BitVec 7) (a : BitVec 7) (b : BitVec 7) (w : BitVec 1)
  /-- ATOM_FADD_F32 (R238). -/
  | atomFaddF32 (d : BitVec 7) (a : BitVec 7) (b : BitVec 7)
  /-- ATOM_FADD_BF16 (R238). -/
  | atomFaddBf16 (d : BitVec 7) (a : BitVec 7) (b : BitVec 7)
  /-- ATOMO_SWAP (R239). -/
  | atomoSwap (d : BitVec 7) (a : BitVec 7) (b : BitVec 7) (w : BitVec 1)
  /-- ATOMO_ADD (R239). -/
  | atomoAdd (d : BitVec 7) (a : BitVec 7) (b : BitVec 7) (w : BitVec 1)
  /-- ATOMO_AND (R239). -/
  | atomoAnd (d : BitVec 7) (a : BitVec 7) (b : BitVec 7) (w : BitVec 1)
  /-- ATOMO_OR (R239). -/
  | atomoOr (d : BitVec 7) (a : BitVec 7) (b : BitVec 7) (w : BitVec 1)
  /-- ATOMO_XOR (R239). -/
  | atomoXor (d : BitVec 7) (a : BitVec 7) (b : BitVec 7) (w : BitVec 1)
  /-- ATOMO_MIN (R239). -/
  | atomoMin (d : BitVec 7) (a : BitVec 7) (b : BitVec 7) (w : BitVec 1)
  /-- ATOMO_MAX (R239). -/
  | atomoMax (d : BitVec 7) (a : BitVec 7) (b : BitVec 7) (w : BitVec 1)
  /-- ATOMO_MINN (R239). -/
  | atomoMinn (d : BitVec 7) (a : BitVec 7) (b : BitVec 7) (w : BitVec 1)
  /-- ATOMO_MAXN (R239). -/
  | atomoMaxn (d : BitVec 7) (a : BitVec 7) (b : BitVec 7) (w : BitVec 1)
  /-- ATOMO_CAS (R239). -/
  | atomoCas (d : BitVec 7) (a : BitVec 7) (b : BitVec 7) (w : BitVec 1)
  /-- ATOMO_FADD_F32 (R239). -/
  | atomoFaddF32 (d : BitVec 7) (a : BitVec 7) (b : BitVec 7)
  /-- ATOMO_FADD_BF16 (R239). -/
  | atomoFaddBf16 (d : BitVec 7) (a : BitVec 7) (b : BitVec 7)
  /-- LDA (R240). -/
  | lda (d : BitVec 7) (a : BitVec 7) (s : BitVec 3) (c : BitVec 3) (i : BitVec 6)
  /-- STL (R240). -/
  | stl (d : BitVec 7) (a : BitVec 7) (s : BitVec 3) (c : BitVec 3) (i : BitVec 6)
  /-- FENCE_ACQ (R196). -/
  | fenceAcq (c : BitVec 3)
  /-- FENCE_REL (R196). -/
  | fenceRel (c : BitVec 3)
  /-- FENCE_FULL (R196). -/
  | fenceFull (c : BitVec 3)
  /-- FENCE_WB (R241). -/
  | fenceWb (c : BitVec 3)
  /-- SLD (R242). -/
  | sld (d : BitVec 7) (a : BitVec 7) (g : BitVec 4)
  /-- SST (R242). -/
  | sst (d : BitVec 7) (a : BitVec 7) (g : BitVec 4)
  /-- SADD (R242). -/
  | sadd (d : BitVec 7) (a : BitVec 7) (g : BitVec 4)
  /-- SCAN (R219). -/
  | scan (d : BitVec 7) (a : BitVec 7) (n : BitVec 2) (g : BitVec 4)
  /-- SCNT (R218). -/
  | scnt (d : BitVec 7) (g : BitVec 4)
  /-- PREF (R243). -/
  | pref (a : BitVec 7) (i : BitVec 9)
  /-- PREFL2 (R243). -/
  | prefl2 (a : BitVec 7) (i : BitVec 9)
  /-- L1INV (R243). -/
  | l1inv (a : BitVec 7) (i : BitVec 9)
  /-- ZLINE (R243). -/
  | zline (a : BitVec 7) (i : BitVec 9)
  /-- CPLD (R284). -/
  | cpld (a : BitVec 7) (b : BitVec 7)
  /-- CPST (R284). -/
  | cpst (a : BitVec 7) (b : BitVec 7)
  /-- CPADD (R284). -/
  | cpadd (a : BitVec 7) (b : BitVec 7) (c : BitVec 7)
  /-- CPGAT (R285). -/
  | cpgat (a : BitVec 7) (b : BitVec 7) (c : BitVec 7)
  /-- CPSCA (R285). -/
  | cpsca (a : BitVec 7) (b : BitVec 7) (c : BitVec 7)
  /-- KVLD (R286). -/
  | kvld (a : BitVec 7) (b : BitVec 7)
  /-- DENS (R287). -/
  | dens (a : BitVec 7) (b : BitVec 7) (c : BitVec 7)
  /-- CPFILL (R284). -/
  | cpfill (a : BitVec 7) (b : BitVec 7)
  /-- CPCOPY (R288). -/
  | cpcopy (a : BitVec 7) (b : BitVec 7) (c : BitVec 7)
  /-- MMA (R291). -/
  | mma (a : BitVec 7) (b : BitVec 7) (c : BitVec 7)
  /-- SMMA (R291). -/
  | smma (a : BitVec 7) (b : BitVec 7) (c : BitVec 7)
  /-- MZERO (R292). -/
  | mzero (a : BitVec 7)
  /-- MDRAIN (R293). -/
  | mdrain (a : BitVec 7) (c : BitVec 7)
  /-- RCFG (R289). -/
  | rcfg (a : BitVec 7) (b : BitVec 7)
  /-- RPUSH (R290). -/
  | rpush (a : BitVec 7) (b : BitVec 7) (c : BitVec 7)
  /-- RPOP (R290). -/
  | rpop (a : BitVec 7) (b : BitVec 7) (c : BitVec 7)
  /-- SHDEF (R333). -/
  | shdef (a : BitVec 7) (b : BitVec 7)
  /-- SHRET (R334). -/
  | shret (b : BitVec 7)
  /-- SHGET (R335). -/
  | shget (a : BitVec 7) (b : BitVec 7)
  /-- BLKMAP (R337). -/
  | blkmap (a : BitVec 7) (b : BitVec 7) (c : BitVec 7)
  /-- BLKREF (R338). -/
  | blkref (a : BitVec 7) (b : BitVec 7) (c : BitVec 7)
  /-- BLKFREE (R339). -/
  | blkfree (a : BitVec 7) (b : BitVec 7)
  /-- BLKMIG (R340). -/
  | blkmig (a : BitVec 7) (b : BitVec 7) (c : BitVec 7)
  /-- BLKST (R341). -/
  | blkst (a : BitVec 7) (b : BitVec 7)
  /-- TLBINV (R342). -/
  | tlbinv (b : BitVec 7) (c : BitVec 7)
  /-- IMPSET (R343). -/
  | impset (b : BitVec 7) (c : BitVec 7)
  /-- BCFG (R344). -/
  | bcfg (a : BitVec 7) (b : BitVec 7) (c : BitVec 7)
  /-- PTSET (R377). -/
  | ptset (d : BitVec 7) (a : BitVec 7) (b : BitVec 7)
  /-- KEYLD (R378). -/
  | keyld (d : BitVec 7) (a : BitVec 7) (b : BitVec 7)
  /-- QSCE (R379). -/
  | qsce (d : BitVec 7) (a : BitVec 7)
  /-- IMPW (R380). -/
  | impw (a : BitVec 7) (b : BitVec 7)
  /-- TSTOP (R380). -/
  | tstop (a : BitVec 7) (b : BitVec 7)
  /-- TRESUME (R380). -/
  | tresume (a : BitVec 7)
  /-- NOP (R111). -/
  | nop
  /-- HALT (R111). -/
  | halt
  /-- BRK (R111). -/
  | brk
  /-- YIELD (R111). -/
  | yield
  /-- WFM (R111). -/
  | wfm
  /-- RET (R124). -/
  | ret
  /-- DETACH (R22). -/
  | detach
  /-- RTI (R297). -/
  | rti
  /-- MIGRET (R301). -/
  | migret
  /-- TDONE (R305). -/
  | tdone
  /-- SYSRET (R380). -/
  | sysret
  /-- DUMP (R381). -/
  | dump
  /-- URESM_WRITE (R369). A supervisor write of 1 to URESM resumes the upcalled thread in UTSEL. -/
  | uresmWrite (sup : Nat)
  /-- CORECLK_WRITE (R392). A write of CORECLK changes a core's divider or power at its next pass over position 0. -/
  | coreclkWrite (core : Nat) (v : BitVec 64)
  /-- EVSEL_WRITE (R72). A write of EVSEL claims a free event counter for the writing launch and selects its source. -/
  | evselWrite (tid : Nat) (n : Nat) (v : BitVec 64)
  /-- WDOG_WRITE (R354). A write of WDOG sets the watchdog reload, applying from each timer's next restart. -/
  | wdogWrite (core : Nat) (v : BitVec 64)
  /-- LPC_WRITE (R121). A write of LPC0 or LPC1 changes the passes that remain of a loop level. -/
  | lpcWrite (tid : Nat) (lvl : Bool) (v : BitVec 64)
  /-- LAUNCH (R261). `hdr` of a command is its 16-byte header, with its TAG; `msg` is the whole message: the header, then the record (R384). A launch command enters its tenant's launch queue or is refused with a completion record. -/
  | launch (sess : Nat) (msg : BitVec 1152)
  /-- REGION_OPEN (R208). Opens a sparse region, taking grant 0 and making the root leaf. -/
  | regionOpen (sess : Nat) (hdr : BitVec 128) (body : BitVec 256)
  /-- REGION_CLOSE (R209). Requests the close of a sparse region. -/
  | regionClose (sess : Nat) (hdr : BitVec 128) (body : BitVec 64)
  /-- REGION_CLOSE_EFFECT (R209). The close takes effect once every operation already received has completed. -/
  | regionCloseEffect (g : Nat)
  /-- HOSTNOTE (R384). Writes a HOSTNOTE record into the tenant's fault notification queue. -/
  | hostnote (sess : Nat) (hdr : BitVec 128) (body : BitVec 192)
  /-- BLOCKS_ADD (R384). Checks, zeroes and pushes blocks onto a tenant's free list. -/
  | blocksAdd (sess : Nat) (hdr : BitVec 128) (head : BitVec 64) (blocks : List (BitVec 32))
  /-- CHECKPOINT (R395). Sends every populated memory line to storage targets, quiesced or live. -/
  | checkpoint (tag : BitVec 64) (live : Bool) (targets : List Nat)
  /-- CHECKPOINT_REPLY (R395). Replies to the host once the last target has acknowledged the last line. -/
  | checkpointReply
  /-- ATTESTATION_REPORT (R390). Returns a signed report of firmware and device-record digests with the host nonce. -/
  | attestationReport (nonce : BitVec 256)
  /-- EXPORT (R387). Management configures or revokes an export granting a remote address access to a range. -/
  | exportCfg (x : Nat) (valid : Bool) (remote : Nat) (tenant : Nat) (base : Nat) (units : Nat) (perm : BitVec 3) (key : Nat)
  /-- PEER_WINDOW (R388). Management configures a peer window mapping a remote export. -/
  | peerWindow (p : Nat) (valid : Bool) (tenant : Nat) (dest : Nat) (remote : RemoteExport)
  /-- TENANT_TABLE_CHANGE (R329). Firmware changes or removes a tenant-table entry on a host management command. -/
  | tenantTableChange (tenant : Nat) (entry : BitVec 512)
  /-- PROOFING_CLEAR (R358). The host reads or clears the proofing totals and bins over management. -/
  | proofingClear (die : Nat) (tenant : Option Nat)
  /-- EXPORT_ACCESS (R387). An access arriving through an export is performed at home or refused. -/
  | exportAccess (x : Nat) (remote : Nat) (off : Nat) (op : Nat) (size : Nat) (data : BitVec 512)
  /-- PEER_PLACEMENT (R203). A peer acknowledges placement of a peer write. -/
  | peerPlacement (id : Nat)
  /-- POWER_ON (R389). Boot ROM verifies firmware and device record and starts the management processor, or enters recovery. -/
  | powerOn (image : Nat) (imageOk : Bool) (record : DeviceRecord) (recordOk : Bool)
  /-- DEVICE_RESET (R381). A reset from the host restarts the device after a dump. -/
  | deviceReset
  /-- POWER_CEILING (R391). Draw above 3,200 W for more than 1 ms forces every row to its lowest voltage step. -/
  | powerCeiling
  /-- THERMAL_TRIP (R391). A trusted row reading at the trip limit stops the clocks and performs the fatal dump. -/
  | thermalTrip (die : Nat) (row : Nat)
  /-- SENSOR_UNTRUSTED (R394). A sensor becomes untrusted and the row's temperature source changes. -/
  | sensorUntrusted (die : Nat) (row : Nat) (reading : SensorReading)
  /-- SENSOR_TRUSTED (R394). A sensor becomes trusted again after 1 s without an untrusted condition. -/
  | sensorTrusted (die : Nat) (row : Nat) (reading : SensorReading)
  /-- VOLTAGE_STEP (R392). The power controller holds a row and changes its voltage. -/
  | voltageStep (die : Nat) (row : Nat) (step : Nat)
  /-- CLOCK_HOP (R392). A row clock hop takes effect at the next pass over position 0. -/
  | clockHop (die : Nat) (row : Nat) (step : Nat)
  /-- DROOP (R393). The droop detector freezes a hop on the slower clock until it clears. -/
  | droop (die : Nat) (row : Nat) (fires : Bool)
  /-- POWER_BUBBLE (R326). The power controller sets or clears PB on positions, keeping one per live thread. -/
  | powerBubble (core : Nat) (p : Nat) (set : Bool)
  /-- LAUNCH_SELECT (R262). The launch unit takes the next launch by class and deficit round robin. -/
  | launchSelect
  /-- PLACEMENT (R264). Places a taken launch: snapshot, grants, positions and root tasks on run lists. -/
  | placement
  /-- FORME_CREATION (R267). The scheduler forms the oldest task of a launch on a span of cores. -/
  | formeCreation (core : Nat) (launch : Nat)
  /-- TERMINATION_SWEEP (R28). A reduction sweep tests every core idle for the launch and compares message totals. -/
  | terminationSweep (launch : Nat)
  /-- PRE_EMPTION (R372). Releases, saves control words and frees the positions of a forme's threads. -/
  | preEmption (forme : Nat)
  /-- RESTORE (R374). Restores a pre-empted forme or thread and acquires before it issues. -/
  | restore (forme : Nat)
  /-- BANK_CLAIM (R76). Evicts other contexts from a register bank and loads the thread's entries. -/
  | bankClaim (tid : Nat) (second : Bool)
  /-- MESSAGE_ARRIVAL (R269). An arriving message is dropped, discarded on overflow, or appended to the mailbox. -/
  | messageArrival (id : Nat)
  /-- MAILBOX_OVERFLOW (R269). The thread takes MAILBOX_OVERFLOW at its next boundary after a discard. -/
  | mailboxOverflow (tid : Nat)
  /-- HANDLER_ENTRY (R270). Enters the message handler with the oldest message at an instruction boundary. -/
  | handlerEntry (tid : Nat)
  /-- DEPOSIT_ARRIVAL (R64). A deposit lands in an armed register, or is dropped or refused. -/
  | depositArrival (id : Nat)
  /-- DECREMENT (R266). A decrement lowers a dependence counter and places the task at zero. -/
  | decrement (id : Nat)
  /-- GUEST_ADMISSION (R272). Admits the oldest admissible migrant into a guest slot. -/
  | guestAdmission (core : Nat)
  /-- COPY_COMMAND_START (R246). The copy engine starts work on a command by weighted round robin. -/
  | copyCommandStart (core : Nat)
  /-- COPY_COMMAND_COMPLETE (R201). A copy command's writes are performed and its timeline advances. -/
  | copyCommandComplete (core : Nat) (id : Nat)
  /-- ENGINE_FAILED (R247). A failing command stops, discards later commands and posts ENGINE_FAILED. -/
  | engineFailed (core : Nat) (id : Nat) (cause : Nat)
  /-- TILE_GRANT (R252). The matrix arbiter grants one ready tile operation to a core with credit. -/
  | tileGrant (cluster : Nat)
  /-- TILE_RETIREMENT (R251). A tile operation's products reach the accumulator and its ring slots pop. -/
  | tileRetirement (core : Nat) (id : Nat)
  /-- DRAIN_TURN (R254). At its turn a drain copies its accumulator into a free drain buffer. -/
  | drainTurn (core : Nat) (id : Nat)
  /-- DRAIN_COMPLETE (R254). A drain's writes are performed and the buffer is freed. -/
  | drainComplete (core : Nat) (id : Nat)
  /-- ORDERED_ENTRY_COMPLETION (R105). When all slices are present, the ordered-reduction buffer sums them into memory. -/
  | orderedEntryCompletion (die : Nat) (launch : Nat) (addr : Nat)
  /-- TAKE (R255). The block engine takes a free block for a queued entry and sets write-block. -/
  | take (die : Nat)
  /-- REMAP (R204). After the last line is copied, the entry points to the new block and held writes apply. -/
  | remap (die : Nat) (id : Nat)
  /-- RELEASE (R255). Returns the old block or lowers the shared count once earlier reads complete. -/
  | release (die : Nat) (id : Nat)
  /-- BLOCK_RETURN (R256). A block waiting for room joins its recorded die's free list. -/
  | blockReturn (block : Nat)
  /-- BLOCK_BUSY (R179). A write held beyond BBWIN is withdrawn and becomes a BLOCK_BUSY upcall. -/
  | blockBusy (tid : Nat)
  /-- NOTIFICATION_RECORD (R258). A producer writes a record into a notification queue when it has room. -/
  | notificationRecord (tenant : Nat)
  /-- ROUTING_ADMISSION (R276). At close the root admits tokens to experts and computes their weights. -/
  | routingAdmission (b : Nat)
  /-- REGION_POINT (R217). The region controller applies an operation at its point and replies. -/
  | regionPoint (core : Nat) (id : Nat)
  /-- LOAD_DATA_RETURN (R229). A load's data lands and its later instructions may commit. -/
  | loadDataReturn (tid : Nat) (id : Nat)
  /-- STORE_ACKNOWLEDGEMENT (R162). A home applies a write, acknowledges it and sends RDC invalidations. -/
  | storeAcknowledgement (id : Nat)
  /-- INVALIDATION_COMPLETE (R162). The home reports that a write's RDC invalidations have completed. -/
  | invalidationComplete (id : Nat)
  /-- DIRTY_LOG_MERGE (R181). The cluster agent merges a dirty log into the page-table dirty bits. -/
  | dirtyLogMerge (core : Nat)
  /-- MARGIN_RECORD (R183). A site record is applied to the live margin at its L2 home. -/
  | marginRecord (id : Nat)
  /-- UPCALL_RUN (R368). The supervisor slot starts a run for the oldest supervisor entry. -/
  | upcallRun (core : Nat) (tenant : Nat)
  /-- MACHINE_ENTRY (R375). The machine slot starts a run for a machine-level entry. -/
  | machineEntry (core : Nat)
  /-- BREAKPOINT (R376). A breakpoint match stops the thread and makes a machine entry. -/
  | breakpoint (tid : Nat)
  /-- FATAL_ERROR (R381). An uncorrectable error in a system table or firmware memory triggers the fatal dump. -/
  | fatalError (core : Nat) (slot : Nat) (cause : Nat)
  /-- WATCHDOG (R354). A thread's watchdog runs out and the thread takes WATCHDOG. -/
  | watchdog (tid : Nat)
  /-- YIELD_EXPIRY (R111). 64 cycles after a yield the thread is ready again. -/
  | yieldExpiry (tid : Nat)
  /-- MASK_BOUND_EXPIRY (R296). The masked section's count reaches zero and MSKD clears. -/
  | maskBoundExpiry (tid : Nat)
  /-- STATE_CHANGE_PASS (R355). Each 64-cycle pass evaluates the core state and logs a change or KEEP entry. -/
  | stateChangePass (core : Nat)
  /-- LOG_DRAIN (R356). The proofing engine reads state-change log entries into its totals. -/
  | logDrain (core : Nat)
  /-- PROOFING_SAMPLE (R357). Once per sampling period the proofing engine samples a core's position into a bin. -/
  | proofingSample (core : Nat)
  /-- BARREL_ISSUE (R17). Each core clock cycle advances the imposition table one position and issues, backfills or gates it, attributing the cycle to a cause. -/
  | barrelIssue (core : Nat)
  /-- RESERVED_WORD (R55). Executing a word that R55 marks reserved raises ILLEGAL_INSTRUCTION precisely. -/
  | reservedWord (x : Option (BitVec 26)) (w : BitVec 32)
  /-- TRANSLATION_WALK (R165). A die walker's walk completes, filling the TLBs or raising PAGE_FAULT or ACCESS_FAULT. -/
  | translationWalk (id : Nat)
  /-- RDC_INVALIDATION (R162). A home's invalidation reaches a die's RDC and removes the stale copy of the line. -/
  | rdcInvalidation (die : Nat) (line : Nat)
  /-- FRAME_ZEROED (R166). The memory controllers finish zeroing a line mapped with ZERO, releasing the accesses that wait on it. -/
  | frameZeroed (line : Nat)
  /-- MIGRET_ARRIVAL (R301). A returning thread's context arrives at its held home slot and resumes there with an acquire. -/
  | migretArrival (id : Nat)
  /-- UNCORRECTABLE_ERROR (R169). A line of memory or SRAM acquires an uncorrectable error, marking it so that its consumer takes DATA_LOST. -/
  | uncorrectableError (line : Nat)
  /-- POWER_CEILING_LIFTED (R391). Module draw falls below 3,000 W and the rows are released from their forced lowest voltage step. -/
  | powerCeilingLifted
  /-- POWER_OFF (R186). Power is removed from the module, ending the contents of the dump region and all device state. -/
  | powerOff
  /-- RECOVERY_IMAGE (R389). In recovery, the management endpoint of port 0 accepts a new signed firmware image and device record. -/
  | recoveryImage (image : Signed Nat) (record : Signed DeviceRecord)
  /-- SESSION_SETUP (R383). A session is set up, bound to one remote fabric address and a tenant set, or refused for unsupported features. -/
  | sessionSetup (sess : Nat) (remote : Nat) (endpoint : Nat) (tenants : List Nat) (offer : Offer)
  /-- CHECKPOINT_RESUME (R395). The host resumes over management the launches left pre-empted by a QUIESCED checkpoint. -/
  | checkpointResume
  /-- DIE_EVENT_COUNTER_WRITE (R353). Machine level or the host writes a die event counter's selector or value. -/
  | dieEventCounterWrite (die : Nat) (n : Nat) (sel : BitVec 16) (v : BitVec 64)
  /-- PROOFING_SETTINGS (R357). The host sets the proofing sampling period and bucket shift over management. -/
  | proofingSettings (n : Nat) (shift : Nat)
  deriving DecidableEq, Repr

end Sys2Proof
end

