-- ==== Sys2Proof/Word.lean ====
section
/-! DEFINITION. Sys2Proof/Word.lean: the word types of the device (R4, R57) and their plainest arithmetic. -/

namespace Sys2Proof

/-- One byte of memory. -/
abbrev Byte := BitVec 8
/-- An instruction word (R43). -/
abbrev Word := BitVec 32
/-- A scalar value, an address or a control register: bits 63:0 of a register (R57). -/
abbrev Dword := BitVec 64
/-- A mask register (R67). -/
abbrev Mask := BitVec 128
/-- A vector register or a 64-byte line (R59, R159). -/
abbrev Vec := BitVec 512

end Sys2Proof
end

