-- ==== Sys2Proof/Machine/Fields.lean ====
section
/-! DEFINITION. Sys2Proof/Machine/Fields.lean: bit fields of words, and the values that the fields of an instruction
may hold (R35, R45, R51, R53, R55). -/

namespace Sys2Proof.Machine

/-- The `n` bits of `w` that start at bit `lo` (R2), as a number. -/
def field (w lo n : Nat) : Nat := w / 2 ^ lo % 2 ^ n

/-- Bits `hi:lo` of a bit vector, as a bit vector of the width `n` asked for. -/
def bits {m : Nat} (w : BitVec m) (lo n : Nat) : BitVec n := BitVec.ofNat n (w.toNat / 2 ^ lo)

/-- Bits of a bit vector, as a number. -/
def nbits {m : Nat} (w : BitVec m) (lo n : Nat) : Nat := w.toNat / 2 ^ lo % 2 ^ n

/-- `w` with `n` bits from `lo` replaced by the low bits of `v`. -/
def setBits {m : Nat} (w : BitVec m) (lo n v : Nat) : BitVec m :=
  BitVec.ofNat m (w.toNat - field w.toNat lo n * 2 ^ lo + v % 2 ^ n * 2 ^ lo)

/-- The low `w` bits of `x`, sign-extended to 64 bits (R57). -/
def sextTo (x w : Nat) : Dword :=
  let v := x % 2 ^ w
  if w = 0 then 0 else if v < 2 ^ (w - 1) then BitVec.ofNat 64 v else BitVec.ofInt 64 ((v : Int) - 2 ^ w)

/-- The low `w` bits of `x`, zero-extended to 64 bits (R57). -/
def zextTo (x w : Nat) : Dword := BitVec.ofNat 64 (x % 2 ^ w)

/-- The low `w` bits of `x` as a two's complement number. -/
def signedOf (x w : Nat) : Int :=
  let v := x % 2 ^ w
  if w ≠ 0 ∧ 2 ^ (w - 1) ≤ v then (v : Int) - 2 ^ w else v

/-- An integer taken modulo 2^w. -/
def wrap (x : Int) (w : Nat) : Nat := (x % (2 ^ w : Int)).toNat

/-- The control register numbers that "Registers" assigns (R71, R74). -/
def ctlAssigned (n : Nat) : Bool :=
  n ≤ 0x008 || (0x010 ≤ n && n ≤ 0x012) || (0x018 ≤ n && n ≤ 0x01B) || (0x020 ≤ n && n ≤ 0x026) ||
  (0x030 ≤ n && n ≤ 0x032) || (0x040 ≤ n && n ≤ 0x043) || n == 0x050 || n == 0x051 || n == 0x060 ||
  n == 0x100 || n == 0x101 || (0x108 ≤ n && n ≤ 0x11A) ||
  (0x200 ≤ n && n ≤ 0x205) || (0x208 ≤ n && n ≤ 0x20D) || n == 0x210 ||
  n == 0x300 || n == 0x301 || (0x308 ≤ n && n ≤ 0x30F) || n == 0x320 || n == 0x330

/-- A scope code names a scope (R53). -/
def scopeOk (c : BitVec 3) : Bool := c.toNat ≤ 5
/-- LD's size codes (R45). -/
def loadSizeOk (s : BitVec 3) : Bool := s.toNat ≤ 6
/-- ST's size codes (R45). -/
def storeSizeOk (s : BitVec 3) : Bool := s.toNat ≤ 3
/-- A floating-point lane format (R51, VF). -/
def fmtOk (f : BitVec 2) : Bool := f.toNat ≤ 2
/-- A rounding override (R35). -/
def roundOk (r : BitVec 3) : Bool := r.toNat ≤ 5
/-- A barrier id (R51). -/
def barrierOk (i : BitVec 7) : Bool := i.toNat ≤ 39
/-- A width code of sext and zext (R113). -/
def widthOk (w : BitVec 7) : Bool := w.toNat ≤ 2
/-- A condition of kcmp (R119). -/
def condOk (c : BitVec 3) : Bool := c.toNat ≤ 5
/-- A bound of msk (R296). -/
def maskBoundOk (n : BitVec 7) : Bool := n.toNat ≤ 64
/-- A variant count of pick (R51). -/
def variantOk (n : BitVec 5) : Bool := n.toNat ≤ 3
/-- A field number of mread (R130). -/
def marginFieldOk (f : BitVec 5) : Bool := f.toNat ≤ 12
/-- A device core number. -/
def coreOk (c : Nat) : Bool := c < 512
/-- A die number. -/
def dieOk (d : Nat) : Bool := d < 4
/-- A thread slot of the device: 64 slots on each of 512 cores. -/
def tidOk (t : Nat) : Bool := t < 32768
/-- A tenant id. -/
def tenantOk (t : Nat) : Bool := t < 64

end Sys2Proof.Machine
end

