-- ==== Sys2Proof/WellFormed.lean ====
section
/-! DEFINITION. Sys2Proof/WellFormed.lean: which terms of Instr are instructions: every field holds a value that R51
does not reserve, and an event names a core, slot, die or tenant that the device has. -/

namespace Sys2Proof

open Sys2Proof.Machine

/-- Every field holds a value the spec gives a meaning (R55). -/
def Instr.wf : Instr → Bool
  | .nop => true
  | .halt => true
  | .trap _ => true
  | .brk => true
  | .yield => true
  | .wfm => true
  | .add _ _ _ => true
  | .sub _ _ _ => true
  | .mul _ _ _ => true
  | .mulh _ _ _ => true
  | .mulhn _ _ _ => true
  | .div _ _ _ => true
  | .divn _ _ _ => true
  | .rem _ _ _ => true
  | .remn _ _ _ => true
  | .and _ _ _ => true
  | .or _ _ _ => true
  | .xor _ _ _ => true
  | .andn _ _ _ => true
  | .shl _ _ _ => true
  | .shr _ _ _ => true
  | .sra _ _ _ => true
  | .rotr _ _ _ => true
  | .min _ _ _ => true
  | .max _ _ _ => true
  | .minn _ _ _ => true
  | .maxn _ _ _ => true
  | .cmpeq _ _ _ => true
  | .cmplt _ _ _ => true
  | .cmpltn _ _ _ => true
  | .clz _ _ => true
  | .ctz _ _ => true
  | .popc _ _ => true
  | .sext _ _ w => widthOk w
  | .zext _ _ w => widthOk w
  | .addi _ _ _ => true
  | .andi _ _ _ => true
  | .ori _ _ _ => true
  | .xori _ _ _ => true
  | .shli _ _ _ => true
  | .shri _ _ _ => true
  | .srai _ _ _ => true
  | .roti _ _ _ => true
  | .seqi _ _ _ => true
  | .slti _ _ _ => true
  | .sltni _ _ _ => true
  | .movi _ _ => true
  | .movk _ _ _ => true
  | .sel _ _ _ _ => true
  | .kcmp _ _ _ c => condOk c
  | .kand _ _ _ => true
  | .kor _ _ _ => true
  | .kxor _ _ _ => true
  | .kandn _ _ _ => true
  | .knot _ _ => true
  | .kmov _ _ => true
  | .vtok _ _ => true
  | .ktov _ _ => true
  | .kpopc _ _ => true
  | .vmask _ _ _ => true
  | .kfirst _ _ => true
  | .ctlr _ n => ctlAssigned n.toNat
  | .ctlw _ n => ctlAssigned n.toNat
  | .ctls _ n => ctlAssigned n.toNat
  | .ctlc _ n => ctlAssigned n.toNat
  | .ext _ _ => true
  | .bt _ _ => true
  | .bf k _ => k != 0
  | .jmp _ => true
  | .call _ => true
  | .jr _ => true
  | .callr _ => true
  | .ret => true
  | .loopi _ _ e => e != 0
  | .loop _ _ e => e != 0
  | .rpt _ _ _ _ _ => true
  | .detach => true
  | .join _ => true
  | .fstat _ => true
  | .fidx _ => true
  | .pick _ n _ => variantOk n
  | .mread _ f _ => marginFieldOk f
  | .mnote _ => true
  | .wait _ _ _ _ => true
  | .tlwait _ _ => true
  | .tlread _ _ => true
  | .tlnext _ _ => true
  | .arrive _ i => barrierOk i
  | .await _ i => barrierOk i
  | .arwt _ i => barrierOk i
  | .bstat _ i => barrierOk i
  | .send _ _ _ => true
  | .rcv _ => true
  | .msk n => maskBoundOk n
  | .rti => true
  | .dep _ _ _ => true
  | .arm _ => true
  | .probe _ => true
  | .mig _ => true
  | .migret => true
  | .migst _ _ => true
  | .spawn _ _ _ => true
  | .dec _ => true
  | .tdone => true
  | .tself _ => true
  | .rtopen _ _ => true
  | .rtsub _ _ _ => true
  | .rtclose _ _ => true
  | .rtget _ _ _ => true
  | .rtstat _ _ => true
  | .vadd _ _ _ _ => true
  | .vsub _ _ _ _ => true
  | .vmul _ _ _ _ => true
  | .vmac _ _ _ _ => true
  | .vmin _ _ _ _ => true
  | .vmax _ _ _ _ => true
  | .vminn _ _ _ _ => true
  | .vmaxn _ _ _ _ => true
  | .vand _ _ _ _ => true
  | .vor _ _ _ _ => true
  | .vxor _ _ _ _ => true
  | .vandn _ _ _ _ => true
  | .vshl _ _ _ _ => true
  | .vshr _ _ _ _ => true
  | .vsra _ _ _ _ => true
  | .vpopc _ _ _ => true
  | .vceq _ _ _ _ => true
  | .vcne _ _ _ _ => true
  | .vclt _ _ _ _ => true
  | .vcge _ _ _ _ => true
  | .vcltn _ _ _ _ => true
  | .vcgen _ _ _ _ => true
  | .vfadd _ _ _ f => fmtOk f
  | .vfsub _ _ _ f => fmtOk f
  | .vfmul _ _ _ f => fmtOk f
  | .vfma _ _ _ f => fmtOk f
  | .vfmin _ _ _ f => fmtOk f
  | .vfmax _ _ _ f => fmtOk f
  | .vfdiv _ _ _ f => fmtOk f
  | .vfsqrt _ _ f => fmtOk f
  | .vfrcp _ _ f => fmtOk f
  | .vfrsq _ _ f => fmtOk f
  | .vfexp2 _ _ f => fmtOk f
  | .vflog2 _ _ f => fmtOk f
  | .vfabs _ _ f => fmtOk f
  | .vfneg _ _ f => fmtOk f
  | .vfclt _ _ _ f => fmtOk f
  | .vfceq _ _ _ f => fmtOk f
  | .cvtBf16F32 _ _ _ r => roundOk r
  | .cvtF16F32 _ _ _ r => roundOk r
  | .cvtF32Bf16 _ _ _ r => roundOk r
  | .cvtF32F16 _ _ _ r => roundOk r
  | .cvtE4m3F32 _ _ _ r => roundOk r
  | .cvtE5m2F32 _ _ _ r => roundOk r
  | .cvtF32E4m3 _ _ _ r => roundOk r
  | .cvtF32E5m2 _ _ _ r => roundOk r
  | .cvtI32F32 _ _ _ r => roundOk r
  | .cvtF32I32 _ _ _ r => roundOk r
  | .cvtI8I32 _ _ _ r => roundOk r
  | .cvtI32I8 _ _ _ r => roundOk r
  | .q4pack _ _ _ r _ => roundOk r
  | .q4unpk _ _ _ r => roundOk r
  | .vrsum _ _ _ => true
  | .vrmax _ _ _ => true
  | .vrmin _ _ _ => true
  | .vrarg _ _ _ => true
  | .vrdot _ _ _ _ => true
  | .vsplat _ _ _ => true
  | .vshuf _ _ _ _ => true
  | .vslup _ _ _ _ => true
  | .vsldn _ _ _ _ => true
  | .vcomp _ _ _ => true
  | .vexpd _ _ _ => true
  | .vzip _ _ _ _ => true
  | .vunzip _ _ _ _ => true
  | .ixdot _ _ _ => true
  | .bmpfx _ _ => true
  | .ixcnt _ _ _ => true
  | .vtopk _ _ _ => true
  | .vsort _ _ => true
  | .vmrg _ _ _ => true
  | .ld _ _ s _ => loadSizeOk s
  | .st _ _ s _ => storeSizeOk s
  | .vld _ _ _ => true
  | .vst _ _ _ => true
  | .ldx _ _ _ s _ => loadSizeOk s
  | .stx _ _ _ s _ => storeSizeOk s
  | .atomSwap _ _ _ _ => true
  | .atomAdd _ _ _ _ => true
  | .atomAnd _ _ _ _ => true
  | .atomOr _ _ _ _ => true
  | .atomXor _ _ _ _ => true
  | .atomMin _ _ _ _ => true
  | .atomMax _ _ _ _ => true
  | .atomMinn _ _ _ _ => true
  | .atomMaxn _ _ _ _ => true
  | .atomCas _ _ _ _ => true
  | .atomFaddF32 _ _ _ => true
  | .atomFaddBf16 _ _ _ => true
  | .atomoSwap _ _ _ _ => true
  | .atomoAdd _ _ _ _ => true
  | .atomoAnd _ _ _ _ => true
  | .atomoOr _ _ _ _ => true
  | .atomoXor _ _ _ _ => true
  | .atomoMin _ _ _ _ => true
  | .atomoMax _ _ _ _ => true
  | .atomoMinn _ _ _ _ => true
  | .atomoMaxn _ _ _ _ => true
  | .atomoCas _ _ _ _ => true
  | .atomoFaddF32 _ _ _ => true
  | .atomoFaddBf16 _ _ _ => true
  | .lda _ _ s c _ => loadSizeOk s && scopeOk c
  | .stl _ _ s c _ => storeSizeOk s && scopeOk c
  | .fenceAcq c => scopeOk c
  | .fenceRel c => scopeOk c
  | .fenceFull c => scopeOk c
  | .fenceWb c => scopeOk c
  | .sld _ _ _ => true
  | .sst _ _ _ => true
  | .sadd _ _ _ => true
  | .scan _ _ _ _ => true
  | .scnt _ _ => true
  | .pref _ _ => true
  | .prefl2 _ _ => true
  | .l1inv _ _ => true
  | .zline _ _ => true
  | .cpld _ _ => true
  | .cpst _ _ => true
  | .cpadd _ _ _ => true
  | .cpgat _ _ _ => true
  | .cpsca _ _ _ => true
  | .kvld _ _ => true
  | .dens _ _ _ => true
  | .cpfill _ _ => true
  | .cpcopy _ _ _ => true
  | .mma _ _ _ => true
  | .smma _ _ _ => true
  | .mzero _ => true
  | .mdrain _ _ => true
  | .rcfg _ _ => true
  | .rpush _ _ _ => true
  | .rpop _ _ _ => true
  | .shdef _ _ => true
  | .shret _ => true
  | .shget _ _ => true
  | .blkmap _ _ _ => true
  | .blkref _ _ _ => true
  | .blkfree _ _ => true
  | .blkmig _ _ _ => true
  | .blkst _ _ => true
  | .tlbinv _ _ => true
  | .impset _ _ => true
  | .bcfg _ _ _ => true
  | .ptset _ _ _ => true
  | .keyld _ _ _ => true
  | .sysret => true
  | .dump => true
  | .qsce _ _ => true
  | .impw _ _ => true
  | .tstop _ _ => true
  | .tresume _ => true
  | .uresmWrite sup => tidOk sup
  | .coreclkWrite core _ => coreOk core
  | .evselWrite tid _ _ => tidOk tid
  | .wdogWrite core _ => coreOk core
  | .lpcWrite tid _ _ => tidOk tid
  | .launch _ _ => true
  | .regionOpen _ _ _ => true
  | .regionClose _ _ _ => true
  | .regionCloseEffect _ => true
  | .hostnote _ _ _ => true
  | .blocksAdd _ _ _ _ => true
  | .checkpoint _ _ _ => true
  | .checkpointReply => true
  | .attestationReport _ => true
  | .exportCfg _ _ _ tenant _ _ _ _ => tenantOk tenant
  | .peerWindow _ _ tenant _ _ => tenantOk tenant
  | .tenantTableChange tenant _ => tenantOk tenant
  | .proofingClear die _ => dieOk die
  | .exportAccess _ _ _ _ _ _ => true
  | .peerPlacement _ => true
  | .powerOn _ _ _ _ => true
  | .deviceReset => true
  | .powerCeiling => true
  | .thermalTrip die _ => dieOk die
  | .sensorUntrusted die _ _ => dieOk die
  | .sensorTrusted die _ _ => dieOk die
  | .voltageStep die _ _ => dieOk die
  | .clockHop die _ _ => dieOk die
  | .droop die _ _ => dieOk die
  | .powerBubble core _ _ => coreOk core
  | .launchSelect => true
  | .placement => true
  | .formeCreation core _ => coreOk core
  | .terminationSweep _ => true
  | .preEmption _ => true
  | .restore _ => true
  | .bankClaim tid _ => tidOk tid
  | .messageArrival _ => true
  | .mailboxOverflow tid => tidOk tid
  | .handlerEntry tid => tidOk tid
  | .depositArrival _ => true
  | .decrement _ => true
  | .guestAdmission core => coreOk core
  | .copyCommandStart core => coreOk core
  | .copyCommandComplete core _ => coreOk core
  | .engineFailed core _ _ => coreOk core
  | .tileGrant _ => true
  | .tileRetirement core _ => coreOk core
  | .drainTurn core _ => coreOk core
  | .drainComplete core _ => coreOk core
  | .orderedEntryCompletion die _ _ => dieOk die
  | .take die => dieOk die
  | .remap die _ => dieOk die
  | .release die _ => dieOk die
  | .blockReturn _ => true
  | .blockBusy tid => tidOk tid
  | .notificationRecord tenant => tenantOk tenant
  | .routingAdmission _ => true
  | .regionPoint core _ => coreOk core
  | .loadDataReturn tid _ => tidOk tid
  | .storeAcknowledgement _ => true
  | .invalidationComplete _ => true
  | .dirtyLogMerge core => coreOk core
  | .marginRecord _ => true
  | .upcallRun core tenant => coreOk core && tenantOk tenant
  | .machineEntry core => coreOk core
  | .breakpoint tid => tidOk tid
  | .fatalError core _ _ => coreOk core
  | .watchdog tid => tidOk tid
  | .yieldExpiry tid => tidOk tid
  | .maskBoundExpiry tid => tidOk tid
  | .stateChangePass core => coreOk core
  | .logDrain core => coreOk core
  | .proofingSample core => coreOk core
  | .barrelIssue core => coreOk core
  | .reservedWord _ _ => true
  | .translationWalk _ => true
  | .rdcInvalidation die _ => dieOk die
  | .frameZeroed _ => true
  | .migretArrival _ => true
  | .uncorrectableError _ => true
  | .powerCeilingLifted => true
  | .powerOff => true
  | .recoveryImage _ _ => true
  | .sessionSetup _ _ _ _ _ => true
  | .checkpointResume => true
  | .dieEventCounterWrite die _ _ _ => dieOk die
  | .proofingSettings _ _ => true

/-- The rows that have an encoding: the instructions proper. -/
def Instr.encodable : Instr → Bool
  | .nop => true
  | .halt => true
  | .trap _ => true
  | .brk => true
  | .yield => true
  | .wfm => true
  | .add _ _ _ => true
  | .sub _ _ _ => true
  | .mul _ _ _ => true
  | .mulh _ _ _ => true
  | .mulhn _ _ _ => true
  | .div _ _ _ => true
  | .divn _ _ _ => true
  | .rem _ _ _ => true
  | .remn _ _ _ => true
  | .and _ _ _ => true
  | .or _ _ _ => true
  | .xor _ _ _ => true
  | .andn _ _ _ => true
  | .shl _ _ _ => true
  | .shr _ _ _ => true
  | .sra _ _ _ => true
  | .rotr _ _ _ => true
  | .min _ _ _ => true
  | .max _ _ _ => true
  | .minn _ _ _ => true
  | .maxn _ _ _ => true
  | .cmpeq _ _ _ => true
  | .cmplt _ _ _ => true
  | .cmpltn _ _ _ => true
  | .clz _ _ => true
  | .ctz _ _ => true
  | .popc _ _ => true
  | .sext _ _ _ => true
  | .zext _ _ _ => true
  | .addi _ _ _ => true
  | .andi _ _ _ => true
  | .ori _ _ _ => true
  | .xori _ _ _ => true
  | .shli _ _ _ => true
  | .shri _ _ _ => true
  | .srai _ _ _ => true
  | .roti _ _ _ => true
  | .seqi _ _ _ => true
  | .slti _ _ _ => true
  | .sltni _ _ _ => true
  | .movi _ _ => true
  | .movk _ _ _ => true
  | .sel _ _ _ _ => true
  | .kcmp _ _ _ _ => true
  | .kand _ _ _ => true
  | .kor _ _ _ => true
  | .kxor _ _ _ => true
  | .kandn _ _ _ => true
  | .knot _ _ => true
  | .kmov _ _ => true
  | .vtok _ _ => true
  | .ktov _ _ => true
  | .kpopc _ _ => true
  | .vmask _ _ _ => true
  | .kfirst _ _ => true
  | .ctlr _ _ => true
  | .ctlw _ _ => true
  | .ctls _ _ => true
  | .ctlc _ _ => true
  | .ext _ _ => true
  | .bt _ _ => true
  | .bf _ _ => true
  | .jmp _ => true
  | .call _ => true
  | .jr _ => true
  | .callr _ => true
  | .ret => true
  | .loopi _ _ _ => true
  | .loop _ _ _ => true
  | .rpt _ _ _ _ _ => true
  | .detach => true
  | .join _ => true
  | .fstat _ => true
  | .fidx _ => true
  | .pick _ _ _ => true
  | .mread _ _ _ => true
  | .mnote _ => true
  | .wait _ _ _ _ => true
  | .tlwait _ _ => true
  | .tlread _ _ => true
  | .tlnext _ _ => true
  | .arrive _ _ => true
  | .await _ _ => true
  | .arwt _ _ => true
  | .bstat _ _ => true
  | .send _ _ _ => true
  | .rcv _ => true
  | .msk _ => true
  | .rti => true
  | .dep _ _ _ => true
  | .arm _ => true
  | .probe _ => true
  | .mig _ => true
  | .migret => true
  | .migst _ _ => true
  | .spawn _ _ _ => true
  | .dec _ => true
  | .tdone => true
  | .tself _ => true
  | .rtopen _ _ => true
  | .rtsub _ _ _ => true
  | .rtclose _ _ => true
  | .rtget _ _ _ => true
  | .rtstat _ _ => true
  | .vadd _ _ _ _ => true
  | .vsub _ _ _ _ => true
  | .vmul _ _ _ _ => true
  | .vmac _ _ _ _ => true
  | .vmin _ _ _ _ => true
  | .vmax _ _ _ _ => true
  | .vminn _ _ _ _ => true
  | .vmaxn _ _ _ _ => true
  | .vand _ _ _ _ => true
  | .vor _ _ _ _ => true
  | .vxor _ _ _ _ => true
  | .vandn _ _ _ _ => true
  | .vshl _ _ _ _ => true
  | .vshr _ _ _ _ => true
  | .vsra _ _ _ _ => true
  | .vpopc _ _ _ => true
  | .vceq _ _ _ _ => true
  | .vcne _ _ _ _ => true
  | .vclt _ _ _ _ => true
  | .vcge _ _ _ _ => true
  | .vcltn _ _ _ _ => true
  | .vcgen _ _ _ _ => true
  | .vfadd _ _ _ _ => true
  | .vfsub _ _ _ _ => true
  | .vfmul _ _ _ _ => true
  | .vfma _ _ _ _ => true
  | .vfmin _ _ _ _ => true
  | .vfmax _ _ _ _ => true
  | .vfdiv _ _ _ _ => true
  | .vfsqrt _ _ _ => true
  | .vfrcp _ _ _ => true
  | .vfrsq _ _ _ => true
  | .vfexp2 _ _ _ => true
  | .vflog2 _ _ _ => true
  | .vfabs _ _ _ => true
  | .vfneg _ _ _ => true
  | .vfclt _ _ _ _ => true
  | .vfceq _ _ _ _ => true
  | .cvtBf16F32 _ _ _ _ => true
  | .cvtF16F32 _ _ _ _ => true
  | .cvtF32Bf16 _ _ _ _ => true
  | .cvtF32F16 _ _ _ _ => true
  | .cvtE4m3F32 _ _ _ _ => true
  | .cvtE5m2F32 _ _ _ _ => true
  | .cvtF32E4m3 _ _ _ _ => true
  | .cvtF32E5m2 _ _ _ _ => true
  | .cvtI32F32 _ _ _ _ => true
  | .cvtF32I32 _ _ _ _ => true
  | .cvtI8I32 _ _ _ _ => true
  | .cvtI32I8 _ _ _ _ => true
  | .q4pack _ _ _ _ _ => true
  | .q4unpk _ _ _ _ => true
  | .vrsum _ _ _ => true
  | .vrmax _ _ _ => true
  | .vrmin _ _ _ => true
  | .vrarg _ _ _ => true
  | .vrdot _ _ _ _ => true
  | .vsplat _ _ _ => true
  | .vshuf _ _ _ _ => true
  | .vslup _ _ _ _ => true
  | .vsldn _ _ _ _ => true
  | .vcomp _ _ _ => true
  | .vexpd _ _ _ => true
  | .vzip _ _ _ _ => true
  | .vunzip _ _ _ _ => true
  | .ixdot _ _ _ => true
  | .bmpfx _ _ => true
  | .ixcnt _ _ _ => true
  | .vtopk _ _ _ => true
  | .vsort _ _ => true
  | .vmrg _ _ _ => true
  | .ld _ _ _ _ => true
  | .st _ _ _ _ => true
  | .vld _ _ _ => true
  | .vst _ _ _ => true
  | .ldx _ _ _ _ _ => true
  | .stx _ _ _ _ _ => true
  | .atomSwap _ _ _ _ => true
  | .atomAdd _ _ _ _ => true
  | .atomAnd _ _ _ _ => true
  | .atomOr _ _ _ _ => true
  | .atomXor _ _ _ _ => true
  | .atomMin _ _ _ _ => true
  | .atomMax _ _ _ _ => true
  | .atomMinn _ _ _ _ => true
  | .atomMaxn _ _ _ _ => true
  | .atomCas _ _ _ _ => true
  | .atomFaddF32 _ _ _ => true
  | .atomFaddBf16 _ _ _ => true
  | .atomoSwap _ _ _ _ => true
  | .atomoAdd _ _ _ _ => true
  | .atomoAnd _ _ _ _ => true
  | .atomoOr _ _ _ _ => true
  | .atomoXor _ _ _ _ => true
  | .atomoMin _ _ _ _ => true
  | .atomoMax _ _ _ _ => true
  | .atomoMinn _ _ _ _ => true
  | .atomoMaxn _ _ _ _ => true
  | .atomoCas _ _ _ _ => true
  | .atomoFaddF32 _ _ _ => true
  | .atomoFaddBf16 _ _ _ => true
  | .lda _ _ _ _ _ => true
  | .stl _ _ _ _ _ => true
  | .fenceAcq _ => true
  | .fenceRel _ => true
  | .fenceFull _ => true
  | .fenceWb _ => true
  | .sld _ _ _ => true
  | .sst _ _ _ => true
  | .sadd _ _ _ => true
  | .scan _ _ _ _ => true
  | .scnt _ _ => true
  | .pref _ _ => true
  | .prefl2 _ _ => true
  | .l1inv _ _ => true
  | .zline _ _ => true
  | .cpld _ _ => true
  | .cpst _ _ => true
  | .cpadd _ _ _ => true
  | .cpgat _ _ _ => true
  | .cpsca _ _ _ => true
  | .kvld _ _ => true
  | .dens _ _ _ => true
  | .cpfill _ _ => true
  | .cpcopy _ _ _ => true
  | .mma _ _ _ => true
  | .smma _ _ _ => true
  | .mzero _ => true
  | .mdrain _ _ => true
  | .rcfg _ _ => true
  | .rpush _ _ _ => true
  | .rpop _ _ _ => true
  | .shdef _ _ => true
  | .shret _ => true
  | .shget _ _ => true
  | .blkmap _ _ _ => true
  | .blkref _ _ _ => true
  | .blkfree _ _ => true
  | .blkmig _ _ _ => true
  | .blkst _ _ => true
  | .tlbinv _ _ => true
  | .impset _ _ => true
  | .bcfg _ _ _ => true
  | .ptset _ _ _ => true
  | .keyld _ _ _ => true
  | .sysret => true
  | .dump => true
  | .qsce _ _ => true
  | .impw _ _ => true
  | .tstop _ _ => true
  | .tresume _ => true
  | .uresmWrite _ => false
  | .coreclkWrite _ _ => false
  | .evselWrite _ _ _ => false
  | .wdogWrite _ _ => false
  | .lpcWrite _ _ _ => false
  | .launch _ _ => false
  | .regionOpen _ _ _ => false
  | .regionClose _ _ _ => false
  | .regionCloseEffect _ => false
  | .hostnote _ _ _ => false
  | .blocksAdd _ _ _ _ => false
  | .checkpoint _ _ _ => false
  | .checkpointReply => false
  | .attestationReport _ => false
  | .exportCfg _ _ _ _ _ _ _ _ => false
  | .peerWindow _ _ _ _ _ => false
  | .tenantTableChange _ _ => false
  | .proofingClear _ _ => false
  | .exportAccess _ _ _ _ _ _ => false
  | .peerPlacement _ => false
  | .powerOn _ _ _ _ => false
  | .deviceReset => false
  | .powerCeiling => false
  | .thermalTrip _ _ => false
  | .sensorUntrusted _ _ _ => false
  | .sensorTrusted _ _ _ => false
  | .voltageStep _ _ _ => false
  | .clockHop _ _ _ => false
  | .droop _ _ _ => false
  | .powerBubble _ _ _ => false
  | .launchSelect => false
  | .placement => false
  | .formeCreation _ _ => false
  | .terminationSweep _ => false
  | .preEmption _ => false
  | .restore _ => false
  | .bankClaim _ _ => false
  | .messageArrival _ => false
  | .mailboxOverflow _ => false
  | .handlerEntry _ => false
  | .depositArrival _ => false
  | .decrement _ => false
  | .guestAdmission _ => false
  | .copyCommandStart _ => false
  | .copyCommandComplete _ _ => false
  | .engineFailed _ _ _ => false
  | .tileGrant _ => false
  | .tileRetirement _ _ => false
  | .drainTurn _ _ => false
  | .drainComplete _ _ => false
  | .orderedEntryCompletion _ _ _ => false
  | .take _ => false
  | .remap _ _ => false
  | .release _ _ => false
  | .blockReturn _ => false
  | .blockBusy _ => false
  | .notificationRecord _ => false
  | .routingAdmission _ => false
  | .regionPoint _ _ => false
  | .loadDataReturn _ _ => false
  | .storeAcknowledgement _ => false
  | .invalidationComplete _ => false
  | .dirtyLogMerge _ => false
  | .marginRecord _ => false
  | .upcallRun _ _ => false
  | .machineEntry _ => false
  | .breakpoint _ => false
  | .fatalError _ _ _ => false
  | .watchdog _ => false
  | .yieldExpiry _ => false
  | .maskBoundExpiry _ => false
  | .stateChangePass _ => false
  | .logDrain _ => false
  | .proofingSample _ => false
  | .barrelIssue _ => false
  | .reservedWord _ _ => false
  | .translationWalk _ => false
  | .rdcInvalidation _ _ => false
  | .frameZeroed _ => false
  | .migretArrival _ => false
  | .uncorrectableError _ => false
  | .powerCeilingLifted => false
  | .powerOff => false
  | .recoveryImage _ _ => false
  | .sessionSetup _ _ _ _ _ => false
  | .checkpointResume => false
  | .dieEventCounterWrite _ _ _ _ => false
  | .proofingSettings _ _ => false

end Sys2Proof
end

