-- ==== Sys2Proof/Decode.lean ====
section
/-! DEFINITION. Sys2Proof/Decode.lean: the instruction word (R43 to R55), read and written.
`decodeWord` reads one word, `decodeBytes` reads an instruction or an `ext` pair from bytes, total on any bytes and
refusing by name; `encode` and `encodeBytes` write them, from the same map (R51). -/

namespace Sys2Proof

open Sys2Proof.Machine

/-- Why a word, or a run of bytes, is no instruction (R55). -/
inductive Reject where
  /-- Fewer bytes than the instruction has. -/
  | tooShort
  /-- The major is reserved. -/
  | major
  /-- The fn or another selecting field is reserved. -/
  | function
  /-- A zero field holds a nonzero bit. -/
  | zeroField
  /-- An operand field holds a value that R51 reserves. -/
  | operand
  deriving DecidableEq, Repr

/-- The given `(low bit, width)` fields of `w` are all zero (R45). -/
def zeros (w : Nat) : List (Nat × Nat) → Bool
  | [] => true
  | (lo, n) :: rest => field w lo n == 0 && zeros w rest

/-- Accept `i` if the zero fields are zero. -/
def zeroed (w : Nat) (fs : List (Nat × Nat)) (i : Instr) : Except Reject Instr :=
  if zeros w fs then .ok i else .error .zeroField

/-- Major 0x00 (R51). -/
def decode00 (w : Nat) : Except Reject Instr :=
  match field w 0 5 with
  | 0 => zeroed w [(5, 21)] (.nop)
  | 1 => zeroed w [(5, 21)] (.halt)
  | 2 => zeroed w [(12, 14)] (.trap (BitVec.ofNat 7 (field w 5 7)))
  | 3 => zeroed w [(5, 21)] (.brk)
  | 4 => zeroed w [(5, 21)] (.yield)
  | 5 => zeroed w [(5, 21)] (.wfm)
  | _ => .error .function

/-- Major 0x01 (R51). -/
def decode01 (w : Nat) : Except Reject Instr :=
  match field w 0 5 with
  | 0 => .ok (.add (BitVec.ofNat 7 (field w 19 7)) (BitVec.ofNat 7 (field w 12 7)) (BitVec.ofNat 7 (field w 5 7)))
  | 1 => .ok (.sub (BitVec.ofNat 7 (field w 19 7)) (BitVec.ofNat 7 (field w 12 7)) (BitVec.ofNat 7 (field w 5 7)))
  | 2 => .ok (.mul (BitVec.ofNat 7 (field w 19 7)) (BitVec.ofNat 7 (field w 12 7)) (BitVec.ofNat 7 (field w 5 7)))
  | 3 => .ok (.mulh (BitVec.ofNat 7 (field w 19 7)) (BitVec.ofNat 7 (field w 12 7)) (BitVec.ofNat 7 (field w 5 7)))
  | 4 => .ok (.mulhn (BitVec.ofNat 7 (field w 19 7)) (BitVec.ofNat 7 (field w 12 7)) (BitVec.ofNat 7 (field w 5 7)))
  | 5 => .ok (.div (BitVec.ofNat 7 (field w 19 7)) (BitVec.ofNat 7 (field w 12 7)) (BitVec.ofNat 7 (field w 5 7)))
  | 6 => .ok (.divn (BitVec.ofNat 7 (field w 19 7)) (BitVec.ofNat 7 (field w 12 7)) (BitVec.ofNat 7 (field w 5 7)))
  | 7 => .ok (.rem (BitVec.ofNat 7 (field w 19 7)) (BitVec.ofNat 7 (field w 12 7)) (BitVec.ofNat 7 (field w 5 7)))
  | 8 => .ok (.remn (BitVec.ofNat 7 (field w 19 7)) (BitVec.ofNat 7 (field w 12 7)) (BitVec.ofNat 7 (field w 5 7)))
  | 9 => .ok (.and (BitVec.ofNat 7 (field w 19 7)) (BitVec.ofNat 7 (field w 12 7)) (BitVec.ofNat 7 (field w 5 7)))
  | 10 => .ok (.or (BitVec.ofNat 7 (field w 19 7)) (BitVec.ofNat 7 (field w 12 7)) (BitVec.ofNat 7 (field w 5 7)))
  | 11 => .ok (.xor (BitVec.ofNat 7 (field w 19 7)) (BitVec.ofNat 7 (field w 12 7)) (BitVec.ofNat 7 (field w 5 7)))
  | 12 => .ok (.andn (BitVec.ofNat 7 (field w 19 7)) (BitVec.ofNat 7 (field w 12 7)) (BitVec.ofNat 7 (field w 5 7)))
  | 13 => .ok (.shl (BitVec.ofNat 7 (field w 19 7)) (BitVec.ofNat 7 (field w 12 7)) (BitVec.ofNat 7 (field w 5 7)))
  | 14 => .ok (.shr (BitVec.ofNat 7 (field w 19 7)) (BitVec.ofNat 7 (field w 12 7)) (BitVec.ofNat 7 (field w 5 7)))
  | 15 => .ok (.sra (BitVec.ofNat 7 (field w 19 7)) (BitVec.ofNat 7 (field w 12 7)) (BitVec.ofNat 7 (field w 5 7)))
  | 16 => .ok (.rotr (BitVec.ofNat 7 (field w 19 7)) (BitVec.ofNat 7 (field w 12 7)) (BitVec.ofNat 7 (field w 5 7)))
  | 17 => .ok (.min (BitVec.ofNat 7 (field w 19 7)) (BitVec.ofNat 7 (field w 12 7)) (BitVec.ofNat 7 (field w 5 7)))
  | 18 => .ok (.max (BitVec.ofNat 7 (field w 19 7)) (BitVec.ofNat 7 (field w 12 7)) (BitVec.ofNat 7 (field w 5 7)))
  | 19 => .ok (.minn (BitVec.ofNat 7 (field w 19 7)) (BitVec.ofNat 7 (field w 12 7)) (BitVec.ofNat 7 (field w 5 7)))
  | 20 => .ok (.maxn (BitVec.ofNat 7 (field w 19 7)) (BitVec.ofNat 7 (field w 12 7)) (BitVec.ofNat 7 (field w 5 7)))
  | 21 => .ok (.cmpeq (BitVec.ofNat 7 (field w 19 7)) (BitVec.ofNat 7 (field w 12 7)) (BitVec.ofNat 7 (field w 5 7)))
  | 22 => .ok (.cmplt (BitVec.ofNat 7 (field w 19 7)) (BitVec.ofNat 7 (field w 12 7)) (BitVec.ofNat 7 (field w 5 7)))
  | 23 => .ok (.cmpltn (BitVec.ofNat 7 (field w 19 7)) (BitVec.ofNat 7 (field w 12 7)) (BitVec.ofNat 7 (field w 5 7)))
  | 24 => zeroed w [(5, 7)] (.clz (BitVec.ofNat 7 (field w 19 7)) (BitVec.ofNat 7 (field w 12 7)))
  | 25 => zeroed w [(5, 7)] (.ctz (BitVec.ofNat 7 (field w 19 7)) (BitVec.ofNat 7 (field w 12 7)))
  | 26 => zeroed w [(5, 7)] (.popc (BitVec.ofNat 7 (field w 19 7)) (BitVec.ofNat 7 (field w 12 7)))
  | 27 => .ok (.sext (BitVec.ofNat 7 (field w 19 7)) (BitVec.ofNat 7 (field w 12 7)) (BitVec.ofNat 7 (field w 5 7)))
  | 28 => .ok (.zext (BitVec.ofNat 7 (field w 19 7)) (BitVec.ofNat 7 (field w 12 7)) (BitVec.ofNat 7 (field w 5 7)))
  | _ => .error .function

/-- Major 0x02 (R51). -/
def decode02 (w : Nat) : Except Reject Instr :=
  .ok (.addi (BitVec.ofNat 7 (field w 19 7)) (BitVec.ofNat 7 (field w 12 7)) (BitVec.ofNat 12 (field w 0 12)))

/-- Major 0x03 (R51). -/
def decode03 (w : Nat) : Except Reject Instr :=
  .ok (.andi (BitVec.ofNat 7 (field w 19 7)) (BitVec.ofNat 7 (field w 12 7)) (BitVec.ofNat 12 (field w 0 12)))

/-- Major 0x04 (R51). -/
def decode04 (w : Nat) : Except Reject Instr :=
  .ok (.ori (BitVec.ofNat 7 (field w 19 7)) (BitVec.ofNat 7 (field w 12 7)) (BitVec.ofNat 12 (field w 0 12)))

/-- Major 0x05 (R51). -/
def decode05 (w : Nat) : Except Reject Instr :=
  .ok (.xori (BitVec.ofNat 7 (field w 19 7)) (BitVec.ofNat 7 (field w 12 7)) (BitVec.ofNat 12 (field w 0 12)))

/-- Major 0x06 (R51). -/
def decode06 (w : Nat) : Except Reject Instr :=
  match field w 10 2 with
  | 0 => zeroed w [(6, 4)] (.shli (BitVec.ofNat 7 (field w 19 7)) (BitVec.ofNat 7 (field w 12 7)) (BitVec.ofNat 6 (field w 0 6)))
  | 1 => zeroed w [(6, 4)] (.shri (BitVec.ofNat 7 (field w 19 7)) (BitVec.ofNat 7 (field w 12 7)) (BitVec.ofNat 6 (field w 0 6)))
  | 2 => zeroed w [(6, 4)] (.srai (BitVec.ofNat 7 (field w 19 7)) (BitVec.ofNat 7 (field w 12 7)) (BitVec.ofNat 6 (field w 0 6)))
  | 3 => zeroed w [(6, 4)] (.roti (BitVec.ofNat 7 (field w 19 7)) (BitVec.ofNat 7 (field w 12 7)) (BitVec.ofNat 6 (field w 0 6)))
  | _ => .error .function

/-- Major 0x07 (R51). -/
def decode07 (w : Nat) : Except Reject Instr :=
  match field w 10 2 with
  | 0 => .ok (.seqi (BitVec.ofNat 7 (field w 19 7)) (BitVec.ofNat 7 (field w 12 7)) (BitVec.ofNat 10 (field w 0 10)))
  | 1 => .ok (.slti (BitVec.ofNat 7 (field w 19 7)) (BitVec.ofNat 7 (field w 12 7)) (BitVec.ofNat 10 (field w 0 10)))
  | 2 => .ok (.sltni (BitVec.ofNat 7 (field w 19 7)) (BitVec.ofNat 7 (field w 12 7)) (BitVec.ofNat 10 (field w 0 10)))
  | _ => .error .function

/-- Major 0x08 (R51). -/
def decode08 (w : Nat) : Except Reject Instr :=
  .ok (.movi (BitVec.ofNat 7 (field w 19 7)) (BitVec.ofNat 19 (field w 0 19)))

/-- Major 0x09 (R51). -/
def decode09 (w : Nat) : Except Reject Instr :=
  zeroed w [(16, 1)] (.movk (BitVec.ofNat 7 (field w 19 7)) (BitVec.ofNat 2 (field w 17 2)) (BitVec.ofNat 16 (field w 0 16)))

/-- Major 0x0A (R51). -/
def decode0A (w : Nat) : Except Reject Instr :=
  zeroed w [(3, 2)] (.sel (BitVec.ofNat 7 (field w 19 7)) (BitVec.ofNat 7 (field w 12 7)) (BitVec.ofNat 7 (field w 5 7)) (BitVec.ofNat 3 (field w 0 3)))

/-- Major 0x0B (R51). -/
def decode0B (w : Nat) : Except Reject Instr :=
  zeroed w [(3, 2), (22, 4)] (.kcmp (BitVec.ofNat 3 (field w 19 3)) (BitVec.ofNat 7 (field w 12 7)) (BitVec.ofNat 7 (field w 5 7)) (BitVec.ofNat 3 (field w 0 3)))

/-- Major 0x0C (R51). -/
def decode0C (w : Nat) : Except Reject Instr :=
  match field w 0 5 with
  | 0 => zeroed w [(8, 4), (15, 4), (22, 4)] (.kand (BitVec.ofNat 3 (field w 19 3)) (BitVec.ofNat 3 (field w 12 3)) (BitVec.ofNat 3 (field w 5 3)))
  | 1 => zeroed w [(8, 4), (15, 4), (22, 4)] (.kor (BitVec.ofNat 3 (field w 19 3)) (BitVec.ofNat 3 (field w 12 3)) (BitVec.ofNat 3 (field w 5 3)))
  | 2 => zeroed w [(8, 4), (15, 4), (22, 4)] (.kxor (BitVec.ofNat 3 (field w 19 3)) (BitVec.ofNat 3 (field w 12 3)) (BitVec.ofNat 3 (field w 5 3)))
  | 3 => zeroed w [(8, 4), (15, 4), (22, 4)] (.kandn (BitVec.ofNat 3 (field w 19 3)) (BitVec.ofNat 3 (field w 12 3)) (BitVec.ofNat 3 (field w 5 3)))
  | 4 => zeroed w [(5, 7), (15, 4), (22, 4)] (.knot (BitVec.ofNat 3 (field w 19 3)) (BitVec.ofNat 3 (field w 12 3)))
  | 5 => zeroed w [(5, 7), (15, 4), (22, 4)] (.kmov (BitVec.ofNat 3 (field w 19 3)) (BitVec.ofNat 3 (field w 12 3)))
  | 6 => zeroed w [(5, 7), (22, 4)] (.vtok (BitVec.ofNat 3 (field w 19 3)) (BitVec.ofNat 7 (field w 12 7)))
  | 7 => zeroed w [(5, 7), (15, 4)] (.ktov (BitVec.ofNat 7 (field w 19 7)) (BitVec.ofNat 3 (field w 12 3)))
  | 8 => zeroed w [(5, 7), (15, 4)] (.kpopc (BitVec.ofNat 7 (field w 19 7)) (BitVec.ofNat 3 (field w 12 3)))
  | 9 => zeroed w [(7, 5), (22, 4)] (.vmask (BitVec.ofNat 3 (field w 19 3)) (BitVec.ofNat 7 (field w 12 7)) (BitVec.ofNat 2 (field w 5 2)))
  | 10 => zeroed w [(5, 7), (15, 4), (22, 4)] (.kfirst (BitVec.ofNat 3 (field w 19 3)) (BitVec.ofNat 3 (field w 12 3)))
  | _ => .error .function

/-- Major 0x0D (R51). -/
def decode0D (w : Nat) : Except Reject Instr :=
  match field w 10 2 with
  | 0 => zeroed w [(12, 7)] (.ctlr (BitVec.ofNat 7 (field w 19 7)) (BitVec.ofNat 10 (field w 0 10)))
  | 1 => zeroed w [(19, 7)] (.ctlw (BitVec.ofNat 7 (field w 12 7)) (BitVec.ofNat 10 (field w 0 10)))
  | 2 => zeroed w [(19, 7)] (.ctls (BitVec.ofNat 7 (field w 12 7)) (BitVec.ofNat 10 (field w 0 10)))
  | 3 => zeroed w [(19, 7)] (.ctlc (BitVec.ofNat 7 (field w 12 7)) (BitVec.ofNat 10 (field w 0 10)))
  | _ => .error .function

/-- Major 0x0E (R51). -/
def decode0E (w : Nat) : Except Reject Instr :=
  .ok (.ext (BitVec.ofNat 26 w) 0)

/-- Major 0x10 (R51). -/
def decode10 (w : Nat) : Except Reject Instr :=
  match field w 22 1 with
  | 1 => .ok (.bt (BitVec.ofNat 3 (field w 23 3)) (BitVec.ofNat 22 (field w 0 22)))
  | 0 => .ok (.bf (BitVec.ofNat 3 (field w 23 3)) (BitVec.ofNat 22 (field w 0 22)))
  | _ => .error .function

/-- Major 0x11 (R51). -/
def decode11 (w : Nat) : Except Reject Instr :=
  .ok (.jmp (BitVec.ofNat 26 (field w 0 26)))

/-- Major 0x12 (R51). -/
def decode12 (w : Nat) : Except Reject Instr :=
  .ok (.call (BitVec.ofNat 26 (field w 0 26)))

/-- Major 0x13 (R51). -/
def decode13 (w : Nat) : Except Reject Instr :=
  match field w 0 5 with
  | 0 => zeroed w [(5, 7), (19, 7)] (.jr (BitVec.ofNat 7 (field w 12 7)))
  | 1 => zeroed w [(5, 7), (19, 7)] (.callr (BitVec.ofNat 7 (field w 12 7)))
  | 2 => zeroed w [(5, 21)] (.ret)
  | _ => .error .function

/-- Major 0x14 (R51). -/
def decode14 (w : Nat) : Except Reject Instr :=
  match field w 24 1 with
  | 1 => .ok (.loopi (BitVec.ofNat 1 (field w 25 1)) (BitVec.ofNat 10 (field w 14 10)) (BitVec.ofNat 14 (field w 0 14)))
  | 0 => zeroed w [(21, 3)] (.loop (BitVec.ofNat 1 (field w 25 1)) (BitVec.ofNat 7 (field w 14 7)) (BitVec.ofNat 14 (field w 0 14)))
  | _ => .error .function

/-- Major 0x15 (R51). -/
def decode15 (w : Nat) : Except Reject Instr :=
  zeroed w [(0, 4)] (.rpt (BitVec.ofNat 4 (field w 22 4)) (BitVec.ofNat 6 (field w 16 6)) (BitVec.ofNat 4 (field w 12 4)) (BitVec.ofNat 4 (field w 8 4)) (BitVec.ofNat 4 (field w 4 4)))

/-- Major 0x16 (R51). -/
def decode16 (w : Nat) : Except Reject Instr :=
  match field w 0 5 with
  | 0 => zeroed w [(5, 21)] (.detach)
  | 1 => zeroed w [(12, 14)] (.join (BitVec.ofNat 7 (field w 5 7)))
  | 2 => zeroed w [(5, 14)] (.fstat (BitVec.ofNat 7 (field w 19 7)))
  | 3 => zeroed w [(5, 14)] (.fidx (BitVec.ofNat 7 (field w 19 7)))
  | _ => .error .function

/-- Major 0x17 (R51). -/
def decode17 (w : Nat) : Except Reject Instr :=
  match field w 17 2 with
  | 0 => .ok (.pick (BitVec.ofNat 7 (field w 19 7)) (BitVec.ofNat 5 (field w 12 5)) (BitVec.ofNat 12 (field w 0 12)))
  | 1 => .ok (.mread (BitVec.ofNat 7 (field w 19 7)) (BitVec.ofNat 5 (field w 12 5)) (BitVec.ofNat 12 (field w 0 12)))
  | 2 => zeroed w [(12, 5), (19, 7)] (.mnote (BitVec.ofNat 12 (field w 0 12)))
  | _ => .error .function

/-- Major 0x18 (R51). -/
def decode18 (w : Nat) : Except Reject Instr :=
  zeroed w [(0, 10)] (.wait (BitVec.ofNat 4 (field w 22 4)) (BitVec.ofNat 4 (field w 18 4)) (BitVec.ofNat 4 (field w 14 4)) (BitVec.ofNat 4 (field w 10 4)))

/-- Major 0x19 (R51). -/
def decode19 (w : Nat) : Except Reject Instr :=
  match field w 0 5 with
  | 0 => zeroed w [(19, 7)] (.tlwait (BitVec.ofNat 7 (field w 12 7)) (BitVec.ofNat 7 (field w 5 7)))
  | 1 => zeroed w [(5, 7)] (.tlread (BitVec.ofNat 7 (field w 19 7)) (BitVec.ofNat 7 (field w 12 7)))
  | 2 => zeroed w [(5, 7)] (.tlnext (BitVec.ofNat 7 (field w 19 7)) (BitVec.ofNat 7 (field w 12 7)))
  | _ => .error .function

/-- Major 0x1A (R51). -/
def decode1A (w : Nat) : Except Reject Instr :=
  match field w 0 5 with
  | 0 => zeroed w [(12, 7)] (.arrive (BitVec.ofNat 7 (field w 19 7)) (BitVec.ofNat 7 (field w 5 7)))
  | 1 => zeroed w [(19, 7)] (.await (BitVec.ofNat 7 (field w 12 7)) (BitVec.ofNat 7 (field w 5 7)))
  | 2 => zeroed w [(12, 7)] (.arwt (BitVec.ofNat 7 (field w 19 7)) (BitVec.ofNat 7 (field w 5 7)))
  | 3 => zeroed w [(12, 7)] (.bstat (BitVec.ofNat 7 (field w 19 7)) (BitVec.ofNat 7 (field w 5 7)))
  | _ => .error .function

/-- Major 0x1B (R51). -/
def decode1B (w : Nat) : Except Reject Instr :=
  match field w 0 5 with
  | 0 => zeroed w [(23, 3)] (.send (BitVec.ofNat 4 (field w 19 4)) (BitVec.ofNat 7 (field w 12 7)) (BitVec.ofNat 7 (field w 5 7)))
  | 1 => zeroed w [(5, 14)] (.rcv (BitVec.ofNat 7 (field w 19 7)))
  | 2 => zeroed w [(12, 14)] (.msk (BitVec.ofNat 7 (field w 5 7)))
  | 3 => zeroed w [(5, 21)] (.rti)
  | 4 => .ok (.dep (BitVec.ofNat 7 (field w 19 7)) (BitVec.ofNat 7 (field w 12 7)) (BitVec.ofNat 7 (field w 5 7)))
  | 5 => zeroed w [(5, 14)] (.arm (BitVec.ofNat 7 (field w 19 7)))
  | 6 => zeroed w [(5, 14)] (.probe (BitVec.ofNat 7 (field w 19 7)))
  | _ => .error .function

/-- Major 0x1C (R51). -/
def decode1C (w : Nat) : Except Reject Instr :=
  match field w 0 5 with
  | 0 => zeroed w [(5, 7), (19, 7)] (.mig (BitVec.ofNat 7 (field w 12 7)))
  | 1 => zeroed w [(5, 21)] (.migret)
  | 2 => zeroed w [(5, 7)] (.migst (BitVec.ofNat 7 (field w 19 7)) (BitVec.ofNat 7 (field w 12 7)))
  | _ => .error .function

/-- Major 0x1D (R51). -/
def decode1D (w : Nat) : Except Reject Instr :=
  match field w 0 5 with
  | 0 => .ok (.spawn (BitVec.ofNat 7 (field w 19 7)) (BitVec.ofNat 7 (field w 12 7)) (BitVec.ofNat 7 (field w 5 7)))
  | 1 => zeroed w [(5, 7), (19, 7)] (.dec (BitVec.ofNat 7 (field w 12 7)))
  | 2 => zeroed w [(5, 21)] (.tdone)
  | 3 => zeroed w [(5, 14)] (.tself (BitVec.ofNat 7 (field w 19 7)))
  | _ => .error .function

/-- Major 0x1E (R51). -/
def decode1E (w : Nat) : Except Reject Instr :=
  match field w 0 5 with
  | 0 => zeroed w [(5, 7)] (.rtopen (BitVec.ofNat 7 (field w 19 7)) (BitVec.ofNat 7 (field w 12 7)))
  | 1 => .ok (.rtsub (BitVec.ofNat 7 (field w 19 7)) (BitVec.ofNat 7 (field w 12 7)) (BitVec.ofNat 7 (field w 5 7)))
  | 2 => zeroed w [(5, 7)] (.rtclose (BitVec.ofNat 7 (field w 19 7)) (BitVec.ofNat 7 (field w 12 7)))
  | 3 => .ok (.rtget (BitVec.ofNat 7 (field w 19 7)) (BitVec.ofNat 7 (field w 12 7)) (BitVec.ofNat 7 (field w 5 7)))
  | 4 => zeroed w [(5, 7)] (.rtstat (BitVec.ofNat 7 (field w 19 7)) (BitVec.ofNat 7 (field w 12 7)))
  | _ => .error .function

/-- Major 0x20 (R51). -/
def decode20 (w : Nat) : Except Reject Instr :=
  match field w 2 3 with
  | 0 => .ok (.vadd (BitVec.ofNat 7 (field w 19 7)) (BitVec.ofNat 7 (field w 12 7)) (BitVec.ofNat 7 (field w 5 7)) (BitVec.ofNat 2 (field w 0 2)))
  | 1 => .ok (.vsub (BitVec.ofNat 7 (field w 19 7)) (BitVec.ofNat 7 (field w 12 7)) (BitVec.ofNat 7 (field w 5 7)) (BitVec.ofNat 2 (field w 0 2)))
  | 2 => .ok (.vmul (BitVec.ofNat 7 (field w 19 7)) (BitVec.ofNat 7 (field w 12 7)) (BitVec.ofNat 7 (field w 5 7)) (BitVec.ofNat 2 (field w 0 2)))
  | 3 => .ok (.vmac (BitVec.ofNat 7 (field w 19 7)) (BitVec.ofNat 7 (field w 12 7)) (BitVec.ofNat 7 (field w 5 7)) (BitVec.ofNat 2 (field w 0 2)))
  | 4 => .ok (.vmin (BitVec.ofNat 7 (field w 19 7)) (BitVec.ofNat 7 (field w 12 7)) (BitVec.ofNat 7 (field w 5 7)) (BitVec.ofNat 2 (field w 0 2)))
  | 5 => .ok (.vmax (BitVec.ofNat 7 (field w 19 7)) (BitVec.ofNat 7 (field w 12 7)) (BitVec.ofNat 7 (field w 5 7)) (BitVec.ofNat 2 (field w 0 2)))
  | 6 => .ok (.vminn (BitVec.ofNat 7 (field w 19 7)) (BitVec.ofNat 7 (field w 12 7)) (BitVec.ofNat 7 (field w 5 7)) (BitVec.ofNat 2 (field w 0 2)))
  | 7 => .ok (.vmaxn (BitVec.ofNat 7 (field w 19 7)) (BitVec.ofNat 7 (field w 12 7)) (BitVec.ofNat 7 (field w 5 7)) (BitVec.ofNat 2 (field w 0 2)))
  | _ => .error .function

/-- Major 0x21 (R51). -/
def decode21 (w : Nat) : Except Reject Instr :=
  match field w 2 3 with
  | 0 => .ok (.vand (BitVec.ofNat 7 (field w 19 7)) (BitVec.ofNat 7 (field w 12 7)) (BitVec.ofNat 7 (field w 5 7)) (BitVec.ofNat 2 (field w 0 2)))
  | 1 => .ok (.vor (BitVec.ofNat 7 (field w 19 7)) (BitVec.ofNat 7 (field w 12 7)) (BitVec.ofNat 7 (field w 5 7)) (BitVec.ofNat 2 (field w 0 2)))
  | 2 => .ok (.vxor (BitVec.ofNat 7 (field w 19 7)) (BitVec.ofNat 7 (field w 12 7)) (BitVec.ofNat 7 (field w 5 7)) (BitVec.ofNat 2 (field w 0 2)))
  | 3 => .ok (.vandn (BitVec.ofNat 7 (field w 19 7)) (BitVec.ofNat 7 (field w 12 7)) (BitVec.ofNat 7 (field w 5 7)) (BitVec.ofNat 2 (field w 0 2)))
  | 4 => .ok (.vshl (BitVec.ofNat 7 (field w 19 7)) (BitVec.ofNat 7 (field w 12 7)) (BitVec.ofNat 7 (field w 5 7)) (BitVec.ofNat 2 (field w 0 2)))
  | 5 => .ok (.vshr (BitVec.ofNat 7 (field w 19 7)) (BitVec.ofNat 7 (field w 12 7)) (BitVec.ofNat 7 (field w 5 7)) (BitVec.ofNat 2 (field w 0 2)))
  | 6 => .ok (.vsra (BitVec.ofNat 7 (field w 19 7)) (BitVec.ofNat 7 (field w 12 7)) (BitVec.ofNat 7 (field w 5 7)) (BitVec.ofNat 2 (field w 0 2)))
  | 7 => zeroed w [(5, 7)] (.vpopc (BitVec.ofNat 7 (field w 19 7)) (BitVec.ofNat 7 (field w 12 7)) (BitVec.ofNat 2 (field w 0 2)))
  | _ => .error .function

/-- Major 0x22 (R51). -/
def decode22 (w : Nat) : Except Reject Instr :=
  match field w 2 3 with
  | 0 => zeroed w [(22, 4)] (.vceq (BitVec.ofNat 3 (field w 19 3)) (BitVec.ofNat 7 (field w 12 7)) (BitVec.ofNat 7 (field w 5 7)) (BitVec.ofNat 2 (field w 0 2)))
  | 1 => zeroed w [(22, 4)] (.vcne (BitVec.ofNat 3 (field w 19 3)) (BitVec.ofNat 7 (field w 12 7)) (BitVec.ofNat 7 (field w 5 7)) (BitVec.ofNat 2 (field w 0 2)))
  | 2 => zeroed w [(22, 4)] (.vclt (BitVec.ofNat 3 (field w 19 3)) (BitVec.ofNat 7 (field w 12 7)) (BitVec.ofNat 7 (field w 5 7)) (BitVec.ofNat 2 (field w 0 2)))
  | 3 => zeroed w [(22, 4)] (.vcge (BitVec.ofNat 3 (field w 19 3)) (BitVec.ofNat 7 (field w 12 7)) (BitVec.ofNat 7 (field w 5 7)) (BitVec.ofNat 2 (field w 0 2)))
  | 4 => zeroed w [(22, 4)] (.vcltn (BitVec.ofNat 3 (field w 19 3)) (BitVec.ofNat 7 (field w 12 7)) (BitVec.ofNat 7 (field w 5 7)) (BitVec.ofNat 2 (field w 0 2)))
  | 5 => zeroed w [(22, 4)] (.vcgen (BitVec.ofNat 3 (field w 19 3)) (BitVec.ofNat 7 (field w 12 7)) (BitVec.ofNat 7 (field w 5 7)) (BitVec.ofNat 2 (field w 0 2)))
  | _ => .error .function

/-- Major 0x23 (R51). -/
def decode23 (w : Nat) : Except Reject Instr :=
  match field w 2 3 with
  | 0 => .ok (.vfadd (BitVec.ofNat 7 (field w 19 7)) (BitVec.ofNat 7 (field w 12 7)) (BitVec.ofNat 7 (field w 5 7)) (BitVec.ofNat 2 (field w 0 2)))
  | 1 => .ok (.vfsub (BitVec.ofNat 7 (field w 19 7)) (BitVec.ofNat 7 (field w 12 7)) (BitVec.ofNat 7 (field w 5 7)) (BitVec.ofNat 2 (field w 0 2)))
  | 2 => .ok (.vfmul (BitVec.ofNat 7 (field w 19 7)) (BitVec.ofNat 7 (field w 12 7)) (BitVec.ofNat 7 (field w 5 7)) (BitVec.ofNat 2 (field w 0 2)))
  | 3 => .ok (.vfma (BitVec.ofNat 7 (field w 19 7)) (BitVec.ofNat 7 (field w 12 7)) (BitVec.ofNat 7 (field w 5 7)) (BitVec.ofNat 2 (field w 0 2)))
  | 4 => .ok (.vfmin (BitVec.ofNat 7 (field w 19 7)) (BitVec.ofNat 7 (field w 12 7)) (BitVec.ofNat 7 (field w 5 7)) (BitVec.ofNat 2 (field w 0 2)))
  | 5 => .ok (.vfmax (BitVec.ofNat 7 (field w 19 7)) (BitVec.ofNat 7 (field w 12 7)) (BitVec.ofNat 7 (field w 5 7)) (BitVec.ofNat 2 (field w 0 2)))
  | 6 => .ok (.vfdiv (BitVec.ofNat 7 (field w 19 7)) (BitVec.ofNat 7 (field w 12 7)) (BitVec.ofNat 7 (field w 5 7)) (BitVec.ofNat 2 (field w 0 2)))
  | 7 => zeroed w [(5, 7)] (.vfsqrt (BitVec.ofNat 7 (field w 19 7)) (BitVec.ofNat 7 (field w 12 7)) (BitVec.ofNat 2 (field w 0 2)))
  | _ => .error .function

/-- Major 0x24 (R51). -/
def decode24 (w : Nat) : Except Reject Instr :=
  match field w 2 3 with
  | 0 => zeroed w [(5, 7)] (.vfrcp (BitVec.ofNat 7 (field w 19 7)) (BitVec.ofNat 7 (field w 12 7)) (BitVec.ofNat 2 (field w 0 2)))
  | 1 => zeroed w [(5, 7)] (.vfrsq (BitVec.ofNat 7 (field w 19 7)) (BitVec.ofNat 7 (field w 12 7)) (BitVec.ofNat 2 (field w 0 2)))
  | 2 => zeroed w [(5, 7)] (.vfexp2 (BitVec.ofNat 7 (field w 19 7)) (BitVec.ofNat 7 (field w 12 7)) (BitVec.ofNat 2 (field w 0 2)))
  | 3 => zeroed w [(5, 7)] (.vflog2 (BitVec.ofNat 7 (field w 19 7)) (BitVec.ofNat 7 (field w 12 7)) (BitVec.ofNat 2 (field w 0 2)))
  | 4 => zeroed w [(5, 7)] (.vfabs (BitVec.ofNat 7 (field w 19 7)) (BitVec.ofNat 7 (field w 12 7)) (BitVec.ofNat 2 (field w 0 2)))
  | 5 => zeroed w [(5, 7)] (.vfneg (BitVec.ofNat 7 (field w 19 7)) (BitVec.ofNat 7 (field w 12 7)) (BitVec.ofNat 2 (field w 0 2)))
  | 6 => zeroed w [(22, 4)] (.vfclt (BitVec.ofNat 3 (field w 19 3)) (BitVec.ofNat 7 (field w 12 7)) (BitVec.ofNat 7 (field w 5 7)) (BitVec.ofNat 2 (field w 0 2)))
  | 7 => zeroed w [(22, 4)] (.vfceq (BitVec.ofNat 3 (field w 19 3)) (BitVec.ofNat 7 (field w 12 7)) (BitVec.ofNat 7 (field w 5 7)) (BitVec.ofNat 2 (field w 0 2)))
  | _ => .error .function

/-- Major 0x25 (R51). -/
def decode25 (w : Nat) : Except Reject Instr :=
  match field w 0 5 with
  | 0 => zeroed w [(5, 3)] (.cvtBf16F32 (BitVec.ofNat 7 (field w 19 7)) (BitVec.ofNat 7 (field w 12 7)) (BitVec.ofNat 1 (field w 11 1)) (BitVec.ofNat 3 (field w 8 3)))
  | 1 => zeroed w [(5, 3)] (.cvtF16F32 (BitVec.ofNat 7 (field w 19 7)) (BitVec.ofNat 7 (field w 12 7)) (BitVec.ofNat 1 (field w 11 1)) (BitVec.ofNat 3 (field w 8 3)))
  | 2 => zeroed w [(5, 3)] (.cvtF32Bf16 (BitVec.ofNat 7 (field w 19 7)) (BitVec.ofNat 7 (field w 12 7)) (BitVec.ofNat 1 (field w 11 1)) (BitVec.ofNat 3 (field w 8 3)))
  | 3 => zeroed w [(5, 3)] (.cvtF32F16 (BitVec.ofNat 7 (field w 19 7)) (BitVec.ofNat 7 (field w 12 7)) (BitVec.ofNat 1 (field w 11 1)) (BitVec.ofNat 3 (field w 8 3)))
  | 4 => zeroed w [(5, 3)] (.cvtE4m3F32 (BitVec.ofNat 7 (field w 19 7)) (BitVec.ofNat 7 (field w 12 7)) (BitVec.ofNat 1 (field w 11 1)) (BitVec.ofNat 3 (field w 8 3)))
  | 5 => zeroed w [(5, 3)] (.cvtE5m2F32 (BitVec.ofNat 7 (field w 19 7)) (BitVec.ofNat 7 (field w 12 7)) (BitVec.ofNat 1 (field w 11 1)) (BitVec.ofNat 3 (field w 8 3)))
  | 6 => zeroed w [(5, 3)] (.cvtF32E4m3 (BitVec.ofNat 7 (field w 19 7)) (BitVec.ofNat 7 (field w 12 7)) (BitVec.ofNat 1 (field w 11 1)) (BitVec.ofNat 3 (field w 8 3)))
  | 7 => zeroed w [(5, 3)] (.cvtF32E5m2 (BitVec.ofNat 7 (field w 19 7)) (BitVec.ofNat 7 (field w 12 7)) (BitVec.ofNat 1 (field w 11 1)) (BitVec.ofNat 3 (field w 8 3)))
  | 8 => zeroed w [(5, 3)] (.cvtI32F32 (BitVec.ofNat 7 (field w 19 7)) (BitVec.ofNat 7 (field w 12 7)) (BitVec.ofNat 1 (field w 11 1)) (BitVec.ofNat 3 (field w 8 3)))
  | 9 => zeroed w [(5, 3)] (.cvtF32I32 (BitVec.ofNat 7 (field w 19 7)) (BitVec.ofNat 7 (field w 12 7)) (BitVec.ofNat 1 (field w 11 1)) (BitVec.ofNat 3 (field w 8 3)))
  | 10 => zeroed w [(5, 3)] (.cvtI8I32 (BitVec.ofNat 7 (field w 19 7)) (BitVec.ofNat 7 (field w 12 7)) (BitVec.ofNat 1 (field w 11 1)) (BitVec.ofNat 3 (field w 8 3)))
  | 11 => zeroed w [(5, 3)] (.cvtI32I8 (BitVec.ofNat 7 (field w 19 7)) (BitVec.ofNat 7 (field w 12 7)) (BitVec.ofNat 1 (field w 11 1)) (BitVec.ofNat 3 (field w 8 3)))
  | 12 => zeroed w [(5, 1)] (.q4pack (BitVec.ofNat 7 (field w 19 7)) (BitVec.ofNat 7 (field w 12 7)) (BitVec.ofNat 1 (field w 11 1)) (BitVec.ofNat 3 (field w 8 3)) (BitVec.ofNat 2 (field w 6 2)))
  | 13 => zeroed w [(5, 3)] (.q4unpk (BitVec.ofNat 7 (field w 19 7)) (BitVec.ofNat 7 (field w 12 7)) (BitVec.ofNat 1 (field w 11 1)) (BitVec.ofNat 3 (field w 8 3)))
  | _ => .error .function

/-- Major 0x26 (R51). -/
def decode26 (w : Nat) : Except Reject Instr :=
  match field w 2 3 with
  | 0 => zeroed w [(5, 7)] (.vrsum (BitVec.ofNat 7 (field w 19 7)) (BitVec.ofNat 7 (field w 12 7)) (BitVec.ofNat 2 (field w 0 2)))
  | 1 => zeroed w [(5, 7)] (.vrmax (BitVec.ofNat 7 (field w 19 7)) (BitVec.ofNat 7 (field w 12 7)) (BitVec.ofNat 2 (field w 0 2)))
  | 2 => zeroed w [(5, 7)] (.vrmin (BitVec.ofNat 7 (field w 19 7)) (BitVec.ofNat 7 (field w 12 7)) (BitVec.ofNat 2 (field w 0 2)))
  | 3 => zeroed w [(5, 7)] (.vrarg (BitVec.ofNat 7 (field w 19 7)) (BitVec.ofNat 7 (field w 12 7)) (BitVec.ofNat 2 (field w 0 2)))
  | 4 => .ok (.vrdot (BitVec.ofNat 7 (field w 19 7)) (BitVec.ofNat 7 (field w 12 7)) (BitVec.ofNat 7 (field w 5 7)) (BitVec.ofNat 2 (field w 0 2)))
  | _ => .error .function

/-- Major 0x27 (R51). -/
def decode27 (w : Nat) : Except Reject Instr :=
  match field w 2 3 with
  | 0 => zeroed w [(5, 7)] (.vsplat (BitVec.ofNat 7 (field w 19 7)) (BitVec.ofNat 7 (field w 12 7)) (BitVec.ofNat 2 (field w 0 2)))
  | 1 => .ok (.vshuf (BitVec.ofNat 7 (field w 19 7)) (BitVec.ofNat 7 (field w 12 7)) (BitVec.ofNat 7 (field w 5 7)) (BitVec.ofNat 2 (field w 0 2)))
  | 2 => .ok (.vslup (BitVec.ofNat 7 (field w 19 7)) (BitVec.ofNat 7 (field w 12 7)) (BitVec.ofNat 7 (field w 5 7)) (BitVec.ofNat 2 (field w 0 2)))
  | 3 => .ok (.vsldn (BitVec.ofNat 7 (field w 19 7)) (BitVec.ofNat 7 (field w 12 7)) (BitVec.ofNat 7 (field w 5 7)) (BitVec.ofNat 2 (field w 0 2)))
  | 4 => zeroed w [(5, 7)] (.vcomp (BitVec.ofNat 7 (field w 19 7)) (BitVec.ofNat 7 (field w 12 7)) (BitVec.ofNat 2 (field w 0 2)))
  | 5 => zeroed w [(5, 7)] (.vexpd (BitVec.ofNat 7 (field w 19 7)) (BitVec.ofNat 7 (field w 12 7)) (BitVec.ofNat 2 (field w 0 2)))
  | 6 => .ok (.vzip (BitVec.ofNat 7 (field w 19 7)) (BitVec.ofNat 7 (field w 12 7)) (BitVec.ofNat 7 (field w 5 7)) (BitVec.ofNat 2 (field w 0 2)))
  | 7 => .ok (.vunzip (BitVec.ofNat 7 (field w 19 7)) (BitVec.ofNat 7 (field w 12 7)) (BitVec.ofNat 7 (field w 5 7)) (BitVec.ofNat 2 (field w 0 2)))
  | _ => .error .function

/-- Major 0x28 (R51). -/
def decode28 (w : Nat) : Except Reject Instr :=
  match field w 0 5 with
  | 0 => .ok (.ixdot (BitVec.ofNat 7 (field w 19 7)) (BitVec.ofNat 7 (field w 12 7)) (BitVec.ofNat 7 (field w 5 7)))
  | 1 => zeroed w [(5, 7)] (.bmpfx (BitVec.ofNat 7 (field w 19 7)) (BitVec.ofNat 7 (field w 12 7)))
  | 2 => .ok (.ixcnt (BitVec.ofNat 7 (field w 19 7)) (BitVec.ofNat 7 (field w 12 7)) (BitVec.ofNat 7 (field w 5 7)))
  | _ => .error .function

/-- Major 0x29 (R51). -/
def decode29 (w : Nat) : Except Reject Instr :=
  match field w 0 5 with
  | 0 => .ok (.vtopk (BitVec.ofNat 7 (field w 19 7)) (BitVec.ofNat 7 (field w 12 7)) (BitVec.ofNat 7 (field w 5 7)))
  | 1 => zeroed w [(5, 7)] (.vsort (BitVec.ofNat 7 (field w 19 7)) (BitVec.ofNat 7 (field w 12 7)))
  | 2 => .ok (.vmrg (BitVec.ofNat 7 (field w 19 7)) (BitVec.ofNat 7 (field w 12 7)) (BitVec.ofNat 7 (field w 5 7)))
  | _ => .error .function

/-- Major 0x30 (R51). -/
def decode30 (w : Nat) : Except Reject Instr :=
  .ok (.ld (BitVec.ofNat 7 (field w 19 7)) (BitVec.ofNat 7 (field w 12 7)) (BitVec.ofNat 3 (field w 9 3)) (BitVec.ofNat 9 (field w 0 9)))

/-- Major 0x31 (R51). -/
def decode31 (w : Nat) : Except Reject Instr :=
  .ok (.st (BitVec.ofNat 7 (field w 19 7)) (BitVec.ofNat 7 (field w 12 7)) (BitVec.ofNat 3 (field w 9 3)) (BitVec.ofNat 9 (field w 0 9)))

/-- Major 0x32 (R51). -/
def decode32 (w : Nat) : Except Reject Instr :=
  zeroed w [(9, 3)] (.vld (BitVec.ofNat 7 (field w 19 7)) (BitVec.ofNat 7 (field w 12 7)) (BitVec.ofNat 9 (field w 0 9)))

/-- Major 0x33 (R51). -/
def decode33 (w : Nat) : Except Reject Instr :=
  zeroed w [(9, 3)] (.vst (BitVec.ofNat 7 (field w 19 7)) (BitVec.ofNat 7 (field w 12 7)) (BitVec.ofNat 9 (field w 0 9)))

/-- Major 0x34 (R51). -/
def decode34 (w : Nat) : Except Reject Instr :=
  .ok (.ldx (BitVec.ofNat 7 (field w 19 7)) (BitVec.ofNat 7 (field w 12 7)) (BitVec.ofNat 7 (field w 5 7)) (BitVec.ofNat 3 (field w 2 3)) (BitVec.ofNat 2 (field w 0 2)))

/-- Major 0x35 (R51). -/
def decode35 (w : Nat) : Except Reject Instr :=
  .ok (.stx (BitVec.ofNat 7 (field w 19 7)) (BitVec.ofNat 7 (field w 12 7)) (BitVec.ofNat 7 (field w 5 7)) (BitVec.ofNat 3 (field w 2 3)) (BitVec.ofNat 2 (field w 0 2)))

/-- Major 0x36 (R51). -/
def decode36 (w : Nat) : Except Reject Instr :=
  match field w 1 4 with
  | 0 => .ok (.atomSwap (BitVec.ofNat 7 (field w 19 7)) (BitVec.ofNat 7 (field w 12 7)) (BitVec.ofNat 7 (field w 5 7)) (BitVec.ofNat 1 (field w 0 1)))
  | 1 => .ok (.atomAdd (BitVec.ofNat 7 (field w 19 7)) (BitVec.ofNat 7 (field w 12 7)) (BitVec.ofNat 7 (field w 5 7)) (BitVec.ofNat 1 (field w 0 1)))
  | 2 => .ok (.atomAnd (BitVec.ofNat 7 (field w 19 7)) (BitVec.ofNat 7 (field w 12 7)) (BitVec.ofNat 7 (field w 5 7)) (BitVec.ofNat 1 (field w 0 1)))
  | 3 => .ok (.atomOr (BitVec.ofNat 7 (field w 19 7)) (BitVec.ofNat 7 (field w 12 7)) (BitVec.ofNat 7 (field w 5 7)) (BitVec.ofNat 1 (field w 0 1)))
  | 4 => .ok (.atomXor (BitVec.ofNat 7 (field w 19 7)) (BitVec.ofNat 7 (field w 12 7)) (BitVec.ofNat 7 (field w 5 7)) (BitVec.ofNat 1 (field w 0 1)))
  | 5 => .ok (.atomMin (BitVec.ofNat 7 (field w 19 7)) (BitVec.ofNat 7 (field w 12 7)) (BitVec.ofNat 7 (field w 5 7)) (BitVec.ofNat 1 (field w 0 1)))
  | 6 => .ok (.atomMax (BitVec.ofNat 7 (field w 19 7)) (BitVec.ofNat 7 (field w 12 7)) (BitVec.ofNat 7 (field w 5 7)) (BitVec.ofNat 1 (field w 0 1)))
  | 7 => .ok (.atomMinn (BitVec.ofNat 7 (field w 19 7)) (BitVec.ofNat 7 (field w 12 7)) (BitVec.ofNat 7 (field w 5 7)) (BitVec.ofNat 1 (field w 0 1)))
  | 8 => .ok (.atomMaxn (BitVec.ofNat 7 (field w 19 7)) (BitVec.ofNat 7 (field w 12 7)) (BitVec.ofNat 7 (field w 5 7)) (BitVec.ofNat 1 (field w 0 1)))
  | 9 => .ok (.atomCas (BitVec.ofNat 7 (field w 19 7)) (BitVec.ofNat 7 (field w 12 7)) (BitVec.ofNat 7 (field w 5 7)) (BitVec.ofNat 1 (field w 0 1)))
  | 10 => zeroed w [(0, 1)] (.atomFaddF32 (BitVec.ofNat 7 (field w 19 7)) (BitVec.ofNat 7 (field w 12 7)) (BitVec.ofNat 7 (field w 5 7)))
  | 11 => zeroed w [(0, 1)] (.atomFaddBf16 (BitVec.ofNat 7 (field w 19 7)) (BitVec.ofNat 7 (field w 12 7)) (BitVec.ofNat 7 (field w 5 7)))
  | _ => .error .function

/-- Major 0x37 (R51). -/
def decode37 (w : Nat) : Except Reject Instr :=
  match field w 1 4 with
  | 0 => .ok (.atomoSwap (BitVec.ofNat 7 (field w 19 7)) (BitVec.ofNat 7 (field w 12 7)) (BitVec.ofNat 7 (field w 5 7)) (BitVec.ofNat 1 (field w 0 1)))
  | 1 => .ok (.atomoAdd (BitVec.ofNat 7 (field w 19 7)) (BitVec.ofNat 7 (field w 12 7)) (BitVec.ofNat 7 (field w 5 7)) (BitVec.ofNat 1 (field w 0 1)))
  | 2 => .ok (.atomoAnd (BitVec.ofNat 7 (field w 19 7)) (BitVec.ofNat 7 (field w 12 7)) (BitVec.ofNat 7 (field w 5 7)) (BitVec.ofNat 1 (field w 0 1)))
  | 3 => .ok (.atomoOr (BitVec.ofNat 7 (field w 19 7)) (BitVec.ofNat 7 (field w 12 7)) (BitVec.ofNat 7 (field w 5 7)) (BitVec.ofNat 1 (field w 0 1)))
  | 4 => .ok (.atomoXor (BitVec.ofNat 7 (field w 19 7)) (BitVec.ofNat 7 (field w 12 7)) (BitVec.ofNat 7 (field w 5 7)) (BitVec.ofNat 1 (field w 0 1)))
  | 5 => .ok (.atomoMin (BitVec.ofNat 7 (field w 19 7)) (BitVec.ofNat 7 (field w 12 7)) (BitVec.ofNat 7 (field w 5 7)) (BitVec.ofNat 1 (field w 0 1)))
  | 6 => .ok (.atomoMax (BitVec.ofNat 7 (field w 19 7)) (BitVec.ofNat 7 (field w 12 7)) (BitVec.ofNat 7 (field w 5 7)) (BitVec.ofNat 1 (field w 0 1)))
  | 7 => .ok (.atomoMinn (BitVec.ofNat 7 (field w 19 7)) (BitVec.ofNat 7 (field w 12 7)) (BitVec.ofNat 7 (field w 5 7)) (BitVec.ofNat 1 (field w 0 1)))
  | 8 => .ok (.atomoMaxn (BitVec.ofNat 7 (field w 19 7)) (BitVec.ofNat 7 (field w 12 7)) (BitVec.ofNat 7 (field w 5 7)) (BitVec.ofNat 1 (field w 0 1)))
  | 9 => .ok (.atomoCas (BitVec.ofNat 7 (field w 19 7)) (BitVec.ofNat 7 (field w 12 7)) (BitVec.ofNat 7 (field w 5 7)) (BitVec.ofNat 1 (field w 0 1)))
  | 10 => zeroed w [(0, 1)] (.atomoFaddF32 (BitVec.ofNat 7 (field w 19 7)) (BitVec.ofNat 7 (field w 12 7)) (BitVec.ofNat 7 (field w 5 7)))
  | 11 => zeroed w [(0, 1)] (.atomoFaddBf16 (BitVec.ofNat 7 (field w 19 7)) (BitVec.ofNat 7 (field w 12 7)) (BitVec.ofNat 7 (field w 5 7)))
  | _ => .error .function

/-- Major 0x38 (R51). -/
def decode38 (w : Nat) : Except Reject Instr :=
  .ok (.lda (BitVec.ofNat 7 (field w 19 7)) (BitVec.ofNat 7 (field w 12 7)) (BitVec.ofNat 3 (field w 9 3)) (BitVec.ofNat 3 (field w 6 3)) (BitVec.ofNat 6 (field w 0 6)))

/-- Major 0x39 (R51). -/
def decode39 (w : Nat) : Except Reject Instr :=
  .ok (.stl (BitVec.ofNat 7 (field w 19 7)) (BitVec.ofNat 7 (field w 12 7)) (BitVec.ofNat 3 (field w 9 3)) (BitVec.ofNat 3 (field w 6 3)) (BitVec.ofNat 6 (field w 0 6)))

/-- Major 0x3A (R51). -/
def decode3A (w : Nat) : Except Reject Instr :=
  match field w 9 3 with
  | 0 => zeroed w [(0, 6), (12, 14)] (.fenceAcq (BitVec.ofNat 3 (field w 6 3)))
  | 1 => zeroed w [(0, 6), (12, 14)] (.fenceRel (BitVec.ofNat 3 (field w 6 3)))
  | 2 => zeroed w [(0, 6), (12, 14)] (.fenceFull (BitVec.ofNat 3 (field w 6 3)))
  | 3 => zeroed w [(0, 6), (12, 14)] (.fenceWb (BitVec.ofNat 3 (field w 6 3)))
  | _ => .error .function

/-- Major 0x3B (R51). -/
def decode3B (w : Nat) : Except Reject Instr :=
  match field w 0 5 with
  | 0 => zeroed w [(9, 3)] (.sld (BitVec.ofNat 7 (field w 19 7)) (BitVec.ofNat 7 (field w 12 7)) (BitVec.ofNat 4 (field w 5 4)))
  | 1 => zeroed w [(9, 3)] (.sst (BitVec.ofNat 7 (field w 19 7)) (BitVec.ofNat 7 (field w 12 7)) (BitVec.ofNat 4 (field w 5 4)))
  | 2 => zeroed w [(9, 3)] (.sadd (BitVec.ofNat 7 (field w 19 7)) (BitVec.ofNat 7 (field w 12 7)) (BitVec.ofNat 4 (field w 5 4)))
  | 3 => zeroed w [(11, 1)] (.scan (BitVec.ofNat 7 (field w 19 7)) (BitVec.ofNat 7 (field w 12 7)) (BitVec.ofNat 2 (field w 9 2)) (BitVec.ofNat 4 (field w 5 4)))
  | 4 => zeroed w [(9, 10)] (.scnt (BitVec.ofNat 7 (field w 19 7)) (BitVec.ofNat 4 (field w 5 4)))
  | _ => .error .function

/-- Major 0x3C (R51). -/
def decode3C (w : Nat) : Except Reject Instr :=
  match field w 9 3 with
  | 0 => zeroed w [(19, 7)] (.pref (BitVec.ofNat 7 (field w 12 7)) (BitVec.ofNat 9 (field w 0 9)))
  | 1 => zeroed w [(19, 7)] (.prefl2 (BitVec.ofNat 7 (field w 12 7)) (BitVec.ofNat 9 (field w 0 9)))
  | 2 => zeroed w [(19, 7)] (.l1inv (BitVec.ofNat 7 (field w 12 7)) (BitVec.ofNat 9 (field w 0 9)))
  | 3 => zeroed w [(19, 7)] (.zline (BitVec.ofNat 7 (field w 12 7)) (BitVec.ofNat 9 (field w 0 9)))
  | _ => .error .function

/-- Major 0x3D (R51). -/
def decode3D (w : Nat) : Except Reject Instr :=
  match field w 0 5 with
  | 0 => zeroed w [(5, 7)] (.cpld (BitVec.ofNat 7 (field w 19 7)) (BitVec.ofNat 7 (field w 12 7)))
  | 1 => zeroed w [(5, 7)] (.cpst (BitVec.ofNat 7 (field w 19 7)) (BitVec.ofNat 7 (field w 12 7)))
  | 2 => .ok (.cpadd (BitVec.ofNat 7 (field w 19 7)) (BitVec.ofNat 7 (field w 12 7)) (BitVec.ofNat 7 (field w 5 7)))
  | 3 => .ok (.cpgat (BitVec.ofNat 7 (field w 19 7)) (BitVec.ofNat 7 (field w 12 7)) (BitVec.ofNat 7 (field w 5 7)))
  | 4 => .ok (.cpsca (BitVec.ofNat 7 (field w 19 7)) (BitVec.ofNat 7 (field w 12 7)) (BitVec.ofNat 7 (field w 5 7)))
  | 5 => zeroed w [(5, 7)] (.kvld (BitVec.ofNat 7 (field w 19 7)) (BitVec.ofNat 7 (field w 12 7)))
  | 6 => .ok (.dens (BitVec.ofNat 7 (field w 19 7)) (BitVec.ofNat 7 (field w 12 7)) (BitVec.ofNat 7 (field w 5 7)))
  | 7 => zeroed w [(5, 7)] (.cpfill (BitVec.ofNat 7 (field w 19 7)) (BitVec.ofNat 7 (field w 12 7)))
  | 8 => .ok (.cpcopy (BitVec.ofNat 7 (field w 19 7)) (BitVec.ofNat 7 (field w 12 7)) (BitVec.ofNat 7 (field w 5 7)))
  | 9 => .ok (.mma (BitVec.ofNat 7 (field w 19 7)) (BitVec.ofNat 7 (field w 12 7)) (BitVec.ofNat 7 (field w 5 7)))
  | 10 => .ok (.smma (BitVec.ofNat 7 (field w 19 7)) (BitVec.ofNat 7 (field w 12 7)) (BitVec.ofNat 7 (field w 5 7)))
  | 11 => zeroed w [(5, 14)] (.mzero (BitVec.ofNat 7 (field w 19 7)))
  | 12 => zeroed w [(12, 7)] (.mdrain (BitVec.ofNat 7 (field w 19 7)) (BitVec.ofNat 7 (field w 5 7)))
  | 13 => zeroed w [(5, 7)] (.rcfg (BitVec.ofNat 7 (field w 19 7)) (BitVec.ofNat 7 (field w 12 7)))
  | 14 => .ok (.rpush (BitVec.ofNat 7 (field w 19 7)) (BitVec.ofNat 7 (field w 12 7)) (BitVec.ofNat 7 (field w 5 7)))
  | 15 => .ok (.rpop (BitVec.ofNat 7 (field w 19 7)) (BitVec.ofNat 7 (field w 12 7)) (BitVec.ofNat 7 (field w 5 7)))
  | _ => .error .function

/-- Major 0x3E (R51). -/
def decode3E (w : Nat) : Except Reject Instr :=
  match field w 0 5 with
  | 0 => zeroed w [(5, 7)] (.shdef (BitVec.ofNat 7 (field w 19 7)) (BitVec.ofNat 7 (field w 12 7)))
  | 1 => zeroed w [(5, 7), (19, 7)] (.shret (BitVec.ofNat 7 (field w 12 7)))
  | 2 => zeroed w [(5, 7)] (.shget (BitVec.ofNat 7 (field w 19 7)) (BitVec.ofNat 7 (field w 12 7)))
  | 3 => .ok (.blkmap (BitVec.ofNat 7 (field w 19 7)) (BitVec.ofNat 7 (field w 12 7)) (BitVec.ofNat 7 (field w 5 7)))
  | 4 => .ok (.blkref (BitVec.ofNat 7 (field w 19 7)) (BitVec.ofNat 7 (field w 12 7)) (BitVec.ofNat 7 (field w 5 7)))
  | 5 => zeroed w [(5, 7)] (.blkfree (BitVec.ofNat 7 (field w 19 7)) (BitVec.ofNat 7 (field w 12 7)))
  | 6 => .ok (.blkmig (BitVec.ofNat 7 (field w 19 7)) (BitVec.ofNat 7 (field w 12 7)) (BitVec.ofNat 7 (field w 5 7)))
  | 7 => zeroed w [(5, 7)] (.blkst (BitVec.ofNat 7 (field w 19 7)) (BitVec.ofNat 7 (field w 12 7)))
  | 8 => zeroed w [(19, 7)] (.tlbinv (BitVec.ofNat 7 (field w 12 7)) (BitVec.ofNat 7 (field w 5 7)))
  | 9 => zeroed w [(19, 7)] (.impset (BitVec.ofNat 7 (field w 12 7)) (BitVec.ofNat 7 (field w 5 7)))
  | 10 => .ok (.bcfg (BitVec.ofNat 7 (field w 19 7)) (BitVec.ofNat 7 (field w 12 7)) (BitVec.ofNat 7 (field w 5 7)))
  | _ => .error .function

/-- Major 0x3F (R51), but for the functions with operands, which `decodeHigh` reads. -/
def decode3F (w : Nat) : Except Reject Instr :=
  match field w 0 5 with
  | 2 => zeroed w [(5, 21)] (.sysret)
  | 3 => zeroed w [(5, 21)] (.dump)
  | _ => .error .function

/-- The zero fields of the functions of major 0x3F that have operands (R377 to R380). -/
def highZeros (w : Nat) : List (Nat × Nat) :=
  match field w 0 5 with
  | 0 => []
  | 1 => []
  | 4 => [(5, 7)]
  | 5 => [(19, 7)]
  | 6 => [(19, 7)]
  | 7 => [(5, 7), (19, 7)]
  | _ => []

/-- The functions of major 0x3F that have operands: `ptset`, `keyld`, `qsce`, `impw`, `tstop`, `tresume` (R377 to R380).
These rows stand beyond the constructors that Lean's code generator can build with operands, so the terms are made here, in the one definition
that is not compiled, and `isHigh` lets the machine carry the rows out from the word's fields. -/
noncomputable def decodeHigh (w : Nat) : Except Reject Instr :=
  match field w 0 5 with
  | 0 => zeroed w (highZeros w) (.ptset (BitVec.ofNat 7 (field w 19 7)) (BitVec.ofNat 7 (field w 12 7)) (BitVec.ofNat 7 (field w 5 7)))
  | 1 => zeroed w (highZeros w) (.keyld (BitVec.ofNat 7 (field w 19 7)) (BitVec.ofNat 7 (field w 12 7)) (BitVec.ofNat 7 (field w 5 7)))
  | 4 => zeroed w (highZeros w) (.qsce (BitVec.ofNat 7 (field w 19 7)) (BitVec.ofNat 7 (field w 12 7)))
  | 5 => zeroed w (highZeros w) (.impw (BitVec.ofNat 7 (field w 12 7)) (BitVec.ofNat 7 (field w 5 7)))
  | 6 => zeroed w (highZeros w) (.tstop (BitVec.ofNat 7 (field w 12 7)) (BitVec.ofNat 7 (field w 5 7)))
  | 7 => zeroed w (highZeros w) (.tresume (BitVec.ofNat 7 (field w 12 7)))
  | _ => .error .function

/-- Is the word one of the rows that `decodeHigh` reads? -/
def isHigh (w : Nat) : Bool :=
  field w 26 6 == 0x3F && (field w 0 5 ≤ 1 || (4 ≤ field w 0 5 && field w 0 5 ≤ 7))

/-- The instruction a word is, before its operand fields are checked, for every row but those of `decodeHigh`. -/
def decodeLow (w : Nat) : Except Reject Instr :=
  match field w 26 6 with
  | 0x00 => decode00 w
  | 0x01 => decode01 w
  | 0x02 => decode02 w
  | 0x03 => decode03 w
  | 0x04 => decode04 w
  | 0x05 => decode05 w
  | 0x06 => decode06 w
  | 0x07 => decode07 w
  | 0x08 => decode08 w
  | 0x09 => decode09 w
  | 0x0A => decode0A w
  | 0x0B => decode0B w
  | 0x0C => decode0C w
  | 0x0D => decode0D w
  | 0x0E => decode0E w
  | 0x10 => decode10 w
  | 0x11 => decode11 w
  | 0x12 => decode12 w
  | 0x13 => decode13 w
  | 0x14 => decode14 w
  | 0x15 => decode15 w
  | 0x16 => decode16 w
  | 0x17 => decode17 w
  | 0x18 => decode18 w
  | 0x19 => decode19 w
  | 0x1A => decode1A w
  | 0x1B => decode1B w
  | 0x1C => decode1C w
  | 0x1D => decode1D w
  | 0x1E => decode1E w
  | 0x20 => decode20 w
  | 0x21 => decode21 w
  | 0x22 => decode22 w
  | 0x23 => decode23 w
  | 0x24 => decode24 w
  | 0x25 => decode25 w
  | 0x26 => decode26 w
  | 0x27 => decode27 w
  | 0x28 => decode28 w
  | 0x29 => decode29 w
  | 0x30 => decode30 w
  | 0x31 => decode31 w
  | 0x32 => decode32 w
  | 0x33 => decode33 w
  | 0x34 => decode34 w
  | 0x35 => decode35 w
  | 0x36 => decode36 w
  | 0x37 => decode37 w
  | 0x38 => decode38 w
  | 0x39 => decode39 w
  | 0x3A => decode3A w
  | 0x3B => decode3B w
  | 0x3C => decode3C w
  | 0x3D => decode3D w
  | 0x3E => decode3E w
  | 0x3F => decode3F w
  | _ => .error .major

/-- The operand check of R55, after the fields have been read. -/
def checked : Except Reject Instr → Except Reject Instr
  | .ok i => if i.wf then .ok i else .error .operand
  | .error e => .error e

/-- The instruction a word is, for every row but those of `decodeHigh`. -/
def decodeMain (w : Word) : Except Reject Instr := checked (decodeLow w.toNat)

/-- The instruction a word is, or why it is none (R55). An `ext` is given the all-zero word as its partner. -/
noncomputable def decodeWord (w : Word) : Except Reject Instr :=
  if isHigh w.toNat then checked (decodeHigh w.toNat) else decodeMain w

/-- Why a word is reserved (R55), none if it is an instruction. -/
def reservedBy (w : Word) : Option Reject :=
  if isHigh w.toNat then (if zeros w.toNat (highZeros w.toNat) then none else some .zeroField)
  else match decodeMain w with
    | .ok _ => none
    | .error e => some e

/-- A word from four bytes, the lowest address first (R5). -/
def wordOfBytes (b0 b1 b2 b3 : Byte) : Word :=
  BitVec.ofNat 32 (b0.toNat + b1.toNat * 2 ^ 8 + b2.toNat * 2 ^ 16 + b3.toNat * 2 ^ 24)

/-- The four bytes of a word, the lowest address first (R5). -/
def bytesOfWord (w : Word) : List Byte :=
  [BitVec.ofNat 8 w.toNat, BitVec.ofNat 8 (w.toNat / 2 ^ 8), BitVec.ofNat 8 (w.toNat / 2 ^ 16), BitVec.ofNat 8 (w.toNat / 2 ^ 24)]

/-- Does a word begin an `ext` pair? -/
def isExt (w : Word) : Bool := field w.toNat 26 6 == 0x0E

/-- The instruction of a word and, for an `ext`, of its partner (R49). -/
noncomputable def decodePair (w : Word) (partner : Word) : Except Reject Instr :=
  if isExt w then .ok (.ext (BitVec.ofNat 26 w.toNat) partner) else decodeWord w

/-- The instruction at the head of a run of bytes and the bytes after it, total on any bytes. -/
noncomputable def decodeBytes : List Byte → Except Reject (Instr × List Byte)
  | b0 :: b1 :: b2 :: b3 :: rest =>
    let w := wordOfBytes b0 b1 b2 b3
    if isExt w then
      match rest with
      | c0 :: c1 :: c2 :: c3 :: rest' => (decodePair w (wordOfBytes c0 c1 c2 c3)).map (fun i => (i, rest'))
      | _ => .error .tooShort
    else (decodeWord w).map (fun i => (i, rest))
  | _ => .error .tooShort

/-- `base` with one field placed at a bit. -/
def enc1 (base : Nat) {n : Nat} (x : BitVec n) (lo : Nat) : Nat := base + x.toNat * 2 ^ lo
/-- `base` with two fields placed. -/
def enc2 (base : Nat) {n m : Nat} (x : BitVec n) (lo : Nat) (y : BitVec m) (lo' : Nat) : Nat := enc1 (enc1 base x lo) y lo'
/-- `base` with three fields placed. -/
def enc3 (base : Nat) {n m k : Nat} (x : BitVec n) (lo : Nat) (y : BitVec m) (lo' : Nat) (z : BitVec k) (lo'' : Nat) : Nat :=
  enc1 (enc2 base x lo y lo') z lo''
/-- `base` with four fields placed. -/
def enc4 (base : Nat) {n m k j : Nat} (x : BitVec n) (lo : Nat) (y : BitVec m) (lo' : Nat) (z : BitVec k) (lo'' : Nat)
    (u : BitVec j) (l3 : Nat) : Nat := enc1 (enc3 base x lo y lo' z lo'') u l3
/-- `base` with five fields placed. -/
def enc5 (base : Nat) {n m k j p : Nat} (x : BitVec n) (lo : Nat) (y : BitVec m) (lo' : Nat) (z : BitVec k) (lo'' : Nat)
    (u : BitVec j) (l3 : Nat) (v : BitVec p) (l4 : Nat) : Nat := enc1 (enc4 base x lo y lo' z lo'' u l3) v l4

/-- The word of an encoded row, as a number: its operation's bits and each field at its place (R44 to R47, R51). A
row without an encoding gives 0. -/
def encodeNat : Instr → Nat
  | .nop => 0x00000000
  | .halt => 0x00000001
  | .trap c => enc1 0x00000002 c 5
  | .brk => 0x00000003
  | .yield => 0x00000004
  | .wfm => 0x00000005
  | .add d a b => enc3 0x04000000 d 19 a 12 b 5
  | .sub d a b => enc3 0x04000001 d 19 a 12 b 5
  | .mul d a b => enc3 0x04000002 d 19 a 12 b 5
  | .mulh d a b => enc3 0x04000003 d 19 a 12 b 5
  | .mulhn d a b => enc3 0x04000004 d 19 a 12 b 5
  | .div d a b => enc3 0x04000005 d 19 a 12 b 5
  | .divn d a b => enc3 0x04000006 d 19 a 12 b 5
  | .rem d a b => enc3 0x04000007 d 19 a 12 b 5
  | .remn d a b => enc3 0x04000008 d 19 a 12 b 5
  | .and d a b => enc3 0x04000009 d 19 a 12 b 5
  | .or d a b => enc3 0x0400000A d 19 a 12 b 5
  | .xor d a b => enc3 0x0400000B d 19 a 12 b 5
  | .andn d a b => enc3 0x0400000C d 19 a 12 b 5
  | .shl d a b => enc3 0x0400000D d 19 a 12 b 5
  | .shr d a b => enc3 0x0400000E d 19 a 12 b 5
  | .sra d a b => enc3 0x0400000F d 19 a 12 b 5
  | .rotr d a b => enc3 0x04000010 d 19 a 12 b 5
  | .min d a b => enc3 0x04000011 d 19 a 12 b 5
  | .max d a b => enc3 0x04000012 d 19 a 12 b 5
  | .minn d a b => enc3 0x04000013 d 19 a 12 b 5
  | .maxn d a b => enc3 0x04000014 d 19 a 12 b 5
  | .cmpeq d a b => enc3 0x04000015 d 19 a 12 b 5
  | .cmplt d a b => enc3 0x04000016 d 19 a 12 b 5
  | .cmpltn d a b => enc3 0x04000017 d 19 a 12 b 5
  | .clz d a => enc2 0x04000018 d 19 a 12
  | .ctz d a => enc2 0x04000019 d 19 a 12
  | .popc d a => enc2 0x0400001A d 19 a 12
  | .sext d a w => enc3 0x0400001B d 19 a 12 w 5
  | .zext d a w => enc3 0x0400001C d 19 a 12 w 5
  | .addi d a i => enc3 0x08000000 d 19 a 12 i 0
  | .andi d a i => enc3 0x0C000000 d 19 a 12 i 0
  | .ori d a i => enc3 0x10000000 d 19 a 12 i 0
  | .xori d a i => enc3 0x14000000 d 19 a 12 i 0
  | .shli d a n => enc3 0x18000000 d 19 a 12 n 0
  | .shri d a n => enc3 0x18000400 d 19 a 12 n 0
  | .srai d a n => enc3 0x18000800 d 19 a 12 n 0
  | .roti d a n => enc3 0x18000C00 d 19 a 12 n 0
  | .seqi d a i => enc3 0x1C000000 d 19 a 12 i 0
  | .slti d a i => enc3 0x1C000400 d 19 a 12 i 0
  | .sltni d a i => enc3 0x1C000800 d 19 a 12 i 0
  | .movi d i => enc2 0x20000000 d 19 i 0
  | .movk d q v => enc3 0x24000000 d 19 q 17 v 0
  | .sel d a b k => enc4 0x28000000 d 19 a 12 b 5 k 0
  | .kcmp d a b c => enc4 0x2C000000 d 19 a 12 b 5 c 0
  | .kand d a b => enc3 0x30000000 d 19 a 12 b 5
  | .kor d a b => enc3 0x30000001 d 19 a 12 b 5
  | .kxor d a b => enc3 0x30000002 d 19 a 12 b 5
  | .kandn d a b => enc3 0x30000003 d 19 a 12 b 5
  | .knot d a => enc2 0x30000004 d 19 a 12
  | .kmov d a => enc2 0x30000005 d 19 a 12
  | .vtok d a => enc2 0x30000006 d 19 a 12
  | .ktov d a => enc2 0x30000007 d 19 a 12
  | .kpopc d a => enc2 0x30000008 d 19 a 12
  | .vmask d a w => enc3 0x30000009 d 19 a 12 w 5
  | .kfirst d a => enc2 0x3000000A d 19 a 12
  | .ctlr d n => enc2 0x34000000 d 19 n 0
  | .ctlw a n => enc2 0x34000400 a 12 n 0
  | .ctls a n => enc2 0x34000800 a 12 n 0
  | .ctlc a n => enc2 0x34000C00 a 12 n 0
  | .ext i _ => enc1 0x38000000 i 0
  | .bt k d => enc2 0x40400000 k 23 d 0
  | .bf k d => enc2 0x40000000 k 23 d 0
  | .jmp d => enc1 0x44000000 d 0
  | .call d => enc1 0x48000000 d 0
  | .jr a => enc1 0x4C000000 a 12
  | .callr a => enc1 0x4C000001 a 12
  | .ret => 0x4C000002
  | .loopi l c e => enc3 0x51000000 l 25 c 14 e 0
  | .loop l a e => enc3 0x50000000 l 25 a 14 e 0
  | .rpt n r d a b => enc5 0x54000000 n 22 r 16 d 12 a 8 b 4
  | .detach => 0x58000000
  | .join i => enc1 0x58000001 i 5
  | .fstat d => enc1 0x58000002 d 19
  | .fidx d => enc1 0x58000003 d 19
  | .pick d n s => enc3 0x5C000000 d 19 n 12 s 0
  | .mread d f s => enc3 0x5C020000 d 19 f 12 s 0
  | .mnote s => enc1 0x5C040000 s 0
  | .wait l s c m => enc4 0x60000000 l 22 s 18 c 14 m 10
  | .tlwait a b => enc2 0x64000000 a 12 b 5
  | .tlread d a => enc2 0x64000001 d 19 a 12
  | .tlnext d a => enc2 0x64000002 d 19 a 12
  | .arrive d i => enc2 0x68000000 d 19 i 5
  | .await a i => enc2 0x68000001 a 12 i 5
  | .arwt d i => enc2 0x68000002 d 19 i 5
  | .bstat d i => enc2 0x68000003 d 19 i 5
  | .send h a b => enc3 0x6C000000 h 19 a 12 b 5
  | .rcv d => enc1 0x6C000001 d 19
  | .msk n => enc1 0x6C000002 n 5
  | .rti => 0x6C000003
  | .dep d a b => enc3 0x6C000004 d 19 a 12 b 5
  | .arm d => enc1 0x6C000005 d 19
  | .probe d => enc1 0x6C000006 d 19
  | .mig a => enc1 0x70000000 a 12
  | .migret => 0x70000001
  | .migst d a => enc2 0x70000002 d 19 a 12
  | .spawn d a b => enc3 0x74000000 d 19 a 12 b 5
  | .dec a => enc1 0x74000001 a 12
  | .tdone => 0x74000002
  | .tself d => enc1 0x74000003 d 19
  | .rtopen d a => enc2 0x78000000 d 19 a 12
  | .rtsub d a b => enc3 0x78000001 d 19 a 12 b 5
  | .rtclose d a => enc2 0x78000002 d 19 a 12
  | .rtget d a b => enc3 0x78000003 d 19 a 12 b 5
  | .rtstat d a => enc2 0x78000004 d 19 a 12
  | .vadd d a b w => enc4 0x80000000 d 19 a 12 b 5 w 0
  | .vsub d a b w => enc4 0x80000004 d 19 a 12 b 5 w 0
  | .vmul d a b w => enc4 0x80000008 d 19 a 12 b 5 w 0
  | .vmac d a b w => enc4 0x8000000C d 19 a 12 b 5 w 0
  | .vmin d a b w => enc4 0x80000010 d 19 a 12 b 5 w 0
  | .vmax d a b w => enc4 0x80000014 d 19 a 12 b 5 w 0
  | .vminn d a b w => enc4 0x80000018 d 19 a 12 b 5 w 0
  | .vmaxn d a b w => enc4 0x8000001C d 19 a 12 b 5 w 0
  | .vand d a b w => enc4 0x84000000 d 19 a 12 b 5 w 0
  | .vor d a b w => enc4 0x84000004 d 19 a 12 b 5 w 0
  | .vxor d a b w => enc4 0x84000008 d 19 a 12 b 5 w 0
  | .vandn d a b w => enc4 0x8400000C d 19 a 12 b 5 w 0
  | .vshl d a b w => enc4 0x84000010 d 19 a 12 b 5 w 0
  | .vshr d a b w => enc4 0x84000014 d 19 a 12 b 5 w 0
  | .vsra d a b w => enc4 0x84000018 d 19 a 12 b 5 w 0
  | .vpopc d a w => enc3 0x8400001C d 19 a 12 w 0
  | .vceq d a b w => enc4 0x88000000 d 19 a 12 b 5 w 0
  | .vcne d a b w => enc4 0x88000004 d 19 a 12 b 5 w 0
  | .vclt d a b w => enc4 0x88000008 d 19 a 12 b 5 w 0
  | .vcge d a b w => enc4 0x8800000C d 19 a 12 b 5 w 0
  | .vcltn d a b w => enc4 0x88000010 d 19 a 12 b 5 w 0
  | .vcgen d a b w => enc4 0x88000014 d 19 a 12 b 5 w 0
  | .vfadd d a b f => enc4 0x8C000000 d 19 a 12 b 5 f 0
  | .vfsub d a b f => enc4 0x8C000004 d 19 a 12 b 5 f 0
  | .vfmul d a b f => enc4 0x8C000008 d 19 a 12 b 5 f 0
  | .vfma d a b f => enc4 0x8C00000C d 19 a 12 b 5 f 0
  | .vfmin d a b f => enc4 0x8C000010 d 19 a 12 b 5 f 0
  | .vfmax d a b f => enc4 0x8C000014 d 19 a 12 b 5 f 0
  | .vfdiv d a b f => enc4 0x8C000018 d 19 a 12 b 5 f 0
  | .vfsqrt d a f => enc3 0x8C00001C d 19 a 12 f 0
  | .vfrcp d a f => enc3 0x90000000 d 19 a 12 f 0
  | .vfrsq d a f => enc3 0x90000004 d 19 a 12 f 0
  | .vfexp2 d a f => enc3 0x90000008 d 19 a 12 f 0
  | .vflog2 d a f => enc3 0x9000000C d 19 a 12 f 0
  | .vfabs d a f => enc3 0x90000010 d 19 a 12 f 0
  | .vfneg d a f => enc3 0x90000014 d 19 a 12 f 0
  | .vfclt d a b f => enc4 0x90000018 d 19 a 12 b 5 f 0
  | .vfceq d a b f => enc4 0x9000001C d 19 a 12 b 5 f 0
  | .cvtBf16F32 d a s r => enc4 0x94000000 d 19 a 12 s 11 r 8
  | .cvtF16F32 d a s r => enc4 0x94000001 d 19 a 12 s 11 r 8
  | .cvtF32Bf16 d a s r => enc4 0x94000002 d 19 a 12 s 11 r 8
  | .cvtF32F16 d a s r => enc4 0x94000003 d 19 a 12 s 11 r 8
  | .cvtE4m3F32 d a s r => enc4 0x94000004 d 19 a 12 s 11 r 8
  | .cvtE5m2F32 d a s r => enc4 0x94000005 d 19 a 12 s 11 r 8
  | .cvtF32E4m3 d a s r => enc4 0x94000006 d 19 a 12 s 11 r 8
  | .cvtF32E5m2 d a s r => enc4 0x94000007 d 19 a 12 s 11 r 8
  | .cvtI32F32 d a s r => enc4 0x94000008 d 19 a 12 s 11 r 8
  | .cvtF32I32 d a s r => enc4 0x94000009 d 19 a 12 s 11 r 8
  | .cvtI8I32 d a s r => enc4 0x9400000A d 19 a 12 s 11 r 8
  | .cvtI32I8 d a s r => enc4 0x9400000B d 19 a 12 s 11 r 8
  | .q4pack d a s r t => enc5 0x9400000C d 19 a 12 s 11 r 8 t 6
  | .q4unpk d a s r => enc4 0x9400000D d 19 a 12 s 11 r 8
  | .vrsum d a t => enc3 0x98000000 d 19 a 12 t 0
  | .vrmax d a t => enc3 0x98000004 d 19 a 12 t 0
  | .vrmin d a t => enc3 0x98000008 d 19 a 12 t 0
  | .vrarg d a t => enc3 0x9800000C d 19 a 12 t 0
  | .vrdot d a b t => enc4 0x98000010 d 19 a 12 b 5 t 0
  | .vsplat d a w => enc3 0x9C000000 d 19 a 12 w 0
  | .vshuf d a b w => enc4 0x9C000004 d 19 a 12 b 5 w 0
  | .vslup d a b w => enc4 0x9C000008 d 19 a 12 b 5 w 0
  | .vsldn d a b w => enc4 0x9C00000C d 19 a 12 b 5 w 0
  | .vcomp d a w => enc3 0x9C000010 d 19 a 12 w 0
  | .vexpd d a w => enc3 0x9C000014 d 19 a 12 w 0
  | .vzip d a b w => enc4 0x9C000018 d 19 a 12 b 5 w 0
  | .vunzip d a b w => enc4 0x9C00001C d 19 a 12 b 5 w 0
  | .ixdot d a b => enc3 0xA0000000 d 19 a 12 b 5
  | .bmpfx d a => enc2 0xA0000001 d 19 a 12
  | .ixcnt d a b => enc3 0xA0000002 d 19 a 12 b 5
  | .vtopk d a b => enc3 0xA4000000 d 19 a 12 b 5
  | .vsort d a => enc2 0xA4000001 d 19 a 12
  | .vmrg d a b => enc3 0xA4000002 d 19 a 12 b 5
  | .ld d a s i => enc4 0xC0000000 d 19 a 12 s 9 i 0
  | .st d a s i => enc4 0xC4000000 d 19 a 12 s 9 i 0
  | .vld d a i => enc3 0xC8000000 d 19 a 12 i 0
  | .vst d a i => enc3 0xCC000000 d 19 a 12 i 0
  | .ldx d a b s x => enc5 0xD0000000 d 19 a 12 b 5 s 2 x 0
  | .stx d a b s x => enc5 0xD4000000 d 19 a 12 b 5 s 2 x 0
  | .atomSwap d a b w => enc4 0xD8000000 d 19 a 12 b 5 w 0
  | .atomAdd d a b w => enc4 0xD8000002 d 19 a 12 b 5 w 0
  | .atomAnd d a b w => enc4 0xD8000004 d 19 a 12 b 5 w 0
  | .atomOr d a b w => enc4 0xD8000006 d 19 a 12 b 5 w 0
  | .atomXor d a b w => enc4 0xD8000008 d 19 a 12 b 5 w 0
  | .atomMin d a b w => enc4 0xD800000A d 19 a 12 b 5 w 0
  | .atomMax d a b w => enc4 0xD800000C d 19 a 12 b 5 w 0
  | .atomMinn d a b w => enc4 0xD800000E d 19 a 12 b 5 w 0
  | .atomMaxn d a b w => enc4 0xD8000010 d 19 a 12 b 5 w 0
  | .atomCas d a b w => enc4 0xD8000012 d 19 a 12 b 5 w 0
  | .atomFaddF32 d a b => enc3 0xD8000014 d 19 a 12 b 5
  | .atomFaddBf16 d a b => enc3 0xD8000016 d 19 a 12 b 5
  | .atomoSwap d a b w => enc4 0xDC000000 d 19 a 12 b 5 w 0
  | .atomoAdd d a b w => enc4 0xDC000002 d 19 a 12 b 5 w 0
  | .atomoAnd d a b w => enc4 0xDC000004 d 19 a 12 b 5 w 0
  | .atomoOr d a b w => enc4 0xDC000006 d 19 a 12 b 5 w 0
  | .atomoXor d a b w => enc4 0xDC000008 d 19 a 12 b 5 w 0
  | .atomoMin d a b w => enc4 0xDC00000A d 19 a 12 b 5 w 0
  | .atomoMax d a b w => enc4 0xDC00000C d 19 a 12 b 5 w 0
  | .atomoMinn d a b w => enc4 0xDC00000E d 19 a 12 b 5 w 0
  | .atomoMaxn d a b w => enc4 0xDC000010 d 19 a 12 b 5 w 0
  | .atomoCas d a b w => enc4 0xDC000012 d 19 a 12 b 5 w 0
  | .atomoFaddF32 d a b => enc3 0xDC000014 d 19 a 12 b 5
  | .atomoFaddBf16 d a b => enc3 0xDC000016 d 19 a 12 b 5
  | .lda d a s c i => enc5 0xE0000000 d 19 a 12 s 9 c 6 i 0
  | .stl d a s c i => enc5 0xE4000000 d 19 a 12 s 9 c 6 i 0
  | .fenceAcq c => enc1 0xE8000000 c 6
  | .fenceRel c => enc1 0xE8000200 c 6
  | .fenceFull c => enc1 0xE8000400 c 6
  | .fenceWb c => enc1 0xE8000600 c 6
  | .sld d a g => enc3 0xEC000000 d 19 a 12 g 5
  | .sst d a g => enc3 0xEC000001 d 19 a 12 g 5
  | .sadd d a g => enc3 0xEC000002 d 19 a 12 g 5
  | .scan d a n g => enc4 0xEC000003 d 19 a 12 n 9 g 5
  | .scnt d g => enc2 0xEC000004 d 19 g 5
  | .pref a i => enc2 0xF0000000 a 12 i 0
  | .prefl2 a i => enc2 0xF0000200 a 12 i 0
  | .l1inv a i => enc2 0xF0000400 a 12 i 0
  | .zline a i => enc2 0xF0000600 a 12 i 0
  | .cpld a b => enc2 0xF4000000 a 19 b 12
  | .cpst a b => enc2 0xF4000001 a 19 b 12
  | .cpadd a b c => enc3 0xF4000002 a 19 b 12 c 5
  | .cpgat a b c => enc3 0xF4000003 a 19 b 12 c 5
  | .cpsca a b c => enc3 0xF4000004 a 19 b 12 c 5
  | .kvld a b => enc2 0xF4000005 a 19 b 12
  | .dens a b c => enc3 0xF4000006 a 19 b 12 c 5
  | .cpfill a b => enc2 0xF4000007 a 19 b 12
  | .cpcopy a b c => enc3 0xF4000008 a 19 b 12 c 5
  | .mma a b c => enc3 0xF4000009 a 19 b 12 c 5
  | .smma a b c => enc3 0xF400000A a 19 b 12 c 5
  | .mzero a => enc1 0xF400000B a 19
  | .mdrain a c => enc2 0xF400000C a 19 c 5
  | .rcfg a b => enc2 0xF400000D a 19 b 12
  | .rpush a b c => enc3 0xF400000E a 19 b 12 c 5
  | .rpop a b c => enc3 0xF400000F a 19 b 12 c 5
  | .shdef a b => enc2 0xF8000000 a 19 b 12
  | .shret b => enc1 0xF8000001 b 12
  | .shget a b => enc2 0xF8000002 a 19 b 12
  | .blkmap a b c => enc3 0xF8000003 a 19 b 12 c 5
  | .blkref a b c => enc3 0xF8000004 a 19 b 12 c 5
  | .blkfree a b => enc2 0xF8000005 a 19 b 12
  | .blkmig a b c => enc3 0xF8000006 a 19 b 12 c 5
  | .blkst a b => enc2 0xF8000007 a 19 b 12
  | .tlbinv b c => enc2 0xF8000008 b 12 c 5
  | .impset b c => enc2 0xF8000009 b 12 c 5
  | .bcfg a b c => enc3 0xF800000A a 19 b 12 c 5
  | .ptset d a b => enc3 0xFC000000 d 19 a 12 b 5
  | .keyld d a b => enc3 0xFC000001 d 19 a 12 b 5
  | .sysret => 0xFC000002
  | .dump => 0xFC000003
  | .qsce d a => enc2 0xFC000004 d 19 a 12
  | .impw a b => enc2 0xFC000005 a 12 b 5
  | .tstop a b => enc2 0xFC000006 a 12 b 5
  | .tresume a => enc1 0xFC000007 a 12
  | .uresmWrite _ => 0
  | .coreclkWrite _ _ => 0
  | .evselWrite _ _ _ => 0
  | .wdogWrite _ _ => 0
  | .lpcWrite _ _ _ => 0
  | .launch _ _ => 0
  | .regionOpen _ _ _ => 0
  | .regionClose _ _ _ => 0
  | .regionCloseEffect _ => 0
  | .hostnote _ _ _ => 0
  | .blocksAdd _ _ _ _ => 0
  | .checkpoint _ _ _ => 0
  | .checkpointReply => 0
  | .attestationReport _ => 0
  | .exportCfg _ _ _ _ _ _ _ _ => 0
  | .peerWindow _ _ _ _ _ => 0
  | .tenantTableChange _ _ => 0
  | .proofingClear _ _ => 0
  | .exportAccess _ _ _ _ _ _ => 0
  | .peerPlacement _ => 0
  | .powerOn _ _ _ _ => 0
  | .deviceReset => 0
  | .powerCeiling => 0
  | .thermalTrip _ _ => 0
  | .sensorUntrusted _ _ _ => 0
  | .sensorTrusted _ _ _ => 0
  | .voltageStep _ _ _ => 0
  | .clockHop _ _ _ => 0
  | .droop _ _ _ => 0
  | .powerBubble _ _ _ => 0
  | .launchSelect => 0
  | .placement => 0
  | .formeCreation _ _ => 0
  | .terminationSweep _ => 0
  | .preEmption _ => 0
  | .restore _ => 0
  | .bankClaim _ _ => 0
  | .messageArrival _ => 0
  | .mailboxOverflow _ => 0
  | .handlerEntry _ => 0
  | .depositArrival _ => 0
  | .decrement _ => 0
  | .guestAdmission _ => 0
  | .copyCommandStart _ => 0
  | .copyCommandComplete _ _ => 0
  | .engineFailed _ _ _ => 0
  | .tileGrant _ => 0
  | .tileRetirement _ _ => 0
  | .drainTurn _ _ => 0
  | .drainComplete _ _ => 0
  | .orderedEntryCompletion _ _ _ => 0
  | .take _ => 0
  | .remap _ _ => 0
  | .release _ _ => 0
  | .blockReturn _ => 0
  | .blockBusy _ => 0
  | .notificationRecord _ => 0
  | .routingAdmission _ => 0
  | .regionPoint _ _ => 0
  | .loadDataReturn _ _ => 0
  | .storeAcknowledgement _ => 0
  | .invalidationComplete _ => 0
  | .dirtyLogMerge _ => 0
  | .marginRecord _ => 0
  | .upcallRun _ _ => 0
  | .machineEntry _ => 0
  | .breakpoint _ => 0
  | .fatalError _ _ _ => 0
  | .watchdog _ => 0
  | .yieldExpiry _ => 0
  | .maskBoundExpiry _ => 0
  | .stateChangePass _ => 0
  | .logDrain _ => 0
  | .proofingSample _ => 0
  | .barrelIssue _ => 0
  | .reservedWord _ _ => 0
  | .translationWalk _ => 0
  | .rdcInvalidation _ _ => 0
  | .frameZeroed _ => 0
  | .migretArrival _ => 0
  | .uncorrectableError _ => 0
  | .powerCeilingLifted => 0
  | .powerOff => 0
  | .recoveryImage _ _ => 0
  | .sessionSetup _ _ _ _ _ => 0
  | .checkpointResume => 0
  | .dieEventCounterWrite _ _ _ _ => 0
  | .proofingSettings _ _ => 0

/-- The first word of an instruction. -/
def encode (i : Instr) : Word := BitVec.ofNat 32 (encodeNat i)

/-- The second word of an `ext` pair. -/
def partnerOf : Instr → Option Word
  | .ext _ w => some w
  | _ => none

/-- The bytes of an instruction, the lowest address first. -/
def encodeBytes (i : Instr) : List Byte :=
  match partnerOf i with
  | some w => bytesOfWord (encode i) ++ bytesOfWord w
  | none => bytesOfWord (encode i)

/-- The eight bytes of a number below 2^64, the lowest address first. -/
def bytesOfNat8 (w : Nat) : List Byte := bytesOfWord (BitVec.ofNat 32 w) ++ bytesOfWord (BitVec.ofNat 32 (w / 2 ^ 32))

/-- The instruction the decoder reads from an instruction of `n` bits whose bits are `w`, the bits above being 0. -/
noncomputable def decodeTableWord (n w : Nat) : Option Instr :=
  match decodeBytes (bytesOfNat8 (w % 2 ^ n)) with
  | .ok (i, _) => some i
  | .error _ => none

end Sys2Proof
end

