-- ==== Sys2Proof/Config.lean ====
section
/-! DEFINITION. Sys2Proof/Config.lean: what an implementation fixes and what the spec leaves open, as constants without
a body: nothing can be proved of their values, so a claim holds whatever they are. Each is named in a log entry. -/

namespace Sys2Proof.Config

/-- The byte that a physical address nothing has written reads as, under the key material `key` (R166); log 5, DESIGN CHOICE. -/
opaque undefByte (key : BitVec 512) (addr : Nat) : Byte
/-- The byte that an address written under the material `written` reads as under `key` (R168); log 5, DESIGN CHOICE. -/
opaque wrongKeyByte (written key : BitVec 512) (addr : Nat) : Byte
/-- The byte that on-chip SRAM nothing has written holds (R171 zeroes a grant, nothing zeroes the rest); log 5, DESIGN CHOICE. -/
opaque sramByte (unit addr : Nat) : Byte
/-- The nanoseconds that pass between two readings of TIME (R1, R348); log 7, DESIGN CHOICE. -/
opaque elapsed : Nat → Nat
/-- The machine vector that a verified firmware image fixes (R375, R389); log 8, DESIGN CHOICE. -/
opaque machineVector (image : Nat) : Dword
/-- What the fields of a sparse q4 slot mean: the 128 codes of row or column `r` of a slot (R173 gives no layout); log 9, DESIGN CHOICE. -/
opaque sparseQ4 (slot : List Byte) (r : Nat) : BitVec 512
/-- The module serial (R390); log 8, DESIGN CHOICE. -/
opaque serial : Dword
/-- The Ed25519 signature of an attestation report under the private key that belongs to an identity public key (R389, R390); log 8, DESIGN
CHOICE. -/
opaque signature (key : BitVec 256) (digests : BitVec 1024) (nonce : BitVec 256) (time serial : Dword) : BitVec 512
/-- Where the tenant table (0) and the key table (1) lie in machine memory (R327, R329, R381); log 21, DESIGN CHOICE. -/
opaque tableBase (table : Nat) : Dword
/-- The cause that the dump's header gives an error which is no fault: 0 `dump`, 1 a thermal trip (R381); log 21, DESIGN CHOICE. -/
opaque dumpCause (kind : Nat) : BitVec 32
/-- A value that an instruction leaves to the implementation, read at a counter of State; log 7, DESIGN CHOICE. -/
opaque freeWord : Nat → Dword
/-- Where the stack pools lie in HBM, as a page number that is reduced into it (R174); log 19, DESIGN CHOICE. -/
opaque stackPool : Nat
/-- MARGB of a launch: where the live margin of an image (its IMAGEID) lies among those of a tenant whose MARGP is given, in machine memory
that no mapping reaches (R182, R329); log 7, DESIGN CHOICE. -/
opaque marginBase (margp image : Dword) : Dword
/-- SNAPB of a launch (R182); log 7, DESIGN CHOICE. -/
opaque snapBase : Nat → Dword
/-- The reply of a peer's memory to a read or an atomic (R203, R388); log 10, DESIGN CHOICE. -/
opaque peerBytes (window offset n : Nat) : BitVec 512

end Sys2Proof.Config
end

