-- ==== Sys2Proof/Machine/State.lean ====
section
/-! DEFINITION. Sys2Proof/Machine/State.lean: everything the spec gives the device, as plain data, and the state after
reset. INVENTORY.md names the rule of each field. A `Map` lists the entries that differ from an absent one, by
ascending key; what an absent entry stands for is said at each field. A thread slot of the device has the number
64 * (device core number) + slot (R9). -/

namespace Sys2Proof.Machine

/-- Entries by ascending key. -/
abbrev Map (α : Type) := List (Nat × α)

/-- Why a step can stop the machine. -/
inductive Fault where
  /-- Raised by every instruction's meaning when the slot `cur` names holds no live thread: no hardware issues then, so
  the stop is safe. -/
  | noThread
  deriving DecidableEq, Repr

/-- Why an instruction has no meaning. -/
inductive Refusal where
  /-- An instruction that is not modelled yet; no arm answers so. Safe: the machine stops. -/
  | notModelled (mnemonic : String)
  deriving DecidableEq, Repr

/-- A pending pick record (R131). -/
structure Pick where
  slot : Nat
  variant : Nat
  cycles : Nat
  deriving DecidableEq, Repr

/-- What a thread waits in (R373, word 28). -/
inductive Wait where
  | none
  | yield (left : Nat)
  | wfm
  /-- In the await part of the `arwt` at an address, which joined that episode (R364). -/
  | arwt (episode : Nat) (pc : Dword)
  deriving DecidableEq, Repr

/-- The part of a thread that its own instructions change and that a discarded instruction gives back (R229). -/
structure Ctx where
  pc : Dword
  /-- Window registers by number; absent reads zero. -/
  regs : Map Vec
  /-- Bit n is set while vn is armed, that is while its presence bit is clear (R63). -/
  armed : BitVec 128
  /-- k1 to k7; absent reads zero. -/
  masks : Map Mask
  /-- h0 to h7; absent reads zero. -/
  shadow : Map Vec
  lnk : Dword
  argp : Dword
  rnd : Dword
  flg : Dword
  vmsk : Dword
  fmta : Dword
  fmtb : Dword
  scla : Dword
  sclb : Dword
  lpc0 : Dword
  lpe0 : Dword
  lps0 : Dword
  lpc1 : Dword
  lpe1 : Dword
  lps1 : Dword
  /-- RPTS, with REP and POS of the next replayed instruction (R73). -/
  rpts : Dword
  msgv : Dword
  msgpc : Dword
  mskd : Bool
  rem : Nat
  hnd : Bool
  trapc : Dword
  trapv : Dword
  trappc : Dword
  pick : Option Pick
  /-- The captured words of the frame in progress; none after a restore, which fetches them again (R127, R128). -/
  frame : List Word
  /-- The wait of an `arwt` that a message handler has interrupted (R364). -/
  kept : Wait
  deriving DecidableEq, Repr

/-- Where an access lands, one 64-byte line at most. -/
inductive Loc where
  /-- A physical address, the key index, and the machine address of the block entry if the page is a block window. -/
  | mem (pa key : Nat) (blk : Option Nat)
  | scratch (cluster off : Nat)
  /-- A local store; a supervisor's view shows its own tenant's system area only (R170). -/
  | localStore (core off : Nat) (view : Option Nat)
  /-- A peer window and the offset in it (R388). -/
  | peer (window off : Nat)
  deriving DecidableEq, Repr

/-- What a site adds to its margin slot (R183, R132). -/
inductive SiteRec where
  | branch (taken : Bool)
  | load (miss : Bool)
  | loop (trip : Dword)
  | pick (slot variant amount : Nat)
  deriving DecidableEq, Repr

/-- An issued load whose data has not committed (R229). -/
structure Load where
  id : Nat
  /-- Destination register field. -/
  reg : Nat
  /-- LD's size code, 7 for 64 bytes. -/
  sz : Nat
  loc : Loc
  ea : Nat
  /-- The scope of an `lda`. -/
  scope : Option Nat
  landed : Bool
  /-- Why it has no data, as a fault code: an uncorrectable error was in them, or a peer refused it (R169, R387). -/
  lost : Option Nat
  /-- It missed the L1 (R231). -/
  missed : Bool
  /-- It is the second word of an `ext` pair (TRAPC.PAIR). -/
  pair : Bool
  /-- The thread as it stood at the load. -/
  snap : Ctx
  deriving DecidableEq, Repr

/-- The bytes a store writes: addresses within the unit its location names. -/
structure StoreReq where
  loc : Loc
  writes : List (Nat × Byte)
  /-- The address that the store named. -/
  va : Nat := 0
  deriving DecidableEq, Repr

/-- A multicast word on its way to a member: its address, its words, and the leader's next address (R20, R22). -/
structure Ribbon where
  pc : Dword
  w0 : Word
  w1 : Word
  next : Dword
  /-- The leader's outcome: control went where the instruction sends it (R22). -/
  taken : Bool
  deriving DecidableEq, Repr

/-- An issued, uncommitted instruction. -/
structure Rob where
  load : Option Load
  store : Option StoreReq
  site : Option (Dword × SiteRec)
  /-- The multicast word it was, for a leader or an attached member (R20). -/
  rib : Option Ribbon
  /-- A `tlwait` that has merged the flags of its copy or matrix context up to a number (R98). -/
  merge : Option (Bool × Nat)
  /-- The member has detached at it, which nobody else sees before it commits (R22, R229). -/
  leaves : Bool
  deriving DecidableEq, Repr

/-- A message with its header (R268). -/
structure Msg where
  header : Dword
  payload : Vec
  deriving DecidableEq, Repr

/-- The upcall state (R368, R373 word 29). -/
structure Upcall where
  kind : Nat
  code : Nat
  resume : Bool
  deriving DecidableEq, Repr

/-- An engine context (R244, R247, R98). -/
structure Eng where
  /-- The timeline counter. -/
  cnt : Nat
  /-- The number of the last command issued. -/
  issued : Nat
  /-- Commands above `cnt` that have completed. -/
  done : List Nat
  /-- The failed command and its cause. -/
  failed : Option (Nat × Nat)
  /-- Flags of commands not yet merged. -/
  flags : List (Nat × Nat)
  deriving DecidableEq, Repr

/-- The barrier at which an `await` or the await part of an `arwt` holds a thread, the episode that it awaits, and whether its entry has
been released meanwhile: after that episode has completed, or before (R364). -/
structure BarWait where
  id : Nat
  episode : Nat
  freed : Option Bool
  deriving DecidableEq, Repr

/-- A write of a block window held under R179. -/
structure Held where
  req : StoreReq
  /-- For an atomic: operation code, width in bytes, operand and comparand. -/
  atom : Option (Nat × Nat × Dword × Dword)
  va : Nat
  /-- The remap has applied it; an atomic's old value. -/
  applied : Bool
  old : Dword
  /-- It is the second word of an `ext` pair (TRAPC.PAIR). -/
  pair : Bool
  deriving DecidableEq, Repr

/-- A live thread, or the held home of a thread that is away. -/
structure Thread where
  ctx : Ctx
  /-- 0 user, 1 supervisor, 2 machine. -/
  pl : Nat
  tenant : Nat
  launch : Nat
  w : Nat
  base : Nat
  forme : Nat
  midx : Nat
  rank : Nat
  /-- The thread's home slot of the device. -/
  home : Nat
  guest : Bool
  /-- At home: the guest slot the thread runs in, or its own home while it is between cores. -/
  away : Option Nat
  task : Dword
  recno : Nat
  stackBase : Nat
  rob : List Rob
  stOut : Nat
  cpOut : Nat
  mxOut : Nat
  mailbox : List Msg
  seq : Nat
  overflow : Option Dword
  ribbon : List Ribbon
  /-- Leader: how many of the words from pc on its members already have (R300). -/
  sent : Nat
  det : Bool
  /-- The leader's next address and outcome for the word being executed (R22). -/
  lead : Option (Dword × Bool)
  join : Option Nat
  wait : Wait
  /-- The barrier that an `await` waits at (R364). -/
  bar : Option BarWait
  upcall : Option Upcall
  stopped : Bool
  ending : Bool
  copy : Eng
  matrix : Eng
  /-- The reload value with which the watchdog was last restarted, and the core's cycles that it has run since (R354). -/
  wdog : Nat
  idle : Nat
  cause : Option Nat
  held : Option Held
  /-- Entries of the window's first and second bank are resident; otherwise they lie in the save record, or the
  thread is fresh (R76). -/
  res0 : Bool
  res1 : Bool
  fresh0 : Bool
  fresh1 : Bool
  /-- The next instruction is not checked against breakpoints (R376). -/
  bkSkip : Bool
  /-- It is held for the reply of a region controller or of the table unit (R223, R331). -/
  reply : Bool
  /-- It is held until a bank of its window is claimed: the first or the second (R76). -/
  claim : Option Bool
  /-- Registers that migration carries and that have not arrived yet (R61). -/
  coming : List (Nat × Vec)
  /-- Its watchdog has run out, with the cause that held it, and the fault is not taken yet (R354). -/
  expired : Option Nat
  /-- It was resumed by URESM and has not issued since (R369). -/
  uresm : Bool
  /-- A peer has refused a store of it, to that address: the fault is taken before its next instruction (R387). -/
  refused : Option Dword
  deriving DecidableEq, Repr

/-- A cached translation (R164, R180). -/
structure Tlb where
  tenant : Nat
  /-- Page base and size in bytes. -/
  base : Nat
  size : Nat
  pte : Dword
  dirty : Bool
  deriving DecidableEq, Repr

/-- A task with its record read once (R265). -/
structure Task where
  launch : Nat
  addr : Dword
  record : Vec
  /-- A root task of its launch (R14, R264). -/
  root : Bool
  deriving DecidableEq, Repr

/-- What waits for room in a run list, in the order in which it found the list full (R267): a task, or the `spawn` at an address
of the thread in a slot. -/
inductive RunWait where
  | task (k : Task)
  | spawn (tid : Nat) (pc : Dword)
  deriving DecidableEq, Repr

/-- A copy command in its queue (R246, R281). -/
structure CopyCmd where
  id : Nat
  /-- The owning thread's home. -/
  home : Nat
  /-- The thread that it counts for. -/
  who : Nat
  launch : Nat
  tenant : Nat
  n : Nat
  op : Nat
  a : Vec
  b : Vec
  c : Vec
  started : Bool
  /-- The ring slots reserved or claimed, by ring and counter value. -/
  slots : List (Nat × Nat)
  /-- Values that a `dens` has read so far, in box order. -/
  read : List Nat
  /-- How far its data have moved: elements, granules, chunks or bytes (R246). -/
  pos : Nat
  /-- Writes of the current chunk of a scatter that are still to be made: address and bytes (R285). -/
  chunk : List (Nat × List Byte) := []
  /-- The turn that its start took pays for its first unit of data (R246). -/
  paid : Bool := false
  /-- The granules that its accesses have counted, by number (R318). -/
  grans : List Nat := []
  /-- It was issued to a peer, as one message (R29). -/
  peer : Bool
  /-- Its data have moved; its peer writes or its ordered entries are still to be answered (R201, R106). -/
  moved : Bool
  /-- The shape record as the command read it at its start (R281). -/
  shape : Vec
  /-- A peer has refused a write of it (R387). -/
  refused : Bool := false
  deriving DecidableEq, Repr

/-- A matrix command in its queue (R251, R254). -/
structure MatCmd where
  id : Nat
  home : Nat
  /-- The thread that it counts for. -/
  who : Nat
  launch : Nat
  tenant : Nat
  n : Nat
  op : Nat
  a : Vec
  b : Vec
  c : Vec
  fmta : Dword
  fmtb : Dword
  scla : Dword
  sclb : Dword
  rnd : Nat
  /-- Tile operations granted and retired. -/
  granted : Nat
  retired : Nat
  /-- The slots that the operations in flight have claimed, by ring and counter value, oldest first. -/
  slots : List (Nat × Nat)
  /-- It was issued to a peer, as one message (R29). -/
  peer : Bool
  /-- A drain whose accumulator lies in a drain buffer. -/
  drained : Bool
  /-- The granules that its accesses have counted, by number (R318). -/
  grans : List Nat := []
  /-- Elements that a drain has written or contributed, and whether all its data have moved. -/
  sent : Nat
  moved : Bool
  /-- The shape record as a drain read it at its turn (R281). -/
  shape : Vec
  /-- A peer has refused a write of it (R387). -/
  refused : Bool := false
  deriving DecidableEq, Repr

/-- A ring (R248, R249): its owner, its descriptor without the counters, the counters, and the slots whose writes or
reads have ended out of order. -/
structure Ring where
  launch : Nat
  desc : Dword
  tail : Nat
  wptr : Nat
  head : Nat
  rptr : Nat
  filled : List Nat
  read : List Nat
  deriving DecidableEq, Repr

/-- An event counter of a core (R72, R350). -/
structure Ev where
  owner : Option Nat
  /-- The thread that wrote its EVSEL last. -/
  who : Nat
  tenant : Nat
  sel : Dword
  cnt : Dword
  deriving DecidableEq, Repr

/-- A supervisor entry (R368). -/
structure SupEntry where
  slot : Nat
  kind : Nat
  code : Nat
  deriving DecidableEq, Repr

/-- A tenant's supervisor slot on a core (R13, R368, R415). -/
structure Sup where
  slot : Nat
  utsel : Nat
  queue : List SupEntry
  notice : Bool
  /-- The run in progress: its run's launch. -/
  run : Option Nat
  /-- Threads resumed in the run, whose positions the run keeps until it ends (R369). -/
  resumed : List Nat
  deriving DecidableEq, Repr

/-- A migrating context in a migrant queue (R271). -/
structure Migrant where
  home : Nat
  from_ : Nat
  thread : Thread
  deriving DecidableEq, Repr

/-- The engine contexts of a thread that has ended (R361). -/
structure OldCtx where
  launch : Nat
  tenant : Nat
  copy : Eng
  matrix : Eng
  deriving DecidableEq, Repr

/-- A sample of the proofing engine (R357): where it was taken, whose it is, its PC and its cause. -/
structure Sample where
  die : Nat
  core : Nat
  slot : Nat
  tenant : Nat
  /-- The launch serial, and IMAGEID bits 15:0. -/
  launch : Nat
  image : Nat
  pc : Nat
  cause : Nat
  deriving DecidableEq, Repr

/-- One core. -/
structure Core where
  imp : Map (BitVec 16)
  pos : Nat
  l1d : Map Vec
  l1i : Map Vec
  tlb : List Tlb
  localStore : List Host.Cell
  /-- Ranges of the local store that a grant has zeroed: first offset and size (R170). -/
  clean : List (Nat × Nat)
  counters : Map Dword
  /-- Records of the tasks whose counters are armed, by counter. -/
  armed : Map Task
  /-- The dirty log by place; an absent entry is zero (R180). -/
  dirty : Map Dword
  runList : List Task
  waitTasks : List RunWait
  migrants : List Migrant
  copyQ : List CopyCmd
  /-- The launch whose commands the copy engine serves, and how many more granules in this turn of its round robin (R246). -/
  copyAt : Nat
  copyLeft : Nat
  /-- By slot. -/
  oldCtx : Map OldCtx
  /-- The site-map entries that the margin unit has cached, by launch and PC, oldest first (R184). -/
  sites : List (Nat × Dword)
  matQ : List MatCmd
  rings : Map Ring
  accs : Map (List (BitVec 32))
  evs : Map Ev
  cyc : Dword
  guestCfg : Map Dword
  sups : Map Sup
  mcause : Dword
  mepc : Dword
  /-- Machine entries, each with the thread it is about (R375). -/
  mq : List (Dword × Nat)
  mrun : Bool
  bkpc : Map Dword
  bkmsk : Map Dword
  coreclk : Dword
  /-- CORECLK as written, taking effect at the next pass over position 0 (R392). -/
  clkNext : Option Dword
  wdog : Nat
  /-- The state-change log (R355): the entries by place, and how many were written and how many the proofing engine has read. -/
  slog : Map Word
  slogW : Nat
  slogR : Nat
  /-- State and delta of the pass, and what the pass has seen. -/
  sstate : Nat
  delta : Nat
  lostEntry : Bool
  issued : Bool
  /-- The state of a pass that has ended and is not yet in the log (R355). -/
  passDue : Option Nat
  /-- The sample of the cycle in which a sampling period has ended (R357). -/
  sampleDue : Option Sample
  /-- Changes of the imposition table that wait for position 0 (R326). -/
  impNext : Map (BitVec 16)
  deriving DecidableEq, Repr

/-- A drain buffer in use (R254). -/
structure Drain where
  core : Nat
  id : Nat
  data : List (BitVec 32)
  deriving DecidableEq, Repr

/-- One cluster. -/
structure Cluster where
  scratch : List Host.Cell
  /-- Ranges that a grant has zeroed (R171). -/
  clean : List (Nat × Nat)
  l2tlb : List Tlb
  drains : List Drain
  /-- Copies into drain buffers that the unit's cycles have still to count: core, thread, launch and tenant (R352). -/
  copied : List (Nat × Nat × Nat × Nat)
  credit : Map Nat
  at_ : Nat
  deriving DecidableEq, Repr

/-- The state of a block engine entry (R255). -/
inductive MigState where
  | queued
  | copy
  | release
  deriving DecidableEq, Repr

/-- An entry of a migration queue. -/
structure Mig where
  id : Nat
  /-- A copy on write, not a `blkmig`. -/
  cow : Bool
  entry : Nat
  va : Nat
  tenant : Nat
  die : Nat
  tier : Nat
  tag : Nat
  state : MigState
  newBlk : Nat
  oldBlk : Nat
  /-- Threads whose writes are held, in arrival order. -/
  waiters : List Nat
  deriving DecidableEq, Repr

/-- A pending entry of an ordered-reduction buffer (R105). -/
structure Ord where
  launch : Nat
  pa : Nat
  va : Nat
  key : Nat
  /-- The destination's type code (R321). -/
  ty : Nat
  slices : List (Nat × Nat)
  /-- Accesses that a block entry counts when the entry's result is written (R318). -/
  adds : Nat
  /-- The command that gave it its last slice (R106). -/
  closer : Option Nat
  deriving DecidableEq, Repr

/-- A bin of the proofing engine (R358): tenant, image bits, PC bucket, counts, saturation. -/
structure Bin where
  tenant : Nat
  image : Nat
  bucket : Nat
  counts : Map Nat
  saturated : Bool
  deriving DecidableEq, Repr

/-- One compute die. -/
structure Die where
  rdc : Map Vec
  l2dirty : List Nat
  barriers : Map Dword
  migQ : List Mig
  devs : Map (BitVec 16 × Dword)
  ordered : List Ord
  bins : List Bin
  /-- The other bin of each tenant. -/
  others : Map Bin
  /-- Passes by core * 4 + state, and by core the state of the last log entry read (R357). -/
  totals : Map Nat
  logState : Map Nat
  dropped : Nat
  changesDropped : Nat
  sampleExp : Nat
  shift : Nat
  deriving DecidableEq, Repr

/-- Off-chip memory: the bytes written, and the key material each line was last written under. -/
structure Memory where
  cells : List Host.Cell
  tags : Map Vec
  deriving DecidableEq, Repr

/-- A block free list (R256). -/
structure FreeList where
  blocks : List Nat
  /-- A FREELOW record has been posted and the count has not risen above the watermark since. -/
  low : Bool
  deriving DecidableEq, Repr

/-- A key-table entry (R327). -/
structure Key where
  data : BitVec 512
  tenant : Nat
  deriving DecidableEq, Repr

/-- The producer's side of a notification queue (R257, R258). -/
structure NQueue where
  seq : Nat
  dropped : Nat
  deriving DecidableEq, Repr

/-- A record to be written into a notification queue (R257). -/
structure Note where
  kind : Nat
  die : Nat
  status : Nat
  p0 : Dword
  p1 : Dword
  /-- The launch whose completion waits for it. -/
  launch : Nat
  deriving DecidableEq, Repr

/-- A tenant: its tenant-table entry (R329), its supervisor registers (R74), its queues and record numbers. -/
structure Tenant where
  entry : Vec
  spillb : Dword
  fnqb : Dword
  tnqb : Dword
  bbwin : Nat
  accthr : Nat
  flwm : Dword
  lser : Nat
  tq : NQueue
  fq : NQueue
  /-- Fault records that wait for room, oldest first; past 16 the cause of a record is held. -/
  waiting : List Note
  /-- Tier records that wait for the memory of their place, oldest first (R258, R177). -/
  tierWait : List Note
  lost : Nat
  recs : List Nat
  deriving DecidableEq, Repr

/-- An image loaded for a tenant (R40, R323, R405). -/
structure Image where
  tenant : Nat
  imageId : Dword
  shareable : Bool
  nslots : Nat
  textBase : Dword
  /-- Site map: kind and word offset. -/
  sites : List (Nat × Nat)
  live : Map (BitVec 128)
  kept : Map (BitVec 128)
  joined : Bool
  deriving DecidableEq, Repr

/-- The tables of the device (R309 to R330). -/
structure Tables where
  ptes : Map Dword
  blks : Map (BitVec 128)
  bcount : Map Nat
  bdie : Map Nat
  /-- By (tenant * 4 + die) * 2 + tier. -/
  free : Map FreeList
  returning : List (Nat × Nat)
  shapes : Map Vec
  keys : Map Key
  tenants : Map Tenant
  images : List Image
  shared : Map (Map (BitVec 128))
  dbars : Map Dword
  deriving DecidableEq, Repr

/-- A store on its way to its home. -/
structure Store where
  id : Nat
  tid : Nat
  core : Nat
  launch : Nat
  req : StoreReq
  /-- Its line was in the core's L1 at issue, so that the core's threads see the bytes before the home does (R160, R194). -/
  seen : Bool
  deriving DecidableEq, Repr

/-- RDC invalidations that a write has caused (R162). -/
structure Inval where
  id : Nat
  tid : Nat
  line : Nat
  dies : List Nat
  deriving DecidableEq, Repr

/-- A message, deposit or decrement in flight (R269, R64, R266). -/
structure Packet where
  id : Nat
  launch : Nat
  tenant : Nat
  srcCore : Nat
  srcSlot : Nat
  core : Nat
  slot : Nat
  /-- The thread that sent it. -/
  who : Nat
  /-- Handler index, register number, or counter index. -/
  k : Nat
  payload : Vec
  deriving DecidableEq, Repr

/-- A walk in progress by a die's walker, and the slots whose threads wait for it (R164, R165). -/
structure Walk where
  id : Nat
  die : Nat
  tenant : Nat
  va : Nat
  waiters : List Nat
  deriving DecidableEq, Repr

/-- A margin record on its way to its slot (R183, R184). -/
structure MRec where
  id : Nat
  core : Nat
  /-- The thread that it counts for. -/
  who : Nat
  launch : Nat
  pc : Dword
  site : SiteRec
  /-- It waits in the pending buffer for its site-map entry (R184). -/
  waits : Bool
  deriving DecidableEq, Repr

/-- A peer write not yet acknowledged as placed (R29, R203). -/
structure PeerOp where
  id : Nat
  tid : Nat
  core : Nat
  launch : Nat
  window : Nat
  writes : List (Nat × Byte)
  /-- It is a message of its own; an engine's is one with its command (R28, R29). -/
  counted : Bool
  /-- The thread that it counts for. -/
  who : Nat
  /-- The address that the access named. -/
  va : Nat := 0
  deriving DecidableEq, Repr

/-- A returning context (R301). -/
structure Return where
  id : Nat
  core : Nat
  thread : Thread
  deriving DecidableEq, Repr

/-- What is on its way between the units. -/
structure Flight where
  stores : List Store
  invals : List Inval
  msgs : List Packet
  deposits : List Packet
  decs : List Packet
  walks : List Walk
  margins : List MRec
  peers : List PeerOp
  returns : List Return
  deriving DecidableEq, Repr

/-- A placed launch (R264). -/
structure Launch where
  tenant : Nat
  lser : Nat
  record : BitVec 1024
  upcv : Dword
  textBase : Dword
  snapshot : Map (BitVec 128)
  nslots : Nat
  shared : Bool
  lidx : Nat
  lsBase : Map Nat
  spBase : Map Nat
  /-- By core: the accumulators of the launch, in the order of its numbers. -/
  accBase : Map (List Nat)
  /-- Accumulators of the cores the launch has been taken from, by core (R175). -/
  savedAcc : Map (List (List (BitVec 32)))
  /-- The local store range of a core that the launch has been taken from: its first offset and its bytes (R170, R263). -/
  savedLs : Map (Nat × List Byte)
  /-- By cluster: where in the cluster's 8 MiB of the tenant's spill area its scratchpad range lies (R171). -/
  spilled : Map Nat
  sent : Map Nat
  recvd : Map Nat
  prev : Option (Nat × Nat)
  /-- Cores on which the launch holds positions. -/
  cores : List Nat
  preempted : Bool
  /-- The launch is ending and its last records are being written. -/
  ended : Bool
  msgs : Nat
  status : Nat
  /-- TIME at the final sweep (R280). -/
  tend : Nat
  deriving DecidableEq, Repr

/-- A forme (R16, R267): its task and the home slots of its threads, member by member, rank by rank. -/
structure Forme where
  launch : Nat
  task : Task
  f : Nat
  t : Nat
  tids : List Nat
  ended : List Nat
  tdone : Bool
  preempted : Bool
  deriving DecidableEq, Repr

/-- A routing batch (R273, R274). -/
structure Batch where
  /-- 0 FREE, 1 OPEN, 2 CLOSED, 3 ADMITTED. -/
  state : Nat
  launch : Nat
  cfg : BitVec 128
  reached : Nat
  counted : Nat
  /-- Kept entries by token, in the order of R154. -/
  kept : Map (List Dword)
  /-- Admitted route entries and status bits by token. -/
  result : Map (List Dword × Nat)
  deriving DecidableEq, Repr

/-- Launches, formes and routing batches. -/
structure Work where
  /-- Launch queues by class * 64 + tenant: serial and record. -/
  queues : Map (List (Nat × BitVec 1024))
  deficit : Map Nat
  visited : Map Nat
  /-- The launch taken and not yet placed, by class: its serial and record (R263). -/
  taken : Map (Nat × BitVec 1024)
  launches : Map Launch
  formes : Map Forme
  batches : Map Batch
  /-- Cause of each launch's failure to fit is posted; the launch unit takes no launch while set (R395). -/
  paused : Bool
  deriving DecidableEq, Repr

/-- A sparse region (R205 to R216). -/
structure Region where
  tenant : Nat
  rank : Nat
  ty : Nat
  extents : List Nat
  die : Nat
  grqb : Nat
  root : Nat
  /-- The free list, top first, as runs of node numbers: first and count. -/
  free : List (Nat × Nat)
  /-- Bases of the grants taken, grant 0 first; none for a record marked taken without nodes. -/
  grants : List (Option Nat)
  entries : Nat
  /-- Levels of the tree: 1 while the root is a leaf (R213). -/
  height : Nat
  broken : Bool
  closing : Bool
  /-- The operations that the controller has received and not completed, with the addresses of their held node writes (R209, R211). -/
  ops : Map (List Nat)
  /-- The operation that has found the region broken and whose record waits for a place: the operation, the STATUS, the address of
  lost data, the launch (R226, R258). -/
  found : Option (Nat × Nat × Nat × Nat)
  deriving DecidableEq, Repr

/-- What the device has sent to the host (R280, R385, R390, R395). -/
inductive Posted where
  | completion (tenant dest : Nat) (message : BitVec 320)
  | reply (sess dest : Nat) (message : BitVec 320)
  | report (digests : BitVec 1024) (nonce : BitVec 256) (time serial : Dword) (sig : BitVec 512)
  /-- A line of a checkpoint, with its target and physical address. -/
  | line (target pa : Nat) (data : BitVec 512)
  /-- Lines of a checkpoint that nothing has ever written: the first and how many. -/
  | blank (target pa count : Nat)
  /-- The answer to an access through an export: whether it was performed and the old bytes. -/
  | access (remote : Nat) (ok : Bool) (data : BitVec 512)
  | proofing (die : Nat) (tenant : Option Nat) (bins : List Bin) (others : Map Bin) (totals : Map Nat)
      (dropped changesDropped : Nat)
  deriving DecidableEq, Repr

/-- The phases of the device (R389, R381). -/
inductive Phase where
  | off
  | recovery
  | running
  /-- A fatal error of a slot of a core, with its cause, has stopped the cores, and the routers drain (R381). -/
  | stopping (core slot cause : Nat)
  | dumped
  deriving DecidableEq, Repr

/-- A session (R383). -/
structure Session where
  remote : Nat
  /-- 0 command, 1 completion, 2 export, 3 management. -/
  endpoint : Nat
  tenants : List Nat
  port : Nat
  deriving DecidableEq, Repr

/-- An export (R387). -/
structure Export where
  remote : Nat
  tenant : Nat
  base : Nat
  units : Nat
  perm : BitVec 3
  key : Nat
  deriving DecidableEq, Repr

/-- A peer window (R388). -/
structure Window where
  tenant : Nat
  dest : Nat
  remote : Nat
  /-- What the remote device's export allows: its length in units of 64 KiB and its permissions (R387). -/
  units : Nat
  perm : BitVec 3
  deriving DecidableEq, Repr

/-- A checkpoint in progress (R395). -/
structure Ckpt where
  tag : Dword
  live : Bool
  targets : List Nat
  deriving DecidableEq, Repr

/-- A command of the host, and an access through an export window, that cannot take effect yet (R258, R384; log 84, DEDUCED). -/
inductive Command where
  /-- A HOSTNOTE. -/
  | hostnote (sess : Nat) (hdr : BitVec 128) (body : BitVec 192)
  /-- A REGION_OPEN. -/
  | regionOpen (sess : Nat) (hdr : BitVec 128) (body : BitVec 256)
  /-- A REGION_CLOSE. -/
  | regionClose (sess : Nat) (hdr : BitVec 128) (body : BitVec 64)
  /-- A LAUNCH. -/
  | launch (sess : Nat) (msg : BitVec 1152)
  /-- A BLOCKS_ADD. -/
  | blocksAdd (sess : Nat) (hdr : BitVec 128) (head : BitVec 64) (blocks : List (BitVec 32))
  /-- An access through an export window. -/
  | exportAccess (x : Nat) (remote : Nat) (off : Nat) (op : Nat) (size : Nat) (data : BitVec 512)
  deriving DecidableEq, Repr

/-- The boundary to host, peers and firmware. -/
structure HostIf where
  phase : Phase
  /-- The firmware that runs, and the device record in force. -/
  image : Nat
  record : DeviceRecord
  /-- What the boot flash holds, once the model has been told (R389; log 111, DESIGN CHOICE). -/
  flash : Option (Nat × DeviceRecord)
  /-- Packets that a port has dropped, by port, and the requests to peers that no peer will ever answer for that reason (R391). -/
  dropped : Map Nat
  unheard : List Nat
  sessions : Map Session
  /-- The host's destination address of a tenant, which firmware has set through management (R385). -/
  hostDest : Map Nat
  exports : Map Export
  windows : Map Window
  posted : List Posted
  ckpt : Option Ckpt
  quiesced : Bool
  refusedSessions : Nat
  /-- Commands that wait, with their sessions, and accesses through exports that wait for a line to be zeroed, in arrival order
  (R258, R384, R166). -/
  waiting : List (Option Nat × Command)
  deriving DecidableEq, Repr

/-- A temperature or current sensor (R394): its last reading, when that changed, while it is untrusted when a condition for that last
held, and of a current sensor whether one that an event has shown still stands. -/
structure Sensor where
  value : Option Int
  changed : Nat
  bad : Option Nat
  stands : Bool := false
  deriving DecidableEq, Repr

/-- A voltage row (R10, R392 to R394). Its clock is a step; its voltage is in the unit of the record's table. -/
structure Row where
  clock : Nat
  volt : Nat
  hop : Option Nat
  frozen : Bool
  /-- Held under R379: no new request crosses the row boundary. -/
  held : Bool
  /-- The step to whose voltage the row goes once none of its requests is in flight (R392). -/
  wanted : Option Nat
  /-- Its sensors: 0 and 1 temperature, 2 current. -/
  sensors : Map Sensor
  deriving DecidableEq, Repr

/-- Power state. -/
structure Power where
  rows : Map Row
  /-- Every row is forced to its lowest voltage step (R391). -/
  forced : Bool
  /-- Bytes that hold an uncorrectable error, as a mask by line; of on-chip memory by `sramLine` (R169, R228). -/
  bad : Map (BitVec 64)
  /-- Lines of frames that are still to be zeroed: first line, count, key index (R166). -/
  zeroing : List (Nat × Nat × Nat)
  deriving DecidableEq, Repr

/-- The model's own bookkeeping (log 1, DESIGN CHOICE and log 6, DESIGN CHOICE): the thread whose turn it is, the events of the environment still to
happen, the core whose cycle comes next, the counter of free values and of identities, and TIME. -/
structure Sched where
  cur : Nat
  issue : Bool
  /-- How many slots from the named one the backfill search of this cycle has come (R17). -/
  tried : Nat
  agenda : List Instr
  turn : Nat
  fresh : Nat
  nextId : Nat
  time : Nat
  deriving DecidableEq, Repr

/-- The whole device. -/
structure State where
  sched : Sched
  /-- Live threads by slot of the device. -/
  threads : Map Thread
  /-- Pre-empted contexts, by tenant * 2^32 + record number (R373). -/
  saved : Map Thread
  cores : Map Core
  clusters : Map Cluster
  dies : Map Die
  mem : Memory
  /-- What the memory channels hold, where it is older than the home's value (R241, R395). -/
  chan : Memory
  tables : Tables
  flight : Flight
  work : Work
  regions : Map Region
  host : HostIf
  power : Power
  deriving DecidableEq, Repr

/-- A context with every register zero (R60, R73). -/
def Ctx.zero : Ctx :=
  { pc := 0, regs := [], armed := 0, masks := [], shadow := [], lnk := 0, argp := 0, rnd := 0, flg := 0, vmsk := 0,
    fmta := 0, fmtb := 0, scla := 0, sclb := 0, lpc0 := 0, lpe0 := 0, lps0 := 0, lpc1 := 0, lpe1 := 0, lps1 := 0,
    rpts := 0, msgv := 0, msgpc := 0, mskd := false, rem := 0, hnd := false, trapc := 0, trapv := 0, trappc := 0,
    pick := none, frame := [], kept := .none }

/-- An engine context at a thread's creation (R345). -/
def Eng.zero : Eng := { cnt := 0, issued := 0, done := [], failed := none, flags := [] }

/-- A thread before its identity is filled in. -/
def Thread.blank : Thread :=
  { ctx := Ctx.zero, pl := 0, tenant := 0, launch := 0, w := 32, base := 0, forme := 0, midx := 0, rank := 0, home := 0,
    guest := false, away := none, task := 0, recno := 0, stackBase := 0, rob := [], stOut := 0, cpOut := 0, mxOut := 0,
    mailbox := [], seq := 0, overflow := none, ribbon := [], sent := 0, det := false, lead := none, join := none, wait := .none, bar := none,
    upcall := none, stopped := false, ending := false, copy := Eng.zero, matrix := Eng.zero, wdog := 0, idle := 0, cause := none,
    held := none, res0 := false, res1 := false, fresh0 := true, fresh1 := true, bkSkip := false, reply := false, claim := none,
    coming := [], expired := none, uresm := false, refused := none }

/-- A core after reset: only position 63 is used, by the machine slot (R325); its first cycle visits position 0 (log 3, DESIGN CHOICE). -/
def Core.reset : Core :=
  { imp := [(63, 0xCFFF)], pos := 63, l1d := [], l1i := [], tlb := [], localStore := [], clean := [], counters := [], armed := [],
    dirty := [], runList := [], waitTasks := [], migrants := [], copyQ := [], copyAt := 0, copyLeft := 0, oldCtx := [], sites := [], matQ := [], rings := [], accs := [],
    evs := [], cyc := 0, guestCfg := [], sups := [], mcause := 0, mepc := 0, mq := [], mrun := false, bkpc := [],
    bkmsk := [], coreclk := 0, clkNext := none, wdog := 0, slog := [], slogW := 0, slogR := 0, sstate := 3, delta := 0, lostEntry := false,
    issued := false, passDue := none, sampleDue := none, impNext := [] }

/-- A cluster after reset (log 3, DESIGN CHOICE). -/
def Cluster.reset : Cluster := { scratch := [], clean := [], l2tlb := [], drains := [], copied := [], credit := [], at_ := 0 }

/-- A die after reset. -/
def Die.reset : Die :=
  { rdc := [], l2dirty := [], barriers := [], migQ := [], devs := [], ordered := [], bins := [], others := [], totals := [], logState := [],
    dropped := 0, changesDropped := 0, sampleExp := 10, shift := 2 }

/-- Off-chip memory that nothing has written. -/
def Memory.empty : Memory := { cells := [], tags := [] }

/-- A row after reset: the lowest clock and voltage step (log 2, DESIGN CHOICE); the record of reset gives every step voltage 0 (log 111,
DESIGN CHOICE). -/
def Row.reset : Row := { clock := 0, volt := 0, hop := none, frozen := false, held := false, wanted := none, sensors := [] }

/-- The device record that the model names for reset: the spec gives none (R389; log 111, DESIGN CHOICE). -/
def DeviceRecord.reset : DeviceRecord := { stored := 0, key := 0, host := 0, dests := [0], caps := [], volts := [], trip := 150 }

/-- The machine right after reset (R389): running, with no tenant, no launch and no thread but the machine slots. -/
def State.reset : State :=
  { sched := { cur := 63, issue := false, tried := 0, agenda := [], turn := 0, fresh := 0, nextId := 0, time := 0 },
    threads := [], saved := [], cores := [], clusters := [], dies := [], mem := Memory.empty, chan := Memory.empty,
    tables := { ptes := [], blks := [], bcount := [], bdie := [], free := [], returning := [], shapes := [], keys := [],
                tenants := [], images := [], shared := [], dbars := [] },
    flight := { stores := [], invals := [], msgs := [], deposits := [], decs := [], walks := [], margins := [],
                peers := [], returns := [] },
    work := { queues := [], deficit := [], visited := [], taken := [], launches := [], formes := [], batches := [],
              paused := false },
    regions := [],
    host := { phase := .running, image := 0, record := DeviceRecord.reset, flash := none, dropped := [], unheard := [], sessions := [], hostDest := [], exports := [], windows := [], posted := [],
              ckpt := none, quiesced := false, refusedSessions := 0, waiting := [] },
    power := { rows := [], forced := false, bad := [], zeroing := [] } }

end Sys2Proof.Machine
end

