-- ==== Sys2Proof/Machine/Maps.lean ====
section
/-! DEFINITION. Sys2Proof/Machine/Maps.lean: reading and writing lists of entries by ascending key. -/

namespace Sys2Proof.Machine

/-- The entry of key `k`. -/
def mget {α : Type} (m : Map α) (k : Nat) : Option α :=
  match m with
  | [] => none
  | (j, v) :: rest => if k = j then some v else mget rest k

/-- The entry of key `k`, or what an absent one stands for. -/
def mgetD {α : Type} (m : Map α) (k : Nat) (d : α) : α := (mget m k).getD d

/-- Set the entry of key `k`. -/
def mput {α : Type} (m : Map α) (k : Nat) (v : α) : Map α :=
  match m with
  | [] => [(k, v)]
  | (j, u) :: rest => if k < j then (k, v) :: (j, u) :: rest else if k = j then (k, v) :: rest else (j, u) :: mput rest k v

/-- Remove the entry of key `k`. -/
def mdel {α : Type} (m : Map α) (k : Nat) : Map α := m.filter fun e => e.1 != k

/-- Set the entry of key `k`, where an absent entry stands for `d`. -/
def mputD {α : Type} [DecidableEq α] (m : Map α) (k : Nat) (v d : α) : Map α := if v = d then mdel m k else mput m k v

/-- Change the entry of key `k`, which an absent one gives as `d`. -/
def mupd {α : Type} (m : Map α) (k : Nat) (d : α) (f : α → α) : Map α := mput m k (f (mgetD m k d))

/-- Change the entry of key `k` if there is one. -/
def mmod {α : Type} (m : Map α) (k : Nat) (f : α → α) : Map α :=
  m.map fun e => if e.1 = k then (e.1, f e.2) else e

/-- Keys strictly ascend. -/
def rising {α : Type} : Map α → Bool
  | [] => true
  | [_] => true
  | (j, _) :: (k, v) :: rest => decide (j < k) && rising ((k, v) :: rest)

/-- The lowest number at or above `k` that satisfies `p`, among `n` of them. -/
def firstFrom (p : Nat → Bool) (k : Nat) : Nat → Option Nat
  | 0 => none
  | n + 1 => if p k then some k else firstFrom p (k + 1) n

/-- Put an element into a list ordered by a number, after those of the same number. -/
def insertBy {α : Type} (k : α → Nat) (x : α) : List α → List α
  | [] => [x]
  | y :: rest => if k x < k y then x :: y :: rest else y :: insertBy k x rest

/-- A list ordered by a number; elements of the same number keep their order. -/
def sortBy {α : Type} (k : α → Nat) (xs : List α) : List α := xs.foldl (fun acc x => insertBy k x acc) []

/-- Bytes of a number, least significant first (R5). -/
def bytesOf (v n : Nat) : List Byte :=
  match n with
  | 0 => []
  | n + 1 => BitVec.ofNat 8 v :: bytesOf (v / 256) n

/-- The number that bytes spell, least significant first (R5). -/
def ofBytes : List Byte → Nat
  | [] => 0
  | b :: rest => b.toNat + 256 * ofBytes rest

/-- Bytes with the addresses they go to, from `a` on. -/
def place (a : Nat) : List Byte → List (Nat × Byte)
  | [] => []
  | b :: rest => (a, b) :: place (a + 1) rest

/-- Byte `j` of a register or line (R78). -/
def byteOf (v : Vec) (j : Nat) : Byte := BitVec.ofNat 8 (v.toNat / 2 ^ (8 * j))

/-- Lane `i` of width `w`, as a number (R78). -/
def lane (v : Vec) (i w : Nat) : Nat := v.toNat / 2 ^ (w * i) % 2 ^ w

/-- A register from its lanes of width `w`, lane 0 first (R78). -/
def ofLanes (w : Nat) (ls : List Nat) : Vec := BitVec.ofNat 512 (ls.foldr (fun x acc => x % 2 ^ w + 2 ^ w * acc) 0)

end Sys2Proof.Machine
end

