-- ==== Sys2Proof/Machine/Mem.lean ====
section
/-! DEFINITION. Sys2Proof/Machine/Mem.lean: the memories and caches (R156 to R175), byte by byte: what a read returns
and what a write leaves. -/

namespace Sys2Proof.Machine

/-- The die core number's die, the cluster, and the voltage row of a device core (R9). -/
def dieOf (core : Nat) : Nat := core / 128
def clusterOf (core : Nat) : Nat := core / 8
def rowOf (core : Nat) : Nat := core / 16
/-- Core and slot of a thread slot of the device. -/
def coreOf (t : Nat) : Nat := t / 64
def slotOf (t : Nat) : Nat := t % 64

def State.core (s : State) (c : Nat) : Core := mgetD s.cores c Core.reset
def State.cluster (s : State) (k : Nat) : Cluster := mgetD s.clusters k Cluster.reset
def State.die (s : State) (d : Nat) : Die := mgetD s.dies d Die.reset
def State.row (s : State) (r : Nat) : Row := mgetD s.power.rows r Row.reset
def State.modCore (s : State) (c : Nat) (f : Core → Core) : State := { s with cores := mput s.cores c (f (s.core c)) }
def State.modCluster (s : State) (k : Nat) (f : Cluster → Cluster) : State :=
  { s with clusters := mput s.clusters k (f (s.cluster k)) }
def State.modDie (s : State) (d : Nat) (f : Die → Die) : State := { s with dies := mput s.dies d (f (s.die d)) }
def State.modRow (s : State) (r : Nat) (f : Row → Row) : State :=
  { s with power := { s.power with rows := mput s.power.rows r (f (s.row r)) } }
def State.modTables (s : State) (f : Tables → Tables) : State := { s with tables := f s.tables }
def State.modFlight (s : State) (f : Flight → Flight) : State := { s with flight := f s.flight }
def State.modWork (s : State) (f : Work → Work) : State := { s with work := f s.work }
def State.modHost (s : State) (f : HostIf → HostIf) : State := { s with host := f s.host }

/-- An event of a die is counted by the die's counters that select its source, for every tenant or for its own (R353).
(Log 68, DESIGN CHOICE.) -/
def State.countDie (s : State) (d src tenant : Nat) : State :=
  let one (e : Nat × BitVec 16 × Dword) : Nat × BitVec 16 × Dword :=
    if nbits e.2.1 0 8 = src ∧ (nbits e.2.1 15 1 = 0 ∨ nbits e.2.1 8 6 = tenant) then (e.1, (e.2.1, e.2.2 + 1)) else e
  if (s.die d).devs.isEmpty then s else s.modDie d fun x => { x with devs := x.devs.map one }

/-- A fresh identity for something in flight (log 6, DESIGN CHOICE). -/
def State.newId (s : State) : State := { s with sched := { s.sched with nextId := s.sched.nextId + 1 } }

/-- Let the counter that free values are read at move on. -/
def State.tick (s : State) : State := { s with sched := { s.sched with fresh := s.sched.fresh + 1 } }

/-- Device time read now (R348): not below any earlier reading, otherwise open (log 7, DESIGN CHOICE). -/
def State.now (s : State) : Nat := s.sched.time + Config.elapsed s.sched.fresh

/-- The state after a reading of device time. -/
def State.timed (s : State) : State :=
  { s with sched := { s.sched with time := s.now, fresh := s.sched.fresh + 1 } }

/-- A physical address of HBM, of the dump region, of the LPDDR tier, or the number of a peer window (R158, R388). -/
def isHbm (pa : Nat) : Bool := pa < 0x006000000000
def isDump (pa : Nat) : Bool := 0x005F80000000 ≤ pa && pa < 0x006000000000
def isLpddr (pa : Nat) : Bool := 0x100000000000 ≤ pa && pa < 0x120000000000
def peerOf (pa : Nat) : Option Nat :=
  if 0x200000000000 ≤ pa ∧ pa < 0x400000000000 then some ((pa - 0x200000000000) / 2 ^ 41) else none

/-- The die that homes a line of HBM; none for the LPDDR tier, homed on the I/O die (R159). -/
def homeDie (pa : Nat) : Option Nat :=
  if isHbm pa then some ((((pa / 2 ^ 8) ^^^ (pa / 2 ^ 16) ^^^ (pa / 2 ^ 24) ^^^ (pa / 2 ^ 32)) % 256) / 64) else none

/-- The HBM stack and channel, or the LPDDR channel, that serves an address, and the address in it (R159). -/
def channelOf (pa : Nat) : Nat × Nat × Nat :=
  let x := (pa / 2 ^ 8) ^^^ (pa / 2 ^ 16) ^^^ (pa / 2 ^ 24) ^^^ (pa / 2 ^ 32)
  if isHbm pa then (2 * (x % 256 / 64) + x % 64 / 32, x % 32, pa % 2 ^ 46 / 2 ^ 16 * 2 ^ 8 + pa % 256)
  else (8, x % 32, pa % 2 ^ 46 / 2 ^ 13 * 2 ^ 8 + pa % 256)

/-- The key material of a key-table slot; a slot without a key gives zeros (R327). -/
def State.keyData (s : State) (k : Nat) : Vec := ((mget s.tables.keys k).map Key.data).getD 0

/-- The key slot holds a key (R168). -/
def State.keyValid (s : State) (k : Nat) : Bool := (mget s.tables.keys k).isSome

/-- The canonical form of memory: addresses strictly ascend (log 5, DESIGN CHOICE). -/
def Memory.wf (m : Memory) : Bool := rising m.cells && rising m.tags

/-- One byte read under the key material `key`: what nothing has written, and what another material has written, are
open values (R166, R168; log 5, DESIGN CHOICE). -/
def Memory.byte (m : Memory) (key : Vec) (a : Nat) : Byte :=
  match mget m.tags (a / 64), mget m.cells a with
  | some tag, some b => if tag = key then b else Config.wrongKeyByte tag key a
  | _, _ => Config.undefByte key a

/-- Make a line one of the material `key`: what it read as under that material before stays what it reads as. -/
def Memory.retag (m : Memory) (key : Vec) (line : Nat) : Memory :=
  match mget m.tags line with
  | some tag =>
    if tag = key then m else
    { cells := m.cells.map fun e => if e.1 / 64 = line then (e.1, Config.wrongKeyByte tag key e.1) else e,
      tags := mput m.tags line key }
  | none => { m with tags := mput m.tags line key }

/-- Write one byte under the key material `key`. -/
def Memory.put (m : Memory) (key : Vec) (a : Nat) (b : Byte) : Memory :=
  let m := m.retag key (a / 64)
  { m with cells := mput m.cells a b }

/-- Write bytes at their addresses. -/
def Memory.puts (m : Memory) (key : Vec) (ws : List (Nat × Byte)) : Memory :=
  ws.foldl (fun m w => m.put key w.1 w.2) m

/-- The `n` bytes from `a` on. -/
def Memory.bytes (m : Memory) (key : Vec) (a n : Nat) : List Byte := (List.range n).map fun j => m.byte key (a + j)

/-- The entries of one line of `src` replace those of `dst`. -/
def Memory.copyLine (dst src : Memory) (line : Nat) : Memory :=
  let kept := { cells := dst.cells.filter (fun e => e.1 / 64 != line), tags := mdel dst.tags line : Memory }
  { cells := (src.cells.filter fun e => e.1 / 64 == line).foldl (fun cs e => mput cs e.1 e.2) kept.cells,
    tags := match mget src.tags line with
      | some t => mput kept.tags line t
      | none => kept.tags }

/-- A cache's tag: the line and the key index it was read or written through (R160; log 120, DESIGN CHOICE). -/
def cacheTag (pa key : Nat) : Nat := pa / 64 * 1024 + key

/-- A value that the implementation chooses, at this point of the run (log 7, DESIGN CHOICE). -/
def State.free (s : State) : Nat := (Config.freeWord s.sched.fresh).toNat

/-- A line fills a cache of `cap` lines: a line of the implementation's choice may leave it, and does when it is full (R160; log 81,
DESIGN CHOICE). -/
def fillLine (m : Map Vec) (cap free tag : Nat) (v : Vec) : Map Vec :=
  match m with
  | [] => [(tag, v)]
  | e :: rest => mput ((e :: rest).eraseIdx (if cap ≤ rest.length + 1 then free % (rest.length + 1) else free)) tag v

/-- Remove a line from a cache, whatever key it was read through. -/
def dropLine (m : Map Vec) (line : Nat) : Map Vec := m.filter fun e => e.1 / 1024 != line

/-- Replace bytes of a cached line. -/
def patch (v : Vec) (ws : List (Nat × Byte)) : Vec :=
  ws.foldl (fun v w => setBits v (8 * (w.1 % 64)) 8 w.2.toNat) v

/-- The bytes that memory at its home holds under key index `key`. -/
def State.homeBytes (s : State) (pa n key : Nat) : List Byte := s.mem.bytes (s.keyData key) pa n

/-- Before the home takes a write, the channel's copy of a line of HBM falls behind (R160, R241). -/
def State.dirtyLine (s : State) (line : Nat) : State :=
  match homeDie (line * 64) with
  | some d =>
    if (s.die d).l2dirty.contains line then s
    else { s with chan := s.chan.copyLine s.mem line }.modDie d fun x => { x with l2dirty := x.l2dirty ++ [line] }
  | none => s

/-- The tenant whose data a line holds; 64 for none. -/
def State.lineTenant (s : State) (line : Nat) : Nat :=
  match (mget s.mem.tags line).bind fun d => s.tables.keys.find? fun k => k.2.data == d with
  | some k => k.2.tenant
  | none => 64

/-- The home writes a line back to its channel. -/
def State.writeBack (s : State) (line : Nat) : State :=
  match homeDie (line * 64) with
  | some d =>
    let s := { s with chan := { cells := s.chan.cells.filter (fun e => e.1 / 64 != line), tags := mdel s.chan.tags line } }
    (s.modDie d fun x => { x with l2dirty := x.l2dirty.filter (· != line) }).countDie d 0x06 (s.lineTenant line)
  | none => s

/-- What the channels hold of a line, under key index `key` (R241, R395). -/
def State.channelBytes (s : State) (line key : Nat) : List Byte :=
  match homeDie (line * 64) with
  | some d => if (s.die d).l2dirty.contains line then s.chan.bytes (s.keyData key) (line * 64) 64 else s.homeBytes (line * 64) 64 key
  | none => s.homeBytes (line * 64) 64 key

/-- The number under which `Power.bad` keeps a line of on-chip memory: of a cluster's scratchpad (0), a core's local store (1), the copy of
a line in a core's L1 data cache (2), a die's RDC (3) or a core's L1 instruction cache (4), 64 bytes of a core's accumulators (5), four
slots of a launch's snapshot (6), or 64 bytes of the local store or the accumulators that are saved of a core which a launch has been taken
from (7, 8) (R169; log 92, DESIGN CHOICE). -/
def sramLine (kind unit line : Nat) : Nat := 2 ^ 60 + kind * 2 ^ 56 + unit * 2 ^ 44 + line

/-- The same for four slots of a live margin, from slot 4 * `line` on: a tenant's own of an image, the shared one (owner 64), or the copy that
the loader keeps for a tenant (owner 128 and more) (R169, R182, R405; log 92, DESIGN CHOICE). -/
def marginLine (owner image line : Nat) : Nat := 2 ^ 200 + (owner * 2 ^ 64 + image) * 2 ^ 32 + line

/-- A line of the mailbox of a slot, in its core's local store (R170). -/
def mailLine (home i : Nat) : Nat := sramLine 1 (coreOf home) (384 + 8 * slotOf home + i)

/-- Where live margins and snapshots lie: whole lines of HBM below the dump region, which no mapping reaches (R182; log 7, DESIGN CHOICE). -/
def hbmLine (w : Dword) : Nat := w.toNat % 0x005F80000000 / 64 * 64
def marginAddr (margp image : Dword) : Nat := hbmLine (Config.marginBase margp image)
def snapLine (launch : Nat) : Nat := hbmLine (Config.snapBase launch)

/-- The line holds an uncorrectable error (R169). -/
def State.badLine (s : State) (line : Nat) : Bool := mgetD s.power.bad line 0 != 0

/-- One of the `n` bytes from `off` of a line holds an uncorrectable error (R169). -/
def State.badBytes (s : State) (line off n : Nat) : Bool := nbits (mgetD s.power.bad line 0) off n != 0

/-- The same for bytes of off-chip memory within one line. -/
def State.badAt (s : State) (pa n : Nat) : Bool := s.badBytes (pa / 64) (pa % 64) n

/-- A write replaces bytes of a line that hold an error (R228). -/
def State.mend (s : State) (line : Nat) (offs : List Nat) : State :=
  if s.badLine line then
    { s with power := { s.power with bad := mputD s.power.bad line (offs.foldl (fun m o => setBits m (o % 64) 1 0) (mgetD s.power.bad line 0)) 0 } }
  else s

/-- Lines that are written as a whole, or whose copies are new, hold no error (R228). -/
def State.mendLines (s : State) (lo n : Nat) : State :=
  if s.power.bad.isEmpty then s
  else { s with power := { s.power with bad := s.power.bad.filter fun e => e.1 < lo || lo + n ≤ e.1 } }

/-- `n` lines that are a copy of others hold the errors that those hold (R169; log 92, DESIGN CHOICE). -/
def State.carryErrors (s : State) (src dst n : Nat) : State :=
  if s.power.bad.isEmpty then s
  else
    let marks := (s.power.bad.filter fun e => src ≤ e.1 && e.1 < src + n).map fun e => (dst + (e.1 - src), e.2)
    let s := s.mendLines dst n
    { s with power := { s.power with bad := marks.foldl (fun m e => mput m e.1 e.2) s.power.bad } }

/-- The home applies a write of one line: its bytes, which are free of error from then on (R162, R228). -/
def State.homeWrite (s : State) (key : Nat) (ws : List (Nat × Byte)) : State :=
  match ws with
  | [] => s
  | w :: _ =>
    let line := w.1 / 64
    let s := s.dirtyLine line
    { s with mem := s.mem.puts (s.keyData key) ws }.mend line (ws.map Prod.fst)

/-- The dies other than `d` whose RDC holds a copy of the line (R162). -/
def State.rdcCopies (s : State) (d line : Nat) : List Nat :=
  (List.range 4).filter fun x => x != d && (s.die x).rdc.any fun e => e.1 / 1024 == line

/-- A write performed at its home for a writer on die `d`: the writer's own RDC copy is updated in place and the other
copies are to be invalidated (R162); all its bytes at once (log 136, DESIGN CHOICE). The thread is named by its home. -/
def State.performWrite (s : State) (tid d key : Nat) (ws : List (Nat × Byte)) : State :=
  match ws with
  | [] => s
  | w :: _ =>
    let line := w.1 / 64
    let s := s.homeWrite key ws
    let s := (s.mend (sramLine 3 d line) (ws.map Prod.fst)).modDie d fun x => { x with rdc := mmod x.rdc (cacheTag w.1 key) (patch · ws) }
    let dies := s.rdcCopies d line
    if dies.isEmpty then s
    else (s.modFlight fun f => { f with invals := f.invals ++ [{ id := s.sched.nextId, tid := tid, line := line, dies := dies }] }).newId

/-- No cache copy of a line is read any more, by any core: its earlier contents are gone (R166, R204). -/
def State.purge (s : State) (lo n : Nat) : State :=
  let keep (m : Map Vec) : Map Vec := m.filter fun e => e.1 / 1024 < lo || lo + n ≤ e.1 / 1024
  let core (x : Core) : Core := { x with l1d := keep x.l1d, l1i := keep x.l1i }
  let die (x : Die) : Die := { x with rdc := keep x.rdc }
  { s with cores := s.cores.map fun (e : Nat × Core) => (e.1, core e.2), dies := s.dies.map fun (e : Nat × Die) => (e.1, die e.2) }

/-- A line is written anew by the device itself, and read from its home by everyone from then on (R166, R178, R204). -/
def State.renewLine (s : State) (key line : Nat) (bs : List Byte) : State := (s.homeWrite key (place (line * 64) bs)).purge line 1

/-- The tenant that a key belongs to; 64 for none. -/
def State.keyTenant (s : State) (key : Nat) : Nat := match mget s.tables.keys key with | some k => k.tenant | none => 64

/-- A reader on die `d` finds the line at its home, and not in the die's RDC (R160). -/
def State.atHome (s : State) (d pa key : Nat) : Bool := homeDie pa == some d || (mget (s.die d).rdc (cacheTag pa key)).isNone

/-- The line as a reader on die `d` finds it below the L1, and the state after it: lines homed elsewhere go through the
die's RDC, which takes no line that holds an error (R160, R169). -/
def State.readLine (s : State) (d pa key : Nat) : Vec × State :=
  let line := ofBytes (s.homeBytes (pa / 64 * 64) 64 key)
  if homeDie pa = some d then (BitVec.ofNat 512 line, s)
  else match mget (s.die d).rdc (cacheTag pa key) with
    | some v => (v, s.countDie d 0x03 (s.keyTenant key))
    | none =>
      let v : Vec := BitVec.ofNat 512 line
      if s.badLine (pa / 64) then (v, s)
      else (v, ((s.mendLines (sramLine 3 d (pa / 64)) 1).modDie d fun x => { x with rdc := fillLine x.rdc 524288 s.free (cacheTag pa key) v }).tick)

/-- A byte of a line. -/
def lineBytes (v : Vec) (off n : Nat) : List Byte := (List.range n).map fun j => byteOf v (off + j)

/-- The copy that a reader on die `d` finds below the L1 has a line with an uncorrectable error in it: the home's, or that of the die's RDC
(R160, R169). -/
def State.copyBad (s : State) (d pa key : Nat) : Bool :=
  if s.atHome d pa key then s.badLine (pa / 64) else s.badLine (sramLine 3 d (pa / 64))

/-- A thread's load of the global or stack window (R160): the bytes, whether the L1 missed, and the state after it.
(Log 81, DESIGN CHOICE.) -/
def State.loadThrough (s : State) (c pa n key : Nat) : List Byte × Bool × State :=
  match mget (s.core c).l1d (cacheTag pa key) with
  | some v => (lineBytes v (pa % 64) n, false, s)
  | none =>
    let r := s.readLine (dieOf c) pa key
    let bs := lineBytes r.1 (pa % 64) n
    if s.copyBad (dieOf c) pa key then (bs, true, r.2)
    else (bs, true, ((r.2.mendLines (sramLine 2 c (pa / 64)) 1).modCore c fun x => { x with l1d := fillLine x.l1d 5120 r.2.free (cacheTag pa key) r.1 }).tick)

/-- A load of a thread on core `c` takes its bytes from the line's home (R160). -/
def State.missesAll (s : State) (c pa key : Nat) : Bool := (mget (s.core c).l1d (cacheTag pa key)).isNone && s.atHome (dieOf c) pa key

/-- An acquire at scope forme or wider removes every line of the core's L1 data cache (R160, R188). -/
def State.flashL1 (s : State) (c : Nat) : State := s.modCore c fun x => { x with l1d := [] }

/-- A message in a mailbox of the local store: oldest first, 64 bytes each (R268; log 11, DEDUCED). -/
def mailboxByte (ms : List Msg) (off : Nat) : Option Byte :=
  (ms[off / 64]?).map fun m => byteOf m.payload (off % 64)

/-- The tenant that an entry of the system area belongs to; the state-change log is everybody's (R170). -/
def State.localOwner (s : State) (c off : Nat) : Option Nat :=
  if off < 0xE000 then (mget s.threads (c * 64 + (off - 0x6000) / 512)).map Thread.tenant
  else if off < 0xE800 then some (nbits (mgetD (s.core c).counters ((off - 0xE000) / 8) 0) 0 6)
  else some (nbits (mgetD (s.core c).dirty ((off - 0xE800) / 8) 0) 40 6)

/-- A byte of an SRAM: what was written, zero in a range that a grant has zeroed, else what the SRAM holds (log 5, DESIGN CHOICE). -/
def sramRead (cells : List Host.Cell) (clean : List (Nat × Nat)) (unit off : Nat) : Byte :=
  match mget cells off with
  | some b => b
  | none => if clean.any fun r => r.1 ≤ off && off < r.1 + r.2 then 0 else Config.sramByte unit off

/-- Zero a range: the bytes it holds, and the ranges of bytes that nothing has written since (R170, R171). -/
def zeroRange (cells : List Host.Cell) (clean : List (Nat × Nat)) (lo n : Nat) : List Host.Cell × List (Nat × Nat) :=
  if n = 0 then (cells, clean)
  else (cells.filter fun e => e.1 < lo || lo + n ≤ e.1,
        (lo, n) :: clean.filter fun r => r.1 < lo || lo + n < r.1 + r.2)

/-- One byte of a core's local store as it is laid out (R170). -/
def State.localByte (s : State) (c off : Nat) : Byte :=
  let x := s.core c
  let own := sramRead x.localStore x.clean c off
  if off < 0x6000 then own
  else if off < 0xE000 then
    match mget s.threads (c * 64 + (off - 0x6000) / 512) with
    | some th => (mailboxByte th.mailbox ((off - 0x6000) % 512)).getD own
    | none => own
  else if off < 0xE800 then BitVec.ofNat 8 ((mgetD x.counters ((off - 0xE000) / 8) 0).toNat / 2 ^ (8 * (off % 8)))
  else if off < 0xF800 then BitVec.ofNat 8 ((mgetD x.dirty ((off - 0xE800) / 8) 0).toNat / 2 ^ (8 * (off % 8)))
  else match mget x.slog ((off - 0xF800) / 4) with
    | some e => BitVec.ofNat 8 (e.toNat / 2 ^ (8 * (off % 4)))
    | none => own

/-- A byte as a load finds it: a supervisor sees another tenant's entry of the system area as zero (R170). -/
def State.localView (s : State) (c off : Nat) (view : Option Nat) : Byte :=
  match view with
  | some n => if 0x6000 ≤ off ∧ off < 0xF800 ∧ s.localOwner c off ≠ some n then 0 else s.localByte c off
  | none => s.localByte c off

/-- Write one byte of a core's local store (R170): below machine level only the user area can be written. -/
def State.putLocal (s : State) (c off : Nat) (b : Byte) : State :=
  let sub (w : Nat) (j : Nat) : Nat := w - field w (8 * j) 8 * 2 ^ (8 * j) + b.toNat * 2 ^ (8 * j)
  let own := s.modCore c fun x => { x with localStore := mput x.localStore off b }
  if off < 0x6000 then own
  else if off < 0xE000 then
    let t := c * 64 + (off - 0x6000) / 512
    let o := (off - 0x6000) % 512
    match mget s.threads t with
    | some th =>
      if o / 64 < th.mailbox.length then
        { s with threads := mput s.threads t { th with mailbox := th.mailbox.modify (o / 64) fun m =>
          { m with payload := setBits m.payload (8 * (o % 64)) 8 b.toNat } } }
      else own
    | none => own
  else if off < 0xE800 then
    let i := (off - 0xE000) / 8
    s.modCore c fun x => { x with counters := mputD x.counters i (BitVec.ofNat 64 (sub (mgetD x.counters i 0).toNat (off % 8))) 0 }
  else if off < 0xF800 then
    let i := (off - 0xE800) / 8
    s.modCore c fun x => { x with dirty := mputD x.dirty i (BitVec.ofNat 64 (sub (mgetD x.dirty i 0).toNat (off % 8))) 0 }
  else if (mget (s.core c).slog ((off - 0xF800) / 4)).isSome then
    s.modCore c fun x => { x with slog := mmod x.slog ((off - 0xF800) / 4) fun w => BitVec.ofNat 32 (sub w.toNat (off % 4)) }
  else own

/-- One byte of a cluster's scratchpad (R171). -/
def State.scratchByte (s : State) (k off : Nat) : Byte :=
  sramRead (s.cluster k).scratch (s.cluster k).clean (512 + k) off

def State.putScratch (s : State) (k : Nat) (ws : List (Nat × Byte)) : State :=
  s.modCluster k fun x => { x with scratch := ws.foldl (fun m w => mput m w.1 w.2) x.scratch }

/-- The bytes a load of a thread on core `c` finds at a location, whether its L1 missed, and the state after it. -/
def State.loadLoc (s : State) (c : Nat) (l : Loc) (n : Nat) : List Byte × Bool × State :=
  match l with
  | .mem pa key _ => s.loadThrough c pa n key
  | .scratch k off => ((List.range n).map fun j => s.scratchByte k (off + j), false, s)
  | .localStore k off v => ((List.range n).map fun j => s.localView k (off + j) v, false, s)
  | .peer w off => (lineBytes (Config.peerBytes w off s.sched.fresh) 0 n, true, s.tick)

/-- The line of a location, as one number that tells lines of different memories apart. -/
def Loc.line : Loc → Nat × Nat × Nat
  | .mem pa _ _ => (0, 0, pa / 64)
  | .scratch k off => (1, k, off / 64)
  | .localStore k off _ => (2, k, off / 64)
  | .peer w off => (3, w, off / 64)

/-- The L1 of core `c` holds the line of a location (R160). -/
def State.inL1 (s : State) (c : Nat) : Loc → Bool
  | .mem pa key _ => (mget (s.core c).l1d (cacheTag pa key)).isSome
  | _ => false

/-- Update the line of a location in the L1 of core `c` if it is present (R160). -/
def State.patchL1 (s : State) (c : Nat) (l : Loc) (ws : List (Nat × Byte)) : State := match l with
  | .mem pa key _ => (s.mend (sramLine 2 c (pa / 64)) (ws.map Prod.fst)).modCore c fun x => { x with l1d := mmod x.l1d (cacheTag pa key) (patch · ws) }
  | _ => s

/-- A store leaves its core (R160): the L1 line is updated if it is present, and the store goes on to its home. -/
def State.sendStore (s : State) (tid c launch : Nat) (r : StoreReq) : State :=
  ((s.patchL1 c r.loc r.writes).modFlight fun f => { f with stores := f.stores ++
    [{ id := s.sched.nextId, tid := tid, core := c, launch := launch, req := r, seen := s.inL1 c r.loc }] }).newId

/-- The location lies on the chip: scratchpad or local store (R198). -/
def Loc.onChip : Loc → Bool
  | .scratch _ _ => true
  | .localStore _ _ _ => true
  | _ => false

/-- Two stores write a byte in common. -/
def StoreReq.meets (a b : StoreReq) : Bool := a.loc.line == b.loc.line && a.writes.any fun x => b.writes.any fun y => x.1 == y.1

/-- A store may be performed before `x` is, which its core issued later: not if they are one thread's and write a byte in common or
lie on the chip, and not if the core's threads have seen the earlier one (R190, R198). -/
def Store.yields (y x : Store) : Bool :=
  y.core != x.core || !((y.tid == x.tid && (y.req.meets x.req || (y.req.loc.onChip && x.req.loc.onChip))) || (y.seen && y.req.meets x.req))

/-- Every store that has to be performed before store `id` has been (R190, R198). -/
def storeFirst (id : Nat) (x : Store) : List Store → Bool
  | [] => true
  | y :: rest => y.id == id || (y.yields x && storeFirst id x rest)

/-- The store reaches a line that its core has filled from the home meanwhile: the line takes its bytes, but those that a later store
of the core has put there already (R160, R194). -/
def State.settleL1 (s : State) (x : Store) : State :=
  let later (a : Nat) : Bool := s.flight.stores.any fun y => x.id < y.id && y.core == x.core && y.seen &&
    y.req.loc.line == x.req.loc.line && y.req.writes.any fun w => w.1 == a
  s.patchL1 x.core x.req.loc (x.req.writes.filter fun w => !later w.1)

/-- A store that the core's threads have seen is on its way to the line: what misses the L1 waits for it (R190, R194). -/
def State.seenStore (s : State) (c : Nat) (l : Loc) : Bool := s.flight.stores.any fun y => y.core == c && y.seen && y.req.loc.line == l.line

/-- Whatever the threads of a core have read of a line, a thread that moves to another core reads nothing older there: no store that they
have seen is still to be performed, and no copy of a written line still to be invalidated (R190, R202; log 106, DEDUCED). -/
def State.steady (s : State) (c : Nat) : Bool := !(s.flight.stores.any fun y => y.core == c && y.seen) && s.flight.invals.isEmpty

/-- The identity of a thread, wherever it runs: of a user thread its forme, member and rank; of a supervisor or machine slot the
slot. -/
def Thread.who (th : Thread) : Nat := if th.forme = 0 then th.home else 32768 + th.forme * 1024 + th.midx * 64 + th.rank
/-- No thread. -/
def nobody : Nat := 32768
/-- The identity of the thread whose home slot this is. -/
def State.whoAt (s : State) (home : Nat) : Nat := match mget s.threads home with
  | some th => th.who
  | none => nobody

/-- A store performed where its location lies, for a thread on core `c`. -/
def State.performStore (s : State) (tid c launch : Nat) (r : StoreReq) : State :=
  match r.loc with
  | .mem _ key _ => s.performWrite tid (dieOf c) key r.writes
  | .scratch k off => (s.putScratch k r.writes).mend (sramLine 0 k (off / 64)) (r.writes.map Prod.fst)
  | .localStore k off _ => (r.writes.foldl (fun s w => s.putLocal k w.1 w.2) s).mend (sramLine 1 k (off / 64)) (r.writes.map Prod.fst)
  | .peer w _ => (s.modFlight fun f => { f with peers := f.peers ++
      [{ id := s.sched.nextId, tid := tid, core := c, launch := launch, window := w, writes := r.writes, counted := true,
         who := s.whoAt tid, va := r.va }] }).newId

/-- A line lies in a range of lines that are still to be zeroed. -/
def dueIn (line : Nat) (z : Nat × Nat × Nat) : Bool := z.1 ≤ line && line < z.1 + z.2.1

/-- Lines being zeroed (R166): no access sees them before (log 103, DEDUCED). -/
def State.zeroing (s : State) (line : Nat) : Bool :=
  s.power.zeroing.any (dueIn line)

/-- A range without a line. -/
def cutLine (line : Nat) (z : Nat × Nat × Nat) : List (Nat × Nat × Nat) :=
  if !dueIn line z then [z]
  else (if z.1 < line then [(z.1, line - z.1, z.2.2)] else []) ++
    (if line + 1 < z.1 + z.2.1 then [(line + 1, z.1 + z.2.1 - line - 1, z.2.2)] else [])

/-- A line of a frame is zeroed, for every range that it lies in, under the key of the last (R166). -/
def State.zeroNow (s : State) (line : Nat) : State :=
  match (s.power.zeroing.filter (dueIn line)).getLast? with
  | none => s
  | some z =>
    { s with power := { s.power with zeroing := s.power.zeroing.flatMap (cutLine line) } }.renewLine z.2.2 line (List.replicate 64 0)

/-- The bytes that hardware itself reads at their home: of a line that is still to be zeroed, zeros (R166). -/
def State.homeView (s : State) (pa n key : Nat) : List Byte :=
  if s.zeroing (pa / 64) then List.replicate n 0 else s.homeBytes pa n key

/-- The remote device allows an access of `n` bytes at an offset of a peer window: it lies in the export's length and has its permission
(R387): 0 read, 1 write, 2 atomic. -/
def State.peerAllows (s : State) (w off n acc : Nat) : Bool :=
  match mget s.host.windows w with
  | some x => decide (off + n ≤ x.units * 65536) && x.perm.getLsbD acc
  | none => false

/-- A location's line and byte in `Power.bad`. -/
def Loc.errorAt : Loc → Option (Nat × Nat)
  | .mem pa _ _ => some (pa / 64, pa % 64)
  | .scratch k off => some (sramLine 0 k (off / 64), off % 64)
  | .localStore k off _ => some (sramLine 1 k (off / 64), off % 64)
  | .peer _ _ => none

/-- An access to `n` bytes that misses every cache, or of on-chip memory, consumes an uncorrectable error (R169). -/
def State.badLoc (s : State) (l : Loc) (n : Nat) : Bool := match l.errorAt with
  | some (line, off) => s.badBytes line off n
  | none => false

end Sys2Proof.Machine
end

