-- ==== Sys2Proof/Machine/Thread.lean ====
section
/-! DEFINITION. Sys2Proof/Machine/Thread.lean: threads and their registers, what counters count (R28, R350 to R353), and the issue positions
(R17, R18). -/

namespace Sys2Proof.Machine

/-! ### Threads -/

/-- The machine slot's thread before anything has changed it (R13, R62): its window lies outside the 2,048 entries, and WIN.BASE
reads 0 (log 86, DESIGN CHOICE). -/
def machineThread (t : Nat) : Thread :=
  { Thread.blank with pl := 2, home := t, fresh0 := false, fresh1 := false, res0 := true, res1 := true }

/-- The live thread of a slot. -/
def State.thread? (s : State) (t : Nat) : Option Thread :=
  match mget s.threads t with
  | some th => some th
  | none => if slotOf t = 63 ∧ tidOk t then some (machineThread t) else none

def State.setThread (s : State) (t : Nat) (th : Thread) : State := { s with threads := mput s.threads t th }

def State.modThread (s : State) (t : Nat) (f : Thread → Thread) : State :=
  match s.thread? t with
  | some th => s.setThread t (f th)
  | none => s

def State.launch? (s : State) (l : Nat) : Option Launch := mget s.work.launches l
def State.modLaunch (s : State) (l : Nat) (f : Launch → Launch) : State :=
  s.modWork fun w => { w with launches := mmod w.launches l f }
def State.tenant? (s : State) (n : Nat) : Option Tenant := mget s.tables.tenants n
def State.modTenant (s : State) (n : Nat) (f : Tenant → Tenant) : State :=
  s.modTables fun x => { x with tenants := mmod x.tenants n f }
def State.modSup (s : State) (c n : Nat) (f : Sup → Sup) : State :=
  s.modCore c fun x => { x with sups := mmod x.sups n f }

/-- A field of a launch record: `n` bytes at offset `o` (R260). -/
def Launch.part (l : Launch) (o n : Nat) : Nat := nbits l.record (8 * o) (8 * n)
/-- FLAGS.FROZEN (R260). -/
def Launch.frozen (l : Launch) : Bool := nbits l.record 25 1 = 1

/-- The launch-held state a thread reaches (R71, R415). -/
def State.launchOf (s : State) (th : Thread) : Option Launch := s.launch? th.launch

/-- The thread may run user instructions of a launch that is FROZEN or has none: it records nothing. -/
def State.records (s : State) (th : Thread) : Bool :=
  match s.launchOf th with
  | some l => !l.frozen
  | none => false

/-- Registers the window reaches (R60, R61). -/
def Thread.limit (th : Thread) : Nat := if th.guest then Nat.min th.w 32 else th.w

/-- A register field that names one of h0 to h7 (R34). -/
def Thread.shadowed (th : Thread) (n : Nat) : Bool := th.ctx.hnd && 120 ≤ n && n < 128

/-- A register's identity: v0 to v127 by number, h0 to h7 as 128 to 135. -/
def Thread.regId (th : Thread) (n : Nat) : Nat := if th.shadowed n then n + 8 else n

/-- V(n) by identity. -/
def Ctx.reg (x : Ctx) (r : Nat) : Vec := if 128 ≤ r then mgetD x.shadow (r - 128) 0 else mgetD x.regs r 0

/-- A write to a register by identity; to a window register it sets the presence bit (R63). -/
def Ctx.setReg (x : Ctx) (r : Nat) (v : Vec) : Ctx :=
  if 128 ≤ r then { x with shadow := mputD x.shadow (r - 128) v 0 }
  else { x with regs := mputD x.regs r v 0, armed := setBits x.armed r 1 0 }

/-- V(n) (R57). -/
def Thread.V (th : Thread) (n : BitVec 7) : Vec := th.ctx.reg (th.regId n.toNat)
/-- S(n) (R57). -/
def Thread.S (th : Thread) (n : BitVec 7) : Dword := (th.V n).setWidth 64
/-- K(n): k0 reads all ones (R67). -/
def Ctx.mask (x : Ctx) (n : Nat) : Mask := if n = 0 then BitVec.allOnes 128 else mgetD x.masks n 0
def Thread.K (th : Thread) (n : BitVec 3) : Mask := th.ctx.mask n.toNat
/-- A condition: bit 0 of a mask register (R67). -/
def Thread.cond (th : Thread) (n : BitVec 3) : Bool := (th.K n).getLsbD 0

def Thread.setCtx (th : Thread) (f : Ctx → Ctx) : Thread := { th with ctx := f th.ctx }
/-- V(n) ← v. -/
def Thread.setV (th : Thread) (n : BitVec 7) (v : Vec) : Thread := { th with ctx := th.ctx.setReg (th.regId n.toNat) v }
/-- S(n) ← v: bits 511:64 become zero (R57). -/
def Thread.setS (th : Thread) (n : BitVec 7) (v : Dword) : Thread := th.setV n (v.setWidth 512)
/-- K(n) ← v: a write to k0 has no effect (R57, R67). -/
def Ctx.setMask (x : Ctx) (n : Nat) (v : Mask) : Ctx := if n = 0 then x else { x with masks := mputD x.masks n v 0 }
def Thread.setK (th : Thread) (n : BitVec 3) (v : Mask) : Thread := { th with ctx := th.ctx.setMask n.toNat v }

/-- Armed registers of the window (STAT.ARMED). -/
def Ctx.armedCount (x : Ctx) : Nat := ((List.range 128).filter fun n => x.armed.getLsbD n).length

/-- Lane `i` of width `w` is active under the mask that VMSK selects (R57, R67); two 4-bit elements share a bit. -/
def Thread.active (th : Thread) (i w : Nat) : Bool := (th.ctx.mask (nbits th.ctx.vmsk 0 3)).getLsbD (i * w / 8)

/-- The thread at its home slot: its mailbox and engine contexts stay there (R269, R244). -/
def State.homeThread (s : State) (th : Thread) : Thread := (s.thread? th.home).getD th

/-- Outstanding loads (OPC.LD). -/
def Thread.loads (th : Thread) : Nat := (th.rob.filter fun e => match e.load with
  | some l => !l.landed
  | none => false).length

/-! ### Counting (R350) -/

/-- The scope of a counter has an event (R72). -/
def Ev.covers (ev : Ev) (who launch tenant : Nat) : Bool :=
  match nbits ev.sel 8 2 with
  | 0 => ev.who == who
  | 1 => ev.owner == some launch
  | _ => ev.tenant == tenant
/-- The counter counts an event of that source in that scope (R350, R72). -/
def Ev.counts (ev : Ev) (who launch tenant src : Nat) : Bool :=
  ev.owner.isSome && nbits ev.sel 0 8 == src && ev.covers who launch tenant

/-- A launch has been taken off a core: its counters there count nothing of it (R350). -/
def State.offCore (s : State) (c launch : Nat) : Bool :=
  match s.launch? launch with
  | some l => !l.cores.contains c
  | none => false

/-- Add `n` events of a source, caused by a thread, to the core's counters. -/
def State.countFor (s : State) (c who launch tenant src n : Nat) : State :=
  if (s.core c).evs.isEmpty || n == 0 then s
  else
    let off := s.offCore c launch
    s.modCore c fun x =>
      let hit (e : Ev) : Bool := e.counts who launch tenant src && !(off && e.owner == some launch)
      let evs := x.evs.map fun e => if hit e.2 then (e.1, { e.2 with cnt := e.2.cnt + BitVec.ofNat 64 n }) else e
      { x with evs := evs }

def State.count (s : State) (t : Nat) (th : Thread) (src n : Nat) : State :=
  s.countFor (coreOf t) th.who th.launch th.tenant src n

/-- An event of the core itself, which counts for every scope (R351, sources 0x50 and 0x51). -/
def State.countEvery (s : State) (c src : Nat) : State :=
  let one (e : Nat × Ev) : Nat × Ev :=
    if e.2.owner.isSome && nbits e.2.sel 0 8 == src then (e.1, { e.2 with cnt := e.2.cnt + 1 }) else e
  if (s.core c).evs.isEmpty then s else s.modCore c fun x => { x with evs := x.evs.map one }

/-- What the implementation leaves open of an access that goes beyond its core's L1: whether a switch has merged it, whether an error in it
was corrected, whether the L2 of its home held the line, and how many flits crossed bridges; all are counted (R163, R169, R351,
R353; log 68, DESIGN CHOICE). One that its die's RDC answers reaches no home. -/
def State.traffic (s : State) (c who launch tenant pa : Nat) (mergeable : Bool) (cached : Bool := false) : State :=
  if (s.core c).evs.isEmpty && s.dies.all fun d => d.2.devs.isEmpty then s
  else
    let w := BitVec.ofNat 64 s.free
    let d := dieOf c
    let s := s.tick
    let s := if mergeable && w.getLsbD 0 then (s.countFor c who launch tenant 0x27 1).countDie d 0x09 tenant else s
    let s := if w.getLsbD 1 then (s.countFor c who launch tenant 0x52 1).countDie d 0x0E tenant else s
    match if cached then none else homeDie pa with
    | none => s
    | some h =>
      let s := if w.getLsbD 2 then s.countDie h 0x01 tenant else (s.countDie h 0x02 tenant).countDie h 0x05 tenant
      if h = d then s else (List.range (nbits w 3 4)).foldl (fun s _ => s.countDie d 0x0A tenant) s

/-- An access that reaches a line's home by itself, through an export or of the block engine: whether the L2 there held the line (R353; log
68, DESIGN CHOICE). -/
def State.homeTraffic (s : State) (tenant pa : Nat) : State :=
  if s.dies.all fun d => d.2.devs.isEmpty then s
  else
    let hit := (Config.freeWord s.sched.fresh).getLsbD 0
    match homeDie pa with
    | none => s
    | some h => if hit then s.tick.countDie h 0x01 tenant else (s.tick.countDie h 0x02 tenant).countDie h 0x05 tenant

/-- What the implementation leaves open of an access that stays within its core or cluster: whether an error in it was corrected (R169,
R351, R353; log 68, DESIGN CHOICE). -/
def State.corrected (s : State) (c who launch tenant : Nat) : State :=
  if (s.core c).evs.isEmpty && s.dies.all fun d => d.2.devs.isEmpty then s
  else
    let hit := (Config.freeWord s.sched.fresh).getLsbD 0
    let s := s.tick
    if hit then (s.countFor c who launch tenant 0x52 1).countDie (dieOf c) 0x0E tenant else s

/-- The events of R28: messages of a launch sent and received on a core, by a thread if one is concerned. -/
def State.countSent (s : State) (c who l n : Nat) : State :=
  let s := s.modLaunch l fun x => { x with sent := mupd x.sent c 0 (· + n) }
  s.countFor c who l (match s.launch? l with | some x => x.tenant | none => 64) 0x30 n
def State.countRecvd (s : State) (c who l n : Nat) : State :=
  let s := s.modLaunch l fun x => { x with recvd := mupd x.recvd c 0 (· + n) }
  s.countFor c who l (match s.launch? l with | some x => x.tenant | none => 64) 0x31 n

/-! ### Issue positions (R17, R18) -/

/-- The entry of the imposition table that the core visits: USED, PB or SB clear, THR, LIDX and SLOT (R325). -/
def Core.entry (x : Core) : BitVec 16 := mgetD x.imp x.pos 0
def impUsed (e : BitVec 16) : Bool := e.getLsbD 15
def impThr (e : BitVec 16) : Bool := e.getLsbD 14
def impBubble (e : BitVec 16) : Bool := !impUsed e || e.getLsbD 13 || e.getLsbD 12
def impLidx (e : BitVec 16) : Nat := nbits e 6 6
def impSlot (e : BitVec 16) : Nat := nbits e 0 6

/-- The launch with an index on a core. -/
def State.launchAt (s : State) (c lidx : Nat) : Option Nat :=
  (s.work.launches.find? fun l => l.2.lidx == lidx && l.2.cores.contains c && !l.2.preempted).map Prod.fst

/-- A supervisor run is in progress on the core for the tenant (R368). -/
def State.running (s : State) (c n : Nat) : Bool :=
  match mget (s.core c).sups n with
  | some u => u.run.isSome
  | none => false

/-- The slot's thread was resumed in the supervisor run that is still in progress (R369). -/
def State.resumedInRun (s : State) (c n slot : Nat) : Bool :=
  match mget (s.core c).sups n with
  | some u => u.resumed.contains slot
  | none => false

/-- A supervisor or machine slot's thread runs only during its runs (R368, R375). -/
def State.inRun (s : State) (t : Nat) (th : Thread) : Bool :=
  if th.pl = 1 then s.running (coreOf t) th.tenant else if th.pl = 2 then (s.core (coreOf t)).mrun else true

/-- The thread of a slot may be tried: it is live there, and not stopped, in an upcall, away, or in `yield`, of which
the 64th cycle is the last (log 134, DESIGN CHOICE). -/
def State.mayTry (s : State) (t : Nat) : Bool :=
  match s.thread? t with
  | none => false
  | some th =>
    !th.stopped && th.away.isNone &&
    (match th.wait with | .yield _ => false | _ => true) &&
    (match th.upcall with | some u => u.resume && !s.resumedInRun (coreOf t) th.tenant (slotOf t) | none => true) &&
    s.inRun t th

/-- The thread is in the upcall state: it faulted and has not been resumed (R368, R369). -/
def Thread.inUpcall (th : Thread) : Bool := match th.upcall with
  | some u => !u.resume
  | none => false

/-- The slot whose thread issues in the positions of a slot: the supervisor's while the slot's thread is in the upcall state,
or was resumed in the run in progress (R18). (Log 25, DEDUCED.) -/
def State.issuer (s : State) (c slot : Nat) : Nat :=
  match s.thread? (c * 64 + slot) with
  | some th =>
    match mget (s.core c).sups th.tenant with
    | some u => if th.pl = 0 && (th.inUpcall || u.resumed.contains slot) then u.slot else slot
    | none => slot
  | none => slot

/-- The next slot of the backfill search of a position, after `d` slots from the named one have been tried (R17), with its
distance from the named one. A position without a thread has slot 0 before it (R264). -/
def State.nextFill (s : State) (c d : Nat) : Option (Nat × Nat) :=
  let e := (s.core c).entry
  if impLidx e = 63 then none
  else match s.launchAt c (impLidx e) with
  | none => none
  | some l =>
    let base := if impThr e then impSlot e else 0
    (firstFrom (fun k =>
      let slot := (base + k) % 64
      slot != 63 && s.mayTry (c * 64 + slot) &&
        (match s.thread? (c * 64 + slot) with | some th => th.launch == l | none => false)) (d + 1) (63 - d)).map
      fun k => (k, (base + k) % 64)

/-- The cycle ends with nothing issued: it goes to the position's named thread under what holds it; an unready machine
position, and a position that names no thread, is cause 15 (R349). -/
def State.stall (s : State) (c : Nat) : State :=
  let e := (s.core c).entry
  let s := { s with sched := { s.sched with issue := false } }
  if impThr e then
    match s.thread? (c * 64 + impSlot e) with
    | some th => s.count (c * 64 + impSlot e) th (0x10 + (if th.pl = 2 then 15 else th.cause.getD 15)) 1
    | none => s
  else match s.launchAt c (impLidx e) with
    | some l => s.countFor c nobody l (match s.launch? l with | some x => x.tenant | none => 64) 0x1F 1
    | none => s

/-- Go on with the backfill search after the thread of `cur` did not issue. -/
def State.fillOn (s : State) : State :=
  let c := coreOf s.sched.cur
  match s.nextFill c s.sched.tried with
  | some (d, n) => { s with sched := { s.sched with cur := c * 64 + n, tried := d } }
  | none => s.stall c

/-- What the sample of this cycle says of the cause, if it was taken of the position that names the slot (R357). -/
def State.sampled (s : State) (t cause : Nat) : State :=
  match (s.core (coreOf t)).sampleDue with
  | some x => if x.slot = slotOf t then s.modCore (coreOf t) fun y => { y with sampleDue := some { x with cause := cause } } else s
  | none => s

/-- The thread does not issue: `c` is the cause that holds it (R17, R349). Nothing else of it changes. -/
def hold (s : State) (t c : Nat) : State :=
  let s := (s.modThread t fun th => { th with cause := some c }).sampled t c
  if s.sched.issue then s.fillOn else s

/-- It is held for a reply that no pre-emption and no handler takes it from (R223, R224, R331). -/
def holdReply (s : State) (t c : Nat) : State := hold (s.modThread t fun th => { th with reply := true }) t c

/-- The member is detached for everyone else: by an instruction that has committed (R22, R229). -/
def Thread.gone (th : Thread) : Bool := th.det && !th.rob.any Rob.leaves

/-! ### The edge of a voltage row (R379) -/

/-- The core's row is held: none of its requests crosses the row boundary (R379). (Log 65, DEDUCED.) -/
def State.rowHeld (s : State) (c : Nat) : Bool := (s.row (rowOf c)).held

/-- A request of a core to another core, or to a unit of the die or the device, waits at the edge of its row (R379, R392). -/
def State.edge (s : State) (c : Nat) (core : Option Nat) : Bool :=
  s.rowHeld c && (match core with
    | some k => rowOf k != rowOf c
    | none => true)

/-! ### Region operations under way (R209, R211, R226) -/

/-- An operation is gone without a reply, with its thread or its command: nothing waits for it any more, and a break that it has found is
still reported (R226, R258). -/
def Region.forget (r : Region) (me : Nat) : Region :=
  { r with ops := mdel r.ops me, found := r.found.map fun x => if x.1 = me then (nobody, x.2) else x }
def State.forgetOp (s : State) (me : Nat) : State := { s with regions := s.regions.map fun (e : Nat × Region) => (e.1, e.2.forget me) }

end Sys2Proof.Machine
end

