-- ==== Sys2Proof/Machine/View.lean ====
section
/-! DEFINITION. Sys2Proof/Machine/View.lean: the control registers of a thread as they read (R71, R73), and the control words of its save
record (R373). -/

namespace Sys2Proof.Machine

/-- A register that the thread's context holds. -/
def Ctx.ctl (x : Ctx) (n : Nat) : Dword := match n with
  | 0x000 => x.pc
  | 0x001 => x.lnk
  | 0x008 => x.argp
  | 0x010 => x.rnd
  | 0x011 => x.flg
  | 0x012 => x.vmsk
  | 0x018 => x.fmta
  | 0x019 => x.fmtb
  | 0x01A => x.scla
  | 0x01B => x.sclb
  | 0x020 => x.lpc0
  | 0x021 => x.lpe0
  | 0x022 => x.lps0
  | 0x023 => x.lpc1
  | 0x024 => x.lpe1
  | 0x025 => x.lps1
  | 0x026 => x.rpts
  | 0x030 => x.msgv
  | 0x032 => x.msgpc
  | 0x040 => x.trapc
  | 0x041 => x.trapv
  | 0x042 => x.trappc
  | _ => 0

/-- STAT (R73). -/
def statOf (s : State) (th : Thread) : Nat :=
  th.pl + (if th.det then 4 else 0) + (if th.ctx.hnd then 8 else 0) + (if th.guest then 16 else 0) +
  (match s.launchOf th with | some l => if l.frozen then 32 else 0 | none => 0) + th.ctx.armedCount * 2 ^ 8

/-- WIN (R73): the size and base given at creation; a guest's slot shows its home's (log 13, DEDUCED). -/
def winOf (s : State) (th : Thread) : Nat := (s.homeThread th).base + th.w * 2 ^ 16

/-- SELF (R73). -/
def selfOf (t : Nat) (th : Thread) : Nat :=
  slotOf t + coreOf t % 128 * 2 ^ 6 + dieOf (coreOf t) * 2 ^ 13 + th.midx * 2 ^ 16 + coreOf t * 2 ^ 32 +
  coreOf th.home * 2 ^ 48 + slotOf th.home * 2 ^ 57

/-- Members of the thread's rank in its forme, with their numbers. -/
def Forme.rankMates (f : Forme) (rank : Nat) : List (Nat × Nat) :=
  (List.range f.f).filterMap fun m => (f.tids[m * f.t + rank]?).map fun h => (m, h)

/-- FSTAT (R73). A thread of no forme, in a supervisor or machine slot, reads ATT 1, FW 0 and its home's column (log 86, DESIGN
CHOICE). -/
def fstatOf (s : State) (th : Thread) : Nat :=
  match mget s.work.formes th.forme with
  | none => 2 ^ 8 + coreOf th.home % 16 * 2 ^ 4
  | some f =>
    let mates := f.rankMates th.rank
    let lead := match f.tids[0]? with | some h => coreOf h % 16 | none => 0
    let low := (f.f - 1) + lead * 2 ^ 4 + (if th.det then 0 else 2 ^ 8)
    if th.midx = 0 then
      mates.foldl (fun acc m =>
        if f.ended.contains m.2 then acc + 2 ^ (32 + m.1)
        else match s.thread? m.2 with
          | some y => if y.gone || (y.away.isSome && m.1 != 0) then acc + 2 ^ (16 + m.1) else acc
          | none => acc) low
    else low + (if th.det then 2 ^ (16 + th.midx) else 0)

/-- MSGM (R73): the mailbox stays at the home slot (R269). -/
def msgmOf (s : State) (th : Thread) : Nat :=
  th.ctx.rem % 128 + (if th.ctx.mskd then 2 ^ 8 else 0) + (if th.ctx.hnd then 2 ^ 9 else 0) +
  (s.homeThread th).mailbox.length * 2 ^ 16

/-- The slot in which a pre-empted context last ran: its home, or for a guest its guest slot. -/
def Thread.ranIn (th : Thread) : Nat := if th.guest then th.away.getD th.home else th.home

/-- The wait word and the upcall word (R373, words 28 and 29); a handler that interrupted an `arwt` keeps the mark of its await part
(R364). -/
def Thread.waitWord (th : Thread) : Nat := match if th.wait = .none then th.ctx.kept else th.wait with
  | .none => 0
  | .yield n => 2 ^ 62 + n % 128
  | .wfm => 2 * 2 ^ 62
  | .arwt e _ => 3 * 2 ^ 62 + e % 256 * 2 ^ 8
def Thread.upcallWord (th : Thread) : Nat := match th.upcall with
  | none => 0
  | some u => 1 + (if u.resume then 2 else 0) + u.kind * 2 ^ 12 + u.code * 2 ^ 16

/-- The control words of a thread saved in slot `t` (R373). -/
def controlWords (s : State) (t : Nat) (th : Thread) : List Nat :=
  let x := th.ctx
  let own := [0x008, 0x010, 0x011, 0x012, 0x018, 0x019, 0x01A, 0x01B, 0x020, 0x021, 0x022, 0x023, 0x024, 0x025, 0x026, 0x030]
  [x.pc.toNat, x.lnk.toNat, statOf s th, fstatOf s th] ++ (own.map fun n => (x.ctl n).toNat) ++
  [msgmOf s th, x.msgpc.toNat, x.trapc.toNat, x.trapv.toNat, x.trappc.toNat,
   (match x.pick with | some p => 2 ^ 63 + p.variant * 2 ^ 40 + p.slot | none => 0),
   (match x.pick with | some p => p.cycles | none => 0),
   (match th.join with | some i => 2 ^ 63 + i | none => 0), th.waitWord, th.upcallWord, winOf s th, selfOf t th, th.recno]

end Sys2Proof.Machine
end

