-- ==== Sys2Proof/Machine/Dump.lean ====
section
/-! DEFINITION. Sys2Proof/Machine/Dump.lean: what the device sends to the host (R280, R385, R391), and what a fatal error writes into the
dump region (R186, R381). -/

namespace Sys2Proof.Machine

/-! ### Packets out of the device (R280, R383, R385, R391) -/

/-- A tenant's lost-record count (R258). -/
def State.lostOf (s : State) (tenant : Nat) : Nat := match s.tenant? tenant with
  | some x => x.lost
  | none => 0

/-- The completion record of a launch (R280). Its LOST is its tenant's lost-record count at that time, which the host reads so (R258; log 142,
DEDUCED). -/
def completion (l : Launch) (lost status msgs time : Nat) : BitVec 256 :=
  BitVec.ofNat 256 (l.part 16 8 + l.lser % 2 ^ 16 * 2 ^ 64 + status * 2 ^ 80 + l.part 1 1 * 2 ^ 88 + lost % 2 ^ 32 * 2 ^ 96
    + msgs % 2 ^ 64 * 2 ^ 128 + time % 2 ^ 64 * 2 ^ 192)

/-- A packet to an address leaves the device, or is dropped at its port and counted if the device record does not list the address; which
port it takes is open (R391; log 110, DESIGN CHOICE). -/
def State.egress (s : State) (dest : Nat) : Bool := s.host.record.dests.contains dest
def State.dropPacket (s : State) : State :=
  let port := s.free % 16
  s.tick.modHost fun h => { h with dropped := mupd h.dropped port 0 (· + 1) }
def State.post (s : State) (dest : Nat) (p : Posted) : State :=
  if s.egress dest then s.modHost fun h => { h with posted := h.posted ++ [p] } else s.dropPacket

/-- The address to which a tenant's completions and replies go: the one that firmware has set for the tenant through management (R385); where
none is set, that of a completion session bound to the tenant, else the management host's (R383; log 110, DESIGN CHOICE). -/
def State.hostOf (s : State) (tenant : Nat) : Nat := match mget s.host.hostDest tenant with
  | some a => a
  | none => match s.host.sessions.find? fun e => e.2.endpoint == 1 && e.2.tenants.contains tenant with
    | some e => e.2.remote
    | none => s.host.record.host

/-- Firmware sets the host's destination address of a tenant through management (R385). No row of the table is that message. -/
def State.setHostDest (s : State) (tenant dest : Nat) : State := s.modHost fun h => { h with hostDest := mput h.hostDest tenant dest }

/-- The management endpoint has a session, and the device runs (R383, R389). -/
def State.managed (s : State) : Bool := s.host.phase == .running && s.host.sessions.any fun e => e.2.endpoint == 3

/-- The address to which answers over management go: that of a management session (R383). -/
def State.manager (s : State) : Nat := match s.host.sessions.find? fun e => e.2.endpoint == 3 with
  | some e => e.2.remote
  | none => s.host.record.host

/-- The peer of a window never hears what is sent to it: the port drops it (R391). -/
def State.mute (s : State) (w : Nat) : Bool := match mget s.host.windows w with
  | some x => !s.egress x.dest
  | none => false

/-- A request to such a peer is dropped once, and is never answered: a read of a line of the window, or a write by its identity (R391; log
110, DESIGN CHOICE). -/
def State.unheard (s : State) (key : Nat) : State :=
  if s.host.unheard.contains key then s else s.dropPacket.modHost fun h => { h with unheard := h.unheard ++ [key] }
def readKey (w off : Nat) : Nat := w * 2 ^ 35 + off / 64
def writeKey (id : Nat) : Nat := 2 ^ 40 + id

/-- A message of the completion path: the 8-byte prefix with its type, then the record (R385). -/
def framed (ty : Nat) (record : BitVec 256) : BitVec 320 := record ++ BitVec.ofNat 64 ty

/-- A completion record leaves for its tenant's host (R280, R385). -/
def State.sendCompletion (s : State) (tenant : Nat) (record : BitVec 256) : State :=
  s.post (s.hostOf tenant) (.completion tenant (s.hostOf tenant) (framed 1 record))

/-! ### The dump region (R381) -/

/-- Memory without the dump region, or the dump region alone (R158, R186). -/
def Memory.keep (m : Memory) (dump : Bool) : Memory :=
  { cells := m.cells.filter fun e => isDump e.1 == dump, tags := m.tags.filter fun e => isDump (e.1 * 64) == dump }

/-- A register of the window lies in its second bank (R76). -/
def Thread.inSecond (th : Thread) (n : Nat) : Bool := (th.base + n) / 128 != th.base / 128

/-- A register of the window lies in a bank that does not hold the thread's entries (R76). -/
def Thread.absent (th : Thread) (n : Nat) : Bool := !th.shadowed n && (if th.inSecond n then !th.res1 else !th.res0)

/-- The thread, live or pre-empted, whose entry of a core's register file it is, with the register's number (R62, R76). -/
def State.fileOwner (s : State) (c e : Nat) : Option (Thread × Nat) :=
  let live := (s.threads.filter fun x => coreOf x.1 == c && x.2.pl != 2).map Prod.snd
  let stored := (s.saved.filter fun x => coreOf x.2.ranIn == c).map Prod.snd
  ((live ++ stored).find? fun th => th.base ≤ e && e < th.base + th.limit && (if th.inSecond (e - th.base) then th.res1 else th.res0)).map
    fun th => (th, e - th.base)

/-- The owner tag of an entry: its owner's tenant and record number; 0 for none (log 21, DESIGN CHOICE). -/
def ownerTag (x : Option (Thread × Nat)) : Nat := match x with
  | some y => 2 ^ 63 + y.1.tenant * 2 ^ 32 + y.1.recno
  | none => 0

/-- A queued command in the dump: its number, home, operation, and operands (log 21, DESIGN CHOICE). -/
def commandBytes (n home op : Nat) (a b c : Vec) : List Byte :=
  bytesOf n 8 ++ bytesOf home 4 ++ bytesOf op 4 ++ bytesOf a.toNat 64 ++ bytesOf b.toNat 64 ++ bytesOf c.toNat 64

/-- A register of a migrating context, whether it has arrived or is carried still (R61, R271). -/
def Thread.cargoReg (th : Thread) (n : Nat) : Vec := match th.coming.find? fun e => e.1 == n with
  | some e => e.2
  | none => th.ctx.reg n

/-- A core's area: the items of R381 in its order, one after the other; how each is laid out is the model's (log 21, DESIGN CHOICE). -/
def State.coreArea (s : State) (c : Nat) : List Byte :=
  let x := s.core c
  let entries := List.range 2048
  let regs := entries.flatMap fun e => bytesOf (match s.fileOwner c e with | some y => (y.1.ctx.reg y.2).toNat | none => 0) 64
  let tags := entries.flatMap fun e => bytesOf (ownerTag (s.fileOwner c e)) 8
  let store := (List.range 65536).map fun i => s.localByte c i
  let words := (List.range 64).flatMap fun k => match s.thread? (c * 64 + k) with
    | some th => (controlWords s (c * 64 + k) th).flatMap fun w => bytesOf w 8
    | none => List.replicate (8 * 33) 0
  let imps := (List.range 64).flatMap fun p => bytesOf (mgetD x.imp p 0).toNat 2
  let accs := (List.range 8).flatMap fun k => (mgetD x.accs k (List.replicate 1024 0)).flatMap fun w => bytesOf w.toNat 4
  let copies := (x.copyQ.take 32).flatMap fun m => commandBytes m.n m.home m.op m.a m.b m.c
  let mats := (x.matQ.take 16).flatMap fun m => commandBytes m.n m.home m.op m.a m.b m.c
  let guests := (x.migrants.take 16).flatMap fun m => ((controlWords s m.home m.thread).flatMap fun w => bytesOf w 8) ++
    (List.range 32).flatMap fun n => bytesOf (m.thread.cargoReg n).toNat 64
  let rings := (List.range 16).flatMap fun k => match mget x.rings k with
    | some r => bytesOf r.desc.toNat 8 ++ bytesOf r.tail 2 ++ bytesOf r.wptr 2 ++ bytesOf r.head 2 ++ bytesOf r.rptr 2
    | none => List.replicate 16 0
  let evs := bytesOf x.cyc.toNat 8 ++ (List.range 8).flatMap fun k => match mget x.evs k with
    | some e => bytesOf e.sel.toNat 8 ++ bytesOf e.cnt.toNat 8
    | none => List.replicate 16 0
  regs ++ tags ++ store ++ words ++ imps ++ accs ++ copies ++ mats ++ guests ++ rings ++ evs

/-- A die's part of the last area, and what the I/O die keeps, in the order of R381; how each item is laid out is the model's (log 21,
DESIGN CHOICE). -/
def State.dieArea (s : State) (d : Nat) : List Byte :=
  let x := s.die d
  let bars := (List.range 256).flatMap fun i => bytesOf (mgetD x.barriers i 0).toNat 8
  let migs := (x.migQ.take 64).flatMap fun m => bytesOf m.entry 8 ++ bytesOf m.va 8 ++ bytesOf m.oldBlk 8 ++ bytesOf m.newBlk 8
  let devs := (List.range 16).flatMap fun i => match mget x.devs i with
    | some e => bytesOf e.1.toNat 2 ++ bytesOf e.2.toNat 8
    | none => List.replicate 10 0
  let bins (bs : List Bin) : List Byte := bs.flatMap fun b =>
    bytesOf b.tenant 1 ++ bytesOf b.image 4 ++ bytesOf b.bucket 8 ++ (List.range 16).flatMap fun k => bytesOf (mgetD b.counts k 0) 4
  bars ++ migs ++ devs ++ bins x.bins ++ bins (x.others.map Prod.snd) ++ x.totals.flatMap fun e => bytesOf e.2 8

def State.ioArea (s : State) : List Byte :=
  let bars := (List.range 256).flatMap fun i => bytesOf (mgetD s.tables.dbars i 0).toNat 8
  let words (m : Map (List Dword)) : List Byte := m.flatMap fun e => bytesOf e.1 4 ++ bytesOf e.2.length 4 ++ e.2.flatMap fun w => bytesOf w.toNat 8
  let batches := (s.work.batches).flatMap fun e => bytesOf e.1 4 ++ bytesOf e.2.state 1 ++ bytesOf e.2.launch 8 ++ bytesOf e.2.cfg.toNat 16 ++
    bytesOf e.2.reached 4 ++ bytesOf e.2.counted 4 ++ words e.2.kept ++ words (e.2.result.map fun x => (x.1, BitVec.ofNat 64 x.2.2 :: x.2.1))
  let regions := (List.range 16).flatMap fun g => match mget s.regions g with
    | some r => bytesOf r.tenant 1 ++ bytesOf r.rank 1 ++ bytesOf r.ty 1 ++ bytesOf r.die 1 ++ bytesOf r.grqb 8 ++ bytesOf r.root 8 ++ bytesOf r.entries 8 ++
        ((List.range 4).flatMap fun d => bytesOf (r.extents.getD d 0) 4) ++ bytesOf r.height 1 ++ bytesOf (if r.broken then 1 else 0) 1 ++
        bytesOf (if r.closing then 1 else 0) 1
    | none => List.replicate 47 0
  let queues := (s.work.queues).flatMap fun e => e.2.flatMap fun r => bytesOf r.1 8 ++ bytesOf r.2.toNat 128
  let heads := (s.tables.free).flatMap fun e => bytesOf e.1 4 ++ bytesOf (e.2.blocks.headD 0) 8 ++ bytesOf e.2.blocks.length 4
  let tenants := (List.range 64).flatMap fun n => match mget s.tables.tenants n with
    | some x => bytesOf x.entry.toNat 64
    | none => List.replicate 64 0
  bars ++ batches ++ regions ++ queues ++ heads ++ tenants

/-- The bases of the tables in machine memory: of the tenant table and the key table, which no rule gives, and of each tenant's page tables and
shape table (R329, R381; log 21, DESIGN CHOICE). -/
def State.tableBases (s : State) : List Nat :=
  (Config.tableBase 0).toNat :: (Config.tableBase 1).toNat :: (List.range 64).flatMap fun n => match s.tenant? n with
    | some x => [nbits x.entry 0 64, nbits x.entry 64 64]
    | none => [0, 0]

/-- What a fatal error writes: the header, the areas of every core and cluster, and the dies' (R381). (Log 21, DESIGN CHOICE.) -/
def State.dumpBytes (s : State) (core slot cause : Nat) : List (Nat × Byte) :=
  let base := 0x005F80000000
  let header := bytesOf 0x504D5544 4 ++ bytesOf cause 4 ++ bytesOf (dieOf core) 4 ++ bytesOf core 4 ++ bytesOf slot 4 ++ bytesOf s.sched.time 8 ++
    s.tableBases.flatMap fun b => bytesOf b 8
  let pads (k : Nat) : List Byte := (List.range (2 ^ 23)).map fun i => s.scratchByte k i
  place base header ++
  ((List.range 512).flatMap fun c => place (base + 0x00100000 + c * 2 ^ 20) (s.coreArea c)) ++
  ((List.range 64).flatMap fun k => place (base + 0x20100000 + k * 2 ^ 23) (pads k)) ++
  ((List.range 4).flatMap fun d => place (base + 0x40100000 + d * 2 ^ 26) ((s.dieArea d).take (2 ^ 26))) ++
  place (base + 0x40100000 + 2 ^ 28) (s.ioArea.take (2 ^ 28))

/-- The dump (R381), when the routers have drained: every line is written back, the dump region is written under key 0, every placed launch
completes with STATUS 5, and the device waits for a reset. -/
def State.dump (s : State) (core slot cause : Nat) : State :=
  let s := s.timed
  let bytes := s.dumpBytes core slot cause
  let dies := s.dies.map fun d => (d.1, { d.2 with l2dirty := [] })
  let s := { s with chan := Memory.empty, dies := dies, mem := (s.mem.keep false).puts (s.keyData 0) bytes }
  let s := s.work.launches.foldl (fun s l => s.sendCompletion l.2.tenant (completion l.2 (s.lostOf l.2.tenant) 5 l.2.msgs s.sched.time)) s
  s.modHost fun h => { h with phase := .dumped }

/-- The host reads the dump region over the management path (R186): the bytes are as key 0 shows them. It is a read from outside, which no
row of the table is. -/
def State.readDump (s : State) (off n : Nat) : List Byte := s.homeBytes (0x005F80000000 + off) n 0

end Sys2Proof.Machine
end

