-- ==== Sys2Proof/Machine/Ops.lean ====
section
/-! DEFINITION. Sys2Proof/Machine/Ops.lean: taking a fault (R365 to R370), and the frame every instruction runs in: the checks before it
executes (R56, R17, R229) and the steps that complete it (R126, R20). -/

namespace Sys2Proof.Machine

abbrev Out := Host.Outcome State Fault Refusal

/-! ### Fatal errors and machine entries (R366, R375, R381) -/

/-- Append an entry to the machine slot's queue, with the thread that it is about (R375). -/
def machineEntry (s : State) (c : Nat) (word : Dword) (who : Nat) : State := s.modCore c fun x => { x with mq := x.mq ++ [(word, who)] }

/-- MCAUSE of an entry (R375). -/
def mcauseOf (t : Nat) (th : Thread) (code bk : Nat) : Dword :=
  BitVec.ofNat 64 (code + slotOf t * 2 ^ 8 + th.pl * 2 ^ 18 + (if th.guest then 2 ^ 20 else 0) + bk * 2 ^ 21)

/-- The machine entry of a fatal error on a core (R375). -/
def State.fatalEntry (s : State) (core slot cause : Nat) : State :=
  let t := core * 64 + slot
  let th := (s.thread? t).getD { Thread.blank with home := t }
  machineEntry s core (mcauseOf t th (cause % 256) 0) th.who

/-- A fatal error (R381): its machine entry is made, and every core stops; when the routers have drained, the dump follows (`State.dump`). -/
def fatalError (s : State) (core slot cause : Nat) : State :=
  let s := s.fatalEntry core slot cause
  { s with sched := { s.sched with issue := false } }.modHost fun h => { h with phase := .stopping core slot cause }

/-! ### Formes (R20 to R24) -/

/-- The rank-mates of the leader in the slot of a forme that are attached (R20). -/
def State.attachedTo (s : State) (th : Thread) : List Nat :=
  if th.forme = 0 ∨ th.midx ≠ 0 then []
  else match mget s.work.formes th.forme with
  | none => []
  | some f => ((List.range (f.f - 1)).filterMap fun m => f.tids[(m + 1) * f.t + th.rank]?).filter fun h =>
      match s.thread? h with
      | some m => m.forme == th.forme && !m.gone && m.away.isNone && !f.ended.contains h
      | none => false

/-- The thread is an attached member other than the leader. -/
def Thread.attached (th : Thread) : Bool := th.forme != 0 && th.midx != 0 && !th.det && !th.guest

/-- The thread detaches: it discards its buffer and goes on privately (R22, R24). -/
def Thread.detach (th : Thread) : Thread := { th with det := true, ribbon := [], lead := none }

/-- The thread multicasts the word it executes: a leader outside a handler and outside a frame's replays. -/
def Thread.casts (th : Thread) : Bool :=
  th.forme != 0 && th.midx == 0 && !th.ctx.hnd && !th.guest && nbits th.ctx.rpts 15 1 == 0

/-- The thread is the one that the position names, or issues for it (R17, R18). -/
def State.named (s : State) (t : Nat) : Bool :=
  impThr (s.core (coreOf t)).entry && s.issuer (coreOf t) (impSlot (s.core (coreOf t)).entry) == slotOf t

/-- A cycle in which the thread that has the turn takes a fault: it is cause 15 of the named thread that faults, and goes to the
named thread where another has backfilled its position (R349; log 50, DEDUCED). -/
def State.wasted (s : State) (t : Nat) (th : Thread) : State := if s.named t then (s.count t th 0x1F 1).sampled t 15 else s.stall (coreOf t)

/-- The address of an instruction word (R43). -/
def wordAligned (a : Dword) : Dword := setBits a 0 2 0

/-! ### Faults (R365 to R368) -/

/-- Codes delivered as an upcall, KIND 0; the others go to the supervisor, KIND 2 (R365). -/
def isUpcall (code : Nat) : Bool := code = 5 ∨ (0x0A ≤ code ∧ code ≤ 0x0C)

/-- Take a fault: `code`, TRAPC.TCODE, TRAPC.PAIR, TRAPV, and the address that TRAPPC keeps. Nothing else of the thread
changes but its detach state (R110, R24); delivery is by R365, R366 and R368. (Log 50, DEDUCED.) (Log 70, DEDUCED.) It ends
a resumption that has not issued (log 126, DESIGN CHOICE). -/
def takeFault (s : State) (t code tcode : Nat) (pair : Bool) (v pc : Dword) : State :=
  match s.thread? t with
  | none => s
  | some th =>
    let fdet := th.attached
    let th1 := if fdet then th.detach else th
    let trapc : Dword := BitVec.ofNat 64 (code + tcode * 2 ^ 8 + th.pl * 2 ^ 16 + (if pair then 2 ^ 18 else 0) + (if fdet then 2 ^ 19 else 0))
    let th2 := { th1 with ctx := { th1.ctx with trapc := trapc, trapv := v, trappc := pc }, cause := none, reply := false,
                          claim := none, expired := none, uresm := false, bar := none }
    let c := coreOf t
    let turn := s.sched.issue && s.sched.cur == t
    let s := if turn then s.wasted t th else s
    let s := { s with sched := { s.sched with issue := s.sched.issue && !turn } }
    if th.pl = 2 then fatalError (s.setThread t th2) c (slotOf t) code
    else
      let upcv : Dword := match s.launchOf th with | some l => l.upcv | none => 0
      if th.pl = 1 ∨ upcv = 0 then
        machineEntry (s.setThread t { th2 with stopped := true }) c (mcauseOf t th code 0) th.who
      else
        let kind := if isUpcall code then 0 else 2
        (s.setThread t { th2 with upcall := some { kind := kind, code := code, resume := false } }).modSup c th.tenant
          fun u => { u with queue := u.queue ++ [{ slot := slotOf t, kind := kind, code := code }] }

/-! ### What an instruction asks of the core -/

/-- What can hold an instruction before its operands are known: a release at a scope, a full engine queue, 255 stores, the edge of a held
row (R188, R230, R245, R346, R379). -/
inductive Early where
  | release (scope : Nat)
  | queue (matrix : Bool)
  | stores
  /-- The edge of the core's row: towards the core that a register names, for a `dep` only a neighbour; or towards a unit of the device. -/
  | edge (core : Option (BitVec 7)) (near : Bool)
  deriving DecidableEq, Repr

/-- The word of the instruction, what it needs to be legal and privileged, and the register fields it names, in the
order d, a, b: all of them, those it reads, and those it writes. -/
structure Req where
  word : Nat
  pair : Bool := false
  legal : Bool := true
  /-- Lowest privilege that may execute it. -/
  level : Nat := 0
  regs : List Nat := []
  reads : List Nat := []
  writes : List Nat := []
  /-- It issues only when every earlier instruction has committed (R229). -/
  commit : Bool := false
  /-- A memory access: a load-acquire that is under way holds it (R192). -/
  access : Bool := false
  /-- Its multicast word carries the leader's next address, so it travels after the leader has executed it (R22). -/
  flow : Bool := false
  /-- What else may hold it while a register it reads is armed (R349). -/
  early : List Early := []
  deriving DecidableEq, Repr

/-- An uncommitted entry with nothing to do at commit. -/
def Rob.none : Rob :=
  { load := Option.none, store := Option.none, site := Option.none, rib := Option.none, merge := Option.none, leaves := false }

/-- The first register that the window does not reach, of the instruction's list (R60; log 99, DESIGN CHOICE). -/
def Thread.badReg (th : Thread) (ns : List Nat) : Option Nat := ns.find? fun n => !th.shadowed n && th.limit ≤ n

/-- The register is the destination of a load whose data has not landed (R230). -/
def Thread.pending (th : Thread) (n : Nat) : Bool := th.rob.any fun e => match e.load with
  | some l => l.reg == th.regId n && !l.landed
  | none => false

/-- The lowest-numbered cause that holds an instruction before its own conditions (R17, R229, R230, R63). (Log 78, DEDUCED.) -/
def Thread.heldBy (th : Thread) (q : Req) : Option Nat :=
  if (q.reads ++ q.writes).any th.absent then some 3
  else if (q.reads ++ q.writes).any th.pending ∨ 32 ≤ th.rob.length ∨ (q.commit ∧ th.rob ≠ []) ∨
      (q.access ∧ th.rob.any fun e => match e.load with | some l => l.scope.isSome | none => false) then some 4
  else if q.reads.any fun n => !th.shadowed n && th.ctx.armed.getLsbD n then some 10
  else none

/-! ### What may hold an instruction whatever its operands are -/

/-- Two cores are neighbours (R9). -/
def neighbours (a b : Nat) : Bool :=
  let dx := Int.natAbs ((a % 16 : Nat) - (b % 16 : Nat) : Int)
  let dy := Int.natAbs ((a % 128 / 16 : Nat) - (b % 128 / 16 : Nat) : Int)
  dieOf a == dieOf b && dx + dy == 1

/-- What a release at a scope still waits for (R188): acknowledgements, RDC invalidations, peer placements. -/
def State.releaseHeld (s : State) (th : Thread) (scope : Nat) : Option Nat :=
  if 1 ≤ scope && s.flight.stores.any (fun x => x.tid == th.home) then some 5
  else if 4 ≤ scope && s.flight.invals.any (fun x => x.tid == th.home) then some 5
  else if 5 ≤ scope && s.flight.peers.any (fun x => x.tid == th.home) then some 5
  else none

/-- What a request behind a release waits for: the release, then the edge of its row (R188, R379). -/
def State.departs (s : State) (t : Nat) (th : Thread) (scope : Nat) (core : Option Nat) : Option Nat :=
  (s.releaseHeld th scope).or (if s.edge (coreOf t) core then some 5 else none)

/-- OPC.ST with the thread's uncommitted stores (R346). -/
def Thread.stores (th : Thread) : Nat := th.stOut + (th.rob.filter fun e => e.store.isSome).length

/-- Positions that a launch holds on a core. -/
def State.positions (s : State) (c launch : Nat) : Nat :=
  match s.launch? launch with
  | none => 0
  | some l => ((s.core c).imp.filter fun e => impUsed e.2 && impLidx e.2 == l.lidx).length

/-- The launch has a free entry of the copy or the matrix queue of a core. -/
def State.queueRoom (s : State) (c launch : Nat) (matrix : Bool) : Bool :=
  let p := s.positions c launch
  if matrix then ((s.core c).matQ.filter fun m => m.launch == launch).length < (p + 3) / 4
  else ((s.core c).copyQ.filter fun m => m.launch == launch).length < (p + 1) / 2

/-- What holds an instruction under a cause of its own: the registers that it waits for decide nothing of it. -/
def State.holdsEarly (s : State) (t : Nat) (th : Thread) : Early → Option Nat
  | .release scope => s.releaseHeld th scope
  | .queue matrix =>
    let h := s.homeThread th
    if !s.queueRoom (coreOf t) th.launch matrix ∨ (if matrix then 511 ≤ h.mxOut else 255 ≤ h.cpOut) then some 6 else none
  | .stores => if 255 ≤ th.stores then some 5 else none
  | .edge none _ => if s.edge (coreOf t) none then some 5 else none
  | .edge (some a) near =>
    let k := nbits (th.S a) 0 9
    if (th.shadowed a.toNat || !th.ctx.armed.getLsbD a.toNat) && (!near || neighbours (coreOf t) k) && s.edge (coreOf t) (some k) then some 5
    else none

/-- The lowest-numbered cause that holds an instruction which `c` holds: with 10 stand the instruction's own (R349). -/
def State.lowestHold (s : State) (t : Nat) (th : Thread) (q : Req) (c : Nat) : Nat :=
  if c = 10 then (q.early.filterMap (s.holdsEarly t th)).foldl Nat.min c else c

/-- The thread is held for a bank: that of the first register it names that is absent (R76). -/
def State.heldFor (s : State) (t : Nat) (th : Thread) (q : Req) (c : Nat) : State :=
  match if c = 3 then (q.reads ++ q.writes).find? th.absent else none with
  | some n => hold (s.modThread t fun x => { x with claim := some (th.inSecond n) }) t c
  | none => hold s t c

/-- Raise a fault of the instruction at the thread's pc (R110): it is taken once every earlier instruction has
committed (R229). -/
def raise (s : State) (t : Nat) (q : Req) (code : Nat) (v : Dword) (tcode : Nat := 0) : Out :=
  match s.thread? t with
  | none => .next s
  | some th => if th.rob = [] then .next (takeFault s t code tcode q.pair v th.ctx.pc) else .next (hold s t 4)

/-! ### The next instruction (R126, R127) -/

/-- Where control goes after an instruction. -/
inductive Next where
  | seq
  | to (pc : Dword)
  deriving DecidableEq, Repr

/-- Control goes where the instruction sends it: the outcome of a branch (R22). -/
def Next.taken : Next → Bool
  | .seq => false
  | .to _ => true

/-- The end test of one level: its counter, and whether the body runs again. -/
def passes (cnt : Dword) : Dword × Bool := (cnt - 1, cnt - 1 != 0)

/-- The end test of R126 after an instruction at `a` that does not transfer control. -/
def endTest (x : Ctx) (a : Dword) : Ctx :=
  let inner := x.lpc0 != 0 && a == x.lpe0
  let x0 := if inner then { x with lpc0 := x.lpc0 - 1 } else x
  if inner && x0.lpc0 != 0 then { x0 with pc := x0.lps0 }
  else
    let outer := x0.lpc1 != 0 && a == x0.lpe1
    let x1 := if outer then { x0 with lpc1 := x0.lpc1 - 1 } else x0
    if outer && x1.lpc1 != 0 then { x1 with pc := x1.lps1 } else { x1 with pc := a + 4 }

/-- RPTS.ACT (R73). -/
def Ctx.framed (x : Ctx) : Bool := nbits x.rpts 15 1 == 1

/-- After a replayed instruction: the next captured word, the next replay, or the end of the frame (R127). (Log 41, DEDUCED.) -/
def frameNext (x : Ctx) : Ctx :=
  let pos := nbits x.rpts 0 4
  if pos < nbits x.rpts 16 4 then { x with pc := x.pc + 4, rpts := setBits x.rpts 0 4 (pos + 1) }
  else if nbits x.rpts 4 6 < nbits x.rpts 20 6 then
    { x with pc := x.pc - BitVec.ofNat 64 (4 * pos), rpts := setBits (setBits x.rpts 0 4 0) 4 6 (nbits x.rpts 4 6 + 1) }
  else endTest { x with rpts := 0, frame := [] } x.pc

/-- The context at the thread's next instruction. -/
def advance (x : Ctx) (pair : Bool) : Next → Ctx
  | .to p => { x with pc := p }
  | .seq => if x.framed then frameNext x else endTest x (if pair then x.pc + 4 else x.pc)

/-- The address of the instruction in an effect: for a pair, of its second word (R57). -/
def Thread.PC (th : Thread) (q : Req) : Dword := if q.pair then th.ctx.pc + 4 else th.ctx.pc

/-- An instruction of a masked section lowers MSGM.REM (R296). (Log 35, DEDUCED.) -/
def Thread.counted (th : Thread) : Thread :=
  if th.ctx.mskd then { th with ctx := { th.ctx with mskd := decide (1 < th.ctx.rem), rem := th.ctx.rem - 1 } } else th

/-! ### Before and after an instruction -/

/-- The multicast word of the instruction. -/
def ribbonOf (q : Req) (pc next : Dword) (taken : Bool) : Ribbon :=
  { pc := pc, next := next, taken := taken,
    w0 := BitVec.ofNat 32 (if q.pair then q.word / 2 ^ 32 else q.word),
    w1 := if q.pair then BitVec.ofNat 32 q.word else 0 }

/-- Send a word to the attached members (R20). -/
def State.multicast (s : State) (th : Thread) (w : Ribbon) : State :=
  (s.attachedTo th).foldl (fun s m => s.modThread m fun x => { x with ribbon := x.ribbon ++ [w] }) s

/-- Some attached member holds DRIFT = 8 words (R20). -/
def State.drifted (s : State) (th : Thread) : Bool :=
  (s.attachedTo th).any fun m => match s.thread? m with
    | some x => 8 ≤ x.ribbon.length
    | none => false

/-- The drift bound holds the leader of a rank: it issues nothing, a handler's instructions and a frame's replays included (R20,
R416). A word that the members already hold has passed the bound. -/
def State.paced (s : State) (th : Thread) : Bool :=
  th.forme != 0 && th.midx == 0 && !th.guest && (th.sent == 0 || th.ctx.hnd) && s.drifted th

/-- A leader sends the word it decodes, but one that carries its outcome (R20, R300). -/
def State.sendAhead (s : State) (t : Nat) (th : Thread) (q : Req) : State :=
  if th.casts && th.sent == 0 && !q.flow then
    (s.multicast th (ribbonOf q th.ctx.pc (advance th.ctx q.pair .seq).pc false)).modThread t fun x => { x with sent := 1 }
  else s

/-- The lowest-numbered cause among those that hold a leader whom the drift bound holds (R349): what holds its instruction before
its own conditions, what the instruction's own conditions `k` would hold it with, or drift, 11. -/
def State.pacedCause (s : State) (t : Nat) (th : Thread) (q : Req) (k : State → Nat → Thread → Out) : Nat :=
  if th.pl < q.level || (th.badReg q.regs).isSome then 11
  else match th.heldBy q with
  | some c => Nat.min (s.lowestHold t th q c) 11
  | none => match k s t th.counted with
    | .next y => match (y.thread? t).bind Thread.cause with
      | some c => Nat.min c 11
      | none => 11
    | _ => 11

/-- Run the checks that precede an instruction of the thread whose turn it is, then its meaning `k`, which receives the
state, the thread's slot, and the thread (R56, R17, R20). -/
def begin (q : Req) (s : State) (k : State → Nat → Thread → Out) : Out :=
  let t := s.sched.cur
  match s.thread? t with
  | none => .fault .noThread
  | some th0 =>
    if !q.legal then raise s t q 0x01 (BitVec.ofNat 64 q.word)
    else if s.paced th0 then .next (hold s t (s.pacedCause t th0 q k))
    else
      let s := s.sendAhead t th0 q
      match s.thread? t with
      | none => .next s
      | some th =>
        if th.pl < q.level then raise s t q 0x02 (BitVec.ofNat 64 q.word)
        else match th.badReg q.regs with
        | some n => raise s t q 0x03 (BitVec.ofNat 64 n)
        | none =>
          match th.heldBy q with
          | some c => .next (s.heldFor t th q (s.lowestHold t th q c))
          | none => k s t th.counted

/-- The margin unit has the site's entry of the map: a pick names its slot, any other site is cached or not (R184). -/
def State.siteKnown (s : State) (c : Nat) (th : Thread) (pc : Dword) : Bool := (s.core c).sites.contains (th.launch, pc)

/-- The margin unit of a core has no room for the record of a site: its map entry is not cached, and the 32-entry pending buffer is
full (R184; log 96, DEDUCED). -/
def State.siteFull (s : State) (c : Nat) (th : Thread) (pc : Dword) : Bool :=
  s.records th && !s.siteKnown c th pc && decide (32 ≤ (s.flight.margins.filter fun r => r.core == c && r.waits).length)

/-- The recording thread is held until a pending entry drains (R184). -/
def holdSite (s : State) (t : Nat) (th : Thread) : State := hold (s.count t th 0x38 1) t 15

/-- A site's record leaves for its margin slot (R183). -/
def State.record (s : State) (t : Nat) (th : Thread) (r : Option (Dword × SiteRec)) : State :=
  match r with
  | some (pc, r) =>
    if s.records th then
      let waits := match r with | .pick _ _ _ => false | _ => !s.siteKnown (coreOf t) th pc
      let x : MRec := { id := s.sched.nextId, core := coreOf t, who := th.who, launch := th.launch, pc := pc, site := r, waits := waits }
      (s.modFlight fun f => { f with margins := f.margins ++ [x] }).newId
    else s
  | none => s

/-- The flags of the commands of a context up to `n` are merged (R98). -/
def Thread.dropFlags (h : Thread) (matrix : Bool) (n : Nat) : Thread :=
  let up (e : Eng) : Eng := { e with flags := e.flags.filter fun f => n < f.1 }
  if matrix then { h with matrix := up h.matrix } else { h with copy := up h.copy }

/-- An entry commits (R229): its store issues, its site is recorded, the flags it has merged leave their context, and a member that
has diverged at it is detached. -/
def State.commit (s : State) (t : Nat) (e : Rob) : State :=
  match s.thread? t with
  | none => s
  | some th =>
    let s := if e.leaves then s.modThread t Thread.detach else s
    let s := s.record t th e.site
    let s := s.count t th 0x03 1
    let s := match e.merge with
      | some (matrix, n) => s.modThread th.home fun h => h.dropFlags matrix n
      | none => s
    match e.store with
    | some r =>
      let s := match r.loc with
        | .peer _ _ => s.countSent (coreOf t) th.who th.launch 1
        | _ => s
      (s.modThread t fun x => { x with stOut := x.stOut + 1 }).sendStore th.home (coreOf t) th.launch r
    | none => s

/-- An instruction of the thread has issued in the core's cycle: it counts, and the position has been used (R349). -/
def State.issuedBy (s : State) (t : Nat) (th : Thread) : State :=
  let c := coreOf t
  let s := { s with sched := { s.sched with issue := false } }.modCore c fun y => { y with issued := true }
  let s := ((s.count t th 0x02 1).count t th 0x10 1).sampled t 0
  if s.named t then s else s.count t th 0x05 1

/-- The thread after an instruction that leaves it at context `x`: its watchdog restarts, and it has one word less to send or to
receive; `pre` is the thread before (R354). -/
def Thread.afterwards (th pre : Thread) (x : Ctx) (wdog : Nat) : Thread :=
  let takes := pre.attached && !pre.ctx.framed
  { th with ctx := x, cause := none, wdog := wdog, idle := 0, uresm := false, sent := if pre.casts then th.sent - 1 else th.sent, bkSkip := false,
            bar := none, ribbon := if takes then th.ribbon.tail else th.ribbon, lead := none, reply := false, claim := none }

/-- An attached member's outcome, or its next address, is not its leader's: it detaches (R22). -/
def Thread.diverges (pre : Thread) (x : Ctx) (taken : Bool) : Bool := match pre.lead with
  | some n => pre.attached && (n.1 != x.pc || n.2 != taken)
  | none => false

/-- The multicast word that the thread executes: sent as the leader, or received (R20). -/
def Thread.wordOf (pre : Thread) (word : Ribbon) : Option Ribbon :=
  if pre.casts then some word else if pre.attached && !pre.ctx.framed then pre.ribbon.head? else none

/-- The instruction of a thread whose registers are already changed completes: the thread moves on, its word travels to the
members or leaves the member's buffer, and it commits or waits to (R229, R20, R22, R354). `th` is the thread after the
instruction's effect, with its pc still at the instruction. -/
def complete (s : State) (t : Nat) (th : Thread) (q : Req) (nx : Next) (e : Rob := Rob.none) : State :=
  let pre := (s.thread? t).getD th
  let x := advance th.ctx q.pair nx
  let word := ribbonOf q th.ctx.pc x.pc nx.taken
  let away := pre.diverges x nx.taken
  let s := if pre.casts && pre.sent == 0 then s.multicast pre word else s
  let y := th.afterwards pre x (s.core (coreOf t)).wdog
  let e := { e with rib := pre.wordOf word, leaves := away }
  if th.rob = [] ∧ e.load = none then (s.setThread t y).commit t e
  else s.setThread t { y with det := y.det || away, rob := y.rob ++ [e] }

/-- An instruction issues in this cycle and completes (R349). -/
def finish (s : State) (t : Nat) (th : Thread) (q : Req) (nx : Next) (e : Rob := Rob.none) : State :=
  complete (s.issuedBy t th) t th q nx e

/-- The thread as its committed instructions leave it: with uncommitted loads, the state at the oldest of them (R229). -/
def Thread.committed (th : Thread) : Ctx := match th.rob.findSome? fun e => e.load.map Load.snap with
  | some x => x
  | none => th.ctx

/-- A thread may take a message or an overflow at this boundary: it stands at home, it runs, and nothing is uncommitted or under
way (R269, R270). -/
def State.atBoundary (s : State) (t : Nat) (th : Thread) : Bool :=
  !th.guest && th.away.isNone && !th.stopped && th.upcall.isNone && th.rob.isEmpty && s.inRun t th && !th.ending && !th.reply

/-- A fault that the thread takes at its boundary comes before a message handler and before a pre-emption that is due there (R367). -/
def Thread.faultFirst (th : Thread) : Bool :=
  (th.expired.isSome || th.refused.isSome || (th.overflow.isSome && !th.guest)) && th.away.isNone && !th.stopped && th.upcall.isNone && !th.ending &&
    (match th.wait with | .yield _ => false | _ => true)

/-- R270's conditions for handler entry at a boundary; a thread in `yield` is not at one. (Log 44, DEDUCED.) -/
def State.enters (s : State) (t : Nat) (th : Thread) : Bool :=
  s.atBoundary t th && !th.faultFirst && th.ctx.msgv != 0 && !th.mailbox.isEmpty && !th.ctx.hnd && !th.ctx.mskd && !th.ctx.framed && th.held.isNone &&
    (match th.wait with | .yield _ => false | _ => true)

/-- An instruction that changes only its thread's registers, flags and control registers, and goes on in sequence. -/
def simple (q : Req) (s : State) (f : Thread → Thread) : Out :=
  begin q s fun s t th => .next (finish s t (f th) q .seq)

end Sys2Proof.Machine
end

