-- ==== Sys2Proof/Machine/Operands.lean ====
section
/-! DEFINITION. Sys2Proof/Machine/Operands.lean: the forms in which an instruction names its operands: register
fields, immediates with and without `ext` (R48, R51), effective addresses (R227), and the integer operations. -/

namespace Sys2Proof.Machine

/-- d, a and b name registers: a and b are read, d is written. -/
def reqDAB (i : Instr) (d a b : BitVec 7) : Req :=
  { word := encodeNat i, regs := [d.toNat, a.toNat, b.toNat], reads := [a.toNat, b.toNat], writes := [d.toNat] }
/-- d and a name registers: a is read, d is written. -/
def reqDA (i : Instr) (d a : BitVec 7) : Req :=
  { word := encodeNat i, regs := [d.toNat, a.toNat], reads := [a.toNat], writes := [d.toNat] }
/-- d, a and b name registers: all are read, d is written. -/
def reqXAB (i : Instr) (d a b : BitVec 7) : Req :=
  { word := encodeNat i, regs := [d.toNat, a.toNat, b.toNat], reads := [d.toNat, a.toNat, b.toNat], writes := [d.toNat] }
/-- d and a name registers: both are read, d is written. -/
def reqXA (i : Instr) (d a : BitVec 7) : Req :=
  { word := encodeNat i, regs := [d.toNat, a.toNat], reads := [d.toNat, a.toNat], writes := [d.toNat] }
/-- d names a register that is written. -/
def reqD (i : Instr) (d : BitVec 7) : Req := { word := encodeNat i, regs := [d.toNat], writes := [d.toNat] }
/-- a and b name registers that are read. -/
def reqAB (i : Instr) (a b : BitVec 7) : Req :=
  { word := encodeNat i, regs := [a.toNat, b.toNat], reads := [a.toNat, b.toNat] }
/-- a names a register that is read. -/
def reqA (i : Instr) (a : BitVec 7) : Req := { word := encodeNat i, regs := [a.toNat], reads := [a.toNat] }
/-- No register is named. -/
def req0 (i : Instr) : Req := { word := encodeNat i }

/-- The requirements of a pair: those of its second word (R49). -/
def Req.paired (q : Req) (x : BitVec 26) (w : Word) : Req :=
  { q with word := (0x0E * 2 ^ 26 + x.toNat) * 2 ^ 32 + w.toNat, pair := true }

/-- An immediate that `ext` widens: the prefix is its upper part (R48). -/
def wide {n : Nat} (x : BitVec 26) (i : BitVec n) : BitVec (26 + n) := x ++ i

/-- A number scaled by a power of two: a displacement in access units (R227). -/
def scaled (i : Dword) (k : Nat) : Dword := i <<< k

/-! ### Integer operations on 64 bits (R113) -/

def aluMulh (x y : Dword) : Dword := BitVec.ofInt 64 (x.toInt * y.toInt / 2 ^ 64)
def aluMulhn (x y : Dword) : Dword := BitVec.ofNat 64 (x.toNat * y.toNat / 2 ^ 64)
def aluDiv (x y : Dword) : Dword := if y = 0 then BitVec.allOnes 64 else BitVec.ofInt 64 (Int.tdiv x.toInt y.toInt)
def aluDivn (x y : Dword) : Dword := if y = 0 then BitVec.allOnes 64 else BitVec.ofNat 64 (x.toNat / y.toNat)
def aluRem (x y : Dword) : Dword := if y = 0 then x else BitVec.ofInt 64 (Int.tmod x.toInt y.toInt)
def aluRemn (x y : Dword) : Dword := if y = 0 then x else BitVec.ofNat 64 (x.toNat % y.toNat)
def aluShl (x y : Dword) : Dword := x <<< (y.toNat % 64)
def aluShr (x y : Dword) : Dword := x >>> (y.toNat % 64)
def aluSra (x y : Dword) : Dword := x.sshiftRight (y.toNat % 64)
def aluRotr (x y : Dword) : Dword := x.rotateRight (y.toNat % 64)
def aluMin (x y : Dword) : Dword := if x.toInt ≤ y.toInt then x else y
def aluMax (x y : Dword) : Dword := if x.toInt ≤ y.toInt then y else x
def aluMinn (x y : Dword) : Dword := if x.toNat ≤ y.toNat then x else y
def aluMaxn (x y : Dword) : Dword := if x.toNat ≤ y.toNat then y else x
/-- 1 for true and 0 for false (R109). -/
def truth (p : Bool) : Dword := if p then 1 else 0
def aluCmpeq (x y : Dword) : Dword := truth (x == y)
def aluCmplt (x y : Dword) : Dword := truth (decide (x.toInt < y.toInt))
def aluCmpltn (x y : Dword) : Dword := truth (decide (x.toNat < y.toNat))

/-- One bits among the low `n` bits. -/
def onesIn {w : Nat} (x : BitVec w) (n : Nat) : Nat :=
  match n with
  | 0 => 0
  | n + 1 => onesIn x n + (if x.getLsbD n then 1 else 0)

/-- The lowest one bit among bits `k` to `k + n - 1`; `k + n` if there is none. -/
def lowestFrom {w : Nat} (x : BitVec w) (k : Nat) : Nat → Nat
  | 0 => k
  | n + 1 => if x.getLsbD k then k else lowestFrom x (k + 1) n

/-- Leading zero bits of the low `n` bits. -/
def leadingZeros {w : Nat} (x : BitVec w) : Nat → Nat
  | 0 => 0
  | n + 1 => if x.getLsbD n then 0 else leadingZeros x n + 1

def aluClz (x : Dword) : Dword := BitVec.ofNat 64 (leadingZeros x 64)
def aluCtz (x : Dword) : Dword := BitVec.ofNat 64 (lowestFrom x 0 64)
def aluPopc (x : Dword) : Dword := BitVec.ofNat 64 (onesIn x 64)
/-- The width that a code of sext and zext names: 8, 16 or 32 (R113). -/
def codeWidth (w : BitVec 7) : Nat := 8 * 2 ^ w.toNat
def aluSext (w : BitVec 7) (x : Dword) : Dword := sextTo x.toNat (codeWidth w)
def aluZext (w : BitVec 7) (x : Dword) : Dword := zextTo x.toNat (codeWidth w)

/-- S(d) ← f(S(a), S(b)). -/
def alu3 (q : Req) (d a b : BitVec 7) (f : Dword → Dword → Dword) (s : State) : Out :=
  simple q s fun th => th.setS d (f (th.S a) (th.S b))
/-- S(d) ← f(S(a)). -/
def alu2 (q : Req) (d a : BitVec 7) (f : Dword → Dword) (s : State) : Out :=
  simple q s fun th => th.setS d (f (th.S a))

end Sys2Proof.Machine
end

