-- ==== Sys2Proof/Machine/Ctl.lean ====
section
/-! DEFINITION. Sys2Proof/Machine/Ctl.lean: the control registers (R69 to R74) and the instructions that read and
write them (R121). -/

namespace Sys2Proof.Machine

/-- The level that may read a register (R71, R74): 0 user, 1 supervisor, 2 machine. -/
def ctlRead (n : Nat) : Nat := if n = 0x060 then 1 else if n < 0x200 then 0 else if n < 0x300 then 1 else 2

/-- Registers whose write level is "—" (R71, R74). -/
def ctlReadOnly (n : Nat) : Bool :=
  n == 0x000 || (0x002 ≤ n && n ≤ 0x007) || n == 0x026 || n == 0x031 || (0x040 ≤ n && n ≤ 0x042) || n == 0x050 ||
  n == 0x051 || n == 0x060 || n == 0x100 || n == 0x101 || (0x118 ≤ n && n ≤ 0x11A) || (0x209 ≤ n && n ≤ 0x20B) || n == 0x20D

/-- The level that a write asks for; for a register without a write level, the read level (R69). -/
def ctlWrite (n : Nat) : Nat := if n = 0x043 then 1 else ctlRead n

/-- A field of a writable register: low bit, width, and the codes it takes (R69). -/
abbrev CtlField := Nat × Nat × (Nat → Bool)

def anyCode (_ : Nat) : Bool := true
def upTo (m : Nat) (v : Nat) : Bool := v ≤ m
def within (l m : Nat) (v : Nat) : Bool := l ≤ v && v ≤ m

/-- Event sources (R351). -/
def sourceOk (v : Nat) : Bool :=
  v ≤ 5 || (0x10 ≤ v && v ≤ 0x27) || (0x30 ≤ v && v ≤ 0x38) || (0x40 ≤ v && v ≤ 0x52)

/-- The writable fields of a register; other bits are reserved (R70, R73, R74). So are the bits that an alignment leaves out:
11:0 of SPILLB, 14:0 of FNQB and TNQB, and bit 1 of BKPC (log 91, DESIGN CHOICE). A value of BBWIN, ACCTHR or FLWM outside its range counts
as a reserved code (log 132, DESIGN CHOICE). -/
def ctlFields (n : Nat) : List CtlField :=
  if n = 0x001 ∨ n = 0x032 ∨ n = 0x021 ∨ n = 0x022 ∨ n = 0x024 ∨ n = 0x025 then [(2, 62, anyCode)]
  else if n = 0x010 then [(0, 3, upTo 4)]
  else if n = 0x011 then [(0, 5, anyCode)]
  else if n = 0x012 then [(0, 3, anyCode)]
  else if n = 0x018 ∨ n = 0x019 then [(0, 4, upTo 6), (4, 1, anyCode)]
  else if n = 0x01A ∨ n = 0x01B ∨ n = 0x030 then [(6, 58, anyCode)]
  else if 0x108 ≤ n ∧ n ≤ 0x10F then [(0, 8, sourceOk), (8, 2, upTo 2)]
  else if n = 0x200 then [(12, 52, anyCode)]
  else if n = 0x201 ∨ n = 0x202 then [(15, 49, anyCode)]
  else if n = 0x203 then [(0, 7, within 1 100)]
  else if n = 0x204 then [(0, 12, within 1 4095)]
  else if n = 0x205 then [(0, 23, upTo (2 ^ 22)), (32, 23, upTo (2 ^ 22))]
  else if n = 0x208 then [(0, 6, anyCode)]
  else if n = 0x20C then [(0, 1, anyCode)]
  else if n = 0x210 then [(0, 6, upTo 62), (8, 1, anyCode)]
  else if 0x308 ≤ n ∧ n ≤ 0x30B then [(0, 1, anyCode), (2, 62, anyCode)]
  else if n = 0x320 then [(0, 3, upTo 4), (8, 1, anyCode)]
  else if n = 0x300 then []
  else [(0, 64, anyCode)]

/-- What a write instruction makes of a field: 1 `ctlw`, 2 `ctls`, 3 `ctlc` (R69). -/
def ctlOp (kind old v : Nat) : Nat := match kind with
  | 1 => v
  | 2 => old ||| v
  | _ => old - (old &&& v)

/-- The register after a write: a field that would take a reserved code keeps its value (R69). -/
def ctlNew (kind : Nat) (fs : List CtlField) (old v : Dword) : Dword :=
  fs.foldl (fun w f =>
    let x := ctlOp kind (nbits old f.1 f.2.1) (nbits v f.1 f.2.1)
    if f.2.2 x then setBits w f.1 f.2.1 x else w) old

/-- BSC stands with TYPE e4m3 alone (R73). -/
def fmtLegal (w : Dword) : Bool := nbits w 4 1 == 0 || nbits w 0 4 == 0

/-- FMTA and FMTB: BSC with a TYPE other than e4m3 cannot be written: BSC keeps its value and TYPE is written; where that makes no
legal pair either, the register keeps both (R69, R73; log 12, DEDUCED). -/
def fmtNew (kind : Nat) (old v : Dword) : Dword :=
  let w := ctlNew kind (ctlFields 0x018) old v
  let x := setBits w 4 1 (nbits old 4 1)
  if fmtLegal w then w else if fmtLegal x then x else old

/-- A writable register that the thread's context holds gets a value. -/
def Ctx.setCtl (x : Ctx) (n : Nat) (v : Dword) : Ctx := match n with
  | 0x001 => { x with lnk := v }
  | 0x008 => { x with argp := v }
  | 0x010 => { x with rnd := v }
  | 0x011 => { x with flg := v }
  | 0x012 => { x with vmsk := v }
  | 0x018 => { x with fmta := v }
  | 0x019 => { x with fmtb := v }
  | 0x01A => { x with scla := v }
  | 0x01B => { x with sclb := v }
  | 0x020 => { x with lpc0 := v }
  | 0x021 => { x with lpe0 := v }
  | 0x022 => { x with lps0 := v }
  | 0x023 => { x with lpc1 := v }
  | 0x024 => { x with lpe1 := v }
  | 0x025 => { x with lps1 := v }
  | 0x030 => { x with msgv := v }
  | 0x032 => { x with msgpc := v }
  | _ => x

/-- CLFLG: the flags of the tenant's live threads of the cluster, as far as committed (R99, R229). -/
def clflgOf (s : State) (k n : Nat) : Dword :=
  s.threads.foldl (fun acc e =>
    if clusterOf (coreOf e.1) = k ∧ e.2.tenant = n ∧ e.2.away.isNone then acc ||| e.2.committed.flg else acc) 0

/-- OPC (R73, R346): engine commands are counted where the thread's contexts are, at its home. -/
def opcOf (s : State) (th : Thread) : Nat :=
  th.loads % 256 + th.stOut % 256 * 2 ^ 8 + (s.homeThread th).cpOut % 256 * 2 ^ 16 + (s.homeThread th).mxOut % 512 * 2 ^ 32

/-- Banks of the core holding entries of the scope of a counter, of live threads and of pre-empted contexts (source 0x36, R351). -/
def banksOf (s : State) (c : Nat) (ev : Ev) : Nat :=
  let live := (s.threads.filter fun e => coreOf e.1 == c && e.2.pl != 2).map Prod.snd
  let stored := (s.saved.filter fun e => coreOf e.2.ranIn == c).map Prod.snd
  let mine := (live ++ stored).filter fun th => ev.covers th.who th.launch th.tenant
  ((List.range 16).filter fun b => mine.any fun th =>
    (th.res0 && th.base / 128 == b) || (th.res1 && (th.base + th.limit - 1) / 128 == b)).length

/-- The thread in the slot that the reader's UTSEL names, if it belongs to the reader's tenant (R74). -/
def upcalled (s : State) (c : Nat) (th : Thread) : Option Thread :=
  match mget (s.core c).sups th.tenant with
  | none => none
  | some u => match s.thread? (c * 64 + u.utsel) with
    | some x => if x.tenant = th.tenant ∧ x.pl ≠ 2 then some x else none
    | none => none

/-- A register of the tenant (R74); a tenant without an entry shows the reset values. -/
def tenantCtl (x : Option Tenant) (n : Nat) : Dword := match x, n with
  | some x, 0x200 => x.spillb
  | some x, 0x201 => x.fnqb
  | some x, 0x202 => x.tnqb
  | some x, 0x203 => BitVec.ofNat 64 x.bbwin
  | some x, 0x204 => BitVec.ofNat 64 x.accthr
  | some x, 0x205 => x.flwm
  | none, 0x203 => 100
  | none, 0x204 => 256
  | _, _ => 0

def Tenant.setCtl (x : Tenant) (n : Nat) (v : Dword) : Tenant := match n with
  | 0x200 => { x with spillb := v }
  | 0x201 => { x with fnqb := v }
  | 0x202 => { x with tnqb := v }
  | 0x203 => { x with bbwin := v.toNat }
  | 0x204 => { x with accthr := v.toNat }
  | _ => { x with flwm := v }

/-- MARGP of a tenant-table entry (R329). -/
def Tenant.margp (x : Tenant) : Dword := bits x.entry 192 64

/-- MARGB: the live margin that a launch uses, its tenant's own or the shared one; 0 without a launch (R182, R405; log 7, DESIGN
CHOICE). -/
def State.margb (s : State) (th : Thread) : Dword := match s.launchOf th with
  | some l => BitVec.ofNat 64 (marginAddr (if l.shared then 0 else match s.tenant? l.tenant with | some x => x.margp | none => 0) (bits l.record 64 64))
  | none => 0

/-- The value of a control register as a thread reads it, TIME apart (R71 to R74). A thread without a launch, as the machine slot's, reads
zero in what a launch holds, and the address that stands for launch 0 in SNAPB (log 131, DESIGN CHOICE). URESM reads of live threads only
(log 125, DESIGN CHOICE). -/
def readCtl (s : State) (t : Nat) (th : Thread) (n : Nat) : Dword :=
  let c := coreOf t
  let x := s.core c
  if n = 0x002 then BitVec.ofNat 64 (statOf s th)
  else if n = 0x003 then BitVec.ofNat 64 (winOf s th)
  else if n = 0x004 then BitVec.ofNat 64 (selfOf t th)
  else if n = 0x005 then BitVec.ofNat 64 (fstatOf s th)
  else if n = 0x006 then BitVec.ofNat 64 th.pl
  else if n = 0x007 then BitVec.ofNat 64 (th.tenant + (match s.launchOf th with | some l => l.lser % 2 ^ 16 | none => 0) * 2 ^ 16)
  else if n = 0x031 then BitVec.ofNat 64 (msgmOf s th)
  else if n = 0x043 then (match s.launchOf th with | some l => l.upcv | none => 0)
  else if n = 0x050 then s.margb th
  else if n = 0x051 then BitVec.ofNat 64 (snapLine th.launch)
  else if n = 0x060 then clflgOf s (clusterOf c) th.tenant
  else if n = 0x100 then x.cyc
  else if 0x108 ≤ n ∧ n ≤ 0x10F then
    (match mget x.evs (n - 0x108) with
     | some e => if e.owner = some th.launch then setBits e.sel 15 1 1 else 0
     | none => 0)
  else if 0x110 ≤ n ∧ n ≤ 0x117 then
    (match mget x.evs (n - 0x110) with
     | some e =>
       if e.owner.isNone then e.cnt
       else if e.owner = some th.launch then (if nbits e.sel 0 8 = 0x36 then BitVec.ofNat 64 (banksOf s c e) else e.cnt) else 0
     | none => 0)
  else if n = 0x118 then BitVec.ofNat 64 (opcOf s th)
  else if n = 0x119 then (match s.launchOf th with | some l => BitVec.ofNat 64 (mgetD l.sent c 0) | none => 0)
  else if n = 0x11A then (match s.launchOf th with | some l => BitVec.ofNat 64 (mgetD l.recvd c 0) | none => 0)
  else if n < 0x200 then th.ctx.ctl n
  else if n ≤ 0x205 then tenantCtl (s.tenant? th.tenant) n
  else if n = 0x208 then (match mget x.sups th.tenant with | some u => BitVec.ofNat 64 u.utsel | none => 0)
  else if n = 0x209 then (match upcalled s c th with | some y => y.ctx.trapc | none => 0)
  else if n = 0x20A then (match upcalled s c th with | some y => y.ctx.trapv | none => 0)
  else if n = 0x20B then (match upcalled s c th with | some y => y.ctx.trappc | none => 0)
  else if n = 0x20C then
    truth (s.threads.any fun e => coreOf e.1 == c && e.2.tenant == th.tenant && e.2.uresm)
  else if n = 0x20D then (match upcalled s c th with | some y => BitVec.ofNat 64 y.recno | none => 0)
  else if n = 0x210 then mgetD x.guestCfg th.tenant 0
  else if n = 0x300 then x.mcause
  else if n = 0x301 then x.mepc
  else if 0x308 ≤ n ∧ n ≤ 0x30B then mgetD x.bkpc (n - 0x308) 0
  else if 0x30C ≤ n ∧ n ≤ 0x30F then mgetD x.bkmsk (n - 0x30C) 0
  else if n = 0x320 then x.clkNext.getD x.coreclk
  else if n = 0x330 then BitVec.ofNat 64 x.wdog
  else 0

/-- URESM: resume the thread that the tenant's UTSEL names, if it is in an upcall; an entry that still waits for it is gone with the upcall
(R368, R369). -/
def resumeUpcall (s : State) (c n : Nat) : State :=
  match mget (s.core c).sups n with
  | none => s
  | some u =>
    match s.thread? (c * 64 + u.utsel) with
    | some th =>
      match th.upcall with
      | some w =>
        if th.tenant = n ∧ th.pl = 0 ∧ !w.resume then
          (s.setThread (c * 64 + u.utsel) { th with upcall := some { w with resume := true }, uresm := true }).modSup c n fun u =>
            { u with queue := u.queue.filter (fun e => e.kind == 1 || e.slot != u.utsel), resumed := if u.resumed.contains u.utsel then u.resumed else u.resumed ++ [u.utsel] }
        else s
      | none => s
    | none => s

/-- An event counter that is free (R72). -/
def Ev.free : Ev := { owner := none, who := nobody, tenant := 0, sel := 0, cnt := 0 }

/-- EVSEL of a core is written by a thread: the counter becomes or stays the launch's (R72). A machine slot's thread, which is of
no launch, owns it under launch number 0 (log 87, DESIGN CHOICE). -/
def writeEvsel (s : State) (t : Nat) (th : Thread) (k kind : Nat) (v : Dword) : State :=
  s.modCore (coreOf t) fun x =>
    let e := mgetD x.evs k Ev.free
    if e.owner.isNone || e.owner == some th.launch then
      let e1 := { e with owner := some th.launch, who := th.who, tenant := th.tenant, sel := ctlNew kind (ctlFields 0x108) e.sel v }
      { x with evs := mput x.evs k e1 }
    else x

/-- CORECLK is written: the divider or the stop takes effect at the next pass over position 0 (R392). -/
def writeCoreclk (s : State) (c kind : Nat) (v : Dword) : State :=
  s.modCore c fun x => { x with clkNext := some (ctlNew kind (ctlFields 0x320) (x.clkNext.getD x.coreclk) v) }

/-- WDOG is written; it applies from each timer's next restart, but 0 stops every timer of the core (R354). -/
def writeWdog (s : State) (c kind : Nat) (v : Dword) : State :=
  let s := s.modCore c fun x => { x with wdog := (ctlNew kind (ctlFields 0x330) (BitVec.ofNat 64 x.wdog) v).toNat }
  if (s.core c).wdog ≠ 0 then s
  else { s with threads := s.threads.map fun (e : Nat × Thread) => if coreOf e.1 = c then (e.1, { e.2 with wdog := 0 }) else e }

/-- A write of a register that the context does not hold; one that the tenant, the supervisor slot or the launch holds is dropped where there
is none (log 116, DESIGN CHOICE). -/
def writeShared (s : State) (t : Nat) (th : Thread) (n kind : Nat) (v : Dword) : State :=
  let c := coreOf t
  let new (old : Dword) : Dword := ctlNew kind (ctlFields n) old v
  if n = 0x043 then s.modLaunch th.launch fun l => { l with upcv := new l.upcv }
  else if 0x108 ≤ n ∧ n ≤ 0x10F then writeEvsel s t th (n - 0x108) kind v
  else if 0x110 ≤ n ∧ n ≤ 0x117 then
    let f (e : Ev) : Ev :=
      if (e.owner.isNone || e.owner == some th.launch) && nbits e.sel 0 8 != 0x36 then { e with cnt := new e.cnt } else e
    s.modCore c fun x => { x with evs := mupd x.evs (n - 0x110) Ev.free f }
  else if 0x200 ≤ n ∧ n ≤ 0x205 then s.modTenant th.tenant fun x => x.setCtl n (new (tenantCtl (some x) n))
  else if n = 0x208 then s.modSup c th.tenant fun u => { u with utsel := (new (BitVec.ofNat 64 u.utsel)).toNat }
  else if n = 0x20C then (if kind ≠ 3 ∧ v.getLsbD 0 then resumeUpcall s c th.tenant else s)
  else if n = 0x210 then s.modCore c fun x => { x with guestCfg := mputD x.guestCfg th.tenant (new (mgetD x.guestCfg th.tenant 0)) 0 }
  else if n = 0x300 then s.modCore c fun x => { x with mcause := new x.mcause }
  else if n = 0x301 then s.modCore c fun x => { x with mepc := new x.mepc }
  else if 0x308 ≤ n ∧ n ≤ 0x30B then s.modCore c fun x => { x with bkpc := mputD x.bkpc (n - 0x308) (new (mgetD x.bkpc (n - 0x308) 0)) 0 }
  else if 0x30C ≤ n ∧ n ≤ 0x30F then s.modCore c fun x => { x with bkmsk := mputD x.bkmsk (n - 0x30C) (new (mgetD x.bkmsk (n - 0x30C) 0)) 0 }
  else if n = 0x320 then writeCoreclk s c kind v
  else if n = 0x330 then writeWdog s c kind v
  else s

/-- The registers that the thread's context holds and CTL writes. -/
def ctlOwn (n : Nat) : Bool :=
  n == 0x001 || n == 0x008 || (0x010 ≤ n && n ≤ 0x012) || (0x018 ≤ n && n ≤ 0x01B) || (0x020 ≤ n && n ≤ 0x025) ||
  n == 0x030 || n == 0x032

/-- The context after a write of one of its registers (R69, R70). -/
def Ctx.writeCtl (x : Ctx) (n kind : Nat) (v : Dword) : Ctx :=
  x.setCtl n (if n = 0x018 ∨ n = 0x019 then fmtNew kind (x.ctl n) v else ctlNew kind (ctlFields n) (x.ctl n) v)

/-- A leader in its handler that changes where the handler returns to leaves the word that its members already have behind: the
next one that it executes is multicast (R416; log 88, DEDUCED). -/
def Thread.returnsTo (th : Thread) (n : Nat) (old : Thread) : Thread :=
  if n = 0x032 ∧ th.ctx.hnd ∧ th.ctx.msgpc ≠ old.ctx.msgpc then { th with sent := 0 } else th

/-- CTLR (R121); TIME moves on with the reading (log 7, DESIGN CHOICE). -/
def execCtlr (d : BitVec 7) (n : BitVec 10) (s : State) : Out :=
  let q : Req := { reqD (.ctlr d n) d with legal := ctlAssigned n.toNat, level := ctlRead n.toNat }
  begin q s fun s t th =>
    if n.toNat = 0x101 then .next (finish s.timed t (th.setS d (BitVec.ofNat 64 s.now)) q .seq)
    else .next (finish s t (th.setS d (readCtl s t th n.toNat)) q .seq)

/-- A register is written (R69): shared registers wait until every earlier instruction has committed (R229). -/
def ctlWriteBy (kind : Nat) (i : Instr) (a : BitVec 7) (n : BitVec 10) (s : State) : Out :=
  let q : Req := { reqA i a with legal := ctlAssigned n.toNat, level := ctlWrite n.toNat, flow := true,
                                 commit := !ctlOwn n.toNat && !ctlReadOnly n.toNat }
  begin q s fun s t th =>
    if ctlOwn n.toNat then .next (finish s t ((th.setCtx fun x => x.writeCtl n.toNat kind (th.S a)).returnsTo n.toNat th) q .seq)
    else if ctlReadOnly n.toNat then .next (finish s t th q .seq)
    else .next (finish (writeShared s t th n.toNat kind (th.S a)) t th q .seq)

/-- CTLW (R121). -/
def execCtlw (a : BitVec 7) (n : BitVec 10) (s : State) : Out := ctlWriteBy 1 (.ctlw a n) a n s
/-- CTLS (R121). -/
def execCtls (a : BitVec 7) (n : BitVec 10) (s : State) : Out := ctlWriteBy 2 (.ctls a n) a n s
/-- CTLC (R121). -/
def execCtlc (a : BitVec 7) (n : BitVec 10) (s : State) : Out := ctlWriteBy 3 (.ctlc a n) a n s

/-! ### The writes as events of the device -/

/-- CORECLK_WRITE. -/
def execCoreclkWrite (core : Nat) (v : BitVec 64) (s : State) : Out :=
  .next (if coreOk core then writeCoreclk s core 1 v else s)
/-- WDOG_WRITE. -/
def execWdogWrite (core : Nat) (v : BitVec 64) (s : State) : Out :=
  .next (if coreOk core then writeWdog s core 1 v else s)
/-- EVSEL_WRITE: by the thread of a slot. -/
def execEvselWrite (tid n : Nat) (v : BitVec 64) (s : State) : Out :=
  .next (match s.thread? tid with
    | some th => if n < 8 then writeEvsel s tid th n 1 v else s
    | none => s)
/-- LPC_WRITE: the passes that remain of a loop level (R121). -/
def execLpcWrite (tid : Nat) (lvl : Bool) (v : BitVec 64) (s : State) : Out :=
  .next (s.modThread tid fun th => th.setCtx fun x => x.writeCtl (if lvl then 0x023 else 0x020) 1 v)
/-- URESM_WRITE: by a supervisor slot. -/
def execUresmWrite (sup : Nat) (s : State) : Out :=
  .next (match s.thread? sup with
    | some th => if th.pl = 1 then resumeUpcall s (coreOf sup) th.tenant else s
    | none => s)

end Sys2Proof.Machine
end

