-- ==== Sys2Proof/Machine/Ending.lean ====
section
/-! DEFINITION. Sys2Proof/Machine/Ending.lean: positions given up, and the end of threads, formes and supervisor runs
(R16, R112, R326, R368). -/

namespace Sys2Proof.Machine

/-- A position with the changes that wait for the next pass over position 0 (R326). -/
def Core.impView (x : Core) (p : Nat) : BitVec 16 := (mget x.impNext p).getD (mgetD x.imp p 0)

/-- Change a position; the change takes effect at the next pass over position 0 (R326). -/
def Core.setImp (x : Core) (p : Nat) (e : BitVec 16) : Core := { x with impNext := mput x.impNext p e }

/-- The positions that a slot owns, lowest first. -/
def Core.positionsOf (x : Core) (slot : Nat) : List Nat :=
  (List.range 64).filter fun p => impUsed (x.impView p) && impThr (x.impView p) && impSlot (x.impView p) == slot

/-- A live thread keeps a position free of PB: PB is cleared on its lowest-numbered position if every one has it (R326). -/
def State.keepPosition (s : State) (c slot : Nat) : State :=
  let ps := (s.core c).positionsOf slot
  if (s.thread? (c * 64 + slot)).isSome && !ps.isEmpty && ps.all fun p => ((s.core c).impView p).getLsbD 13 then
    match ps with
    | p :: _ => s.modCore c fun x => x.setImp p (setBits (x.impView p) 13 1 0)
    | [] => s
  else s

/-- The positions of a slot name no thread any more; they stay the launch's (R264, R326). -/
def State.dropSlot (s : State) (c slot : Nat) : State :=
  s.modCore c fun x => (x.positionsOf slot).foldl (fun x p => x.setImp p (setBits (setBits (x.impView p) 14 1 0) 0 6 0)) x

/-- Send a dependence decrement (R266, R304): it counts as sent on the core it leaves (R28). -/
def State.sendDec (s : State) (who l tenant src core k : Nat) : State :=
  let p : Packet := { id := s.sched.nextId, launch := l, tenant := tenant, srcCore := src, srcSlot := 0, who := who, core := core,
                      slot := 0, k := k, payload := 0 }
  ((s.modFlight fun f => { f with decs := f.decs ++ [p] }).newId).countSent src who l 1

/-- The decrements that a task record names (R265). -/
def taskDecs (r : Vec) : List (Nat × Nat) :=
  (List.range (Nat.min 4 (nbits r (8 * 19) 8))).map fun i => (nbits r (8 * (24 + 8 * i)) 9, nbits r (8 * (24 + 8 * i) + 9) 8)

/-- A thread of a forme has ended; with the last one the task retires, and its decrements go out if any thread ended by
`tdone` (R16). (Log 43, DEDUCED.) -/
def State.formeEnd (s : State) (who src id home : Nat) (tdone : Bool) : State :=
  match mget s.work.formes id with
  | none => s
  | some f =>
    let f := { f with ended := f.ended ++ [home], tdone := f.tdone || tdone }
    if f.ended.length < f.tids.length then s.modWork fun w => { w with formes := mput w.formes id f }
    else
      let s := s.modWork fun w => { w with formes := mdel w.formes id }
      if f.tdone then
        let tenant := match s.launch? f.launch with | some l => l.tenant | none => 0
        (taskDecs f.task.record).foldl (fun s d => s.sendDec who f.launch tenant src d.1 d.2) s
      else s

/-- The supervisor's run ends: the threads it resumed get their positions back, and their watchdogs restart (R368, R369). -/
def State.endRun (s : State) (c n : Nat) : State :=
  match mget (s.core c).sups n with
  | none => s
  | some u =>
    let s := u.resumed.foldl (fun s k => s.modThread (c * 64 + k) fun th => { th with wdog := (s.core c).wdog, idle := 0 }) s
    s.modSup c n fun u => { u with run := none, resumed := [] }

/-- A context as an ended thread leaves it: its pending flags are discarded (R98), and a failed one is reset (R247). -/
def Eng.ended (e : Eng) : Eng :=
  if e.failed.isSome then { e with cnt := e.issued, done := [], failed := none, flags := [] } else { e with flags := [] }

/-- The supervisor slot without what it holds of a slot whose thread has gone: its entries, and its mark of a resumed thread (R368,
R372). -/
def Sup.forget (u : Sup) (slot : Nat) : Sup :=
  { u with queue := u.queue.filter fun e => e.kind == 1 || e.slot != slot, resumed := u.resumed.filter (· != slot) }

/-- The thread of a slot ends (R111, R112): its home slot, guest slot, mailbox, positions and record number are freed at once, its
task-mates' later (log 104, DEDUCED); its engine contexts stay until their commands have completed (R361). A supervisor's or the
machine's run ends instead, and a pick record that it has pending is discarded. -/
def State.endThread (s : State) (t : Nat) (tdone : Bool) : State :=
  match s.thread? t with
  | none => s
  | some th =>
    let s := { s with sched := { s.sched with issue := false } }
    let halted (y : Thread) : Thread := { y with ending := false, ctx := { y.ctx with pick := none } }
    if th.pl = 1 then (s.modThread t halted).endRun (coreOf t) th.tenant
    else if th.pl = 2 then (s.modThread t halted).modCore (coreOf t) fun x => { x with mrun := false }
    else
      let h := s.homeThread th
      let s := (s.dropSlot (coreOf t) (slotOf t)).dropSlot (coreOf th.home) (slotOf th.home)
      let old : OldCtx := { launch := th.launch, tenant := th.tenant, copy := h.copy.ended, matrix := h.matrix.ended }
      let s := s.modCore (coreOf th.home) fun x => { x with oldCtx := mput x.oldCtx (slotOf th.home) old }
      let s := (s.modSup (coreOf t) th.tenant fun u => u.forget (slotOf t)).modSup (coreOf th.home) th.tenant fun u => u.forget (slotOf th.home)
      let s := { s with threads := mdel (mdel s.threads t) th.home }
      let s := s.modTenant th.tenant fun x => { x with recs := x.recs.filter (· != th.recno) }
      let s := s.forgetOp th.who
      s.formeEnd th.who (coreOf t) th.forme th.home tdone

end Sys2Proof.Machine
end

