-- ==== Sys2Proof/Machine/Translate.lean ====
section
/-! DEFINITION. Sys2Proof/Machine/Translate.lean: page tables, walks and TLBs (R164, R165, R309 to R314), and the fetch
of instruction words (R43). -/

namespace Sys2Proof.Machine

/-- Fields of a page-table entry (R310). -/
def pteV (e : Dword) : Bool := e.getLsbD 63
def pteLeaf (e : Dword) : Bool := e.getLsbD 62
def pteBlock (e : Dword) : Bool := e.getLsbD 61
def pteGrp (e : Dword) : Bool := e.getLsbD 60
def pteD (e : Dword) : Bool := e.getLsbD 59
def pteKey (e : Dword) : Nat := nbits e 46 10
def ptePfn (e : Dword) : Nat := nbits e 12 34 * 4096
def pteSplit (e : Dword) : Nat := nbits e 8 4

/-- Bytes that a leaf of a level maps (R309). -/
def leafSize (level : Nat) (e : Dword) : Nat := match level with
  | 1 => 2 ^ 30
  | 2 => if pteGrp e then 2 ^ 25 else 2 ^ 21
  | _ => if pteGrp e then 2 ^ 16 else 2 ^ 12

/-- An entry keeps R310 at its level (R311). -/
def pteWf (level : Nat) (e : Dword) : Bool :=
  nbits e 56 3 == 0 && nbits e 3 5 == 0 &&
  (if pteLeaf e then
    1 ≤ level && level ≤ 3 && (!pteGrp e || level != 1) && (!pteBlock e || level == 1) &&
    (if pteBlock e then pteKey e == 0 && !e.getLsbD 2 && decide (pteSplit e ≤ 14)
     else pteSplit e == 0 && ptePfn e % leafSize level e == 0)
   else level < 3 && !pteBlock e && !pteGrp e && !pteD e && pteKey e == 0 && pteSplit e == 0 && nbits e 0 3 == 0)

/-- What a walk finds: a leaf with the base and size of its page, or a fault code (R311). -/
inductive Walked where
  | leaf (e : Dword) (base size : Nat)
  | fault (code : Nat)
  deriving DecidableEq, Repr

/-- VA bits that index a level (R309). -/
def walkIndex (va level : Nat) : Nat := match level with
  | 0 => field va 39 13
  | 1 => field va 30 9
  | 2 => field va 21 9
  | _ => field va 12 9

/-- The walk from the table at `base`, with `fuel` levels left (R309, R311). -/
def walkFrom (ptes : Map Dword) (va base level : Nat) : Nat → Walked
  | 0 => .fault 0x06
  | fuel + 1 =>
    let e := mgetD ptes (base + 8 * walkIndex va level) 0
    if !pteV e then .fault 0x05
    else if !pteWf level e then .fault 0x06
    else if pteLeaf e then .leaf e (va - va % leafSize level e) (leafSize level e)
    else walkFrom ptes va (ptePfn e) (level + 1) fuel

/-- A tenant-table entry's fields (R329). -/
def Tenant.ptroot (x : Tenant) : Nat := nbits x.entry 0 64
def Tenant.shtb (x : Tenant) : Nat := nbits x.entry 64 64
def Tenant.upcvr (x : Tenant) : Dword := bits x.entry 128 64
def Tenant.keyx (x : Tenant) : Nat := nbits x.entry 256 16
def Tenant.valid (x : Tenant) : Bool := nbits x.entry 272 1 = 1
def Tenant.mayShare (x : Tenant) : Bool := nbits x.entry 273 1 = 1
def Tenant.quantum (x : Tenant) : Nat := Nat.max 1 (nbits x.entry 288 32)
def Tenant.spilln (x : Tenant) : Nat := nbits x.entry 384 32

/-- A walk for a tenant (R309); a tenant without an entry has no valid mapping. -/
def State.walk (s : State) (tenant va : Nat) : Walked :=
  match s.tenant? tenant with
  | some x => walkFrom s.tables.ptes va x.ptroot 0 4
  | none => .fault 0x05

/-- The kinds of access: 0 read, 1 write, 2 atomic, 3 fetch, 4 the read or fetch of `l1inv` (R310, R243). -/
def permits (e : Dword) (acc : Nat) : Bool := match acc with
  | 0 => e.getLsbD 0
  | 1 => e.getLsbD 1
  | 2 => e.getLsbD 0 && e.getLsbD 1
  | 3 => e.getLsbD 2
  | _ => e.getLsbD 0 || e.getLsbD 2

def tlbHit (ts : List Tlb) (tenant va : Nat) : Option Tlb :=
  ts.find? fun x => x.tenant == tenant && x.base ≤ va && va < x.base + x.size

/-- Put an entry into a TLB of a capacity; the oldest leaves. -/
def tlbFill (ts : List Tlb) (x : Tlb) (cap : Nat) : List Tlb :=
  let kept := ts.filter fun y => !(y.tenant == x.tenant && y.base == x.base && y.size == x.size)
  (if cap ≤ kept.length then kept.drop 1 else kept) ++ [x]

/-- A walk has found a leaf: the L2 TLB of the cluster and the L1 TLB of the core hold it (R164). -/
def State.fillTlbs (s : State) (c : Nat) (x : Tlb) : State :=
  let s := s.modCluster (clusterOf c) fun k => { k with l2tlb := tlbFill k.l2tlb x 4096 }
  s.modCore c fun y => { y with tlb := tlbFill y.tlb x 64 }

/-- What translation says of an access by a thread of a core. -/
inductive Trans where
  /-- A cached translation; the state has it in the core's L1 TLB. -/
  | hit (x : Tlb) (s : State)
  /-- The walk has found no leaf. -/
  | fault (code : Nat) (s : State)
  /-- A walk is under way. -/
  | miss (s : State)
  deriving Repr

/-- A walk of the page of an address is under way for a waiter (R164). -/
def State.walksFor (s : State) (t tenant va : Nat) : Bool := match s.walk tenant va with
  | .leaf _ base size => s.flight.walks.any fun w => w.tenant == tenant && base ≤ w.va && w.va < base + size && w.waiters.contains t
  | .fault _ => false

/-- A request for a page joins the walk of it that the die has under way, or starts one: at most 64 at once (R164). A walk that would
find no leaf is a fault at once. (Log 51, DESIGN CHOICE.) -/
def State.startWalk (s : State) (t tenant va : Nat) : Trans :=
  let c := coreOf t
  if s.rowHeld c then .miss s
  else
  let d := dieOf c
  let both (s : State) (who l : Nat) : State := (s.countFor c who l tenant 0x23 1).countFor c who l tenant 0x24 1
  let who := match s.thread? t with | some th => th.who | none => nobody
  let l := match s.thread? t with | some th => th.launch | none => 0
  match s.walk tenant va with
  | .fault code => .fault code (((both s who l).countFor c who l tenant 0x25 1).countDie d 0x07 tenant)
  | .leaf _ base size =>
    match s.flight.walks.find? fun w => w.die == d && w.tenant == tenant && base ≤ w.va && w.va < base + size with
    | some w =>
      let s := (both s who l).countDie d 0x08 tenant
      .miss (s.modFlight fun f => { f with walks := f.walks.map fun x => if x.id = w.id then { x with waiters := x.waiters ++ [t] } else x })
    | none =>
      if 64 ≤ (s.flight.walks.filter fun w => w.die == d).length then .miss s
      else
        let s := ((both s who l).countFor c who l tenant 0x25 1).countDie d 0x07 tenant
        .miss ((s.modFlight fun f => { f with walks := f.walks ++ [{ id := s.sched.nextId, die := d, tenant := tenant, va := va, waiters := [t] }] }).newId)

/-- Translate a virtual address for the thread of a slot (R164, R165): the L1 TLB, the cluster's L2 TLB, or a walk, which the thread
waits for. -/
def State.translate (s : State) (t tenant va : Nat) : Trans :=
  let c := coreOf t
  match tlbHit (s.core c).tlb tenant va with
  | some x => .hit x s
  | none =>
    if s.walksFor t tenant va then .miss s
    else match tlbHit (s.cluster (clusterOf c)).l2tlb tenant va with
    | some x =>
      let s := match s.thread? t with
        | some th => s.count t th 0x23 1
        | none => s
      .hit x (s.modCore c fun y => { y with tlb := tlbFill y.tlb x 64 })
    | none => s.startWalk t tenant va

/-- How a core's engines stand among those that wait for a walk: above every thread slot. -/
def engWaiter (c : Nat) : Nat := 32768 + c
/-- The core of one who waits for a walk. -/
def waiterCore (w : Nat) : Nat := if w < 32768 then coreOf w else w - 32768

/-- An engine of core `c` misses both TLBs with an address that has a leaf: it joins or starts the die's walk, as a thread does (R164,
R351); none where it need not wait for one. -/
def State.engMiss (s : State) (c who launch tenant va : Nat) : Option State :=
  if 2 ^ 52 ≤ va || (tlbHit (s.core c).tlb tenant va).isSome || (tlbHit (s.cluster (clusterOf c)).l2tlb tenant va).isSome then none
  else match s.walk tenant va with
  | .fault _ => none
  | .leaf _ base size =>
    let me := engWaiter c
    let d := dieOf c
    let both (s : State) : State := (s.countFor c who launch tenant 0x23 1).countFor c who launch tenant 0x24 1
    if s.rowHeld c then some s
    else if s.walksFor me tenant va then some s
    else match s.flight.walks.find? fun w => w.die == d && w.tenant == tenant && base ≤ w.va && w.va < base + size with
    | some w =>
      let s := (both s).countDie d 0x08 tenant
      some (s.modFlight fun f => { f with walks := f.walks.map fun x => if x.id = w.id then { x with waiters := x.waiters ++ [me] } else x })
    | none =>
      if 64 ≤ (s.flight.walks.filter fun w => w.die == d).length then some s
      else
        let s := ((both s).countFor c who launch tenant 0x25 1).countDie d 0x07 tenant
        some ((s.modFlight fun f => { f with walks := f.walks ++ [{ id := s.sched.nextId, die := d, tenant := tenant, va := va, waiters := [me] }] }).newId)

/-- TRANSLATION_WALK: a walk in progress reads the tables; what it finds goes into the TLBs of those that wait for it (R164, R165). -/
def execTranslationWalk (id : Nat) (s : State) : Out :=
  match s.flight.walks.find? fun w => w.id == id with
  | none => .next s
  | some w =>
    let s := s.modFlight fun f => { f with walks := f.walks.filter fun x => x.id != id }
    match s.walk w.tenant w.va with
    | .leaf e base size =>
      let x : Tlb := { tenant := w.tenant, base := base, size := size, pte := e, dirty := pteD e }
      .next (w.waiters.foldl (fun s t => s.fillTlbs (waiterCore t) x) s)
    | .fault _ => .next s

/-- A block entry in its table: its fields (R315). -/
def State.blk (s : State) (a : Nat) : BitVec 128 := mgetD s.tables.blks a 0
def blkValid (e : BitVec 128) : Bool := e.getLsbD 127
def blkTier (e : BitVec 128) : Nat := nbits e 126 1
def blkCow (e : BitVec 128) : Bool := e.getLsbD 125
def blkWb (e : BitVec 128) : Bool := e.getLsbD 124
def blkAcc (e : BitVec 128) : Nat := nbits e 100 12
def blkKey (e : BitVec 128) : Nat := nbits e 90 10
def blkBase (e : BitVec 128) : Nat := nbits e 16 30 * 65536
/-- The reference count of a physical block (R316). -/
def State.blkCount (s : State) (b : Nat) : Nat := mgetD s.tables.bcount (b / 65536) 0

/-- A block entry names a block that is held: neither clear nor of count 0 (R177). -/
def State.blkLive (s : State) (e : BitVec 128) : Bool := blkValid e && 0 < s.blkCount (blkBase e)

def State.setBlk (s : State) (a : Nat) (e : BitVec 128) : State :=
  s.modTables fun x => { x with blks := mputD x.blks a e 0 }

/-- What a fetch finds (R43). -/
inductive Fetched where
  | word (w : Word) (s : State)
  | fault (code : Nat) (s : State)
  | wait (s : State)
  deriving Repr

/-- The word at an address, for the thread of a slot: the L1 instruction cache, or the memory below it (R160). -/
def State.fetch (s : State) (t : Nat) (th : Thread) (a : Dword) : Fetched :=
  if 2 ^ 52 ≤ a.toNat then .fault 0x06 s
  else match s.translate t th.tenant a.toNat with
    | .fault code s => .fault code s
    | .miss s => .wait s
    | .hit x s =>
      if !permits x.pte 3 || pteBlock x.pte then .fault 0x06 s
      else if !s.keyValid (pteKey x.pte) then .fault 0x06 s
      else
        let pa := ptePfn x.pte + (a.toNat - x.base)
        let c := coreOf t
        if s.rowHeld c && (mget (s.core c).l1i (cacheTag pa (pteKey x.pte))).isNone then .wait s
        else match peerOf pa with
        | some p =>
          -- no cache keeps a line of a window (R203, R388)
          if s.mute p then .wait (s.unheard (readKey p (pa % 2 ^ 41)))
          else if !s.peerAllows p (pa % 2 ^ 41) 4 0 then .fault 0x06 s
          else .word ((Config.peerBytes p (pa % 2 ^ 41) s.sched.fresh).setWidth 32) ((s.count t th 0x22 1).tick)
        | none =>
        if s.zeroing (pa / 64) then .wait s
        else match mget (s.core c).l1i (cacheTag pa (pteKey x.pte)) with
          | some v =>
            if s.badBytes (sramLine 4 c (pa / 64)) (pa % 64) 4 then .fault 0x07 s
            else .word (BitVec.ofNat 32 (ofBytes (lineBytes v (pa % 64) 4))) (s.corrected c th.who th.launch th.tenant)
          | none =>
            let home := s.atHome (dieOf c) pa (pteKey x.pte)
            if (if home then s.badAt pa 4 else s.badBytes (sramLine 3 (dieOf c) (pa / 64)) (pa % 64) 4) then .fault 0x07 s
            else
              let r := s.readLine (dieOf c) pa (pteKey x.pte)
              let w : Word := BitVec.ofNat 32 (ofBytes (lineBytes r.1 (pa % 64) 4))
              let y := (r.2.count t th 0x22 1).traffic c th.who th.launch th.tenant pa false (cached := !home)
              if s.copyBad (dieOf c) pa (pteKey x.pte) then .word w y
              else .word w (((y.mendLines (sramLine 4 c (pa / 64)) 1).modCore c fun z => { z with l1i := fillLine z.l1i 1024 y.free (cacheTag pa (pteKey x.pte)) r.1 }).tick)

end Sys2Proof.Machine
end

