-- ==== Sys2Proof/Machine/Flow.lean ====
section
/-! DEFINITION. Sys2Proof/Machine/Flow.lean: the meanings of majors 0x00, 0x10 to 0x16: system operations, branches,
loops, repeat frames and forme control (R111, R112, R122 to R129). -/

namespace Sys2Proof.Machine

/-! ### System (R111) -/

/-- NOP (R111). -/
def execNop (s : State) : Out := simple (req0 .nop) s id

/-- The cause that holds a thread which is ending: its loads and stores are still outstanding (R111). -/
def Thread.endHeld (th : Thread) : Option Nat := if th.rob ≠ [] then some 4 else if th.stOut ≠ 0 then some 5 else none

/-- HALT (R111, R112): in a supervisor slot it ends the run (R368). (Log 42, DEDUCED.) -/
def execHalt (s : State) : Out :=
  begin { req0 .halt with commit := true } s fun s t th =>
    match th.endHeld with
    | some c => .next (hold s t c)
    | none => .next ((s.issuedBy t th).endThread t false)

/-- TRAP (R111). -/
def execTrap (c : BitVec 7) (s : State) : Out :=
  let q := req0 (.trap c)
  begin q s fun s t _ => raise s t q 0x20 0 c.toNat

/-- BRK (R111). -/
def execBrk (s : State) : Out :=
  let q := req0 .brk
  begin q s fun s t _ => raise s t q 0x21 0

/-- YIELD: the thread is not ready for 64 cycles of its core's clock (R111). -/
def execYield (s : State) : Out :=
  let q := req0 .yield
  begin q s fun s t th => .next (finish s t { th with wait := .yield 64 } q .seq)

/-- WFM: it waits while no message is unread; a message that came during the wait and is to enter a handler does so once every
earlier instruction has committed (R111, R112). -/
def execWfm (s : State) : Out :=
  let q := req0 .wfm
  begin q s fun s t th =>
    if (s.homeThread th).mailbox = [] then .next (hold (s.modThread t fun x => { x with wait := .wfm }) t 9)
    else if th.wait = .wfm ∧ (s.thread? t).any (fun y => s.enters t { y with rob := [] }) then .next (hold s t 4)
    else .next (finish s t { th with wait := .none } q .seq)

/-! ### Branches, jumps and calls (R122 to R124) -/

/-- A conditional branch with its word displacement; it is a branch site (R122). -/
def branch (q : Req) (k : BitVec 3) (sense : Bool) (disp : Dword) (s : State) : Out :=
  begin q s fun s t th =>
    let taken := th.cond k == sense
    if s.siteFull (coreOf t) th (th.PC q) then .next (holdSite s t th)
    else .next (finish s t th q (if taken then .to (th.PC q + scaled disp 2) else .seq)
      { Rob.none with site := some (th.PC q, .branch taken) })

/-- BT (R122). -/
def execBt (k : BitVec 3) (d : BitVec 22) (s : State) : Out :=
  branch { req0 (.bt k d) with flow := true } k true (d.signExtend 64) s
/-- BF (R122); on k0 the word is reserved. -/
def execBf (k : BitVec 3) (d : BitVec 22) (s : State) : Out :=
  branch { req0 (.bf k d) with flow := true, legal := k != 0 } k false (d.signExtend 64) s

/-- A direct jump; a call sets LNK first (R123). -/
def jump (q : Req) (link : Bool) (disp : Dword) (s : State) : Out :=
  begin q s fun s t th =>
    let th1 := if link then th.setCtx fun x => { x with lnk := th.PC q + 4 } else th
    .next (finish s t th1 q (.to (th.PC q + scaled disp 2)))

/-- JMP (R123). -/
def execJmp (d : BitVec 26) (s : State) : Out := jump { req0 (.jmp d) with flow := true } false (d.signExtend 64) s
/-- CALL (R123). -/
def execCall (d : BitVec 26) (s : State) : Out := jump { req0 (.call d) with flow := true } true (d.signExtend 64) s

/-- A jump through a register: a target that is not word-aligned is refused at the jump (R43, R124). -/
def jumpReg (q : Req) (link : Bool) (a : BitVec 7) (s : State) : Out :=
  begin q s fun s t th =>
    if nbits (th.S a) 0 2 ≠ 0 then raise s t q 0x04 (th.S a)
    else
      let th1 := if link then th.setCtx fun x => { x with lnk := th.PC q + 4 } else th
      .next (finish s t th1 q (.to (th.S a)))

/-- JR (R124). -/
def execJr (a : BitVec 7) (s : State) : Out := jumpReg { reqA (.jr a) a with flow := true } false a s
/-- CALLR (R124). -/
def execCallr (a : BitVec 7) (s : State) : Out := jumpReg { reqA (.callr a) a with flow := true } true a s
/-- RET (R124). -/
def execRet (s : State) : Out :=
  let q := { req0 .ret with flow := true }
  begin q s fun s t th => .next (finish s t th q (.to th.ctx.lnk))

/-! ### Hardware loops (R125) -/

/-- Set a loop level: passes, first and last instruction (R125). -/
def Ctx.startLoop (x : Ctx) (outer : Bool) (cnt first last : Dword) : Ctx :=
  if outer then { x with lpc1 := cnt, lps1 := first, lpe1 := last } else { x with lpc0 := cnt, lps0 := first, lpe0 := last }
/-- A level whose count is zero is not active. -/
def Ctx.skipLoop (x : Ctx) (outer : Bool) : Ctx := if outer then { x with lpc1 := 0 } else { x with lpc0 := 0 }

/-- Start a loop with a count; it is a loop site (R125). -/
def startLoop (q : Req) (outer : Bool) (cnt : Thread → Dword) (e : BitVec 14) (s : State) : Out :=
  begin q s fun s t th =>
    let n := cnt th
    let last := th.PC q + scaled (e.setWidth 64) 2
    let rob := { Rob.none with site := some (th.PC q, .loop n) }
    if s.siteFull (coreOf t) th (th.PC q) then .next (holdSite s t th)
    else if n = 0 then .next (finish s t (th.setCtx fun x => x.skipLoop outer) q (.to (last + 4)) rob)
    else .next (finish s t (th.setCtx fun x => x.startLoop outer n (th.PC q + 4) last) q .seq rob)

/-- LOOPI (R125); disp14 = 0 is reserved. -/
def execLoopi (l : BitVec 1) (c : BitVec 10) (e : BitVec 14) (s : State) : Out :=
  startLoop { req0 (.loopi l c e) with flow := true, legal := e != 0 } (l == 1) (fun _ => c.setWidth 64) e s
/-- LOOP (R125); disp14 = 0 is reserved. -/
def execLoop (l : BitVec 1) (a : BitVec 7) (e : BitVec 14) (s : State) : Out :=
  startLoop { reqA (.loop l a e) a with flow := true, legal := e != 0 } (l == 1) (fun th => th.S a) e s

/-! ### Repeat frames (R47, R127) -/

/-- Where a stepped field lies in a word: its low bit, and whether it names a mask register. -/
abbrev Stepped := Nat × Bool

/-- The register and mask fields of a captured word (R127, R120, R51). -/
def steppedFields (w : Nat) : List Stepped :=
  let dab : List Stepped := [(19, false), (12, false), (5, false)]
  let da : List Stepped := [(19, false), (12, false)]
  let kab : List Stepped := [(19, true), (12, false), (5, false)]
  match field w 26 6 with
  | 0x01 => if 24 ≤ field w 0 5 then da else dab
  | 0x08 | 0x09 => [(19, false)]
  | 0x0A => dab
  | 0x0C => match field w 0 5 with
    | 0 | 1 | 2 | 3 => [(19, true), (12, true), (5, true)]
    | 4 | 5 | 10 => [(19, true), (12, true)]
    | 6 | 9 => [(19, true), (12, false)]
    | _ => [(19, false), (12, true)]
  | 0x20 => dab
  | 0x21 => if field w 2 3 = 7 then da else dab
  | 0x22 => kab
  | 0x23 => if field w 2 3 = 7 then da else dab
  | 0x24 => if 6 ≤ field w 2 3 then kab else da
  | 0x26 => if field w 2 3 = 4 then dab else da
  | 0x27 => match field w 2 3 with
    | 0 | 4 | 5 => da
    | _ => dab
  | 0x28 => if field w 0 5 = 1 then da else dab
  | 0x29 => if field w 0 5 = 1 then da else dab
  | _ => da

/-- The fields of a captured word that name register pairs (R136). -/
def pairFields (w : Nat) : List Nat :=
  match field w 26 6, field w 0 5 with
  | 0x25, 12 => [12]
  | 0x25, 13 => [19]
  | 0x28, 0 => [12, 5]
  | _, _ => []

/-- Majors that a frame may capture (R51). -/
def capturable (w : Nat) : Bool :=
  let m := field w 26 6
  (1 ≤ m && m ≤ 0x0A) || m == 0x0C || (0x20 ≤ m && m ≤ 0x29)

/-- The stride of a field: sd, sa or sb of RPTS (R127). -/
def strideAt (rpts : Dword) (lo : Nat) : Nat :=
  if lo = 19 then nbits rpts 26 4 else if lo = 12 then nbits rpts 30 4 else nbits rpts 34 4

/-- The word that replay `j` executes (R127). -/
def stepWord (rpts : Dword) (w j : Nat) : Nat :=
  (steppedFields w).foldl (fun x f =>
    let n := if f.2 then 3 else 7
    x - field x f.1 n * 2 ^ f.1 + (field w f.1 n + j * strideAt rpts f.1) % 2 ^ n * 2 ^ f.1) w

/-- What is wrong with a captured word: it is illegal, or a register field reaches beyond the window (R127). -/
inductive Captured where
  | good
  | illegal
  | window (n : Nat)
  deriving DecidableEq, Repr

/-- The first register number at or beyond the window's limit among the replays of a field. -/
def reach (th : Thread) (n stride : Nat) (reps : Nat) : Option Nat :=
  ((List.range reps).map fun j => n + j * stride).find? fun r => !th.shadowed r && th.limit ≤ r

/-- What the capture of a word finds (R127): a word that may not be captured, else the first register beyond the window, all fields
before all second registers (log 99, DESIGN CHOICE). -/
def capturedCheck (th : Thread) (rpts : Dword) (w : Word) : Captured :=
  let x := w.toNat
  let reps := nbits rpts 20 6 + 1
  if !capturable x || (reservedBy w).isSome then .illegal
  else if (steppedFields x).any fun f => f.2 && 7 < field x f.1 3 + (reps - 1) * strideAt rpts f.1 then .illegal
  else
    let firsts := ((steppedFields x).filter fun f => !f.2).map fun f => (field x f.1 7, strideAt rpts f.1)
    let seconds := (pairFields x).map fun lo => (field x lo 7 + 1, strideAt rpts lo)
    match (firsts ++ seconds).findSome? fun f => reach th f.1 f.2 reps with
    | some n => .window n
    | none => .good

/-- The words of a frame, fetched in order (R127). -/
inductive Frame where
  | words (ws : List Word) (s : State)
  | fault (code : Nat) (a : Dword) (s : State)
  | wait (s : State)
  deriving Repr

/-- Log 24, DESIGN CHOICE. -/
def State.fetchFrame (s : State) (t : Nat) (th : Thread) (a : Dword) : Nat → Frame
  | 0 => .words [] s
  | n + 1 =>
    match s.fetch t th a with
    | .fault code s => .fault code a s
    | .wait s => .wait s
    | .word w s =>
      match State.fetchFrame s t th (a + 4) n with
      | .words ws s => .words (w :: ws) s
      | r => r

/-- The last word of an active level lies inside the frame, before its end (R126; log 98, DEDUCED). -/
def frameSplits (x : Ctx) (a : Dword) (len : Nat) : Bool :=
  (List.range (len - 1)).any fun p =>
    let w := a + BitVec.ofNat 64 (4 * p)
    (x.lpc0 != 0 && x.lpe0 == w) || (x.lpc1 != 0 && x.lpe1 == w)

/-- An `ext` at place `i` of a frame: the fault is taken at the `ext` with its pair, the word that follows it (R50; log 138, DEDUCED). -/
def frameExt (s : State) (t : Nat) (th : Thread) (ws : List Word) (i : Nat) : Out :=
  let pc := th.ctx.pc + BitVec.ofNat 64 (4 * (i + 1))
  let stop (s : State) (code : Nat) (v : Dword) : Out := .next (if th.rob = [] then takeFault s t code 0 true v pc else hold s t 4)
  let pair (w : Word) : Dword := (ws.getD i 0) ++ w
  match ws[i + 1]? with
  | some w => stop s 0x01 (pair w)
  | none => match s.fetch t th (pc + 4) with
    | .fault code y => stop (if th.rob = [] then y else s) code (pc + 4)
    | .wait s => .next (hold s t 15)
    | .word w s => stop s 0x01 (pair w)

/-- RPT: the frame is checked whole, then its replays begin (R127); every replay is a step of its own. -/
def execRpt (n : BitVec 4) (r : BitVec 6) (d a b : BitVec 4) (s : State) : Out :=
  let q := { req0 (.rpt n r d a b) with flow := true }
  let rpts : Dword := BitVec.ofNat 64
    (2 ^ 15 + n.toNat * 2 ^ 16 + r.toNat * 2 ^ 20 + d.toNat * 2 ^ 26 + a.toNat * 2 ^ 30 + b.toNat * 2 ^ 34)
  begin q s fun s t th =>
    match s.fetchFrame t th (th.ctx.pc + 4) (n.toNat + 1) with
    | .fault code a y => raise (if th.rob = [] then y else s) t q code a
    | .wait s => .next (hold s t 15)
    | .words ws s =>
      match ws.findIdx? fun w => capturedCheck th rpts w == .illegal with
      | some i => if isExt (ws.getD i 0) then frameExt s t th ws i else raise s t q 0x01 ((ws.getD i 0).setWidth 64)
      | none =>
        if frameSplits th.ctx (th.ctx.pc + 4) ws.length then raise s t q 0x01 (BitVec.ofNat 64 q.word)
        else match ws.findSome? fun w => match capturedCheck th rpts w with
            | .window n => some n
            | _ => none with
          | some n => raise s t q 0x03 (BitVec.ofNat 64 n)
          | none => .next (finish s t (th.setCtx fun x => { x with rpts := rpts, frame := ws }) q (.to (th.ctx.pc + 4)))

/-! ### Formes (R129) -/

/-- DETACH (R22): it has no effect on the leader, a detached member, or in a forme of width 1. The leader sees the attach state,
so it changes once every earlier instruction has committed (R229; log 100, DEDUCED). -/
def execDetach (s : State) : Out := simple { req0 .detach with commit := true } s fun th => if th.attached then th.detach else th

/-- The detached members of a leader's slot that have not ended and are not away (R23, R129). -/
def State.detachedFrom (s : State) (th : Thread) : List Nat :=
  match mget s.work.formes th.forme with
  | none => []
  | some f => ((f.rankMates th.rank).map Prod.snd).filter fun h => h != th.home &&
      match s.thread? h with
      | some m => m.forme == th.forme && m.gone && m.away.isNone && !f.ended.contains h
      | none => false

/-- A member waits at a `join` with this id (R23). -/
def State.joinsAt (s : State) (id h : Nat) : Bool :=
  match s.thread? h with
  | some m => m.join == some id
  | none => false

/-- The home slot of the leader of the thread's rank, if its thread has not ended. -/
def State.leaderOf (s : State) (th : Thread) : Option Nat :=
  match mget s.work.formes th.forme with
  | none => none
  | some f => match f.tids[th.rank]? with
    | some h => if f.ended.contains h then none else some h
    | none => none

/-- The members that waited at the leader's `join` re-attach: each has passed its `join`, and the next multicast word is
the first it executes (R23). -/
def State.reattach (s : State) (th : Thread) (pc : Dword) : State :=
  (s.detachedFrom th).foldl (fun s h => s.modThread h fun m =>
    let x := advance m.counted.ctx false .seq
    { m with det := false, join := none, cause := none, ribbon := [], lead := none, ctx := { x with pc := pc } }) s

/-- JOIN (R23, R129); a thread of no forme passes it (log 137, DESIGN CHOICE). (Log 36, DEDUCED.) (Log 100, DEDUCED.) -/
def execJoin (i : BitVec 7) (s : State) : Out :=
  let q := { req0 (.join i) with commit := true }
  begin q s fun s t th =>
    let width := match mget s.work.formes th.forme with | some f => f.f | none => 1
    let pass := Host.Outcome.next (finish s t { th with join := none } q .seq)
    if width = 1 ∨ th.guest then pass
    else if th.midx = 0 then
      if (s.detachedFrom th).all fun h => s.joinsAt i.toNat h then
        .next (finish (s.reattach th (advance th.ctx false .seq).pc) t { th with join := none } q .seq)
      else .next (hold (s.modThread t fun x => { x with join := some i.toNat }) t 12)
    else if !th.det then pass
    else match s.leaderOf th with
      | none => pass
      | some h =>
        match (s.thread? h).bind Thread.join with
        | some j =>
          if j = i.toNat then .next (hold (s.modThread t fun x => { x with join := some i.toNat }) t 12)
          else raise (s.modThread t fun x => { x with join := none }) t q 0x0D (BitVec.ofNat 64 (i.toNat + j * 2 ^ 8))
        | none => .next (hold (s.modThread t fun x => { x with join := some i.toNat }) t 12)

/-- FSTAT (R129). -/
def execFstat (d : BitVec 7) (s : State) : Out :=
  let q := reqD (.fstat d) d
  begin q s fun s t th => .next (finish s t (th.setS d (readCtl s t th 0x005)) q .seq)

/-- FIDX: the thread's index in its task (R129); 0 for a thread of no forme (log 119, DESIGN CHOICE). -/
def execFidx (d : BitVec 7) (s : State) : Out :=
  let q := reqD (.fidx d) d
  begin q s fun s t th =>
    let per := match mget s.work.formes th.forme with | some f => f.t | none => 0
    .next (finish s t (th.setS d (BitVec.ofNat 64 (th.midx * per + th.rank))) q .seq)

end Sys2Proof.Machine
end

