-- ==== Sys2Proof/Machine/Margin.lean ====
section
/-! DEFINITION. Sys2Proof/Machine/Margin.lean: the margin instructions (R130 to R132), `arm` and `dep` (R63, R133,
R134), and the margin unit (R183). -/

namespace Sys2Proof.Machine

/-- A slot of the launch snapshot (R130). -/
def State.snapSlot (s : State) (th : Thread) (k : Nat) : BitVec 128 :=
  match s.launchOf th with
  | some l => mgetD l.snapshot k 0
  | none => 0

def State.nslots (s : State) (th : Thread) : Nat := match s.launchOf th with | some l => l.nslots | none => 0

/-- The slot lies in a line of the snapshot that holds an uncorrectable error (R169). -/
def State.snapBad (s : State) (th : Thread) (k : Nat) : Bool := s.badBytes (sramLine 6 0 (th.launch * 65536 + k / 4)) (16 * (k % 4)) 16

/-- The address of a slot of the snapshot (R182). -/
def snapAddr (th : Thread) (k : Nat) : Dword := BitVec.ofNat 64 (snapLine th.launch + 16 * k)

/-- KIND, FLAGS.FROZEN, cost sum i and count i of a slot (R182). -/
def slotKind (m : BitVec 128) : Nat := nbits m 0 8
def slotFrozen (m : BitVec 128) : Bool := m.getLsbD 8
def slotSum (m : BitVec 128) (i : Nat) : Nat := nbits m (32 + 16 * i) 16
def slotCount (m : BitVec 128) (i : Nat) : Nat := nbits m (96 + 8 * i) 8

/-- Field `f` of a slot, as `mread` reads it (R130). -/
def marginField (m : BitVec 128) (f : Nat) : Dword :=
  if f = 0 then BitVec.ofNat 64 (nbits m 0 8)
  else if f = 1 then BitVec.ofNat 64 (nbits m 8 8)
  else if f ≤ 4 then BitVec.ofNat 64 (nbits m (32 * (f - 1)) 32)
  else if f ≤ 8 then BitVec.ofNat 64 (slotSum m (f - 5))
  else BitVec.ofNat 64 (slotCount m (f - 9))

/-- The variant of least mean cost among those before `n`, compared exactly; ties go to the lower (R131). -/
def leastMean (m : BitVec 128) (n : Nat) : Nat :=
  (List.range n).foldl (fun v i => if slotSum m i * slotCount m v < slotSum m v * slotCount m i then i else v) 0

/-- The choice of `pick` among `n` variants; a slot of KIND 0 reads as all zeros (R131). -/
def pickChoice (m : BitVec 128) (n : Nat) : Nat :=
  let m := if slotKind m = 0 then 0 else m
  match (List.range n).find? fun i => slotCount m i < 4 with
  | some i => i
  | none => leastMean m n

/-- PICK with its slot number (R130, R131). -/
def pickBy (q : Req) (d : BitVec 7) (n : BitVec 5) (slot : Nat) (s : State) : Out :=
  begin q s fun s t th =>
    if s.nslots th ≤ slot then raise s t q 0x06 (BitVec.ofNat 64 slot)
    else if s.snapBad th slot then raise s t q 0x07 (snapAddr th slot)
    else
      let m := s.snapSlot th slot
      if slotKind m ≠ 0 ∧ slotKind m ≠ 4 then .next (finish s t (th.setS d 0) q .seq)
      else
        let v := pickChoice m (n.toNat + 1)
        .next (finish s t ((th.setS d (BitVec.ofNat 64 v)).setCtx fun x =>
          { x with pick := some { slot := slot, variant := v, cycles := 0 } }) q .seq)

/-- PICK (R131). -/
def execPick (d : BitVec 7) (n : BitVec 5) (k : BitVec 12) (s : State) : Out :=
  pickBy { reqD (.pick d n k) d with legal := variantOk n } d n k.toNat s

/-- MREAD with its slot number (R130). -/
def mreadBy (q : Req) (d : BitVec 7) (f : BitVec 5) (slot : Nat) (s : State) : Out :=
  begin q s fun s t th =>
    if s.nslots th ≤ slot then raise s t q 0x06 (BitVec.ofNat 64 slot)
    else if s.snapBad th slot then raise s t q 0x07 (snapAddr th slot)
    else .next (finish s t (th.setS d (marginField (s.snapSlot th slot) f.toNat)) q .seq)

/-- MREAD (R130). -/
def execMread (d : BitVec 7) (f : BitVec 5) (k : BitVec 12) (s : State) : Out :=
  mreadBy { reqD (.mread d f k) d with legal := marginFieldOk f } d f k.toNat s

/-- MNOTE with its slot number: it completes the pending record of that slot (R132). -/
def mnoteBy (q : Req) (slot : Nat) (s : State) : Out :=
  begin q s fun s t th =>
    if s.nslots th ≤ slot then raise s t q 0x06 (BitVec.ofNat 64 slot)
    else match th.ctx.pick with
      | some p =>
        if p.slot = slot then
          .next (finish s t (th.setCtx fun x => { x with pick := none }) q .seq
            { Rob.none with site := some (th.PC q, .pick slot p.variant (Nat.min (p.cycles / 256) 65535)) })
        else .next (finish s t th q .seq)
      | none => .next (finish s t th q .seq)

/-- MNOTE (R132). -/
def execMnote (k : BitVec 12) (s : State) : Out := mnoteBy (req0 (.mnote k)) k.toNat s

/-! ### The margin unit (R183, R184) -/

/-- KIND of a site's slot. -/
def SiteRec.kind : SiteRec → Nat
  | .branch _ => 1
  | .load _ => 2
  | .loop _ => 3
  | .pick _ _ _ => 4

/-- A slot drops a record of another kind, and every record while it is frozen (R183, R324). -/
def dropsRecord (m : BitVec 128) (r : SiteRec) : Bool := slotKind m != r.kind || slotFrozen m

/-- A slot after a record is added to it (R183, R132). -/
def addRecord (m : BitVec 128) (r : SiteRec) : BitVec 128 :=
  if dropsRecord m r then m
  else
    let f1 := nbits m 32 32
    let f2 := nbits m 64 32
    let top := 0xFFFFFFFF
    match r with
    | .branch taken =>
      let k := if taken then 1 else 0
      if f2 = top then setBits (setBits m 64 32 0x80000000) 32 32 ((f1 + k) / 2)
      else setBits (setBits m 64 32 (f2 + 1)) 32 32 (f1 + k)
    | .load miss => setBits (setBits m 64 32 (Nat.min top (f2 + 1))) 32 32 (Nat.min top (f1 + if miss then 1 else 0))
    | .loop trip =>
      setBits (setBits (setBits m 64 32 (Nat.min top (f2 + 1))) 32 32 (Nat.min top (f1 + trip.toNat))) 96 32 (Nat.min top trip.toNat)
    | .pick _ v amount =>
      setBits (setBits m (32 + 16 * v) 16 (Nat.min 65535 (slotSum m v + amount))) (96 + 8 * v) 8 (Nat.min 255 (slotCount m v + 1))

/-- The image that a launch runs. -/
def State.imageOf (s : State) (l : Launch) : Option Image :=
  s.tables.images.find? fun i => i.tenant == l.tenant && i.imageId.toNat == l.part 8 8

/-- The margin slot of a site: the pick slot it names, or the tied slot of its place in the text (R324). -/
def siteSlot (i : Image) (base pc : Dword) (r : SiteRec) : Option Nat :=
  match r with
  | .pick k _ _ => some k
  | _ => i.sites.findIdx? fun e => BitVec.ofNat 64 (4 * e.2) == pc - base

/-- Change a slot of the live margin that a launch uses: its tenant's own, or the image's shared one (R405). -/
def State.modMargin (s : State) (l : Launch) (k : Nat) (f : BitVec 128 → BitVec 128) : State :=
  if l.shared then
    s.modTables fun x => { x with shared := mupd x.shared (l.part 8 8) [] fun m => mput m k (f (mgetD m k 0)) }
  else
    let up (i : Image) : Image :=
      if i.tenant = l.tenant ∧ i.imageId.toNat = l.part 8 8 then { i with live := mput i.live k (f (mgetD i.live k 0)) } else i
    s.modTables fun x => { x with images := x.images.map up }

/-- A slot of the live margin that a launch uses (R405). -/
def State.marginSlot (s : State) (l : Launch) (i : Image) (k : Nat) : BitVec 128 :=
  if l.shared then mgetD (mgetD s.tables.shared (l.part 8 8) []) k 0 else mgetD i.live k 0

/-- The map entry of a record that waited has been read, and is cached in the place of the oldest of 256 (R184; log 96, DEDUCED). -/
def State.cacheSite (s : State) (r : MRec) : State :=
  if r.waits then
    s.modCore r.core fun x =>
      { x with sites := (if 256 ≤ x.sites.length then x.sites.drop 1 else x.sites).filter (· != (r.launch, r.pc)) ++ [(r.launch, r.pc)] }
  else s

/-- MARGIN_RECORD: a record reaches the margin's home, or is dropped there (R183, R324). -/
def execMarginRecord (id : Nat) (s : State) : Out :=
  match s.flight.margins.find? fun r => r.id == id with
  | none => .next s
  | some r =>
    let s := (s.modFlight fun f => { f with margins := f.margins.filter fun x => x.id != id }).cacheSite r
    match s.launch? r.launch with
    | none => .next s
    | some l =>
      match s.imageOf l with
      | none => .next s
      | some i =>
        match siteSlot i l.textBase r.pc r.site with
        | none => .next s
        | some k =>
          if dropsRecord (s.marginSlot l i k) r.site then .next (s.countFor r.core r.who r.launch l.tenant 0x37 1)
          else .next (s.modMargin l k fun m => addRecord m r.site)

/-! ### Deposits (R63 to R66, R133, R134) -/

/-- ARM (R63, R133). -/
def execArm (d : BitVec 7) (s : State) : Out :=
  let q := reqD (.arm d) d
  begin q s fun s t th =>
    if th.shadowed d.toNat then raise s t q 0x01 (BitVec.ofNat 64 q.word)
    else if th.coming.any fun e => e.1 == d.toNat then .next (hold s t 10)
    else .next (finish s t (th.setCtx fun x => { x with armed := setBits x.armed d.toNat 1 1 }) q .seq)

/-- A packet of a launch on its way from a thread (R64, R269). -/
def packetFrom (s : State) (t : Nat) (th : Thread) (core slot k : Nat) (payload : Vec) : Packet :=
  { id := s.sched.nextId, launch := th.launch, tenant := th.tenant, srcCore := coreOf t, srcSlot := slotOf t, who := th.who,
    core := core, slot := slot, k := k, payload := payload }

/-- DEP: a deposit leaves for a neighbour (R134). -/
def execDep (d a b : BitVec 7) (s : State) : Out :=
  let q := { reqAB (.dep d a b) a b with commit := true, early := [.edge (some a) true] }
  begin q s fun s t th =>
    let core := nbits (th.S a) 0 9
    if !neighbours (coreOf t) core then raise s t q 0x06 (th.S a)
    else if s.edge (coreOf t) (some core) then .next (hold s t 5)
    else
      let p := packetFrom s t th core (nbits (th.S a) 16 6) d.toNat ((th.S b).setWidth 512)
      let s := ((s.modFlight fun f => { f with deposits := f.deposits ++ [p] }).newId).countSent (coreOf t) th.who th.launch 1
      .next (finish s t th q .seq)

end Sys2Proof.Machine
end

