-- ==== Sys2Proof/Machine/Flags.lean ====
section
/-! DEFINITION. Sys2Proof/Machine/Flags.lean: the floating-point flags and how an instruction raises them (R97). -/

namespace Sys2Proof.Machine

/-- Flags as FLG lays them out (R73). -/
abbrev Flg := BitVec 5
def flNV : Flg := 1
def flDZ : Flg := 2
def flOF : Flg := 4
def flUF : Flg := 8
def flNX : Flg := 16

/-- A flag if a condition holds. -/
def flIf (p : Bool) (f : Flg) : Flg := if p then f else 0

/-- The union of flags. -/
def flAll (fs : List Flg) : Flg := fs.foldl (· ||| ·) 0

/-- An instruction sets flags by ORing them in (R97). -/
def Thread.orFlags (th : Thread) (f : Flg) : Thread :=
  { th with ctx := { th.ctx with flg := th.ctx.flg ||| f.setWidth 64 } }

/-- RND.MODE (R73). -/
def Thread.rnd (th : Thread) : Nat := nbits th.ctx.rnd 0 3

/-- The rounding mode of a conversion: its override, or RND (R86). -/
def Thread.modeOf (th : Thread) (r : BitVec 3) : Nat := if r = 0 then th.rnd else r.toNat - 1

end Sys2Proof.Machine
end

