-- ==== Sys2Proof/Machine/Fp.lean ====
section
/-! DEFINITION. Sys2Proof/Machine/Fp.lean: the floating-point formats (R80), their rounding (R86 to R88) and their
arithmetic (R89 to R96, R143), exactly: a finite number is an integer times a power of two. -/

namespace Sys2Proof.Machine

/-- A floating-point format: fraction width, exponent width, bias; E4M3 has no infinity and one NaN per sign (R80). -/
structure Fmt where
  fb : Nat
  eb : Nat
  bias : Nat
  ocp : Bool
  deriving DecidableEq, Repr

def fmtF32 : Fmt := { fb := 23, eb := 8, bias := 127, ocp := false }
def fmtF16 : Fmt := { fb := 10, eb := 5, bias := 15, ocp := false }
def fmtBf16 : Fmt := { fb := 7, eb := 8, bias := 127, ocp := false }
def fmtE4m3 : Fmt := { fb := 3, eb := 4, bias := 7, ocp := true }
def fmtE5m2 : Fmt := { fb := 2, eb := 5, bias := 15, ocp := false }

def Fmt.width (f : Fmt) : Nat := 1 + f.eb + f.fb

/-- What the bits of a format stand for: a NaN, an infinity, or (-1)^neg * m * 2^e. -/
inductive Num where
  | nan (signalling : Bool)
  | inf (neg : Bool)
  | fin (neg : Bool) (m : Nat) (e : Int)
  deriving DecidableEq, Repr

/-- Bits to number (R80, R82). -/
def unpack (f : Fmt) (b : Nat) : Num :=
  let neg := field b (f.eb + f.fb) 1 == 1
  let e := field b f.fb f.eb
  let frac := field b 0 f.fb
  let top := 2 ^ f.eb - 1
  if f.ocp && e == top && frac == 2 ^ f.fb - 1 then .nan false
  else if !f.ocp && e == top then
    if frac = 0 then .inf neg else .nan (5 < f.fb && field frac (f.fb - 1) 1 == 0)
  else if e = 0 then .fin neg frac (1 - (f.bias : Int) - f.fb)
  else .fin neg (frac + 2 ^ f.fb) ((e : Int) - f.bias - f.fb)

/-- The canonical quiet NaN, a zero, an infinity and the largest finite value of a format (R82, R80). -/
def qnan (f : Fmt) : Nat :=
  if f.ocp then 2 ^ (f.eb + f.fb) - 1 else (2 ^ f.eb - 1) * 2 ^ f.fb + 2 ^ (f.fb - 1)
def signBit (f : Fmt) (neg : Bool) : Nat := if neg then 2 ^ (f.eb + f.fb) else 0
def infBits (f : Fmt) (neg : Bool) : Nat := signBit f neg + (2 ^ f.eb - 1) * 2 ^ f.fb
def maxBits (f : Fmt) (neg : Bool) : Nat :=
  signBit f neg + (if f.ocp then 2 ^ (f.eb + f.fb) - 2 else (2 ^ f.eb - 1) * 2 ^ f.fb - 1)

/-- Bit length of a number. -/
def bitLen (m : Nat) : Nat := if m = 0 then 0 else Nat.log2 m + 1

/-- An integer times a power of two, as a nonnegative integer, when the power may be negative the floor. -/
def scale2 (m : Nat) (k : Int) : Nat := if 0 ≤ k then m * 2 ^ k.toNat else m / 2 ^ (-k).toNat

/-- `m * 2^e` rounded by the mode to a multiple of `2^q`, in units of that multiple, and whether it is exact (R86). -/
def roundAt (mode : Nat) (neg : Bool) (m : Nat) (e q : Int) : Nat × Bool :=
  if q ≤ e then (m * 2 ^ (e - q).toNat, true)
  else
    let k := (q - e).toNat
    -- beyond its bit length the number lies below half a unit
    let k := Nat.min k (bitLen m + 2)
    let n := m / 2 ^ k
    let r := m % 2 ^ k
    let half := 2 ^ (k - 1)
    if r = 0 then (n, true)
    else
      let up := match mode with
        | 0 => decide (half < r) || (r == half && n % 2 == 1)
        | 1 => false
        | 2 => !neg
        | 3 => neg
        | _ => decide (half ≤ r)
      (if up then n + 1 else n, false)

/-- The result of an overflow (R87). -/
def overflow (f : Fmt) (mode : Nat) (sat neg : Bool) : Nat × Flg :=
  if sat then (maxBits f neg, flOF ||| flNX)
  else if f.ocp then (qnan f, flOF ||| flNX ||| flNV)
  else
    let toMax := mode == 1 || (mode == 2 && neg) || (mode == 3 && !neg)
    (if toMax then maxBits f neg else infBits f neg, flOF ||| flNX)

/-- The rounding of R88: bits of the format, and the flags raised. -/
def roundTo (f : Fmt) (mode : Nat) (sat : Bool) (x : Num) : Nat × Flg :=
  match x with
  | .nan sig => (qnan f, flIf sig flNV)
  | .inf neg =>
    if sat then (maxBits f neg, flOF ||| flNX)
    else if f.ocp then (qnan f, flNV)
    else (infBits f neg, 0)
  | .fin neg m e =>
    if m = 0 then (signBit f neg, 0)
    else
      let emin : Int := 1 - (f.bias : Int)
      let top : Int := e + bitLen m - 1
      let q : Int := (if top < emin then emin else top) - f.fb
      let r := roundAt mode neg m e q
      let maxq : Int := (if f.ocp then (f.bias : Int) + 1 else f.bias) - f.fb
      let maxn := if f.ocp then 2 ^ (f.fb + 1) - 2 else 2 ^ (f.fb + 1) - 1
      let huge := decide (maxq < q) || (q == maxq && maxn < r.1)
      if huge then overflow f mode sat neg
      else
        let t := roundAt mode neg m e (top - f.fb)
        let tiny := decide (top < emin) && decide (t.1 < 2 ^ (emin - (top - f.fb)).toNat)
        let flags := flIf (!r.2) flNX ||| flIf (!r.2 && tiny) flUF
        let bits :=
          if r.1 < 2 ^ f.fb then r.1
          else if r.1 = 2 ^ (f.fb + 1) then (q + 1 + f.fb + f.bias).toNat * 2 ^ f.fb
          else (q + f.fb + f.bias).toNat * 2 ^ f.fb + (r.1 - 2 ^ f.fb)
        (signBit f neg + bits, flags)

def Num.isSig : Num → Bool
  | .nan s => s
  | _ => false
def Num.isNan : Num → Bool
  | .nan _ => true
  | _ => false
def Num.isZero : Num → Bool
  | .fin _ m _ => m == 0
  | _ => false
def Num.isInf : Num → Bool
  | .inf _ => true
  | _ => false
def Num.neg : Num → Bool
  | .nan _ => false
  | .inf n => n
  | .fin n _ _ => n
def Num.negate : Num → Num
  | .nan s => .nan s
  | .inf n => .inf (!n)
  | .fin n m e => .fin (!n) m e

/-- A signed integer times a power of two. -/
def dyadic (i : Int) (e : Int) : Num := .fin (decide (i < 0)) i.natAbs e
def Num.mant : Num → Int
  | .fin n m _ => if n then -(m : Int) else m
  | _ => 0
def Num.exp : Num → Int
  | .fin _ _ e => e
  | _ => 0

/-- The canonical NaN with the flags of its causes. -/
def nanWith (f : Fmt) (fl : Flg) : Nat × Flg := (qnan f, fl)

/-- The exact sum of two finite numbers; an exact zero takes its sign by R89. -/
def finAdd (mode : Nat) (x y : Num) : Num :=
  let e := if x.exp ≤ y.exp then x.exp else y.exp
  let a := x.mant * 2 ^ (x.exp - e).toNat
  let b := y.mant * 2 ^ (y.exp - e).toNat
  if a + b = 0 then
    .fin (if x.isZero && y.isZero && x.neg == y.neg then x.neg else mode == 3) 0 0
  else dyadic (a + b) e

/-- x + y (R89, R91), with the flags raised before rounding. -/
def exactAdd (mode : Nat) (x y : Num) : Num × Flg :=
  let sig := flIf (x.isSig || y.isSig) flNV
  if x.isNan || y.isNan then (.nan false, sig)
  else match x, y with
  | .inf a, .inf b => if a == b then (.inf a, 0) else (.nan false, flNV)
  | .inf a, _ => (.inf a, 0)
  | _, .inf b => (.inf b, 0)
  | _, _ => (finAdd mode x y, 0)

/-- x * y (R89, R91). -/
def exactMul (x y : Num) : Num × Flg :=
  let sig := flIf (x.isSig || y.isSig) flNV
  let neg := x.neg != y.neg
  if x.isNan || y.isNan then (.nan false, sig)
  else if (x.isInf && y.isZero) || (x.isZero && y.isInf) then (.nan false, flNV)
  else if x.isInf || y.isInf then (.inf neg, 0)
  else match x, y with
  | .fin _ m e, .fin _ n d => (.fin neg (m * n) (e + d), 0)
  | _, _ => (.nan false, 0)

/-- Round what an exact operation gave. -/
def rounded (f : Fmt) (mode : Nat) (r : Num × Flg) : Nat × Flg :=
  let y := roundTo f mode false r.1
  (y.1, y.2 ||| r.2)

def fpAdd (f : Fmt) (mode : Nat) (x y : Num) : Nat × Flg := rounded f mode (exactAdd mode x y)
/-- A difference is the sum with `y` negated, the sign of a zero included (R89, R91, R142; log 135, DESIGN CHOICE). -/
def fpSub (f : Fmt) (mode : Nat) (x y : Num) : Nat × Flg := rounded f mode (exactAdd mode x y.negate)
def fpMul (f : Fmt) (mode : Nat) (x y : Num) : Nat × Flg := rounded f mode (exactMul x y)
/-- x * y + z with one rounding (R91). -/
def fpFma (f : Fmt) (mode : Nat) (x y z : Num) : Nat × Flg :=
  let p := exactMul x y
  let r := exactAdd mode p.1 z
  rounded f mode (r.1, p.2 ||| r.2)

/-- A number known to lie strictly between m and m + 1 units of 2^e, or at m if exact. -/
def between (neg : Bool) (m : Nat) (e : Int) (exact : Bool) : Num :=
  .fin neg (2 * m + if exact then 0 else 1) (e - 1)

/-- x / y (R91). -/
def fpDiv (f : Fmt) (mode : Nat) (x y : Num) : Nat × Flg :=
  let neg := x.neg != y.neg
  if x.isNan || y.isNan then (qnan f, flIf (x.isSig || y.isSig) flNV)
  else if (x.isInf && y.isInf) || (x.isZero && y.isZero) then (qnan f, flNV)
  else if x.isInf then (infBits f neg, 0)
  else if y.isInf then (signBit f neg, 0)
  else if y.isZero then (infBits f neg, flDZ)
  else match x, y with
  | .fin _ m e, .fin _ n d =>
    let k := 64 + bitLen n
    let q := m * 2 ^ k / n
    roundTo f mode false (between neg q (e - d - k) (m * 2 ^ k % n == 0))
  | _, _ => (qnan f, 0)

/-- The integer square root, bit by bit from bit `k - 1` down. -/
def isqrtFrom (n r : Nat) : Nat → Nat
  | 0 => r
  | k + 1 => if (r + 2 ^ k) * (r + 2 ^ k) ≤ n then isqrtFrom n (r + 2 ^ k) k else isqrtFrom n r k
def isqrt (n : Nat) : Nat := isqrtFrom n 0 (bitLen n / 2 + 1)

/-- The square root (R91). -/
def fpSqrt (f : Fmt) (mode : Nat) (x : Num) : Nat × Flg :=
  match x with
  | .nan s => (qnan f, flIf s flNV)
  | .inf n => if n then (qnan f, flNV) else (infBits f false, 0)
  | .fin n m e =>
    if m = 0 then (signBit f n, 0)
    else if n then (qnan f, flNV)
    else
      let odd := e % 2 != 0
      let m1 := (if odd then 2 * m else m) * 2 ^ 80
      let e1 := (if odd then e - 1 else e) - 80
      let r := isqrt m1
      roundTo f mode false (between false r (e1 / 2) (r * r == m1))

/-- 1 / x (R143). -/
def fpRcp (f : Fmt) (mode : Nat) (x : Num) : Nat × Flg :=
  if x.isZero then (infBits f x.neg, flDZ) else fpDiv f mode (.fin false 1 0) x

/-- 1 / sqrt x (R143). -/
def fpRsq (f : Fmt) (mode : Nat) (x : Num) : Nat × Flg :=
  match x with
  | .nan s => (qnan f, flIf s flNV)
  | .inf n => if n then (qnan f, flNV) else (0, 0)
  | .fin n m e =>
    if m = 0 then (infBits f n, flDZ)
    else if n then (qnan f, flNV)
    else
      let odd := e % 2 != 0
      let m1 := if odd then 2 * m else m
      let e1 := if odd then e - 1 else e
      let k := 80 + bitLen m1
      let r := isqrt (2 ^ (2 * k) / m1)
      roundTo f mode false (between false r (-(e1 / 2) - k) (r * r * m1 == 2 ^ (2 * k)))

/-- Bits of the fixed-point numbers that exp2 and log2 are computed in: far beyond what their rounding can need, since
2^x and log2 x of a finite x of these formats are irrational or exact. -/
def fxBits : Nat := 320

/-- ln 2 in fixed point: the sum of 1 / (k 2^k). -/
def ln2From (acc k : Nat) : Nat → Nat
  | 0 => acc
  | n + 1 => ln2From (acc + 2 ^ (fxBits + 64) / (k * 2 ^ k)) (k + 1) n
def fxLn2 : Nat := ln2From 0 1 (fxBits + 64) / 2 ^ 64

/-- e^y for a fixed-point y below 1, by its series. -/
def expFrom (y term acc k : Nat) : Nat → Nat
  | 0 => acc
  | n + 1 =>
    let t := term * y / 2 ^ fxBits / k
    expFrom y t (acc + t) (k + 1) n
def fxExp (y : Nat) : Nat := expFrom y (2 ^ fxBits) (2 ^ fxBits) 1 90

/-- 2^x (R143). -/
def fpExp2 (f : Fmt) (mode : Nat) (x : Num) : Nat × Flg :=
  match x with
  | .nan s => (qnan f, flIf s flNV)
  | .inf n => (if n then 0 else infBits f false, 0)
  | .fin n m e =>
    if m = 0 then roundTo f mode false (.fin false 1 0)
    else if 0 ≤ e ∨ 2 ^ 11 ≤ scale2 m e then
      let i : Int := Nat.min (scale2 m (if e ≤ 32 then e else 32)) (2 ^ 12)
      let exact := decide (0 ≤ e)
      roundTo f mode false (between false 1 (if n then -i else i) exact)
    else
      let unit : Nat := 2 ^ (-e).toNat
      let v : Int := if n then -(m : Int) else m
      let i := v / (unit : Int)
      let frac := (v % (unit : Int)).toNat
      if frac = 0 then roundTo f mode false (.fin false 1 i)
      else
        let y := fxExp (frac * fxLn2 / unit)
        roundTo f mode false (between false (y / 2 ^ (fxBits - 280)) (i - 280) false)

/-- Bits of log2 of a fixed-point number in [1, 2), most significant first, by repeated squaring. -/
def log2Bits (y acc : Nat) : Nat → Nat
  | 0 => acc
  | n + 1 =>
    let z := y * y / 2 ^ fxBits
    if 2 ^ (fxBits + 1) ≤ z then log2Bits (z / 2) (2 * acc + 1) n else log2Bits z (2 * acc) n

/-- log2 x (R143). -/
def fpLog2 (f : Fmt) (mode : Nat) (x : Num) : Nat × Flg :=
  match x with
  | .nan s => (qnan f, flIf s flNV)
  | .inf n => if n then (qnan f, flNV) else (infBits f false, 0)
  | .fin n m e =>
    if m = 0 then (infBits f true, flDZ)
    else if n then (qnan f, flNV)
    else
      let l := bitLen m - 1
      let i : Int := e + l
      if m = 2 ^ l then roundTo f mode false (dyadic i 0)
      else
        let t := log2Bits (m * 2 ^ fxBits / 2 ^ l) 0 130
        let v : Int := i * 2 ^ 130 + t
        if 0 ≤ v then roundTo f mode false (between false v.toNat (-130) false)
        else roundTo f mode false (between true (-v - 1).toNat (-130) false)

/-- x < y and x = y; false with a NaN (R92). -/
def numLt (x y : Num) : Bool :=
  match x, y with
  | .nan _, _ => false
  | _, .nan _ => false
  | .inf a, .inf b => a && !b
  | .inf a, _ => a
  | _, .inf b => !b
  | _, _ =>
    let e := if x.exp ≤ y.exp then x.exp else y.exp
    decide (x.mant * 2 ^ (x.exp - e).toNat < y.mant * 2 ^ (y.exp - e).toNat)
def numEq (x y : Num) : Bool := !x.isNan && !y.isNan && !numLt x y && !numLt y x

/-- The order of vfmin and vfmax on numbers: −0 below +0 (R92). -/
def numBelow (x y : Num) : Bool := numLt x y || (x.isZero && y.isZero && x.neg && !y.neg)

/-- vfmin and vfmax on the bits of a format (R92). -/
def fpMinMax (f : Fmt) (takeMax : Bool) (a b : Nat) : Nat × Flg :=
  let x := unpack f a
  let y := unpack f b
  let fl := flIf (x.isSig || y.isSig) flNV
  if x.isNan && y.isNan then (qnan f, fl)
  else if x.isNan then (b, fl)
  else if y.isNan then (a, fl)
  else if takeMax then (if numBelow x y then b else a, fl)
  else (if numBelow y x then b else a, fl)

/-- The sign operations vfabs and vfneg on the bits of a format (R144). -/
def fpSign (f : Fmt) (abs : Bool) (a : Nat) : Nat × Flg :=
  match unpack f a with
  | .nan s => (qnan f, flIf s flNV)
  | _ =>
    let top := 2 ^ (f.eb + f.fb)
    (if abs then a % top else (a + top) % (2 * top), 0)

/-- A conversion between floating-point formats (R93): widening is exact and takes no saturation. -/
def fpConvert (src dst : Fmt) (mode : Nat) (sat : Bool) (a : Nat) : Nat × Flg := roundTo dst mode sat (unpack src a)

/-- A two's complement integer of 32 bits to f32 (R93). -/
def i32ToF32 (mode : Nat) (a : Nat) : Nat × Flg := roundTo fmtF32 mode false (dyadic (signedOf a 32) 0)

/-- f32 to a two's complement integer of 32 bits (R94). -/
def f32ToI32 (mode : Nat) (a : Nat) : Nat × Flg :=
  match unpack fmtF32 a with
  | .nan _ => (0, flNV)
  | .inf n => (if n then 0x80000000 else 0x7FFFFFFF, flNV)
  | .fin n m e =>
    let big := decide (40 < e + bitLen m)
    let r := if big then (2 ^ 40, true) else roundAt mode n m e 0
    if n then (if 2 ^ 31 < r.1 then (0x80000000, flNV) else ((2 ^ 32 - r.1) % 2 ^ 32, flIf (!r.2) flNX))
    else if 2 ^ 31 ≤ r.1 then (0x7FFFFFFF, flNV) else (r.1, flIf (!r.2) flNX)

/-! ### The q4 family (R83 to R85, R95, R96) -/

/-- The magnitude that index `i` of a type stands for, in eighths (R84). -/
def q4Mag (t i : Nat) : Nat := match t with
  | 1 => [0, 4, 8, 12, 16, 24, 32, 48].getD i 0
  | 2 => [0, 1, 2, 4, 8, 16, 32, 64].getD i 0
  | _ => [0, 8, 16, 24, 32, 48, 64, 128].getD i 0

/-- The value of a code of type `t`, in eighths (R84). -/
def q4Value (t c : Nat) : Int :=
  if t = 0 then signedOf c 4 * 8
  else if 8 ≤ c then -(q4Mag t (c - 8) : Int) else q4Mag t c

/-- The scale byte: its type and exponent (R83). -/
def q4Type (sb : Nat) : Nat := field sb 6 2
def q4Exp (sb : Nat) : Nat := field sb 0 6

/-- An element of a block as a number (R84). -/
def q4Num (sb c : Nat) : Num :=
  if q4Exp sb = 63 then .nan false else dyadic (q4Value (q4Type sb) c) ((q4Exp sb : Int) - 32 - 3)

/-- q4unpk of one element (R96). -/
def q4ToF32 (sb c : Nat) : Nat := (roundTo fmtF32 0 false (q4Num sb c)).1

/-- TOP of a type (R95). -/
def q4Top (t : Nat) : Nat := match t with
  | 0 => 7
  | 1 => 6
  | 2 => 8
  | _ => 16

/-- The magnitude codes of a type between which a magnitude is rounded: index and value in eighths, ascending. -/
def q4Steps (t : Nat) (neg : Bool) : List (Nat × Nat) :=
  if t = 0 then (List.range (if neg then 9 else 8)).map fun i => (i, 8 * i) else (List.range 8).map fun i => (i, q4Mag t i)

/-- The rounded magnitude index of |q| = m * 2^e eighths (R95, R86): the neighbours, then the mode's choice. -/
def q4Round (mode : Nat) (neg : Bool) (steps : List (Nat × Nat)) (m : Nat) (e : Int) : Nat :=
  let k := Nat.min (-e).toNat (bitLen m + 8)
  let below := steps.filter fun x => if 0 ≤ e then x.2 ≤ scale2 m e else x.2 * 2 ^ k ≤ m
  let lo := below.getLastD (0, 0)
  match steps.find? fun x => lo.1 < x.1 with
  | none => lo.1
  | some hi =>
    let num := if 0 ≤ e then scale2 m e else m
    let one := if 0 ≤ e then 1 else 2 ^ k
    if num = lo.2 * one then lo.1
    else
      let d := num - lo.2 * one
      let u := hi.2 * one - num
      match mode with
      | 0 => if d < u then lo.1 else if u < d then hi.1 else if lo.1 % 2 = 0 then lo.1 else hi.1
      | 1 => lo.1
      | 2 => if neg then lo.1 else hi.1
      | 3 => if neg then hi.1 else lo.1
      | _ => if d < u then lo.1 else hi.1

/-- The smallest E at or above `k` with M <= TOP * 2^(E-32), among `n` candidates; 63 if there is none (R95). -/
def q4FindE (top m : Nat) (e : Int) (k : Nat) : Nat → Nat
  | 0 => 63
  | n + 1 =>
    let d : Int := (k : Int) - 32 - e
    let fits := if 0 ≤ d then m ≤ top * 2 ^ d.toNat else bitLen m + (-d).toNat ≤ bitLen top + 1 && m * 2 ^ (-d).toNat ≤ top
    if fits then k else q4FindE top m e (k + 1) n

/-- The largest finite magnitude of a list. -/
def maxMag (xs : List Num) : Nat × Int :=
  xs.foldl (fun acc x => match x with
    | .fin _ m e => if numLt (.fin false acc.1 acc.2) (.fin false m e) then (m, e) else acc
    | _ => acc) (0, 0)

/-- One code of q4enc with exponent field `E`, and its flags (R95). -/
def q4Code (t mode E : Nat) (x : Num) : Nat × Flg :=
  match x with
  | .nan _ => (0, 0)
  | .inf neg => (if t = 0 then (if neg then 8 else 7) else if neg then 15 else 7, flOF ||| flNX)
  | .fin neg m e =>
    let steps := q4Steps t neg
    let e8 : Int := e - ((E : Int) - 32) + 3
    let lim := (steps.getLastD (0, 0)).2
    let beyond := numLt (.fin false lim 0) (.fin false m e8)
    let i := if beyond then (steps.getLastD (0, 0)).1 else q4Round mode neg steps m e8
    let v := ((steps.find? fun y => y.1 == i).getD (0, 0)).2
    let exact := numEq (.fin false v 0) (.fin false m e8)
    let code := if i = 0 then 0 else if t = 0 then (if neg then 16 - i else i) else if neg then 8 + i else i
    (code, flIf beyond flOF ||| flIf (!exact) flNX ||| flIf (m != 0 && v == 0) flUF)

/-- q4enc of a block of 32 numbers: codes, scale byte, flags (R95). A block that returns early with E = 63 keeps T in bits 7:6 of its scale
byte (log 118, DEDUCED). -/
def q4enc (xs : List Num) (t mode : Nat) (sat : Bool) : List Nat × Nat × Flg :=
  let none := xs.map fun _ => 0
  if xs.any Num.isNan then (none, t * 64 + 63, flIf (xs.any Num.isSig) flNV)
  else if xs.any Num.isInf && !sat then (none, t * 64 + 63, flNV)
  else
    let big := maxMag xs
    let E := if big.1 = 0 then 0 else q4FindE (q4Top t) big.1 big.2 0 63
    if 62 < E && !sat then (none, t * 64 + 63, flOF ||| flNX)
    else
      let E := Nat.min E 62
      let cs := xs.map fun x => q4Code t mode E x
      (cs.map Prod.fst, t * 64 + E, flAll (cs.map Prod.snd))

end Sys2Proof.Machine
end

