-- ==== Sys2Proof/Machine/Notify.lean ====
section
/-! DEFINITION. Sys2Proof/Machine/Notify.lean: hardware's own accesses to a tenant's memory, and the notification
queues (R257 to R259, R368). -/

namespace Sys2Proof.Machine

/-- An address of the global window as hardware reaches it for a tenant: the physical address, the key and the block
entry, or the fault code. -/
inductive Reach where
  | at_ (pa key : Nat) (blk : Option Nat)
  | fault (code : Nat)
  deriving DecidableEq, Repr

/-- Where a leaf or cached translation puts an address, for an access (R228 steps 4 and 5). -/
def State.leafReach (s : State) (e : Dword) (base va acc : Nat) : Reach :=
  if !permits e acc then .fault 0x06
  else if pteBlock e then
    let a := ptePfn e + 16 * (field va 16 14)
    let b := s.blk a
    if !s.blkLive b then .fault 0x05
    else if !s.keyValid (blkKey b) then .fault 0x06
    else .at_ (blkBase b + va % 65536) (blkKey b) (some a)
  else if !s.keyValid (pteKey e) then .fault 0x06
  else .at_ (ptePfn e + (va - base)) (pteKey e) none

/-- A walk's answer for an access of hardware (R164, R165). -/
def State.reach (s : State) (tenant va acc : Nat) : Reach :=
  if 2 ^ 52 ≤ va then .fault 0x06
  else match s.walk tenant va with
    | .fault code => .fault code
    | .leaf e base _ => s.leafReach e base va acc

/-- An engine's translation: a cached one of its core or cluster, else a walk (R164). -/
def State.reachFrom (s : State) (c tenant va acc : Nat) : Reach :=
  if 2 ^ 52 ≤ va then .fault 0x06
  else match tlbHit (s.core c).tlb tenant va with
    | some x => s.leafReach x.pte x.base va acc
    | none => match tlbHit (s.cluster (clusterOf c)).l2tlb tenant va with
      | some x => s.leafReach x.pte x.base va acc
      | none => s.reach tenant va acc

/-- How a write through a block entry is met (R177, R317). -/
inductive BlockWrite where
  | inPlace (s : State)
  | held (s : State)
  | full
  deriving Repr

/-- A copy on write of this entry waits in the migration queue of some die. -/
def State.cowQueued (s : State) (a : Nat) : Option Nat :=
  (s.dies.find? fun d => d.2.migQ.any fun m => m.entry == a && m.cow).map Prod.fst

/-- The die recorded for the block of an entry (R256). -/
def State.blockDie (s : State) (a : Nat) : Nat := mgetD s.tables.bdie (blkBase (s.blk a) / 65536) 0

/-- Join the writers that a queued migration of an entry holds. -/
def State.joinWaiters (s : State) (d a w : Nat) : State :=
  s.modDie d fun x => { x with migQ := x.migQ.map fun m => if m.entry = a ∧ !m.waiters.contains w then { m with waiters := m.waiters ++ [w] } else m }

/-- A write of a writer on die `d` through the entry at `a` (R177 to R179): in place, setting DIRTY and, with count 1,
clearing COW; or held behind a copy. -/
def State.blockWrite (s : State) (d a va tenant w : Nat) : BlockWrite :=
  let e := s.blk a
  if blkWb e then
    match s.dies.find? fun x => x.2.migQ.any fun m => m.entry == a && m.state != .queued with
    | some x => .held (s.joinWaiters x.1 a w)
    | none => .held s
  else if blkCow e && 1 < s.blkCount (blkBase e) then
    match s.cowQueued a with
    | some x => .held (s.joinWaiters x a w)
    | none =>
      if 64 ≤ (s.die d).migQ.length then .full
      else
        let m : Mig := { id := s.sched.nextId, cow := true, entry := a, va := va, tenant := tenant, die := d, tier := blkTier e,
                         tag := 0, state := .queued, newBlk := 0, oldBlk := 0, waiters := [w] }
        .held (s.newId.modDie d fun x => { x with migQ := x.migQ ++ [m] })
  else .inPlace (s.setBlk a (setBits (setBits e 125 1 0) 123 1 1))

/-- Read bytes of a tenant's memory at their home, or of a peer's if the address lies in a window (R388); all lie in one line. A
peer that never answers gives none (log 110, DESIGN CHOICE). (Log 51, DESIGN CHOICE.) -/
def State.hwRead (s : State) (tenant va n : Nat) : Option (List Byte) :=
  match s.reach tenant va 0 with
  | .at_ pa key _ => (match peerOf pa with
    | some w => if !s.mute w && s.peerAllows w (pa % 2 ^ 41) n 0 then some (lineBytes (Config.peerBytes w (pa % 2 ^ 41) s.sched.fresh) 0 n) else none
    | none => if s.badAt pa n then none else some (s.homeView pa n key))
  | .fault _ => none

/-- A read of a tenant's memory by hardware goes to a peer that the egress list does not name: the port drops and counts it (R391). -/
def State.hwSent (s : State) (tenant va : Nat) : State := match s.reach tenant va 0 with
  | .at_ pa _ _ => (match peerOf pa with
    | some w => if s.mute w then s.unheard (readKey w (pa % 2 ^ 41)) else s
    | none => s)
  | .fault _ => s

/-- What became of a write by hardware. -/
inductive HwWrite where
  | done (s : State)
  /-- A block is being copied, or is to be: the state has its copy on write queued (R177, R178). -/
  | wait (s : State)
  | fault
  deriving Repr

/-- The state after a write, or without it. -/
def HwWrite.orElse (s : State) : HwWrite → State
  | .done y => y
  | .wait y => y
  | .fault => s

/-- A write of hardware to an address of a tenant's memory has to wait for its block: the state in which the copy that it waits for is
queued, on the block's recorded die (R177, R178; log 108, DESIGN CHOICE). -/
def State.hwHeld (s : State) (tenant va : Nat) : Option State :=
  match s.reach tenant va 1 with
  | .at_ _ _ (some a) => (match s.blockWrite (s.blockDie a) a va tenant nobody with
    | .inPlace _ => none
    | .held y => some y
    | .full => some s)
  | _ => none

/-- Bytes of one line are written for no thread by a unit of die `d`, at their home or through a peer window (R388). -/
def State.writeBytes (s : State) (d key pa va : Nat) (bs : List Byte) : State := match peerOf pa with
  | some w =>
    let p : PeerOp := { id := s.sched.nextId, tid := nobody, core := 0, launch := 0, window := w, writes := place (pa % 2 ^ 41) bs,
                        counted := false, who := nobody, va := va }
    (s.modFlight fun f => { f with peers := f.peers ++ [p] }).newId
  | none => s.performWrite nobody d key (place pa bs)

/-- Write bytes of a tenant's memory for the I/O die, at their home or through a peer window (R388); all lie in one line, which is
zeroed first if that is still due (R166). (Log 51, DESIGN CHOICE.) -/
def State.hwWrite (s : State) (tenant va : Nat) (bs : List Byte) : HwWrite :=
  match s.hwHeld tenant va with
  | some y => .wait y
  | none => match s.reach tenant va 1 with
  | .at_ pa key blk =>
    let s := match (peerOf pa).isNone, blk with
      | true, some a => s.setBlk a (setBits (setBits (s.blk a) 125 1 0) 123 1 1)
      | _, _ => s
    .done ((if (peerOf pa).isSome then s else s.zeroNow (pa / 64)).writeBytes 4 key pa va bs)
  | .fault _ => .fault

/-- A record is written while a thread of the tenant on a core is in the upcall state: that core's queue gets one NOTICE
entry (R368). -/
def State.notice (s : State) (tenant : Nat) : State :=
  let up (c : Nat) (x : Core) : Core :=
    let waits := s.threads.any fun e => coreOf e.1 == c && e.2.tenant == tenant && e.2.inUpcall
    if waits then
      { x with sups := mmod x.sups tenant fun u =>
          if u.notice then u else { u with notice := true, queue := u.queue ++ [{ slot := 0, kind := 1, code := 0 }] } }
    else x
  { s with cores := s.cores.map fun e => (e.1, up e.1 e.2) }

/-- The 32 bytes of a record (R257). -/
def noteBytes (n : Note) (dropped seq : Nat) : List Byte :=
  bytesOf n.kind 2 ++ bytesOf n.die 1 ++ bytesOf n.status 1 ++ bytesOf dropped 4 ++ bytesOf seq 8 ++
    bytesOf n.p0.toNat 8 ++ bytesOf n.p1.toNat 8

/-- What became of a record. -/
inductive Posting where
  | written (s : State)
  | full
  /-- The memory of its place cannot be written yet. -/
  | wait (s : State)
  /-- No record can be written there; the state has a read that the port dropped. -/
  | lost (s : State)
  deriving Repr

/-- Write record `seq` of the queue at `base` if it has room (R258). -/
def State.writeNote (s : State) (tenant : Nat) (base : Dword) (seq dropped : Nat) (n : Note) : Posting :=
  match s.hwRead tenant (base.toNat + 32768) 8 with
  | none => .lost (s.hwSent tenant (base.toNat + 32768))
  | some bs =>
    if 1024 < (seq + 2 ^ 64 - ofBytes bs) % 2 ^ 64 then .full
    else match s.hwWrite tenant (base.toNat + 32 * ((seq - 1) % 1024)) (noteBytes n dropped seq) with
      | .done s => .written (s.notice tenant).tick
      | .wait s => .wait s
      | .fault => .lost s

/-- Write a record into the tier queue: a full queue drops it, and the next record says how many; none while its memory cannot be written
(R258). -/
def State.writeTier (s : State) (tenant : Nat) (x : Tenant) (n : Note) : Except State State :=
  match s.writeNote tenant x.tnqb (x.tq.seq + 1) x.tq.dropped n with
  | .written s => .ok (s.modTenant tenant fun x => { x with tq := { seq := x.tq.seq + 1, dropped := 0 } })
  | .full => .ok (s.modTenant tenant fun x => { x with tq := { x.tq with dropped := x.tq.dropped + 1 } })
  | .wait s => .error s
  | .lost s => .ok (s.modTenant tenant fun x => { x with lost := x.lost + 1 })

/-- Post a record to the tier queue; one that waits for its memory goes in before the later ones (R258). -/
def State.postTier (s : State) (tenant : Nat) (n : Note) : State :=
  match s.tenant? tenant with
  | none => s
  | some x =>
    let later (s : State) : State := s.modTenant tenant fun x => { x with tierWait := x.tierWait ++ [n] }
    if !x.tierWait.isEmpty then later s
    else match s.writeTier tenant x n with
    | .ok y => y
    | .error y => later y

/-- The oldest tier record that waits is written if it can be (R258). -/
def State.tierTurn (s : State) (tenant : Nat) : State :=
  match s.tenant? tenant with
  | none => s
  | some x =>
    match x.tierWait with
    | [] => s
    | n :: rest => match s.writeTier tenant x n with
      | .ok y => y.modTenant tenant fun x => { x with tierWait := rest }
      | .error y => y

/-- A fault record waits at the I/O die for its place in the queue (R258). -/
def State.postFault (s : State) (tenant : Nat) (n : Note) : State :=
  s.modTenant tenant fun x => { x with waiting := x.waiting ++ [n] }

/-- Room for one more waiting fault record (R258). -/
def State.faultRoom (s : State) (tenant : Nat) : Bool :=
  match s.tenant? tenant with
  | some x => x.waiting.length < 16
  | none => true

/-- NOTIFICATION_RECORD: the oldest waiting fault record is written if the queue has room, and a tier record that waits for its memory
(R258). -/
def execNotificationRecord (tenant : Nat) (s : State) : Out :=
  let s := s.tierTurn tenant
  match s.tenant? tenant with
  | none => .next s
  | some x =>
    match x.waiting with
    | [] => .next s
    | n :: _ =>
      let drop (s : State) (f : Tenant → Tenant) : State := s.modTenant tenant fun y => f { y with waiting := y.waiting.drop 1 }
      match s.writeNote tenant x.fnqb (x.fq.seq + 1) 0 n with
      | .written s => .next (drop s fun y => { y with fq := { y.fq with seq := y.fq.seq + 1 } })
      | .full => .next s
      | .wait y => .next y
      | .lost s => .next (drop s fun y => { y with lost := y.lost + 1 })

end Sys2Proof.Machine
end

