-- ==== Sys2Proof/Machine/Block.lean ====
section
/-! DEFINITION. Sys2Proof/Machine/Block.lean: block windows and the block engine (R176 to R179, R255, R256, R315 to
R319), and what an atomic makes of a value (R237, R238). -/

namespace Sys2Proof.Machine

/-- An access through a die, or through the I/O die, 4, adds to ACC; at the tenant's threshold that die posts an ACCESS record and ACC starts again (R259, R318; log 14,
DEDUCED). -/
def State.countAcc (s : State) (die tenant a va n : Nat) : State :=
  let e := s.blk a
  let thr := match s.tenant? tenant with | some x => x.accthr | none => 256
  if thr ≤ blkAcc e + n then
    (s.setBlk a (setBits e 100 12 0)).postTier tenant
      { kind := 1, die := if 3 < die then 0xFF else die, status := 0, p0 := BitVec.ofNat 64 (va - va % 65536), p1 := BitVec.ofNat 64 (blkTier e), launch := 0 }
  else s.setBlk a (setBits e 100 12 (blkAcc e + n))

/-- The free list of a die, tenant and tier (R256). -/
def freeKey (die tenant tier : Nat) : Nat := (tenant * 4 + die) * 2 + tier
def State.freeList (s : State) (k : Nat) : List Nat := (mgetD s.tables.free k { blocks := [], low := false }).blocks

/-- A list's watermark (R256, R74). -/
def State.watermark (s : State) (tenant tier : Nat) : Nat :=
  match s.tenant? tenant with
  | some x => nbits x.flwm (32 * tier) 23
  | none => 0

/-- Push a block onto the list of its recorded die, if the list has room; otherwise the return waits (R256). -/
def State.returnBlock (s : State) (tenant b : Nat) : State :=
  let tier := if isHbm b then 0 else 1
  let die := mgetD s.tables.bdie (b / 65536) 0
  let k := freeKey die tenant tier
  let l := mgetD s.tables.free k { blocks := [], low := false }
  if l.blocks.length < 2 ^ 22 then
    let n := l.blocks.length + 1
    s.modTables fun x => { x with free := mput x.free k { blocks := b :: l.blocks, low := l.low && n ≤ s.watermark tenant tier } }
  else s.modTables fun x => { x with returning := x.returning ++ [(tenant, b)] }

/-- A block has been zeroed before it went onto its list (R384): lines of it that are still due are zeroed now. -/
def State.zeroBlock (s : State) (b : Nat) : State :=
  if s.power.zeroing.any fun z => z.1 < b / 64 + 1024 && b / 64 < z.1 + z.2.1 then (List.range 1024).foldl (fun s i => s.zeroNow (b / 64 + i)) s
  else s

/-- Pop a block from a list; the block's recorded die becomes that die, and a list that comes down to its watermark posts one
FREELOW record until it has risen above it (R256). (Log 85, DEDUCED.) -/
def State.popBlock (s : State) (die tenant tier : Nat) : Option (Nat × State) :=
  let k := freeKey die tenant tier
  let l := mgetD s.tables.free k { blocks := [], low := false }
  match l.blocks with
  | [] => none
  | b :: rest =>
    let mark := s.watermark tenant tier
    let hits := !l.low && decide (rest.length ≤ mark)
    let s := (s.zeroBlock b).modTables fun x => { x with
      free := mput x.free k { blocks := rest, low := l.low || hits }, bdie := mput x.bdie (b / 65536) die }
    some (b, if hits then s.postTier tenant
      { kind := 3, die := die, status := 0, p0 := BitVec.ofNat 64 tier, p1 := BitVec.ofNat 64 rest.length, launch := 0 } else s)

/-- Set a block's count (R316). -/
def State.setCount (s : State) (b n : Nat) : State :=
  s.modTables fun x => { x with bcount := mputD x.bcount (b / 65536) n 0 }

/-- Lower a block's count by one; at 0 the block returns to a list (R316, R317). -/
def State.lowerCount (s : State) (tenant b : Nat) : State :=
  let n := s.blkCount b - 1
  let s := s.setCount b n
  if n = 0 then s.returnBlock tenant b else s

/-! ### Atomics (R237, R238) -/

/-- The new value that an atomic leaves, of `w` bytes: operation code, old value, operand, comparand (R237). -/
def atomNew (op w x y c : Nat) : Nat :=
  let n := 8 * w
  match op with
  | 0 => y % 2 ^ n
  | 1 => (x + y) % 2 ^ n
  | 2 => x &&& (y % 2 ^ n)
  | 3 => x ||| (y % 2 ^ n)
  | 4 => x ^^^ (y % 2 ^ n)
  | 5 => if signedOf x n ≤ signedOf y n then x else y % 2 ^ n
  | 6 => if signedOf x n ≤ signedOf y n then y % 2 ^ n else x
  | 7 => Nat.min x (y % 2 ^ n)
  | 8 => Nat.max x (y % 2 ^ n)
  | 9 => if x = c % 2 ^ n then y % 2 ^ n else x
  | 10 => (fpAdd fmtF32 0 (unpack fmtF32 x) (unpack fmtF32 (y % 2 ^ 32))).1
  | _ => (fpAdd fmtBf16 0 (unpack fmtBf16 x) (unpack fmtBf16 (y % 2 ^ 16))).1

/-- Perform an atomic at the home of a line of memory: the old value, and the state after it (R197). -/
def State.homeAtomic (s : State) (tid d key pa op w y c : Nat) : Nat × State :=
  let x := ofBytes (s.homeBytes pa w key)
  (x, s.performWrite tid d key (place pa (bytesOf (atomNew op w x y c) w)))

/-! ### The block engine (R255) -/

/-- Change an entry of a migration queue, or remove it. -/
def State.modMig (s : State) (d id : Nat) (f : Mig → Option Mig) : State :=
  s.modDie d fun x => { x with migQ := x.migQ.filterMap fun m => if m.id = id then f m else some m }

/-- A MIGRATED record (R259). -/
def State.postMigrated (s : State) (m : Mig) (d status tier : Nat) : State :=
  s.postTier m.tenant { kind := 2, die := d, status := status, p0 := BitVec.ofNat 64 (m.va - m.va % 65536),
                        p1 := BitVec.ofNat 64 (tier + m.tag % 2 ^ 32 * 2 ^ 32), launch := 0 }

/-- A held write is withdrawn, refused, or meets an error: its thread takes a fault at that instruction (R178, R179, R228). -/
def State.refuseHeld (s : State) (t code : Nat) : State :=
  match s.thread? t with
  | none => s
  | some th =>
    match th.held with
    | some h => takeFault (s.setThread t { th with held := none }) t code 0 h.pair (BitVec.ofNat 64 h.va) th.ctx.pc
    | none => s

/-- TAKE: the block engine of a die starts the oldest queued entry, at most four at once (R255). -/
def execTake (die : Nat) (s : State) : Out :=
  let q := (s.die die).migQ
  if 4 ≤ (q.filter fun m => m.state != .queued).length then .next s
  else match q.find? fun m => m.state == .queued with
  | none => .next s
  | some m =>
    let e := s.blk m.entry
    let gone (s : State) : State := s.modMig die m.id fun _ => none
    if m.cow then
      if blkWb e then .next s
      else if !s.blkLive e then
        -- the entry was freed while queued: its writers evaluate their writes again
        .next (m.waiters.foldl (fun s t => s.modThread t fun th => { th with held := none }) (gone s))
      else match s.popBlock m.die m.tenant (blkTier e) with
        | none => .next (m.waiters.foldl (fun s t => s.refuseHeld t 0x0B) (gone s))
        | some (b, s) =>
          .next ((s.setBlk m.entry (setBits e 124 1 1)).modMig die m.id fun m =>
            some { m with state := .copy, newBlk := b, oldBlk := blkBase e })
    else if !blkValid e then .next ((gone s).postMigrated m die 3 (blkTier e))
    else if blkWb e then .next s
    else if 1 < s.blkCount (blkBase e) then .next ((gone s).postMigrated m die 4 (blkTier e))
    else if blkTier e = m.tier then .next ((gone s).postMigrated m die 2 (blkTier e))
    else match s.popBlock m.die m.tenant m.tier with
      | none => .next ((gone s).postMigrated m die 1 (blkTier e))
      | some (b, s) =>
        .next ((s.setBlk m.entry (setBits e 124 1 1)).modMig die m.id fun m =>
          some { m with state := .copy, newBlk := b, oldBlk := blkBase e })

/-- The 64 KiB of a block are copied to another, under its key; no copy of an earlier life of that block is read any more (R178, R204,
R255). An error that the old block holds goes with its bytes (log 92, DESIGN CHOICE). -/
def State.copyBlock (s : State) (src dst key : Nat) : State :=
  let one (s : State) (i : Nat) : State :=
    let bad := mgetD s.power.bad (src / 64 + i) 0
    let s := s.homeTraffic (s.lineTenant (src / 64 + i)) (src + 64 * i)
    let s := s.homeWrite key (place (dst + 64 * i) (s.homeView (src + 64 * i) 64 key))
    { s with power := { s.power with bad := mputD s.power.bad (dst / 64 + i) bad 0 } }
  ((List.range 1024).foldl one s).purge (dst / 64) 1024

/-- A held write is applied to the block its entry now names (R179, R204): the thread finds it applied when it goes on. -/
def State.applyHeld (s : State) (t a : Nat) : State :=
  match s.thread? t with
  | none => s
  | some th =>
    match th.held with
    | none => s
    | some h =>
      let e := s.blk a
      let key := blkKey e
      let base := blkBase e
      let ws := h.req.writes.map fun w => (base + w.1 % 65536, w.2)
      let hit (s : State) : State := (s.setBlk a (setBits e 123 1 1)).countAcc (dieOf (coreOf t)) th.tenant a h.va 1
      match h.atom with
      | none =>
        let s := hit s
        let s := (s.performWrite th.home (dieOf (coreOf t)) key ws).patchL1 (coreOf t) (.mem ((ws.head?.map Prod.fst).getD base) key none) ws
        s.modThread t fun th => { th with held := some { h with applied := true } }
      | some (op, w, y, c) =>
        if s.badAt (base + h.va % 65536) w then s.refuseHeld t 0x07
        else
        let s := (hit s).modCore (coreOf t) fun x => { x with l1d := dropLine x.l1d ((base + h.va % 65536) / 64) }
        let r := s.homeAtomic th.home (dieOf (coreOf t)) key (base + h.va % 65536) op w y.toNat c.toNat
        r.2.modThread t fun th => { th with held := some { h with applied := true, old := BitVec.ofNat 64 r.1 } }

/-- REMAP: the copy is complete; the entry points to the new block in one instant, WB clears, and held writes are applied
in arrival order (R255, R204, R317; log 15, DESIGN CHOICE). -/
def execRemap (die id : Nat) (s : State) : Out :=
  match (s.die die).migQ.find? fun m => m.id == id && m.state == .copy with
  | none => .next s
  | some m =>
    let e := s.blk m.entry
    let s := (s.copyBlock m.oldBlk m.newBlk (blkKey e)).setCount m.newBlk 1
    let s := s.countDie die 0x0B m.tenant
    let e1 := setBits (setBits (setBits e 16 30 (m.newBlk / 65536)) 126 1 (if isHbm m.newBlk then 0 else 1)) 124 1 0
    let s := s.setBlk m.entry (if m.cow then setBits e1 125 1 0 else e1)
    let s := s.modMig die id fun m => some { m with state := .release, waiters := [] }
    .next (m.waiters.foldl (fun s t => s.applyHeld t m.entry) s)

/-- A load, a store or an ordered reduction that was translated to a block has not been performed yet (R255, R339). -/
def State.blockInUse (s : State) (b : Nat) : Bool :=
  let inIt (l : Loc) : Bool := match l with | .mem pa _ _ => pa / 65536 == b / 65536 | _ => false
  (s.threads.any fun e => e.2.rob.any fun r => match r.load with | some l => !l.landed && inIt l.loc | none => false) ||
  (s.flight.stores.any fun x => inIt x.req.loc) || s.dies.any fun d => d.2.ordered.any fun e => e.pa / 65536 == b / 65536

/-- RELEASE: the old block is given back, or the shared block's count lowered (R255, R256). -/
def execRelease (die id : Nat) (s : State) : Out :=
  match (s.die die).migQ.find? fun m => m.id == id && m.state == .release with
  | none => .next s
  | some m =>
    let tier := if isHbm m.oldBlk then 0 else 1
    let full := 2 ^ 22 ≤ (s.freeList (freeKey (mgetD s.tables.bdie (m.oldBlk / 65536) 0) m.tenant tier)).length
    if (full && (!m.cow || s.blkCount m.oldBlk == 1)) || s.blockInUse m.oldBlk then .next s
    else
      let s := s.modMig die id fun _ => none
      if m.cow then .next (s.lowerCount m.tenant m.oldBlk)
      else .next (((s.setCount m.oldBlk 0).returnBlock m.tenant m.oldBlk).postMigrated m die 0 (if isHbm m.newBlk then 0 else 1))

/-- BLOCK_RETURN: a return that waited finds room in its list (R256). -/
def execBlockReturn (block : Nat) (s : State) : Out :=
  match s.tables.returning.find? fun r => r.2 == block with
  | none => .next s
  | some r =>
    let tier := if isHbm block then 0 else 1
    if 2 ^ 22 ≤ (s.freeList (freeKey (mgetD s.tables.bdie (block / 65536) 0) r.1 tier)).length ∨ s.blockInUse block then .next s
    else .next ((s.modTables fun x => { x with returning := x.returning.erase r }).returnBlock r.1 block)

/-- BLOCK_BUSY: a write held beyond the tenant's window is withdrawn unapplied and becomes an upcall (R179). -/
def execBlockBusy (tid : Nat) (s : State) : Out :=
  match s.thread? tid with
  | none => .next s
  | some th =>
    match th.held with
    | some h =>
      if h.applied then .next s
      else
        let leave (d : Die) : Die := { d with migQ := d.migQ.map fun m => { m with waiters := m.waiters.filter (· != tid) } }
        let s := { s with dies := s.dies.map fun (d : Nat × Die) => (d.1, leave d.2) }
        .next (s.refuseHeld tid 0x0C)
    | none => .next s

end Sys2Proof.Machine
end

