-- ==== Sys2Proof/Machine/Access.lean ====
section
/-! DEFINITION. Sys2Proof/Machine/Access.lean: how a thread's access reaches its memory (R156, R228), loads and stores
on their way (R229, R230, R161, R162), acquires and releases (R188, R192, R193), and the dirty log (R180, R181). -/

namespace Sys2Proof.Machine

/-- What the checks of R228 say of an access. -/
inductive Access where
  | ok (loc : Loc) (s : State)
  | fault (code : Nat) (s : State)
  | wait (cause : Nat) (s : State)
  deriving Repr

/-- The dirty log takes an entry for the page of a TLB entry (R180). -/
def dirtyEntry (x : Tlb) : Dword :=
  let code := if x.size = 2 ^ 12 then 0 else if x.size = 2 ^ 16 then 1 else if x.size = 2 ^ 21 then 2 else if x.size = 2 ^ 25 then 3 else 4
  BitVec.ofNat 64 (x.base / 4096 + x.tenant * 2 ^ 40 + code * 2 ^ 48 + 2 ^ 63)

/-- Entries of a core's dirty log that hold a page (R180, R181). -/
def Core.logged (x : Core) : Nat := (x.dirty.filter fun e => e.2.getLsbD 63).length

/-- The first write through a cached translation sets its dirty bit and logs the page in the lowest place that holds none (R180; log
93, DESIGN CHOICE). -/
def State.logDirty (s : State) (c : Nat) (x : Tlb) : State :=
  s.modCore c fun y =>
    let at_ := (firstFrom (fun i => !(mgetD y.dirty i 0).getLsbD 63) 0 512).getD 511
    { y with dirty := mput y.dirty at_ (dirtyEntry x),
             tlb := y.tlb.map fun z => if z.tenant = x.tenant ∧ z.base = x.base then { z with dirty := true } else z }

/-- The state once an access has found its translation, and before anything else has come of it. -/
def State.looked (s : State) (t : Nat) (th : Thread) (ea : Nat) : State :=
  if 2 ^ 52 ≤ ea then s
  else match s.translate t th.tenant ea with
  | .hit _ y => y
  | _ => s

/-- Where the stack window puts `n` bytes at offset `off` for a thread, if they lie below its limit and its key slot holds a key (R157,
R174, R228). -/
def State.stackReach (s : State) (th : Thread) (off n : Nat) : Reach :=
  match s.launchOf th, s.tenant? th.tenant with
  | some l, some x =>
    if th.pl = 0 ∧ off + n ≤ l.part 39 1 * 4096 ∧ s.keyValid x.keyx then .at_ (th.stackBase + off) x.keyx none else .fault 0x06
  | _, _ => .fault 0x06

/-- Steps 2 to 4 of R228, and for a write the dirty log, for `n` bytes at `ea` by the thread of a slot. `acc`: 0 read,
1 write, 2 atomic, 4 `l1inv`. An entry of a block window that is not live is a PAGE_FAULT of step 5 (R177). -/
def State.resolve (s : State) (t : Nat) (th : Thread) (ea n acc : Nat) : Access :=
  let c := coreOf t
  let win := ea / 2 ^ 52
  let off := ea % 2 ^ 52
  if win = 0 then
    match s.translate t th.tenant ea with
    | .fault code y => .fault code (if th.rob = [] then y else s)
    | .miss s => .wait (if acc = 1 ∨ acc = 2 then 5 else 4) s
    | .hit x s =>
      match s.leafReach x.pte x.base ea acc with
      | .fault code => if acc = 4 ∧ code = 0x05 then .ok (.scratch 0 0) s else .fault code s
      | .at_ pa key blk =>
        let loc : Loc := match peerOf pa with
          | some w => .peer w (pa % 2 ^ 41)
          | none => .mem pa key blk
        if s.rowHeld c then .wait (if acc = 1 ∨ acc = 2 then 5 else 4) s
        else if (acc = 1 ∨ acc = 2) && blk.isNone && !x.dirty then
          if th.rob ≠ [] then .wait 4 s
          else if 512 ≤ (s.core c).logged then .wait 5 s
          else .ok loc (s.logDirty c x)
        else .ok loc s
  else if win = 0xFF0 then
    match s.launchOf th with
    | some l =>
      if off + n ≤ l.part 38 1 * 65536 then .ok (.scratch (clusterOf c) (mgetD l.spBase (clusterOf c) 0 + off)) s else .fault 0x06 s
    | none => .fault 0x06 s
  else if win = 0xFF1 then
    if 65536 < off + n then .fault 0x06 s
    else if th.pl = 2 then .ok (.localStore c off none) s
    else
      let granted := match s.launchOf th with
        | some l => mgetD l.lsBase c 0 ≤ off && off + n ≤ mgetD l.lsBase c 0 + l.part 37 1 * 1024
        | none => false
      if granted then .ok (.localStore c off none) s
      else if th.pl = 1 && acc = 0 && 0x6000 ≤ off then .ok (.localStore c off (some th.tenant)) s
      else .fault 0x06 s
  else if win = 0xFF2 then
    match s.stackReach th off n with
    | .fault code => .fault code s
    | .at_ pa key blk => if s.rowHeld c then .wait (if acc = 1 ∨ acc = 2 then 5 else 4) s else .ok (.mem pa key blk) s
  else .fault 0x06 s

/-! ### Acquires and releases -/

/-- The effect of an acquire at a scope on the issuing core (R188). -/
def State.acquire (s : State) (t : Nat) (th : Thread) (scope : Nat) : State :=
  if 2 ≤ scope then (s.flashL1 (coreOf t)).count t th 0x26 1 else s

/-! ### Loads -/

/-- Bytes of LD's size codes; code 7 is 64 bytes (R233, R236). -/
def loadBytes (sz : Nat) : Nat := if sz = 7 then 64 else [1, 2, 4, 8, 1, 2, 4].getD sz 1

/-- The register that a load of bytes leaves (R233, R236). -/
def loadValue (sz : Nat) (bs : List Byte) : Vec :=
  if sz = 7 then BitVec.ofNat 512 (ofBytes bs)
  else if sz < 4 then (sextTo (ofBytes bs) (8 * loadBytes sz)).setWidth 512
  else (zextTo (ofBytes bs) (8 * loadBytes sz)).setWidth 512

/-- An earlier store of the thread to the line is unacknowledged: a load of the line is not sent (R161). -/
def State.storePending (s : State) (th : Thread) (l : Loc) : Bool :=
  (s.flight.stores.any fun x => x.tid == th.home && x.req.loc.line == l.line) ||
  (th.rob.any fun e => match e.store with | some r => r.loc.line == l.line | none => false)

/-- A load of `sz` at `ea` into d; `scope` for a load-acquire (R233, R236, R240). (Log 83, DEDUCED.) -/
def load (q : Req) (d : BitVec 7) (sz : Nat) (ea : Thread → Dword) (scope : Option Nat) (s : State) : Out :=
  begin { q with access := true } s fun s t th =>
    let a := ea th
    let n := loadBytes sz
    if a.toNat % n ≠ 0 then raise s t q 0x04 a
    else match s.resolve t th a.toNat n 0 with
    | .fault code s => raise s t q code a
    | .wait c s => .next (hold s t c)
    | .ok loc s =>
      if s.storePending th loc then .next (hold s t 5)
      else if s.siteFull (coreOf t) th (th.PC q) then .next (holdSite s t th)
      else
        let snap := match s.thread? t with | some y => y.ctx | none => th.ctx
        let l : Load := { id := s.sched.nextId, reg := th.regId d.toNat, sz := sz, loc := loc, ea := a.toNat, scope := scope,
                          landed := false, lost := none, missed := false, pair := q.pair, snap := snap }
        .next (finish s.newId t th q .seq { Rob.none with load := some l, site := some (th.PC q, .load false) })

/-- Discard the uncommitted instructions of a thread from an entry on: the thread stands where that entry began, and the
multicast words they were are to be executed again (R229). (Log 79, DESIGN CHOICE.) -/
def Thread.discard (th : Thread) (snap : Ctx) : Thread :=
  let words := th.rob.filterMap Rob.rib
  { th with ctx := snap, rob := [], wait := .none,
            sent := if th.forme ≠ 0 ∧ th.midx = 0 then th.sent + words.length else th.sent,
            det := th.gone, ribbon := if th.attached || (th.det && !th.gone) then words ++ th.ribbon else th.ribbon }

/-- Commit, in program order, every entry whose loads have returned; a load that lost its data is a fault there (R229,
R169). -/
def State.drain (s : State) (t : Nat) : Nat → State
  | 0 => s
  | n + 1 =>
    match s.thread? t with
    | none => s
    | some th =>
      match th.rob with
      | [] => s
      | e :: rest =>
        match e.load with
        | none => State.drain ((s.setThread t { th with rob := rest }).commit t e) t n
        | some l =>
          if !l.landed then s
          else match l.lost with
          | some code =>
            let s := s.count t th 0x04 (th.rob.length - 1)
            takeFault (s.setThread t (th.discard l.snap)) t code 0 l.pair (BitVec.ofNat 64 l.ea) l.snap.pc
          | none => State.drain ((s.setThread t { th with rob := rest }).commit t e) t n

/-- The data of a load reach an entry and the snapshots behind it. -/
def landIn (id : Nat) (v : Vec) (missed : Bool) (lost : Option Nat) (reg : Nat) : Bool → List Rob → List Rob
  | _, [] => []
  | seen, e :: rest =>
    match e.load with
    | some l =>
      if l.id = id then
        let site := e.site.map fun x => (x.1, SiteRec.load missed)
        { e with load := some { l with landed := true, lost := lost, missed := missed }, site := site } ::
          landIn id v missed lost reg true rest
      else
        (if seen && lost.isNone then { e with load := some { l with snap := l.snap.setReg reg v } } else e) :: landIn id v missed lost reg seen rest
    | none => e :: landIn id v missed lost reg seen rest

/-- Bytes that a load covers of its line. -/
def Load.bytes (l : Load) : List Nat :=
  let a := match l.loc with
    | .mem pa _ _ => pa
    | .scratch _ off => off
    | .localStore _ off _ => off
    | .peer _ off => off
  (List.range (loadBytes l.sz)).map (a + ·)

/-- No earlier load of the thread that covers one of the bytes is still to be performed: what a thread reads of a byte never goes
backwards (R190). -/
def loadFirst (l : Load) : List Rob → Bool
  | [] => true
  | e :: rest => match e.load with
    | some x => x.id == l.id || ((x.landed || x.loc.line != l.loc.line || !x.bytes.any l.bytes.contains) && loadFirst l rest)
    | none => loadFirst l rest

/-- A load cannot be performed yet: its line is being zeroed (R166), or its order says so (R190). -/
def State.loadWaits (s : State) (c : Nat) (th : Thread) (l : Load) : Bool :=
  (match l.loc with | .mem pa _ _ => s.zeroing (pa / 64) | _ => false) || !loadFirst l th.rob ||
    (!s.inL1 c l.loc && s.seenStore c l.loc)

/-- Why the load gets no data: what it consumes holds an uncorrectable error, of the L1's copy, of the RDC's, of the home or of on-chip
memory (R169); or a peer refuses it (R387). -/
def State.loadLost (s : State) (c : Nat) (l : Load) : Option Nat :=
  let n := loadBytes l.sz
  let bad := match l.loc with
    | .mem pa key _ =>
      if s.inL1 c l.loc then s.badBytes (sramLine 2 c (pa / 64)) (pa % 64) n
      else if s.atHome (dieOf c) pa key then s.badAt pa n
      else s.badBytes (sramLine 3 (dieOf c) (pa / 64)) (pa % 64) n
    | _ => s.badLoc l.loc n
  match l.loc with
  | .peer w off => if s.peerAllows w off n 0 then none else some 0x06
  | _ => if bad then some 0x07 else none

/-- The RDC of the core's die answers a read of the location that misses the L1 (R160). -/
def State.inRdc (s : State) (c : Nat) : Loc → Bool
  | .mem pa key _ => !s.atHome (dieOf c) pa key
  | _ => false

/-- What a performed load counts: a miss or a hit of the L1 for the global and stack windows, the block entry's ACC, and what lies
beyond the L1 (R318, R351, R353). -/
def State.countLoad (s : State) (t : Nat) (th : Thread) (l : Load) (missed cached : Bool) : State :=
  match l.loc with
  | .mem pa _ blk =>
    let s := s.count t th (if missed then 0x20 else 0x21) 1
    let s := if missed then s.traffic (coreOf t) th.who th.launch th.tenant pa true cached else s.corrected (coreOf t) th.who th.launch th.tenant
    match blk with
    | some a => s.countAcc (dieOf (coreOf t)) th.tenant a l.ea 1
    | none => s
  | .peer _ _ => s.count t th 0x20 1
  | _ => s.corrected (coreOf t) th.who th.launch th.tenant

/-- A read of a location goes to a peer that does not hear it: the state in which it has been dropped (R391). -/
def State.unanswered (s : State) (l : Loc) : Option State := match l with
  | .peer w off => if s.mute w then some (s.unheard (readKey w off)) else none
  | _ => none

/-- LOAD_DATA_RETURN: the load is performed, a vector's as a whole (log 136, DESIGN CHOICE), its data land in the register, and what it held back commits (R229 to R231). -/
def execLoadDataReturn (tid id : Nat) (s : State) : Out :=
  match s.thread? tid with
  | none => .next s
  | some th =>
    match th.rob.findSome? fun e => match e.load with
      | some l => if l.id == id && !l.landed then some l else none
      | none => none with
    | none => .next s
    | some l =>
      let c := coreOf tid
      if s.loadWaits c th l then .next s
      else match s.unanswered l.loc with
      | some y => .next y
      | none =>
      match s.loadLost c l with
      | some code =>
        let s := s.setThread tid { th with rob := landIn l.id 0 false (some code) l.reg false th.rob }
        .next (s.drain tid th.rob.length)
      | none =>
        let r := s.loadLoc c l.loc (loadBytes l.sz)
        let v := loadValue l.sz r.1
        let s := r.2.2.countLoad tid th l r.2.1 (s.inRdc c l.loc)
        let s := s.setThread tid { th with ctx := th.ctx.setReg l.reg v, rob := landIn l.id v r.2.1 none l.reg false th.rob }
        let s := match l.scope with
          | some sc => s.acquire tid th sc
          | none => s
        .next (s.drain tid th.rob.length)

/-! ### Stores -/

/-- A held write that the remap has applied lets its thread go on (R179). -/
def Thread.unheld (th : Thread) : Thread := { th with held := none }
def Thread.heldApplied (th : Thread) : Bool := match th.held with
  | some h => h.applied
  | none => false

/-- The thread's write waits for a remap; one that found the migration queue full is held too, and tries for a place again (R179,
R255). -/
def State.queuedWrite (s : State) (t : Nat) : Bool := s.dies.any fun d => d.2.migQ.any fun m => m.waiters.contains t

/-- A store of the thread, or one that the core's threads have seen, is on its way to the line: a write that is performed at once waits
for it (R190). -/
def State.lineBusy (s : State) (c home : Nat) (l : Loc) : Bool :=
  s.seenStore c l || s.flight.stores.any fun y => y.tid == home && y.req.loc.line == l.line

/-- The block entry of a location in a block window. -/
def Loc.inBlock : Loc → Option Nat
  | .mem _ _ b => b
  | _ => none

/-- A store of the bytes that `writes` gives, relative to the location, under the checks of R228 (R234, R236). -/
def store (s : State) (t : Nat) (th : Thread) (q : Req) (ea : Dword) (n : Nat) (bytes : List (Nat × Byte)) : Out :=
  if th.heldApplied then .next (finish s t th.unheld q .seq)
  else if s.queuedWrite t then .next (hold s t 5)
  else
    let u := s.looked t th (ea.toNat - ea.toNat % n)
    match s.resolve t th (ea.toNat - ea.toNat % n) n 1 with
    | .fault code s => raise (s.modThread t Thread.unheld) t q code ea
    | .wait c s => .next (hold s t c)
    | .ok loc s =>
      if loc.inBlock.isSome && !th.rob.isEmpty then .next (hold s t 4)
      else if 255 ≤ th.stores then .next (hold u t 5)
      else
        let base := match loc with
          | .mem pa _ _ => pa
          | .scratch _ off => off
          | .localStore _ off _ => off
          | .peer _ off => off
        let r : StoreReq := { loc := loc, writes := bytes.map fun b => (base + b.1, b.2), va := ea.toNat }
        match loc with
        | .mem pa key (some a) =>
          if s.zeroing (pa / 64) || s.lineBusy (coreOf t) th.home loc then .next (hold s t 5)
          else
            let keep (s : State) : State :=
              s.modThread t fun y => { y with held := some { req := r, atom := none, va := ea.toNat, applied := false, old := 0, pair := q.pair } }
            match s.blockWrite (dieOf (coreOf t)) a ea.toNat th.tenant t with
            | .inPlace s =>
              let s := (s.patchL1 (coreOf t) loc r.writes).performWrite th.home (dieOf (coreOf t)) key r.writes
              let s := s.traffic (coreOf t) th.who th.launch th.tenant pa false
              .next (finish (s.countAcc (dieOf (coreOf t)) th.tenant a ea.toNat 1) t th.unheld q .seq)
            | .held s => .next (hold (keep s) t 5)
            | .full => .next (hold (keep s) t 5)
        | _ => .next (finish s t th q .seq { Rob.none with store := some r })

/-- The bytes of a scalar store (R234). -/
def scalarBytes (v : Dword) (n : Nat) : List (Nat × Byte) := place 0 (bytesOf v.toNat n)

/-- A scalar store of code `sz` (R234). -/
def storeScalar (q : Req) (d : BitVec 7) (sz : Nat) (ea : Thread → Dword) (scope : Option Nat) (s : State) : Out :=
  begin { q with access := true, commit := q.commit || scope.isSome, early := (scope.map Early.release).toList ++ [.stores] } s fun s t th =>
    let a := ea th
    if a.toNat % 2 ^ sz ≠ 0 then raise s t q 0x04 a
    else match scope.bind fun sc => s.releaseHeld th sc with
    | some c => .next (hold s t c)
    | none => store s t th q a (2 ^ sz) (scalarBytes (th.S d) (2 ^ sz))

/-- The thread whose home slot this is, where it runs. -/
def State.runSlot (s : State) (home : Nat) : Nat :=
  match s.thread? home with
  | some th => th.away.getD home
  | none => home

/-- STORE_ACKNOWLEDGEMENT: the home applies the store and acknowledges it (R162, R230). -/
def execStoreAcknowledgement (id : Nat) (s : State) : Out :=
  match s.flight.stores.find? fun x => x.id == id with
  | none => .next s
  | some x =>
    let waits := match x.req.loc with | .mem pa _ _ => s.zeroing (pa / 64) | _ => false
    if waits || !storeFirst id x s.flight.stores then .next s
    else
      let s := s.modFlight fun f => { f with stores := f.stores.filter fun y => y.id != id }
      let s := (s.performStore x.tid x.core x.launch x.req).settleL1 x
      let th := s.thread? (s.runSlot x.tid)
      let s := match x.req.loc, th with
        | .mem pa _ _, some th => s.traffic x.core th.who x.launch th.tenant pa false
        | .peer _ _, _ => s
        | _, some th => s.corrected x.core th.who x.launch th.tenant
        | _, none => s
      .next (s.modThread (s.runSlot x.tid) fun th => { th with stOut := th.stOut - 1 })

/-- An invalidation takes a line out of the RDC of a die, which counts it for the tenant whose data the line holds (R162, R353). -/
def State.dropRdc (s : State) (die line : Nat) : State :=
  (s.modDie die fun x => { x with rdc := dropLine x.rdc line }).countDie die 0x04 (s.lineTenant line)

/-- The invalidations that are under way for a writer complete (R197, R201). -/
def State.invalsOf (s : State) (tag : Nat) : State :=
  let mine := s.flight.invals.filter fun x => x.tid == tag
  let s := mine.foldl (fun s x => x.dies.foldl (fun s d => s.dropRdc d x.line) s) s
  s.modFlight fun f => { f with invals := f.invals.filter fun x => x.tid != tag }

/-- RDC_INVALIDATION: an invalidation reaches the RDC of a die (R162). -/
def execRdcInvalidation (die line : Nat) (s : State) : Out :=
  if s.flight.invals.any fun x => x.line == line && x.dies.contains die then
    let s := s.dropRdc die line
    let upd (x : Inval) : Inval := if x.line = line then { x with dies := x.dies.filter (· != die) } else x
    .next (s.modFlight fun f => { f with invals := f.invals.map upd })
  else .next s

/-- INVALIDATION_COMPLETE: the home reports that the invalidations of a write have completed (R162). -/
def execInvalidationComplete (id : Nat) (s : State) : Out :=
  .next (s.modFlight fun f => { f with invals := f.invals.filter fun x => !(x.id == id && x.dies.isEmpty) })

/-- The peer refuses a write (R387): the thread that made it takes ACCESS_FAULT before its next instruction, wherever it is, and an
engine's command fails with cause 2 when it would complete. -/
def State.peerRefuses (s : State) (x : PeerOp) : State :=
  let hit (th : Thread) : Thread := { th with refused := th.refused.or (some (BitVec.ofNat 64 x.va)) }
  if 65536 ≤ x.tid then
    { s with cores := s.cores.map fun (e : Nat × Core) => (e.1, { e.2 with
        copyQ := e.2.copyQ.map fun m => if 65536 + m.id = x.tid then { m with refused := true } else m,
        matQ := e.2.matQ.map fun m => if 65536 + m.id = x.tid then { m with refused := true } else m }) }
  else if x.who < 32768 then s.modThread x.who hit
  else
    { s with threads := s.threads.map fun (e : Nat × Thread) => if e.2.who = x.who ∧ e.2.away.isNone then (e.1, hit e.2) else e,
             saved := s.saved.map fun (e : Nat × Thread) => if e.2.who = x.who ∧ (e.2.guest ∨ e.2.away.isNone) then (e.1, hit e.2) else e }

/-- PEER_PLACEMENT: the peer's transport acknowledges that a write has been placed, or refuses it (R29, R203, R387). -/
def execPeerPlacement (id : Nat) (s : State) : Out :=
  match s.flight.peers.find? fun x => x.id == id with
  | none => .next s
  | some x =>
    if s.mute x.window then .next (s.unheard (writeKey id))
    else
    let ok := x.writes.all fun w => s.peerAllows x.window w.1 1 1
    let s := s.modFlight fun f => { f with peers := f.peers.filter fun y => y.id != id }
    let s := if ok then s else s.peerRefuses x
    .next (if x.counted then s.countRecvd x.core x.who x.launch 1 else s)

/-! ### The dirty log (R181) -/

/-- The address and level of the leaf that a walk finds. -/
def leafAddr (ptes : Map Dword) (va base level : Nat) : Nat → Option (Nat × Nat)
  | 0 => none
  | fuel + 1 =>
    let a := base + 8 * walkIndex va level
    let e := mgetD ptes a 0
    if !pteV e || !pteWf level e then none
    else if pteLeaf e then some (a, level)
    else leafAddr ptes va (ptePfn e) (level + 1) fuel

/-- Set D in the entry, or the sixteen entries, that map a page (R181, R312). -/
def State.setDirtyBit (s : State) (tenant va : Nat) : State :=
  match s.tenant? tenant with
  | none => s
  | some x =>
    match leafAddr s.tables.ptes va x.ptroot 0 4 with
    | none => s
    | some (a, _) =>
      let mark (m : Map Dword) (k : Nat) : Map Dword := mput m k (setBits (mgetD m k 0) 59 1 1)
      let as := if pteGrp (mgetD s.tables.ptes a 0) then (List.range 16).map fun i => a - a % 128 + 8 * i else [a]
      s.modTables fun y => { y with ptes := as.foldl mark y.ptes }

/-- The cluster agent merges a core's log into the page tables, and clears VALID in the entries that it has merged (R181). -/
def State.mergeDirty (s : State) (c : Nat) : State :=
  let log := (s.core c).dirty.filter fun e => e.2.getLsbD 63
  let s := log.foldl (fun s e => s.setDirtyBit (nbits e.2 40 6) (nbits e.2 0 40 * 4096)) s
  s.modCore c fun x => { x with dirty := x.dirty.map fun e => (e.1, setBits e.2 63 1 0) }

/-- DIRTY_LOG_MERGE (R181). -/
def execDirtyLogMerge (core : Nat) (s : State) : Out := .next (if coreOk core then s.mergeDirty core else s)

/-- FRAME_ZEROED: the memory controllers zero one line of a frame under its entry's key (R166). -/
def execFrameZeroed (line : Nat) (s : State) : Out :=
  .next (s.zeroNow line)

/-- UNCORRECTABLE_ERROR: a line of memory, or of on-chip memory by `sramLine`, comes to hold an error that no code corrects (R169; log
92, DESIGN CHOICE). -/
def execUncorrectableError (line : Nat) (s : State) : Out :=
  .next { s with power := { s.power with bad := mput s.power.bad line (BitVec.allOnes 64) } }

end Sys2Proof.Machine
end

