-- ==== Sys2Proof/Machine/MemInsn.lean ====
section
/-! DEFINITION. Sys2Proof/Machine/MemInsn.lean: the meanings of majors 0x30 to 0x3A and 0x3C (R227 to R243). -/

namespace Sys2Proof.Machine

/-! ### Loads and stores (R233 to R236, R240) -/

/-- S(a) + a displacement in units of 2^k bytes (R227). -/
def eaDisp (a : BitVec 7) (disp : Dword) (k : Nat) (th : Thread) : Dword := th.S a + scaled disp k
/-- S(a) + S(b) scaled (R235). -/
def eaIndex (a b : BitVec 7) (k : Nat) (th : Thread) : Dword := th.S a + th.S b <<< k
/-- Log of the access size of LD's codes (R233). -/
def sizeLog (sz : Nat) : Nat := [0, 1, 2, 3, 0, 1, 2].getD sz 0

/-- LD (R233). -/
def execLd (d a : BitVec 7) (z : BitVec 3) (i : BitVec 9) (s : State) : Out :=
  load { reqDA (.ld d a z i) d a with legal := loadSizeOk z } d z.toNat (eaDisp a (i.signExtend 64) (sizeLog z.toNat)) none s
/-- LDX (R235). -/
def execLdx (d a b : BitVec 7) (z : BitVec 3) (x : BitVec 2) (s : State) : Out :=
  load { reqDAB (.ldx d a b z x) d a b with legal := loadSizeOk z } d z.toNat (eaIndex a b x.toNat) none s
/-- VLD (R236). -/
def execVld (d a : BitVec 7) (i : BitVec 9) (s : State) : Out :=
  load (reqDA (.vld d a i) d a) d 7 (eaDisp a (i.signExtend 64) 6) none s
/-- LDA (R240). -/
def execLda (d a : BitVec 7) (z c : BitVec 3) (i : BitVec 6) (s : State) : Out :=
  load { reqDA (.lda d a z c i) d a with legal := loadSizeOk z && scopeOk c } d z.toNat
    (eaDisp a (i.signExtend 64) (sizeLog z.toNat)) (some c.toNat) s

/-- ST (R234); d names the data. -/
def execSt (d a : BitVec 7) (z : BitVec 3) (i : BitVec 9) (s : State) : Out :=
  storeScalar { reqAB (.st d a z i) d a with legal := storeSizeOk z } d z.toNat (eaDisp a (i.signExtend 64) z.toNat) none s
/-- STX (R235). -/
def execStx (d a b : BitVec 7) (z : BitVec 3) (x : BitVec 2) (s : State) : Out :=
  storeScalar { word := encodeNat (.stx d a b z x), regs := [d.toNat, a.toNat, b.toNat], reads := [d.toNat, a.toNat, b.toNat],
                legal := storeSizeOk z } d z.toNat (eaIndex a b x.toNat) none s
/-- STL (R240). -/
def execStl (d a : BitVec 7) (z c : BitVec 3) (i : BitVec 6) (s : State) : Out :=
  storeScalar { reqAB (.stl d a z c i) d a with legal := storeSizeOk z && scopeOk c } d z.toNat
    (eaDisp a (i.signExtend 64) z.toNat) (some c.toNat) s

/-- The bytes that a masked store of 64 bytes writes (R236). -/
def activeBytes (th : Thread) (v : Vec) : List (Nat × Byte) :=
  ((List.range 64).filter fun j => th.active j 8).map fun j => (j, byteOf v j)

/-- A store of 64 bytes under the mask (R236). -/
def storeVec (q : Req) (d : BitVec 7) (ea : Thread → Dword) (s : State) : Out :=
  begin { q with access := true, early := [.stores] } s fun s t th =>
    let a := ea th
    if a.toNat % 64 ≠ 0 then raise s t q 0x04 a else store s t th q a 64 (activeBytes th (th.V d))

/-- VST (R236). -/
def execVst (d a : BitVec 7) (i : BitVec 9) (s : State) : Out :=
  storeVec (reqAB (.vst d a i) d a) d (eaDisp a (i.signExtend 64) 6) s

/-! ### Cache control (R243) -/

/-- Where a prefetch finds its line (R164, R243): it goes through the TLBs, and starts or joins the walk that it needs, without waiting for it
(log 51, DESIGN CHOICE); without a place for its walk it is dropped. -/
def State.prefetchAt (s : State) (t : Nat) (th : Thread) (va : Nat) : Reach × State :=
  if 2 ^ 52 ≤ va then (.fault 0x06, s)
  else match s.translate t th.tenant va with
  | .hit x y => (y.leafReach x.pte x.base va 0, y)
  | .fault code y => (.fault code, y)
  | .miss y => (if y.walksFor t th.tenant va then y.reach th.tenant va 0 else .fault 0x05, y)

/-- A prefetch of the line at `va` into the L1, or no further than the L2 or RDC; one that would fail a step of R228 is
dropped. -/
def State.prefetch (s : State) (t : Nat) (th : Thread) (va : Nat) (near : Bool) : State :=
  let c := coreOf t
  let r := if va / 2 ^ 52 = 0xFF2 then (s.stackReach th (va % 2 ^ 52 - va % 64) 64, s) else s.prefetchAt t th va
  let s := r.2
  match r.1 with
  | .at_ pa key _ =>
    if (peerOf pa).isSome || s.zeroing (pa / 64) || s.rowHeld c then s
    else if near && s.inL1 c (.mem pa key none) then s.corrected c th.who th.launch th.tenant
    else if s.copyBad (dieOf c) pa key then s
    else
      let y := s.traffic c th.who th.launch th.tenant pa true (s.inRdc c (.mem pa key none))
      if !near then (y.readLine (dieOf c) pa key).2
      else if s.seenStore c (.mem pa key none) then y
      else (y.loadThrough c pa 1 key).2.2
  | .fault _ => s

/-- PREF and PREFL2. -/
def prefetchBy (q : Req) (near : Bool) (a : BitVec 7) (disp : Dword) (s : State) : Out :=
  begin { q with access := true } s fun s t th => .next (finish (s.prefetch t th (eaDisp a disp 6 th).toNat near) t th q .seq)

/-- PREF (R243). -/
def execPref (a : BitVec 7) (i : BitVec 9) (s : State) : Out := prefetchBy (reqA (.pref a i) a) true a (i.signExtend 64) s
/-- PREFL2 (R243). -/
def execPrefl2 (a : BitVec 7) (i : BitVec 9) (s : State) : Out := prefetchBy (reqA (.prefl2 a i) a) false a (i.signExtend 64) s

/-- The scratchpad and local-store windows (R156). -/
def onChipWindow (ea : Nat) : Bool := ea / 2 ^ 52 == 0xFF0 || ea / 2 ^ 52 == 0xFF1

/-- L1INV: the line leaves both L1 caches; on-chip windows are untouched. (Log 23, DESIGN CHOICE.) -/
def invLine (q : Req) (a : BitVec 7) (disp : Dword) (s : State) : Out :=
  begin { q with access := true, commit := true } s fun s t th =>
    let ea := eaDisp a disp 6 th
    if onChipWindow ea.toNat then .next (finish s t th q .seq)
    else match s.resolve t th (ea.toNat - ea.toNat % 64) 64 4 with
    | .fault code s => raise s t q code ea
    | .wait c s => .next (hold s t c)
    | .ok loc s =>
      match loc with
      | .mem pa _ _ =>
        .next (finish (s.modCore (coreOf t) fun x => { x with l1d := dropLine x.l1d (pa / 64), l1i := dropLine x.l1i (pa / 64) }) t th q .seq)
      | _ => .next (finish s t th q .seq)

/-- L1INV (R243). -/
def execL1inv (a : BitVec 7) (i : BitVec 9) (s : State) : Out := invLine (reqA (.l1inv a i) a) a (i.signExtend 64) s

/-- ZLINE: a store of 64 zero bytes to the line; it issues at its commit. -/
def zeroLine (q : Req) (a : BitVec 7) (disp : Dword) (s : State) : Out :=
  begin { q with access := true, commit := true, early := [.stores] } s fun s t th =>
    store s t th q (eaDisp a disp 6 th) 64 (place 0 (List.replicate 64 0))

/-- ZLINE (R243). -/
def execZline (a : BitVec 7) (i : BitVec 9) (s : State) : Out := zeroLine (reqA (.zline a i) a) a (i.signExtend 64) s

/-! ### Atomics (R237 to R239, R197) -/

/-- The size in bytes of an atomic (R237). -/
def atomBytes (op w : Nat) : Nat := if op = 11 then 2 else if op = 10 then 4 else 4 * 2 ^ w

/-- The RDC invalidations of a thread's writes complete (R197). -/
def State.completeInvals (s : State) (th : Thread) : State := s.invalsOf th.home

/-- An atomic returns its old value; ATOMO then acquires at device scope (R239, R197). -/
def atomReturn (s : State) (t : Nat) (th : Thread) (q : Req) (d : BitVec 7) (n old : Nat) (ordered : Bool) : Out :=
  let s := if ordered then (s.completeInvals th).acquire t th 4 else s
  .next (finish s t (th.setS d (zextTo old (8 * n))) q .seq)

/-- An atomic of scratchpad or local store, performed in that SRAM (R239). -/
def atomicOnChip (s : State) (t : Nat) (th : Thread) (q : Req) (op n : Nat) (ordered : Bool) (d : BitVec 7) (ea : Dword) (y x : Nat)
    (loc : Loc) (old : Nat) (off : Nat) : Out :=
  if s.badLoc loc n then raise s t q 0x07 ea
  else atomReturn ((s.corrected (coreOf t) th.who th.launch th.tenant).performStore th.home (coreOf t) th.launch { loc := loc, writes := place off (bytesOf (atomNew op n old y x) n) })
    t th q d n old ordered

/-- An atomic of a line of memory, performed at its home (R197): the line leaves the issuing core's L1. `u` is the state in which nothing has
come of it (R228). -/
def atomicAtHome (u s : State) (t : Nat) (th : Thread) (q : Req) (op n : Nat) (ordered : Bool) (d : BitVec 7) (ea : Dword) (y x pa key : Nat) : Out :=
  if s.badAt pa n then raise u t q 0x07 ea
  else
    let s := s.modCore (coreOf t) fun x => { x with l1d := dropLine x.l1d (pa / 64) }
    let s := s.traffic (coreOf t) th.who th.launch th.tenant pa (op == 1)
    let r := s.homeAtomic th.home (dieOf (coreOf t)) key pa op n y x
    atomReturn r.2 t th q d n r.1 ordered

/-- An atomic through a peer page, performed at the peer's home or refused by the peer (R203, R239, R387). -/
def atomicAtPeer (u s : State) (t : Nat) (th : Thread) (q : Req) (op n : Nat) (ordered : Bool) (d : BitVec 7) (ea : Dword) (y x w off : Nat) : Out :=
  let old := (Config.peerBytes w off s.sched.fresh).toNat % 2 ^ (8 * n)
  let p : PeerOp := { id := s.sched.nextId, tid := th.home, core := coreOf t, launch := th.launch, window := w,
                      writes := place off (bytesOf (atomNew op n old y x) n), counted := true, who := th.who, va := ea.toNat }
  if s.mute w then .next (hold (u.unheard (readKey w off)) t 5)
  else if !s.peerAllows w off n 2 then raise u t q 0x06 ea
  else atomReturn (((s.tick.modFlight fun f => { f with peers := f.peers ++ [p] }).newId).countSent (coreOf t) th.who th.launch 1)
    t th q d n old ordered

/-- An atomic of operation code `op` on `n` bytes at S(a) (R237, R228, R179). -/
def atomic (q : Req) (op n : Nat) (ordered : Bool) (d a b : BitVec 7) (s : State) : Out :=
  begin { q with access := true, commit := true, early := if ordered then [.release 4] else [] } s fun s t th =>
    let ea := th.S a
    let y := (th.S b).toNat
    let x := (th.S d).toNat
    if th.heldApplied then atomReturn s t th.unheld q d n ((th.held.map Held.old).getD 0).toNat ordered
    else if s.queuedWrite t then .next (hold s t 5)
    else if ea.toNat % n ≠ 0 then raise s t q 0x04 ea
    else if ordered && (s.releaseHeld th 4).isSome then .next (hold s t 5)
    else
    let u := s.looked t th ea.toNat
    match s.resolve t th ea.toNat n 2 with
    | .fault code s => raise (s.modThread t Thread.unheld) t q code ea
    | .wait c s => .next (hold s t c)
    | .ok loc s =>
      let th := th.unheld
      if s.storePending th loc || s.seenStore (coreOf t) loc then .next (hold u t 5)
      else match loc with
      | .scratch k off => atomicOnChip s t th q op n ordered d ea y x loc (ofBytes ((List.range n).map fun j => s.scratchByte k (off + j))) off
      | .localStore k off _ => atomicOnChip s t th q op n ordered d ea y x loc (ofBytes ((List.range n).map fun j => s.localByte k (off + j))) off
      | .peer w off => atomicAtPeer u s t th q op n ordered d ea y x w off
      | .mem pa key none => if s.zeroing (pa / 64) then .next (hold u t 5) else atomicAtHome u s t th q op n ordered d ea y x pa key
      | .mem pa key (some e) =>
        let keep (s : State) : State :=
          let h : Held := { req := { loc := loc, writes := [] }, va := ea.toNat, applied := false, old := 0, pair := q.pair,
                            atom := some (op, n, BitVec.ofNat 64 y, BitVec.ofNat 64 x) }
          (s.modCore (coreOf t) fun x => { x with l1d := dropLine x.l1d (pa / 64) }).modThread t fun z => { z with held := some h }
        if s.zeroing (pa / 64) then .next (hold s t 5)
        else match s.blockWrite (dieOf (coreOf t)) e ea.toNat th.tenant t with
        | .inPlace y1 =>
          if s.badAt pa n then raise s t q 0x07 ea
          else atomicAtHome s (y1.countAcc (dieOf (coreOf t)) th.tenant e ea.toNat 1) t th q op n ordered d ea y x pa key
        | .held s => .next (hold (keep s) t 5)
        | .full => .next (hold (keep s) t 5)

/-- ATOM_SWAP (R237). -/
def execAtomSwap (d a b : BitVec 7) (w : BitVec 1) (s : State) : Out :=
  atomic (reqDAB (.atomSwap d a b w) d a b) 0 (atomBytes 0 w.toNat) false d a b s
/-- ATOM_ADD (R237). -/
def execAtomAdd (d a b : BitVec 7) (w : BitVec 1) (s : State) : Out :=
  atomic (reqDAB (.atomAdd d a b w) d a b) 1 (atomBytes 1 w.toNat) false d a b s
/-- ATOM_AND (R237). -/
def execAtomAnd (d a b : BitVec 7) (w : BitVec 1) (s : State) : Out :=
  atomic (reqDAB (.atomAnd d a b w) d a b) 2 (atomBytes 2 w.toNat) false d a b s
/-- ATOM_OR (R237). -/
def execAtomOr (d a b : BitVec 7) (w : BitVec 1) (s : State) : Out :=
  atomic (reqDAB (.atomOr d a b w) d a b) 3 (atomBytes 3 w.toNat) false d a b s
/-- ATOM_XOR (R237). -/
def execAtomXor (d a b : BitVec 7) (w : BitVec 1) (s : State) : Out :=
  atomic (reqDAB (.atomXor d a b w) d a b) 4 (atomBytes 4 w.toNat) false d a b s
/-- ATOM_MIN (R237). -/
def execAtomMin (d a b : BitVec 7) (w : BitVec 1) (s : State) : Out :=
  atomic (reqDAB (.atomMin d a b w) d a b) 5 (atomBytes 5 w.toNat) false d a b s
/-- ATOM_MAX (R237). -/
def execAtomMax (d a b : BitVec 7) (w : BitVec 1) (s : State) : Out :=
  atomic (reqDAB (.atomMax d a b w) d a b) 6 (atomBytes 6 w.toNat) false d a b s
/-- ATOM_MINN (R237). -/
def execAtomMinn (d a b : BitVec 7) (w : BitVec 1) (s : State) : Out :=
  atomic (reqDAB (.atomMinn d a b w) d a b) 7 (atomBytes 7 w.toNat) false d a b s
/-- ATOM_MAXN (R237). -/
def execAtomMaxn (d a b : BitVec 7) (w : BitVec 1) (s : State) : Out :=
  atomic (reqDAB (.atomMaxn d a b w) d a b) 8 (atomBytes 8 w.toNat) false d a b s
/-- ATOM_CAS (R237). -/
def execAtomCas (d a b : BitVec 7) (w : BitVec 1) (s : State) : Out :=
  atomic (reqXAB (.atomCas d a b w) d a b) 9 (atomBytes 9 w.toNat) false d a b s
/-- ATOM_FADD_F32 (R237, R238). -/
def execAtomFaddF32 (d a b : BitVec 7) (s : State) : Out :=
  atomic (reqDAB (.atomFaddF32 d a b) d a b) 10 (atomBytes 10 0) false d a b s
/-- ATOM_FADD_BF16 (R237, R238). -/
def execAtomFaddBf16 (d a b : BitVec 7) (s : State) : Out :=
  atomic (reqDAB (.atomFaddBf16 d a b) d a b) 11 (atomBytes 11 0) false d a b s
/-- ATOMO_SWAP (R237). -/
def execAtomoSwap (d a b : BitVec 7) (w : BitVec 1) (s : State) : Out :=
  atomic (reqDAB (.atomoSwap d a b w) d a b) 0 (atomBytes 0 w.toNat) true d a b s
/-- ATOMO_ADD (R237). -/
def execAtomoAdd (d a b : BitVec 7) (w : BitVec 1) (s : State) : Out :=
  atomic (reqDAB (.atomoAdd d a b w) d a b) 1 (atomBytes 1 w.toNat) true d a b s
/-- ATOMO_AND (R237). -/
def execAtomoAnd (d a b : BitVec 7) (w : BitVec 1) (s : State) : Out :=
  atomic (reqDAB (.atomoAnd d a b w) d a b) 2 (atomBytes 2 w.toNat) true d a b s
/-- ATOMO_OR (R237). -/
def execAtomoOr (d a b : BitVec 7) (w : BitVec 1) (s : State) : Out :=
  atomic (reqDAB (.atomoOr d a b w) d a b) 3 (atomBytes 3 w.toNat) true d a b s
/-- ATOMO_XOR (R237). -/
def execAtomoXor (d a b : BitVec 7) (w : BitVec 1) (s : State) : Out :=
  atomic (reqDAB (.atomoXor d a b w) d a b) 4 (atomBytes 4 w.toNat) true d a b s
/-- ATOMO_MIN (R237). -/
def execAtomoMin (d a b : BitVec 7) (w : BitVec 1) (s : State) : Out :=
  atomic (reqDAB (.atomoMin d a b w) d a b) 5 (atomBytes 5 w.toNat) true d a b s
/-- ATOMO_MAX (R237). -/
def execAtomoMax (d a b : BitVec 7) (w : BitVec 1) (s : State) : Out :=
  atomic (reqDAB (.atomoMax d a b w) d a b) 6 (atomBytes 6 w.toNat) true d a b s
/-- ATOMO_MINN (R237). -/
def execAtomoMinn (d a b : BitVec 7) (w : BitVec 1) (s : State) : Out :=
  atomic (reqDAB (.atomoMinn d a b w) d a b) 7 (atomBytes 7 w.toNat) true d a b s
/-- ATOMO_MAXN (R237). -/
def execAtomoMaxn (d a b : BitVec 7) (w : BitVec 1) (s : State) : Out :=
  atomic (reqDAB (.atomoMaxn d a b w) d a b) 8 (atomBytes 8 w.toNat) true d a b s
/-- ATOMO_CAS (R237). -/
def execAtomoCas (d a b : BitVec 7) (w : BitVec 1) (s : State) : Out :=
  atomic (reqXAB (.atomoCas d a b w) d a b) 9 (atomBytes 9 w.toNat) true d a b s
/-- ATOMO_FADD_F32 (R237, R238). -/
def execAtomoFaddF32 (d a b : BitVec 7) (s : State) : Out :=
  atomic (reqDAB (.atomoFaddF32 d a b) d a b) 10 (atomBytes 10 0) true d a b s
/-- ATOMO_FADD_BF16 (R237, R238). -/
def execAtomoFaddBf16 (d a b : BitVec 7) (s : State) : Out :=
  atomic (reqDAB (.atomoFaddBf16 d a b) d a b) 11 (atomBytes 11 0) true d a b s

/-! ### Fences (R196, R241) -/

/-- A fence: what it waits for is counted as fence (cause 13); an acquire completes it. (Log 48, DEDUCED.) -/
def fence (q : Req) (c : BitVec 3) (acq rel : Bool) (s : State) : Out :=
  begin { q with access := true, commit := true } s fun s t th =>
    if rel && (s.releaseHeld th c.toNat).isSome then .next (hold s t 13)
    else .next (finish (if acq then s.acquire t th c.toNat else s) t th q .seq)

/-- FENCE_ACQ (R196). -/
def execFenceAcq (c : BitVec 3) (s : State) : Out := fence { req0 (.fenceAcq c) with legal := scopeOk c } c true false s
/-- FENCE_REL (R196). -/
def execFenceRel (c : BitVec 3) (s : State) : Out := fence { req0 (.fenceRel c) with legal := scopeOk c } c false true s
/-- FENCE_FULL (R196). -/
def execFenceFull (c : BitVec 3) (s : State) : Out := fence { req0 (.fenceFull c) with legal := scopeOk c } c true true s

/-- Every line that an L2 holds ahead of its memory channel is written there (R241). -/
def State.writeBackAll (s : State) : State :=
  (List.range 4).foldl (fun s d => (s.die d).l2dirty.foldl (fun s l => s.writeBack l) s) s

/-- FENCE_WB (R241): the release, the write-back of the thread's lines, and the merge of the core's dirty log. -/
def execFenceWb (c : BitVec 3) (s : State) : Out :=
  let q := { req0 (.fenceWb c) with legal := scopeOk c, access := true, commit := true }
  begin q s fun s t th =>
    if (s.releaseHeld th c.toNat).isSome ∨ (s.releaseHeld th 1).isSome then .next (hold s t 13)
    else .next (finish (s.writeBackAll.mergeDirty (coreOf t)) t th q .seq)

end Sys2Proof.Machine
end

