-- ==== Sys2Proof/Machine/Scalar.lean ====
section
/-! DEFINITION. Sys2Proof/Machine/Scalar.lean: the meanings of majors 0x01 to 0x0C: integer operations, immediates and
moves, and masks (R113 to R120). -/

namespace Sys2Proof.Machine


/-- ADD (R113). -/
def execAdd (d a b : BitVec 7) (s : State) : Out := alu3 (reqDAB (.add d a b) d a b) d a b ((· + ·)) s

/-- SUB (R113). -/
def execSub (d a b : BitVec 7) (s : State) : Out := alu3 (reqDAB (.sub d a b) d a b) d a b ((· - ·)) s

/-- MUL (R113). -/
def execMul (d a b : BitVec 7) (s : State) : Out := alu3 (reqDAB (.mul d a b) d a b) d a b ((· * ·)) s

/-- MULH (R113). -/
def execMulh (d a b : BitVec 7) (s : State) : Out := alu3 (reqDAB (.mulh d a b) d a b) d a b (aluMulh) s

/-- MULHN (R113). -/
def execMulhn (d a b : BitVec 7) (s : State) : Out := alu3 (reqDAB (.mulhn d a b) d a b) d a b (aluMulhn) s

/-- DIV (R113). -/
def execDiv (d a b : BitVec 7) (s : State) : Out := alu3 (reqDAB (.div d a b) d a b) d a b (aluDiv) s

/-- DIVN (R113). -/
def execDivn (d a b : BitVec 7) (s : State) : Out := alu3 (reqDAB (.divn d a b) d a b) d a b (aluDivn) s

/-- REM (R113). -/
def execRem (d a b : BitVec 7) (s : State) : Out := alu3 (reqDAB (.rem d a b) d a b) d a b (aluRem) s

/-- REMN (R113). -/
def execRemn (d a b : BitVec 7) (s : State) : Out := alu3 (reqDAB (.remn d a b) d a b) d a b (aluRemn) s

/-- AND (R113). -/
def execAnd (d a b : BitVec 7) (s : State) : Out := alu3 (reqDAB (.and d a b) d a b) d a b ((· &&& ·)) s

/-- OR (R113). -/
def execOr (d a b : BitVec 7) (s : State) : Out := alu3 (reqDAB (.or d a b) d a b) d a b ((· ||| ·)) s

/-- XOR (R113). -/
def execXor (d a b : BitVec 7) (s : State) : Out := alu3 (reqDAB (.xor d a b) d a b) d a b ((· ^^^ ·)) s

/-- ANDN (R113). -/
def execAndn (d a b : BitVec 7) (s : State) : Out := alu3 (reqDAB (.andn d a b) d a b) d a b (fun x y => x &&& ~~~y) s

/-- SHL (R113). -/
def execShl (d a b : BitVec 7) (s : State) : Out := alu3 (reqDAB (.shl d a b) d a b) d a b (aluShl) s

/-- SHR (R113). -/
def execShr (d a b : BitVec 7) (s : State) : Out := alu3 (reqDAB (.shr d a b) d a b) d a b (aluShr) s

/-- SRA (R113). -/
def execSra (d a b : BitVec 7) (s : State) : Out := alu3 (reqDAB (.sra d a b) d a b) d a b (aluSra) s

/-- ROTR (R113). -/
def execRotr (d a b : BitVec 7) (s : State) : Out := alu3 (reqDAB (.rotr d a b) d a b) d a b (aluRotr) s

/-- MIN (R113). -/
def execMin (d a b : BitVec 7) (s : State) : Out := alu3 (reqDAB (.min d a b) d a b) d a b (aluMin) s

/-- MAX (R113). -/
def execMax (d a b : BitVec 7) (s : State) : Out := alu3 (reqDAB (.max d a b) d a b) d a b (aluMax) s

/-- MINN (R113). -/
def execMinn (d a b : BitVec 7) (s : State) : Out := alu3 (reqDAB (.minn d a b) d a b) d a b (aluMinn) s

/-- MAXN (R113). -/
def execMaxn (d a b : BitVec 7) (s : State) : Out := alu3 (reqDAB (.maxn d a b) d a b) d a b (aluMaxn) s

/-- CMPEQ (R113). -/
def execCmpeq (d a b : BitVec 7) (s : State) : Out := alu3 (reqDAB (.cmpeq d a b) d a b) d a b (aluCmpeq) s

/-- CMPLT (R113). -/
def execCmplt (d a b : BitVec 7) (s : State) : Out := alu3 (reqDAB (.cmplt d a b) d a b) d a b (aluCmplt) s

/-- CMPLTN (R113). -/
def execCmpltn (d a b : BitVec 7) (s : State) : Out := alu3 (reqDAB (.cmpltn d a b) d a b) d a b (aluCmpltn) s

/-- CLZ (R113). -/
def execClz (d a : BitVec 7) (s : State) : Out := alu2 (reqDA (.clz d a) d a) d a aluClz s

/-- CTZ (R113). -/
def execCtz (d a : BitVec 7) (s : State) : Out := alu2 (reqDA (.ctz d a) d a) d a aluCtz s

/-- POPC (R113). -/
def execPopc (d a : BitVec 7) (s : State) : Out := alu2 (reqDA (.popc d a) d a) d a aluPopc s

/-- SEXT (R113); width codes 3 to 127 are reserved words. -/
def execSext (d a w : BitVec 7) (s : State) : Out :=
  alu2 { reqDA (.sext d a w) d a with legal := widthOk w } d a (aluSext w) s

/-- ZEXT (R113); width codes 3 to 127 are reserved words. -/
def execZext (d a w : BitVec 7) (s : State) : Out :=
  alu2 { reqDA (.zext d a w) d a with legal := widthOk w } d a (aluZext w) s

/-! ### Immediates and moves (R114 to R118) -/

/-- ADDI: imm12 sign-extended (R114). -/
def execAddi (d a : BitVec 7) (i : BitVec 12) (s : State) : Out :=
  let imm : Dword := i.signExtend 64
  alu2 (reqDA (.addi d a i) d a) d a (· + imm) s

/-- ANDI: imm12 sign-extended (R114). -/
def execAndi (d a : BitVec 7) (i : BitVec 12) (s : State) : Out :=
  let imm : Dword := i.signExtend 64
  alu2 (reqDA (.andi d a i) d a) d a (· &&& imm) s

/-- ORI: imm12 zero-extended (R114). -/
def execOri (d a : BitVec 7) (i : BitVec 12) (s : State) : Out :=
  let imm : Dword := i.setWidth 64
  alu2 (reqDA (.ori d a i) d a) d a (· ||| imm) s

/-- XORI: imm12 zero-extended (R114). -/
def execXori (d a : BitVec 7) (i : BitVec 12) (s : State) : Out :=
  let imm : Dword := i.setWidth 64
  alu2 (reqDA (.xori d a i) d a) d a (· ^^^ imm) s

/-- SHLI (R115). -/
def execShli (d a : BitVec 7) (n : BitVec 6) (s : State) : Out :=
  alu2 (reqDA (.shli d a n) d a) d a (fun x => x <<< n.toNat) s

/-- SHRI (R115). -/
def execShri (d a : BitVec 7) (n : BitVec 6) (s : State) : Out :=
  alu2 (reqDA (.shri d a n) d a) d a (fun x => x >>> n.toNat) s

/-- SRAI (R115). -/
def execSrai (d a : BitVec 7) (n : BitVec 6) (s : State) : Out :=
  alu2 (reqDA (.srai d a n) d a) d a (fun x => x.sshiftRight n.toNat) s

/-- ROTI (R115). -/
def execRoti (d a : BitVec 7) (n : BitVec 6) (s : State) : Out :=
  alu2 (reqDA (.roti d a n) d a) d a (fun x => x.rotateRight n.toNat) s

/-- SEQI (R116). -/
def execSeqi (d a : BitVec 7) (i : BitVec 10) (s : State) : Out :=
  alu2 (reqDA (.seqi d a i) d a) d a (fun x => aluCmpeq x (i.signExtend 64)) s

/-- SLTI (R116). -/
def execSlti (d a : BitVec 7) (i : BitVec 10) (s : State) : Out :=
  alu2 (reqDA (.slti d a i) d a) d a (fun x => aluCmplt x (i.signExtend 64)) s

/-- SLTNI (R116). -/
def execSltni (d a : BitVec 7) (i : BitVec 10) (s : State) : Out :=
  alu2 (reqDA (.sltni d a i) d a) d a (fun x => aluCmpltn x (i.setWidth 64)) s

/-- MOVI: imm19 sign-extended (R117). -/
def execMovi (d : BitVec 7) (i : BitVec 19) (s : State) : Out :=
  simple (reqD (.movi d i) d) s fun th => th.setS d (i.signExtend 64)

/-- MOVK: one halfword of S(d) is replaced (R117). -/
def execMovk (d : BitVec 7) (q : BitVec 2) (v : BitVec 16) (s : State) : Out :=
  simple { reqD (.movk d q v) d with reads := [d.toNat] } s fun th => th.setS d (setBits (th.S d) (16 * q.toNat) 16 v.toNat)

/-- SEL: a whole register (R118). -/
def execSel (d a b : BitVec 7) (k : BitVec 3) (s : State) : Out :=
  simple (reqDAB (.sel d a b k) d a b) s fun th => th.setV d (if th.cond k then th.V a else th.V b)

/-! ### Masks (R119, R120) -/

/-- The relation that a condition of kcmp names (R119). -/
def kcmpRel (c : BitVec 3) (x y : Dword) : Bool :=
  match c.toNat with
  | 0 => x == y
  | 1 => x != y
  | 2 => decide (x.toInt < y.toInt)
  | 3 => decide (y.toInt ≤ x.toInt)
  | 4 => decide (x.toNat < y.toNat)
  | _ => decide (y.toNat ≤ x.toNat)

/-- KCMP: every bit of the mask becomes the condition (R119). -/
def execKcmp (d : BitVec 3) (a b : BitVec 7) (c : BitVec 3) (s : State) : Out :=
  simple { reqAB (.kcmp d a b c) a b with legal := condOk c } s fun th =>
    th.setK d (if kcmpRel c (th.S a) (th.S b) then BitVec.allOnes 128 else 0)


/-- KAND (R120). -/
def execKand (d a b : BitVec 3) (s : State) : Out :=
  simple (req0 (.kand d a b)) s fun th => th.setK d (th.K a &&& th.K b)

/-- KOR (R120). -/
def execKor (d a b : BitVec 3) (s : State) : Out :=
  simple (req0 (.kor d a b)) s fun th => th.setK d (th.K a ||| th.K b)

/-- KXOR (R120). -/
def execKxor (d a b : BitVec 3) (s : State) : Out :=
  simple (req0 (.kxor d a b)) s fun th => th.setK d (th.K a ^^^ th.K b)

/-- KANDN (R120). -/
def execKandn (d a b : BitVec 3) (s : State) : Out :=
  simple (req0 (.kandn d a b)) s fun th => th.setK d (th.K a &&& ~~~th.K b)

/-- KNOT (R120). -/
def execKnot (d a : BitVec 3) (s : State) : Out :=
  simple (req0 (.knot d a)) s fun th => th.setK d (~~~th.K a)

/-- KMOV (R120). -/
def execKmov (d a : BitVec 3) (s : State) : Out :=
  simple (req0 (.kmov d a)) s fun th => th.setK d (th.K a)

/-- KFIRST (R120). -/
def execKfirst (d a : BitVec 3) (s : State) : Out :=
  simple (req0 (.kfirst d a)) s fun th => th.setK d (th.K a &&& -th.K a)

/-- VTOK (R120). -/
def execVtok (d : BitVec 3) (a : BitVec 7) (s : State) : Out :=
  simple (reqA (.vtok d a) a) s fun th => th.setK d ((th.V a).setWidth 128)

/-- KTOV (R120). -/
def execKtov (d : BitVec 7) (a : BitVec 3) (s : State) : Out :=
  simple (reqD (.ktov d a) d) s fun th => th.setV d ((th.K a).setWidth 512)

/-- KPOPC (R120). -/
def execKpopc (d : BitVec 7) (a : BitVec 3) (s : State) : Out :=
  simple (reqD (.kpopc d a) d) s fun th => th.setS d (BitVec.ofNat 64 (onesIn (th.K a) 128))

/-- The mask whose lanes 0 to n - 1 of width `w` are active: its low n × w ÷ 8 bits (R120). -/
def prefixMask (n w : Nat) : Mask := BitVec.ofNat 128 (2 ^ (n * w / 8) - 1)

/-- The lane width of a code: 8, 16, 32 or 64 (R120, R51). -/
def laneWidth (w : BitVec 2) : Nat := 8 * 2 ^ w.toNat

/-- VMASK (R120). -/
def execVmask (d : BitVec 3) (a : BitVec 7) (w : BitVec 2) (s : State) : Out :=
  simple (reqA (.vmask d a w) a) s fun th =>
    th.setK d (prefixMask (Nat.min (th.S a).toNat (512 / laneWidth w)) (laneWidth w))

end Sys2Proof.Machine
end

