-- ==== Sys2Proof/Machine/Ext.lean ====
section
/-! DEFINITION. Sys2Proof/Machine/Ext.lean: the `ext` pair (R48 to R50): its second word with the immediate that the prefix
widens. -/

namespace Sys2Proof.Machine

/-- An `ext` that is the last word of an active loop level (R50). -/
def extEndsLoop (s : State) : Bool :=
  match s.thread? s.sched.cur with
  | some th => (th.ctx.lpc0 != 0 && th.ctx.lpe0 == th.ctx.pc) || (th.ctx.lpc1 != 0 && th.ctx.lpe1 == th.ctx.pc)
  | none => false

/-- The requirements of a pair (R49, R50). -/
def pairReq (q : Req) (x : BitVec 26) (w : Word) (s : State) : Req :=
  let q := q.paired x w
  { q with legal := q.legal && !extEndsLoop s }

/-- A pair that raises ILLEGAL_INSTRUCTION (R50). -/
def badPair (x : BitVec 26) (w : Word) (s : State) : Out :=
  begin { (req0 .nop).paired x w with legal := false } s fun s _ _ => .next s

/-- The pair of `ext` with the decoded second word (R48, R51): the field that the map names is widened, by 26 bits. -/
def execPair (x : BitVec 26) (w : Word) (i : Instr) (s : State) : Out :=
  match i with
  | .addi d a i => alu2 (pairReq (reqDA (.addi d a i) d a) x w s) d a (· + (wide x i).signExtend 64) s
  | .andi d a i => alu2 (pairReq (reqDA (.andi d a i) d a) x w s) d a (· &&& (wide x i).signExtend 64) s
  | .ori d a i => alu2 (pairReq (reqDA (.ori d a i) d a) x w s) d a (· ||| (wide x i).setWidth 64) s
  | .xori d a i => alu2 (pairReq (reqDA (.xori d a i) d a) x w s) d a (· ^^^ (wide x i).setWidth 64) s
  | .seqi d a i => alu2 (pairReq (reqDA (.seqi d a i) d a) x w s) d a (fun y => aluCmpeq y ((wide x i).signExtend 64)) s
  | .slti d a i => alu2 (pairReq (reqDA (.slti d a i) d a) x w s) d a (fun y => aluCmplt y ((wide x i).signExtend 64)) s
  | .sltni d a i => alu2 (pairReq (reqDA (.sltni d a i) d a) x w s) d a (fun y => aluCmpltn y ((wide x i).setWidth 64)) s
  | .movi d i => simple (pairReq (reqD (.movi d i) d) x w s) s fun th => th.setS d ((wide x i).signExtend 64)
  | .bt k d => branch (pairReq { req0 (.bt k d) with flow := true } x w s) k true ((wide x d).signExtend 64) s
  | .bf k d => branch (pairReq { req0 (.bf k d) with flow := true } x w s) k false ((wide x d).signExtend 64) s
  | .jmp d => jump (pairReq { req0 (.jmp d) with flow := true } x w s) false ((wide x d).signExtend 64) s
  | .call d => jump (pairReq { req0 (.call d) with flow := true } x w s) true ((wide x d).signExtend 64) s
  | .loopi l c e => startLoop (pairReq { req0 (.loopi l c e) with flow := true } x w s) (l == 1) (fun _ => (wide x c).setWidth 64) e s
  | .pick d n k => pickBy (pairReq (reqD (.pick d n k) d) x w s) d n (wide x k).toNat s
  | .mread d f k => mreadBy (pairReq (reqD (.mread d f k) d) x w s) d f (wide x k).toNat s
  | .mnote k => mnoteBy (pairReq (req0 (.mnote k)) x w s) (wide x k).toNat s
  | .ld d a z i =>
    load (pairReq (reqDA (.ld d a z i) d a) x w s) d z.toNat (eaDisp a ((wide x i).signExtend 64) (sizeLog z.toNat)) none s
  | .vld d a i => load (pairReq (reqDA (.vld d a i) d a) x w s) d 7 (eaDisp a ((wide x i).signExtend 64) 6) none s
  | .lda d a z c i =>
    load (pairReq (reqDA (.lda d a z c i) d a) x w s) d z.toNat (eaDisp a ((wide x i).signExtend 64) (sizeLog z.toNat)) (some c.toNat) s
  | .st d a z i =>
    storeScalar (pairReq (reqAB (.st d a z i) d a) x w s) d z.toNat (eaDisp a ((wide x i).signExtend 64) z.toNat) none s
  | .vst d a i => storeVec (pairReq (reqAB (.vst d a i) d a) x w s) d (eaDisp a ((wide x i).signExtend 64) 6) s
  | .stl d a z c i =>
    storeScalar (pairReq (reqAB (.stl d a z c i) d a) x w s) d z.toNat (eaDisp a ((wide x i).signExtend 64) z.toNat) (some c.toNat) s
  | .pref a i => prefetchBy (pairReq (reqA (.pref a i) a) x w s) true a ((wide x i).signExtend 64) s
  | .prefl2 a i => prefetchBy (pairReq (reqA (.prefl2 a i) a) x w s) false a ((wide x i).signExtend 64) s
  | .l1inv a i => invLine (pairReq (reqA (.l1inv a i) a) x w s) a ((wide x i).signExtend 64) s
  | .zline a i => zeroLine (pairReq (reqA (.zline a i) a) x w s) a ((wide x i).signExtend 64) s
  | _ => badPair x w s

/-- EXT with the word after it (R48 to R50): a second word that is reserved, or has no field to widen, makes the pair
illegal. -/
def execExt (i : BitVec 26) (w : BitVec 32) (s : State) : Out :=
  match decodeMain w with
  | .ok x => execPair i w x s
  | .error _ => badPair i w s

end Sys2Proof.Machine
end

