-- ==== Sys2Proof/Machine/Engine.lean ====
section
/-! DEFINITION. Sys2Proof/Machine/Engine.lean: engine contexts (R244 to R247), how an engine command is issued (R281),
places, boxes and shapes (R282, R283, R320 to R322), and the accesses that engines make. -/

namespace Sys2Proof.Machine

/-! ### Contexts (R244, R345, R247) -/

/-- The key of the pre-empted context whose home slot this was, one with commands in flight first. -/
def State.savedAt (s : State) (home : Nat) : Option Nat :=
  let mine := s.saved.filter fun e => e.2.home == home
  match mine.find? fun e => 0 < e.2.cpOut + e.2.mxOut with
  | some e => some e.1
  | none => (mine.head?).map Prod.fst

/-- The engine context of a home slot: the live or pre-empted thread's, or the ended thread's that is still there. -/
def State.ctxOf (s : State) (home : Nat) (matrix : Bool) : Eng :=
  match mget s.threads home with
  | some th => if matrix then th.matrix else th.copy
  | none => match (s.savedAt home).bind (mget s.saved) with
    | some th => if matrix then th.matrix else th.copy
    | none => match mget (s.core (coreOf home)).oldCtx (slotOf home) with
      | some o => if matrix then o.matrix else o.copy
      | none => Eng.zero

/-- Change both engine contexts' part of a thread. -/
def Thread.modCtx (th : Thread) (matrix : Bool) (f : Eng → Eng) : Thread :=
  if matrix then { th with matrix := f th.matrix } else { th with copy := f th.copy }

/-- Change the context of a home slot. -/
def State.modCtx (s : State) (home : Nat) (matrix : Bool) (f : Eng → Eng) : State :=
  if (mget s.threads home).isSome then { s with threads := mmod s.threads home fun th => th.modCtx matrix f }
  else match s.savedAt home with
  | some k => { s with saved := mmod s.saved k fun th => th.modCtx matrix f }
  | none =>
    let up (o : OldCtx) : OldCtx := if matrix then { o with matrix := f o.matrix } else { o with copy := f o.copy }
    s.modCore (coreOf home) fun x => { x with oldCtx := mmod x.oldCtx (slotOf home) up }

/-- Lower OPC.CP or OPC.MX of the thread that owns a context (R346). -/
def State.lowerOpc (s : State) (home : Nat) (matrix : Bool) (n : Nat) : State :=
  let f (th : Thread) : Thread := if matrix then { th with mxOut := th.mxOut - n } else { th with cpOut := th.cpOut - n }
  if (mget s.threads home).isSome then { s with threads := mmod s.threads home f }
  else match s.savedAt home with
  | some k => { s with saved := mmod s.saved k f }
  | none => s

/-- The timeline goes on over the commands that have completed (R345). -/
def Eng.advance (e : Eng) : Nat → Eng
  | 0 => e
  | n + 1 =>
    if e.done.contains (e.cnt + 1) then Eng.advance { e with cnt := e.cnt + 1, done := e.done.filter (· != e.cnt + 1) } n else e

/-- Command `n` has completed with pending flags (R98, R201); the counter is past it if the context was reset meanwhile (R247). -/
def Eng.complete (e : Eng) (n : Nat) (fl : Flg) : Eng :=
  let e := { e with done := if n ≤ e.cnt then e.done else n :: e.done, flags := if fl = 0 then e.flags else e.flags ++ [(n, fl.toNat)] }
  e.advance e.done.length

/-- A failed context is reset (R247); flags of its completed commands stay for the next merge (log 97, DESIGN CHOICE). -/
def Eng.reset (e : Eng) : Eng := { e with cnt := e.issued, done := [], failed := none }

/-- The id of a context (R244). -/
def ctxId (home : Nat) (matrix : Bool) : Nat :=
  (if matrix then 1 else 0) + slotOf home * 4 + coreOf home % 128 * 2 ^ 8 + dieOf (coreOf home) * 2 ^ 15

/-- Tile operations of a matrix command, as OPC.MX counts them (R281, R346). -/
def MatCmd.tiles (m : MatCmd) : Nat := if m.op = 9 ∨ m.op = 10 then nbits m.c 8 8 + 1 else 1

/-- The identity under which an engine command's writes and peer writes are in flight. -/
def cmdTag (id : Nat) : Nat := 65536 + id

/-- A command that was issued to a peer leaves its queue: its message counts as received, and those of its writes that are still on
their way count for themselves (R28, R29). -/
def State.endPeer (s : State) (c who launch id : Nat) (peer : Bool) : State :=
  if peer then
    let mine := s.flight.peers.filter fun p => p.tid == cmdTag id
    let s := s.modFlight fun f => { f with peers := f.peers.map fun p => if p.tid = cmdTag id then { p with counted := true, who := who } else p }
    (s.countSent c who launch mine.length).countRecvd c who launch 1
  else s

/-- Commands of a context whose numbers satisfy `drop` leave the queues, and their drain buffers are free (R247). -/
def State.discardCtx (s : State) (home : Nat) (matrix : Bool) (drop : Nat → Bool) : State :=
  let copies := if matrix then [] else s.cores.flatMap fun e => (e.2.copyQ.filter fun m => m.home == home && drop m.n).map fun m => (e.1, m)
  let mats := if matrix then s.cores.flatMap fun e => (e.2.matQ.filter fun m => m.home == home && drop m.n).map fun m => (e.1, m) else []
  let left (x : Core) : Core :=
    if matrix then { x with matQ := x.matQ.filter fun m => !(m.home == home && drop m.n) }
    else { x with copyQ := x.copyQ.filter fun m => !(m.home == home && drop m.n) }
  let s := { s with cores := s.cores.map fun (e : Nat × Core) => (e.1, left e.2) }
  let s := s.lowerOpc home matrix (copies.length + (mats.map fun e => e.2.tiles - e.2.retired).sum)
  let s := copies.foldl (fun s e => s.endPeer e.1 e.2.who e.2.launch e.2.id e.2.peer) s
  let s := mats.foldl (fun s e => s.endPeer e.1 e.2.who e.2.launch e.2.id e.2.peer) s
  let live (d : Drain) : Bool := (s.core d.core).matQ.any fun m => m.id == d.id
  { s with clusters := s.clusters.map fun (e : Nat × Cluster) => (e.1, { e.2 with drains := e.2.drains.filter live }) }

/-- Command `n` of a context fails (R247): the failure waits until its record has a place (R258). It and the later ones are discarded; the
earlier ones go on. After the context has been reset beyond `n`, only that command is. (Log 94, DEDUCED.) -/
def State.failCmd (s : State) (c home launch tenant n : Nat) (matrix : Bool) (cause : Nat) : State :=
  if !s.faultRoom tenant then s
  else
    let e := s.ctxOf home matrix
    let cmds := ((s.core c).copyQ.filter fun m => m.home == home && m.launch == launch && n ≤ m.n).map CopyCmd.id
    let s := if n ≤ e.cnt then s.discardCtx home matrix (· == n)
      else
        let later := match e.failed with | some f => decide (f.1 < n) | none => false
        (if later then s else s.modCtx home matrix fun e => { e with failed := some (n, cause) }).discardCtx home matrix (n ≤ ·)
    let s := (if matrix then [] else cmds).foldl (fun s id => s.forgetOp (2 ^ 40 + cmdTag id)) s
    s.postFault tenant
      { kind := 0x13, die := dieOf c, status := cause, p0 := BitVec.ofNat 64 (ctxId home matrix), p1 := BitVec.ofNat 64 n, launch := launch }

/-! ### Shapes (R320 to R322) -/

/-- The record that a handle matches. -/
def State.shapeRec (s : State) (tenant handle : Nat) : Option Vec :=
  match s.tenant? tenant with
  | none => none
  | some x =>
    let slot := handle % 2 ^ 20
    let r := mgetD s.tables.shapes (x.shtb + 64 * slot) 0
    if slot < 4096 ∧ nbits r 96 8 = 1 ∧ nbits r 80 12 = handle / 2 ^ 20 % 2 ^ 12 then some r else none

def shapeBase (r : Vec) : Nat := nbits r 0 64
def shapeType (r : Vec) : Nat := nbits r 64 8
def shapeRank (r : Vec) : Nat := nbits r 72 8
def shapeExt (r : Vec) (d : Nat) : Nat := nbits r (128 + 32 * d) 32
def shapeStride (r : Vec) (d : Nat) : Nat := nbits r (256 + 64 * d) 64
/-- Bytes of an element of a type code (R321). -/
def typeBytes (ty : Nat) : Nat := [1, 1, 1, 1, 2, 2, 4, 4, 4, 2, 2, 8].getD ty 1

/-- The address of the element at a coordinate (R321). -/
def shapeAddr (r : Vec) (cs : List Nat) : Nat :=
  ((List.range cs.length).foldl (fun a d => a + cs.getD d 0 * shapeStride r d) (shapeBase r)) % 2 ^ 64

/-- A box's fields (R283): its handle, the origin and the extent of a dimension. -/
def boxHandle (v : Vec) : Nat := nbits v 0 32
def boxOrg (v : Vec) (d : Nat) : Int := signedOf (nbits v (32 + 24 * d) 24) 24
def boxExt (v : Vec) (d : Nat) : Nat := nbits v (128 + 16 * d) 16 + 1

/-- Elements of a box of rank `r`. -/
def boxCount (v : Vec) (r : Nat) : Nat := (List.range r).foldl (fun n d => n * boxExt v d) 1

/-- Box coordinates of the element `i` in box order. -/
def boxCoords (v : Vec) (r i : Nat) : List Nat :=
  (List.range r).map fun d => i / ((List.range (r - 1 - d)).foldl (fun n k => n * boxExt v (d + 1 + k)) 1) % boxExt v d

/-- The address of an element given by signed coordinates, if it lies in bounds. -/
def elementAt (r : Vec) (cs : List Int) : Option Nat :=
  if (List.range cs.length).all fun d => decide (0 ≤ cs.getD d 0) && decide (cs.getD d 0 < shapeExt r d)
  then some (shapeAddr r (cs.map Int.toNat)) else none

/-- The address of box element `i`, if it is in bounds (R283). -/
def boxAddr (r v : Vec) (i : Nat) : Option Nat :=
  let cs := boxCoords v (shapeRank r) i
  elementAt r ((List.range cs.length).map fun d => boxOrg v d + (cs.getD d 0 : Int))

/-- Dimensions at and above the shape's rank have origin 0 and extent 1 (R283). -/
def boxFits (r v : Vec) : Bool :=
  (List.range 4).all fun d => decide (d < shapeRank r) || (boxOrg v d == 0 && boxExt v d == 1)

/-! ### Places and rings (R282, R248) -/

def placeRing (v : Vec) : Bool := v.getLsbD 31
def placeOff (v : Vec) : Nat := nbits v 0 23
def placeSwz (v : Vec) : Nat := nbits v 24 2
def ringNo (v : Vec) : Nat := nbits v 0 4

/-- A place keeps the fields of R282; a swizzle of 3 fails the command when it starts (R172). (Log 31, DEDUCED.) -/
def placeOk (v : Vec) : Bool :=
  nbits v 32 32 == 0 && nbits v 26 5 == 0 && nbits v 23 1 == 0 &&
    (if placeRing v then placeSwz v == 0 && nbits v 4 19 == 0 else nbits v 0 6 == 0)

/-- A fixed place states swizzle 3 (R172, R247 cause 8). -/
def swizzleBad (v : Vec) : Bool := !placeRing v && placeSwz v == 3

def Ring.base (r : Ring) : Nat := nbits r.desc 0 12 * 2048
def Ring.slotSize (r : Ring) : Nat := (nbits r.desc 20 6 + 1) * 2048
def Ring.count (r : Ring) : Nat := 2 ^ nbits r.desc 26 4
def Ring.swz (r : Ring) : Nat := nbits r.desc 30 2

/-- Counter arithmetic modulo 2^16 (R249). -/
def ringDiff (a b : Nat) : Nat := (a + 2 ^ 16 - b) % 2 ^ 16
def ringNext (a : Nat) : Nat := (a + 1) % 2 ^ 16

/-- The ring that a launch configured (R248). -/
def State.ring? (s : State) (c launch k : Nat) : Option Ring :=
  match mget (s.core c).rings k with
  | some r => if r.launch = launch then some r else none
  | none => none
def State.modRing (s : State) (c k : Nat) (f : Ring → Ring) : State := s.modCore c fun x => { x with rings := mmod x.rings k f }

/-- A push may reserve, a pop may claim, and a claimed slot has been published (R249). -/
def Ring.canPush (r : Ring) : Bool := ringDiff r.wptr r.head < r.count
def Ring.canPop (r : Ring) : Bool := ringDiff r.rptr r.head < r.count && r.rptr != r.wptr
def Ring.published (r : Ring) (v : Nat) : Bool := ringDiff r.tail r.head > ringDiff v r.head

/-- A counter passes the slots that are done, in order. -/
def passDone (c : Nat) (done : List Nat) : Nat → Nat × List Nat
  | 0 => (c, done)
  | n + 1 => if done.contains c then passDone (ringNext c) (done.filter (· != c)) n else (c, done)

/-- The slot of counter value `v` is filled: TAIL goes on over filled slots (R249). -/
def Ring.fill (r : Ring) (v : Nat) : Ring :=
  let x := passDone r.tail (v :: r.filled) (r.filled.length + 1)
  { r with tail := x.1, filled := x.2 }
/-- The slot of counter value `v` has been read: HEAD goes on over read slots (R249). -/
def Ring.retire (r : Ring) (v : Nat) : Ring :=
  let x := passDone r.head (v :: r.read) (r.read.length + 1)
  { r with head := x.1, read := x.2 }

/-- Bytes of a place in the launch's grant: where they start, the swizzle. -/
structure PlaceAt where
  off : Nat
  swz : Nat
  deriving DecidableEq, Repr

/-- The slot of a ring for a counter value. -/
def Ring.place (r : Ring) (v : Nat) : PlaceAt := { off := r.base + v % r.count * r.slotSize, swz := r.swz }

/-- The physical offset of a logical one under a swizzle (R172). -/
def swizzle (swz l : Nat) : Nat := match swz with
  | 1 => l ^^^ (field l 9 3 * 64)
  | 2 => l ^^^ (field l 10 4 * 64)
  | _ => l

/-- The scratchpad offset in the cluster where a launch's grant starts, and its length. -/
def State.grantBase (s : State) (c launch : Nat) : Nat :=
  match s.launch? launch with
  | some l => mgetD l.spBase (clusterOf c) 0
  | none => 0
def State.grantSize (s : State) (launch : Nat) : Nat :=
  match s.launch? launch with
  | some l => l.part 38 1 * 65536
  | none => 0

/-- Bytes of a place, from its byte `o` on. -/
def State.placeBytes (s : State) (c launch : Nat) (p : PlaceAt) (o n : Nat) : List Byte :=
  let g := s.grantBase c launch
  (List.range n).map fun j => s.scratchByte (clusterOf c) (g + swizzle p.swz (p.off + o + j))
def State.putPlace (s : State) (c launch : Nat) (p : PlaceAt) (o : Nat) (bs : List Byte) : State :=
  let g := s.grantBase c launch
  let ws := (place 0 bs).map fun w => (g + swizzle p.swz (p.off + o + w.1), w.2)
  ws.foldl (fun s w => s.mend (sramLine 0 (clusterOf c) (w.1 / 64)) [w.1]) (s.putScratch (clusterOf c) ws)

/-- A byte of a place holds an uncorrectable error (R169). -/
def State.placeBad (s : State) (c launch : Nat) (p : PlaceAt) (o n : Nat) : Bool :=
  let g := s.grantBase c launch
  (List.range n).any fun j =>
    let a := g + swizzle p.swz (p.off + o + j)
    s.badBytes (sramLine 0 (clusterOf c) (a / 64)) (a % 64) 1

/-! ### Accesses of engines (R247, R228) -/

/-- What an engine's command has so far: the state, the granules it has counted (R318), and flags (R98). -/
structure Run where
  s : State
  grans : List Nat := []
  flags : Flg := 0
  deriving Repr

/-- Who runs a command: the core of its queue, launch and tenant, and the command's own identity. -/
structure Owner where
  core : Nat
  launch : Nat
  tenant : Nat
  /-- The thread that it counts for. -/
  who : Nat
  id : Nat
  deriving DecidableEq, Repr

/-- A step of an engine: it goes on, fails with a cause, or waits (R247, R179), in a state of R352: 1 for translation, 2 for memory, 3 for a
ring, 5 for an ordered-reduction buffer, 6 for a block window. -/
inductive Eff (α : Type) where
  | ok (x : α) (r : Run)
  | fail (cause : Nat) (r : Run)
  | wait (why : Nat) (r : Run)
  deriving Repr

/-- An address as an engine reaches it, with the page's cached translation (R228, R247). -/
inductive EngLoc where
  | loc (l : Loc) (x : Option Tlb)
  | bad (cause : Nat)
  deriving Repr

def State.engLoc (s : State) (o : Owner) (va n acc : Nat) : EngLoc :=
  if va / 2 ^ 52 = 0 then
    let x : Except Nat Tlb := match tlbHit (s.core o.core).tlb o.tenant va with
      | some x => .ok x
      | none => match tlbHit (s.cluster (clusterOf o.core)).l2tlb o.tenant va with
        | some x => .ok x
        | none => match s.walk o.tenant va with
          | .fault code => .error (if code = 0x05 then 1 else 2)
          | .leaf e b z => .ok { tenant := o.tenant, base := b, size := z, pte := e, dirty := pteD e }
    match x with
    | .error k => .bad k
    | .ok x =>
      if !permits x.pte acc then .bad 2
      else if pteBlock x.pte then
        let a := ptePfn x.pte + 16 * (field va 16 14)
        let b := s.blk a
        if !s.blkLive b then .bad 11
        else if !s.keyValid (blkKey b) then .bad 4
        else .loc (.mem (blkBase b + va % 65536) (blkKey b) (some a)) (some x)
      else if !s.keyValid (pteKey x.pte) then .bad 4
      else
        let pa := ptePfn x.pte + (va - x.base)
        match peerOf pa with
        | some w => .loc (.peer w (pa % 2 ^ 41)) (some x)
        | none => .loc (.mem pa (pteKey x.pte) none) (some x)
  else if va / 2 ^ 52 = 0xFF0 then
    if va % 2 ^ 52 + n ≤ s.grantSize o.launch then .loc (.scratch (clusterOf o.core) (s.grantBase o.core o.launch + va % 2 ^ 52)) none
    else .bad 2
  else .bad 2

/-- The access counters of block windows count each granule of a command once (R318). -/
def Run.touch (r : Run) (o : Owner) (va : Nat) (blk : Option Nat) : Run :=
  match blk with
  | some a => if r.grans.contains (va / 256) then r else { r with s := r.s.countAcc (dieOf o.core) o.tenant a va 1, grans := va / 256 :: r.grans }
  | none => r

def Owner.tag (o : Owner) : Nat := cmdTag o.id

/-- An engine's translation has to wait for a walk (R164). -/
def State.engWalk (s : State) (o : Owner) (va : Nat) : Option State := s.engMiss o.core o.who o.launch o.tenant va

/-- The translation that an engine has used is in the TLB of its core from then on; what it missed there counts for its command (R164,
R351). -/
def State.engFill (s : State) (o : Owner) (x : Option Tlb) : State :=
  match x with
  | none => s
  | some x =>
    if (tlbHit (s.core o.core).tlb o.tenant x.base).isSome then s
    else (s.countFor o.core o.who o.launch o.tenant 0x23 1).modCore o.core fun y => { y with tlb := tlbFill y.tlb x 64 }

/-- Read bytes of one line. -/
def engRead (r : Run) (o : Owner) (va n : Nat) : Eff (List Byte) :=
  match r.s.engWalk o va with
  | some y => .wait 1 { r with s := y }
  | none => match r.s.engLoc o va n 0 with
  | .bad k => .fail k r
  | .loc l x =>
    match l with
    | .mem pa key blk =>
      if r.s.zeroing (pa / 64) then .wait 2 r
      else if (if r.s.atHome (dieOf o.core) pa key then r.s.badAt pa n else r.s.badBytes (sramLine 3 (dieOf o.core) (pa / 64)) (pa % 64) n) then
        .fail 3 r
      else
        let y := r.s.engFill o x
        let z := (y.traffic o.core o.who o.launch o.tenant pa false (cached := !y.atHome (dieOf o.core) pa key)).readLine (dieOf o.core) pa key
        .ok (lineBytes z.1 (pa % 64) n) (({ r with s := z.2 }).touch o va blk)
    | .scratch k off =>
      if r.s.badLoc l n then .fail 3 r else .ok ((List.range n).map fun j => r.s.scratchByte k (off + j)) r
    | .peer w off =>
      if r.s.mute w then .wait 2 { r with s := r.s.unheard (readKey w off) }
      else if r.s.peerAllows w off n 0 then .ok (lineBytes (Config.peerBytes w off r.s.sched.fresh) 0 n) { r with s := r.s.tick } else .fail 2 r
    | .localStore _ _ _ => .fail 2 r

/-- The RDC invalidations of an engine's write complete (R201). (Log 53, DESIGN CHOICE.) -/
def State.engInvals (s : State) (tag : Nat) : State := s.invalsOf tag

/-- The first engine write through a clean translation logs its page (R180). -/
def State.engDirty (s : State) (o : Owner) (x : Tlb) : State :=
  let s := s.engFill o (some x)
  if x.dirty then s else (if 512 ≤ (s.core o.core).logged then s.mergeDirty o.core else s).logDirty o.core x

/-- A write that an engine has to hold (R177 to R179): the state with the copy on write it starts, or nothing to hold. -/
inductive EngHeld where
  | free
  | wait (s : State)
  | fail
  deriving Repr

def State.engHeld (s : State) (o : Owner) (va a : Nat) : EngHeld :=
  let d := dieOf o.core
  let e := s.blk a
  match s.blockWrite d a va o.tenant nobody with
  | .inPlace _ => .free
  | .full => .wait s
  | .held s2 =>
    if (s.cowQueued a).isNone && blkCow e && !blkWb e && (s.freeList (freeKey d o.tenant (blkTier e))).isEmpty then .fail else .wait s2

/-- Write bytes of one line; `f` makes them of the bytes there, for an addition at the home (R104). -/
def engModify (r : Run) (o : Owner) (va n acc : Nat) (f : List Byte → List Byte) : Eff Unit :=
  match r.s.engWalk o va with
  | some y => .wait 1 { r with s := y }
  | none => match r.s.engLoc o va n acc with
  | .bad k => .fail k r
  | .loc l x =>
    match l with
    | .mem pa key blk =>
      if r.s.zeroing (pa / 64) then .wait 2 r
      else
        let held := match blk with | some a => r.s.engHeld o va a | none => .free
        match held with
        | .fail => .fail 11 r
        | .wait s => .wait 6 { r with s := s }
        | .free =>
          if acc = 2 && r.s.badAt pa n then .fail 3 r
          else
          let s := match blk, x with
            | some a, _ => (match r.s.blockWrite (dieOf o.core) a va o.tenant nobody with
              | .inPlace s => s
              | _ => r.s)
            | none, some x => r.s.engDirty o x
            | none, none => r.s
          let s := s.traffic o.core o.who o.launch o.tenant pa false
          let s := s.performWrite o.tag (dieOf o.core) key (place pa (f (s.homeBytes pa n key)))
          .ok () (({ r with s := s.engInvals o.tag }).touch o va blk)
    | .scratch k off =>
      if acc = 2 && r.s.badLoc l n then .fail 3 r
      else
        let req : StoreReq := { loc := l, writes := place off (f ((List.range n).map fun j => r.s.scratchByte k (off + j))) }
        .ok () { r with s := r.s.performStore o.tag o.core o.launch req }
    | .peer w off =>
      if acc = 2 && !r.s.peerAllows w off n 2 then .fail 2 r
      else
      let old := lineBytes (Config.peerBytes w off r.s.sched.fresh) 0 n
      let s := match x with
        | some x => (r.s.engDirty o x).tick
        | none => r.s.tick
      let p : PeerOp := { id := s.sched.nextId, tid := o.tag, core := o.core, launch := o.launch, window := w, writes := place off (f old),
                          counted := false, who := nobody }
      .ok () { r with s := (s.modFlight fun x => { x with peers := x.peers ++ [p] }).newId }
    | .localStore _ _ _ => .fail 2 r

/-- Write bytes of one line. -/
def engWrite (r : Run) (o : Owner) (va : Nat) (bs : List Byte) : Eff Unit := engModify r o va bs.length 1 fun _ => bs

/-- Whether the accesses a command is about to make can all be made now: the first that waits or fails decides, and
in what state of R352 it waits (R164, R166, R179). -/
def State.engReady (s : State) (o : Owner) (acc n : Nat) : List Nat → Option (Nat × State)
  | [] => none
  | va :: rest =>
    match s.engWalk o va with
    | some y => some (1, y)
    | none => match s.engLoc o va n acc with
    | .bad _ => none
    | .loc (.mem pa _ blk) _ =>
      if s.zeroing (pa / 64) then some (2, s)
      else if acc = 0 then s.engReady o acc n rest
      else match blk with
        | none => s.engReady o acc n rest
        | some a => match s.engHeld o va a with
          | .free => s.engReady o acc n rest
          | .fail => none
          | .wait s => some (6, s)
    | .loc _ _ => s.engReady o acc n rest

/-- Run an effect over a list, one element after the other. -/
def engEach {α : Type} (f : Run → α → Eff Unit) : Run → List α → Eff Unit
  | r, [] => .ok () r
  | r, x :: rest =>
    match f r x with
    | .ok _ r => engEach f r rest
    | .fail k r => .fail k r
    | .wait k r => .wait k r

/-! ### Issue (R281) -/

/-- A refused operand (R281): the fault and TRAPV. -/
abbrev Refusal281 := Option (Nat × Dword)

/-- The first of the checks that refuses. -/
def firstRefusal (xs : List Refusal281) : Refusal281 := xs.findSome? id

/-- A field rule of an operand: bits 63:0 of it go to TRAPV. -/
def operandRule (ok : Bool) (v : Vec) : Refusal281 := if ok then none else some (0x06, v.setWidth 64)

/-- A box keeps its reserved bits and names a shape that is defined (R283, R281). -/
def boxRule (v : Vec) : Refusal281 := operandRule (nbits v 192 320 == 0) v
def staleRule (s : State) (th : Thread) (v : Vec) : Refusal281 :=
  match s.shapeRec th.tenant (boxHandle v) with
  | some _ => none
  | none => some (0x09, BitVec.ofNat 64 (boxHandle v))

/-- Issue an engine command (R281): it waits for its turn, is checked, takes its number, and `put` places it in its
queue; after a failure it is discarded (R247). -/
def engIssue (q : Req) (matrix : Bool) (tiles : Thread → Nat) (check : State → Thread → Refusal281)
    (put : State → Nat → Thread → Nat → State) (s : State) : Out :=
  begin { q with access := true, commit := true, early := [.release 3, .queue matrix] } s fun s t th =>
    let h := s.homeThread th
    if (s.releaseHeld th 3).isSome then .next (hold s t 5)
    else if !s.queueRoom (coreOf t) th.launch matrix ∨ (matrix ∧ 511 < h.mxOut + tiles th) ∨ (!matrix ∧ 255 ≤ h.cpOut) then
      .next (hold s t 6)
    else match check s th with
    | some (code, v) => raise s t q code v
    | none =>
      let e := s.ctxOf th.home matrix
      let n := e.issued + 1
      let s := s.modCtx th.home matrix fun e => { e with issued := n }
      if e.failed.isSome then .next (finish s t ((s.thread? t).getD th |>.counted) q .seq)
      else
        let up (x : Thread) : Thread := if matrix then { x with mxOut := x.mxOut + tiles th } else { x with cpOut := x.cpOut + 1 }
        let s := (put s t th n).newId
        let s := s.modThread th.home up
        .next (finish s t ((s.thread? t).getD th |>.counted) q .seq)

end Sys2Proof.Machine
end

