-- ==== Sys2Proof/Machine/Region.lean ====
section
/-! DEFINITION. Sys2Proof/Machine/Region.lean: sparse coordinate regions (R205 to R226): their trees in granted memory,
the operations at their point, and opening and closing. -/

namespace Sys2Proof.Machine

/-! ### Nodes (R211, R212) -/

/-- A node: a leaf has entries of key and value, an internal node has separators and children; a free node names the
next one. -/
structure Node where
  kind : Nat
  next : Nat
  entries : List (Nat × Nat)
  seps : List Nat
  kids : List Nat
  deriving DecidableEq, Repr

/-- "No node" (R211). -/
def noNode : Nat := 0xFFFFFFFF

def leafNode (es : List (Nat × Nat)) (next : Nat) : Node := { kind := 1, next := next, entries := es, seps := [], kids := [] }
def innerNode (seps kids : List Nat) : Node := { kind := 2, next := noNode, entries := [], seps := seps, kids := kids }
def freeNode (next : Nat) : Node := { kind := 0, next := next, entries := [], seps := [], kids := [] }

/-- Entries of a leaf or children of an internal node. -/
def Node.size (x : Node) : Nat := if x.kind = 2 then x.kids.length else x.entries.length

/-- The address of a node (R211). -/
def Region.addr (r : Region) (n : Nat) : Option Nat :=
  match r.grants[n / 2 ^ 28]? with
  | some (some b) => some (b + 256 * (n % 2 ^ 28))
  | _ => none

/-- Bytes filled up with zeros. -/
def padTo (bs : List Byte) (n : Nat) : List Byte := (bs ++ List.replicate n 0).take n

/-- The 256 bytes of a node (R212). -/
def nodeBytes (g : Nat) (r : Region) (x : Node) : List Byte :=
  let header := bytesOf x.kind 1 ++ bytesOf x.size 1 ++ bytesOf g 1 ++ bytesOf r.tenant 1 ++ bytesOf x.next 4 ++ bytesOf 0 8
  if x.kind = 2 then
    padTo (header ++ padTo (x.seps.flatMap fun k => bytesOf k 12) 168 ++ x.kids.flatMap fun c => bytesOf c 4) 256
  else padTo (header ++ x.entries.flatMap fun e => bytesOf e.1 12 ++ bytesOf e.2 4) 256

/-- A number in a list of bytes. -/
def numAt (bs : List Byte) (o n : Nat) : Nat := ofBytes ((bs.drop o).take n)

/-- Why an operation on a region does not complete (R222, R226). -/
inductive RegErr where
  | translation
  | mismatch
  | lost (va : Nat)
  /-- The node lies in a peer window, and the port drops what is sent there: the read that is never answered (R388, R391). -/
  | silent (key : Nat)
  /-- A line of the node is still being zeroed, or another operation's write of it is held (R166, R211). -/
  | wait
  deriving DecidableEq, Repr

/-- A node as its bytes give it; one that does not match the tree is refused (R226). -/
def nodeOf (g : Nat) (r : Region) (bs : List Byte) : Except RegErr Node :=
  let kind := numAt bs 0 1
  let c := numAt bs 1 1
  if numAt bs 2 1 ≠ g ∨ numAt bs 3 1 ≠ r.tenant ∨ 15 < c then .error .mismatch
  else if kind = 1 then
    .ok (leafNode ((List.range c).map fun j => (numAt bs (16 + 16 * j) 12, numAt bs (28 + 16 * j) 4)) (numAt bs 4 4))
  else if kind = 2 ∧ c ≠ 0 then
    .ok (innerNode ((List.range (c - 1)).map fun i => numAt bs (16 + 12 * i) 12) ((List.range c).map fun i => numAt bs (184 + 4 * i) 4))
  else .error .mismatch

/-- Another operation's write of the node at an address is held (R211). -/
def Region.waits (r : Region) (va : Nat) : Bool := r.ops.any fun e => e.2.any fun v => v / 256 == va / 256
/-- The region as the operation `me` finds it: its own held writes do not hold it. -/
def Region.mine (r : Region) (me : Nat) : Region := { r with ops := mdel r.ops me }

/-- The walker of the die has the page of an address under way, or no place for its walk (R164). -/
def State.walkerBusy (s : State) (d tenant va : Nat) : Bool := match s.walk tenant va with
  | .leaf _ base size =>
    let mine := s.flight.walks.filter fun w => w.die == d
    decide (64 ≤ mine.length) || mine.any fun w => w.tenant == tenant && base ≤ w.va && w.va < base + size
  | .fault _ => false

/-- Read a node at a level of the tree, 1 for the leaves (R211, R213, R226). The controller has no TLB: the die's walker translates for it, and
a node in a peer window is read at the peer, as the engines' accesses are (R164, R388; log 140, DESIGN CHOICE). -/
def State.readNode (s : State) (g : Nat) (r : Region) (level n : Nat) : Except RegErr Node :=
  let fit (e : Except RegErr Node) : Except RegErr Node := e.bind fun x => if (x.kind == 1) == (level ≤ 1) then .ok x else .error .mismatch
  match r.addr n with
  | none => .error .mismatch
  | some va =>
    match s.reach r.tenant va 0 with
    | .fault _ => .error .translation
    | .at_ pa key _ =>
      if r.waits va || s.walkerBusy r.die r.tenant va then .error .wait
      else match peerOf pa with
      | some w =>
        let off := pa % 2 ^ 41
        if s.mute w then .error (.silent (readKey w off))
        else if !s.peerAllows w off 256 0 then .error .translation
        else fit (nodeOf g r ((List.range 4).flatMap fun i => lineBytes (Config.peerBytes w (off + 64 * i) s.sched.fresh) 0 64))
      | none =>
      if (List.range 4).any fun i => s.zeroing (pa / 64 + i) then .error .wait
      else match (List.range 4).find? fun i => s.badLine (pa / 64 + i) with
      | some i => .error (.lost (va + 64 * i))
      | none =>
        fit (nodeOf g r (s.homeBytes pa 256 key))

/-! ### Descent (R213) -/

/-- The child of an internal node that covers a key. -/
def Node.childFor (x : Node) (key : Nat) : Nat := x.kids.getD (x.seps.filter (· ≤ key)).length noNode

/-- The path from a node to the leaf that covers a key, the leaf first. -/
def State.descend (s : State) (g : Nat) (r : Region) (key : Nat) : Nat → Nat → List (Nat × Node) → Except RegErr (List (Nat × Node))
  | 0, _, _ => .error .mismatch
  | level + 1, n, up =>
    match s.readNode g r (level + 1) n with
    | .error e => .error e
    | .ok x => if x.kind = 1 then .ok ((n, x) :: up) else State.descend s g r key level (x.childFor key) ((n, x) :: up)

/-- The path to the leaf for a key, leaf first. -/
def State.pathTo (s : State) (g : Nat) (r : Region) (key : Nat) : Except RegErr (List (Nat × Node)) := s.descend g r key r.height r.root []

/-- The rightmost leaf below a node at a level. -/
def State.lastLeaf (s : State) (g : Nat) (r : Region) : Nat → Nat → Except RegErr (Nat × Node)
  | 0, _ => .error .mismatch
  | level + 1, n =>
    match s.readNode g r (level + 1) n with
    | .error e => .error e
    | .ok x => if x.kind = 1 then .ok (n, x) else State.lastLeaf s g r level (x.kids.getLast?.getD noNode)

/-- The leaf before one in key order: the rightmost leaf left of its path; the nodes above `child` are given, and its level. -/
def State.leafBefore (s : State) (g : Nat) (r : Region) (child level : Nat) : List (Nat × Node) → Except RegErr (Option (Nat × Node))
  | [] => .ok none
  | (n, x) :: up =>
    match x.kids.findIdx? (· == child) with
    | none => .error .mismatch
    | some 0 => State.leafBefore s g r n (level + 1) up
    | some (i + 1) =>
      match s.lastLeaf g r level (x.kids.getD i noNode) with
      | .ok l => .ok (some l)
      | .error e => .error e

/-- The value of a key, 0 if it is absent. -/
def Node.value (x : Node) (key : Nat) : Nat := ((x.entries.find? fun e => e.1 == key).map Prod.snd).getD 0

/-- The first `n` entries with keys above a cursor, from a leaf on (R219). -/
def State.scanFrom (s : State) (g : Nat) (r : Region) (above : Nat → Bool) (n : Nat) : Nat → Node → Except RegErr (List (Nat × Nat))
  | 0, _ => .error .mismatch
  | fuel + 1, x =>
    let es := (x.entries.filter fun e => above e.1).take n
    if n ≤ es.length ∨ x.next = noNode then .ok es
    else match s.readNode g r 1 x.next with
      | .error e => .error e
      | .ok y => match State.scanFrom s g r above (n - es.length) fuel y with
        | .ok rest => .ok (es ++ rest)
        | .error e => .error e

/-! ### What an operation plans: the region after it, and what it writes -/

/-- A plan: writes of at most one line each, in order; the value that answers; and a need of nodes that no grant met
(R222). -/
structure Plan where
  region : Region
  writes : List (Nat × List Byte)
  value : Nat
  short : Option Nat
  deriving Repr

/-- The writes of a node. -/
def Region.nodeWrites (g : Nat) (r : Region) (n : Nat) (x : Node) : List (Nat × List Byte) :=
  match r.addr n with
  | none => []
  | some va => (List.range 4).map fun i => (va + 64 * i, ((nodeBytes g r x).drop (64 * i)).take 64)

def Plan.put (p : Plan) (g n : Nat) (x : Node) : Plan := { p with writes := p.writes ++ p.region.nodeWrites g n x }

/-- Free nodes of a region. -/
def Region.freeCount (r : Region) : Nat := r.free.foldl (fun n x => n + x.2) 0

/-- The node on top of the free list (R214). -/
def Region.top (r : Region) : Nat := match r.free with | x :: _ => x.1 | [] => noNode

/-- Take the node on top of the free list (R214). (Log 37, DEDUCED.) -/
def Region.pop (r : Region) : Region :=
  match r.free with
  | [] => r
  | x :: rest => { r with free := if x.2 ≤ 1 then rest else (x.1 + 1, x.2 - 1) :: rest }

/-- A freed node goes on top of the free list (R214, R215). -/
def Plan.free (p : Plan) (g n : Nat) : Plan :=
  ({ p with region := { p.region with free := (n, 1) :: p.region.free } }).put g n (freeNode p.region.top)

/-- A grant record as it stands: base, count, VALID, and whether its fields are in range (R210). One with an uncorrectable error counts as
not valid, and so does one in a peer window that is not answered (log 121, DESIGN CHOICE). -/
def State.grantRecord (s : State) (r : Region) (i : Nat) : Option (Nat × Nat × Bool) :=
  let va := r.grqb + 16 * i
  match s.reach r.tenant va 0, s.reach r.tenant va 1 with
  | .at_ pa key _, .at_ _ _ _ =>
    let bytes : Option (List Byte) := match peerOf pa with
      | some w =>
        let off := pa % 2 ^ 41
        if s.mute w || !s.peerAllows w off 16 0 || !s.peerAllows w off 16 1 then none else some (lineBytes (Config.peerBytes w off s.sched.fresh) 0 16)
      | none => if s.badAt pa 16 || s.zeroing (pa / 64) then none else some (s.homeBytes pa 16 key)
    match bytes with
    | none => none
    | some bs =>
      let base := numAt bs 0 8
      let n := numAt bs 8 4
      let good := base % 4096 == 0 && decide (base < 2 ^ 52) && 1 ≤ n && n ≤ 2 ^ 28 - (if i = 15 then 1 else 0) && numAt bs 14 2 == 0
      if numAt bs 12 1 = 1 then some (base, n, good) else none
  | _, _ => none

/-- Take the next grant (R210); its nodes are on the free list as a run, and none is written before it is used (R212; log 124, DESIGN
CHOICE). -/
def Plan.grant (p : Plan) (base n : Nat) (good : Bool) : Plan :=
  let r := p.region
  let i := r.grants.length
  { p with region := { r with grants := r.grants ++ [if good then some base else none],
                              free := if good then (i * 2 ^ 28, n) :: r.free else r.free },
           writes := p.writes ++ [(r.grqb + 16 * i + 13, [1])] }

/-- Take grants until `need` nodes are free, no valid record remains, or all 16 are taken (R222). (Log 38, DEDUCED.) -/
def State.intake (s : State) (need : Nat) (p : Plan) : Nat → Plan
  | 0 => p
  | fuel + 1 =>
    if need ≤ p.region.freeCount ∨ 16 ≤ p.region.grants.length then p
    else match s.grantRecord p.region p.region.grants.length with
      | none => p
      | some (b, n, good) => State.intake s need (p.grant b n good) fuel

/-- Insert an element after the first `i` of a list. -/
def insertAt {α : Type} (l : List α) (i : Nat) (x : α) : List α := l.take i ++ x :: l.drop i

/-- A node with a new child directly after an old one (R214). -/
def Node.addChild (x : Node) (old new sep : Nat) : Node :=
  let i := (x.kids.findIdx? (· == old)).getD 0
  innerNode (insertAt x.seps i sep) (insertAt x.kids (i + 1) new)

/-- Write a changed node and split upward while a node is overfull (R214, R216): the path from the node up, and the
child it gained with its separator. -/
def Plan.grow (p : Plan) (g : Nat) : List (Nat × Node) → Option (Nat × Nat × Nat) → Plan
  | [], none => p
  | [], some (old, new, sep) =>
    let n := p.region.top
    ({ p with region := { p.region.pop with root := n, height := p.region.height + 1 } }).put g n (innerNode [sep] [old, new])
  | (n, x) :: up, gained =>
    let y := match gained with
      | some (old, new, sep) => x.addChild old new sep
      | none => x
    if y.size ≤ 15 then p.put g n y
    else
      let m := p.region.top
      let p := { p with region := p.region.pop }
      if y.kind = 1 then
        let sep := ((y.entries.drop 8).headD (0, 0)).1
        Plan.grow ((p.put g m (leafNode (y.entries.drop 8) y.next)).put g n (leafNode (y.entries.take 8) m)) g up (some (n, m, sep))
      else
        Plan.grow ((p.put g m (innerNode (y.seps.drop 8) (y.kids.drop 8))).put g n (innerNode (y.seps.take 7) (y.kids.take 8))) g up
          (some (n, m, y.seps.getD 7 0))

/-- Nodes that an insertion needs along a path from the leaf up (R214). -/
def needOf : List (Nat × Node) → Nat
  | [] => 1
  | (_, x) :: up => if x.size < 15 then 0 else needOf up + 1

/-- Entries with a key set to a value, in key order. -/
def setEntry (es : List (Nat × Nat)) (key v : Nat) : List (Nat × Nat) :=
  es.filter (fun e => e.1 < key) ++ (key, v) :: es.filter (fun e => key < e.1)

/-- Remove a child from the nodes above it (R215). -/
def Plan.prune (p : Plan) (g child : Nat) : List (Nat × Node) → Plan × Option (Nat × Node)
  | [] => (p, none)
  | (n, x) :: up =>
    let i := (x.kids.findIdx? (· == child)).getD 0
    let y := innerNode (x.seps.eraseIdx (i - 1)) (x.kids.eraseIdx i)
    if y.kids = [] then Plan.prune (p.free g n) g n up
    else (p.put g n y, some (n, y))

/-- An internal root left with one child is replaced by that child (R215). -/
def State.collapse (s : State) (g : Nat) (p : Plan) (x : Node) : Nat → Except RegErr Plan
  | 0 => .ok p
  | fuel + 1 =>
    match x.kids with
    | [c] =>
      let p := ({ p with region := { p.region with root := c, height := p.region.height - 1 } }).free g p.region.root
      match s.readNode g p.region p.region.height c with
      | .error e => .error e
      | .ok y => if y.kind = 2 then State.collapse s g p y fuel else .ok p
    | _ => .ok p

/-- Remove a key (R215). -/
def State.planDelete (s : State) (g : Nat) (r : Region) (key : Nat) (path : List (Nat × Node)) (old : Nat) : Except RegErr Plan :=
  let p : Plan := { region := { r with entries := r.entries - 1 }, writes := [], value := old, short := none }
  match path with
  | [] => .ok p
  | (n, x) :: up =>
    let y := leafNode (x.entries.filter fun e => e.1 != key) x.next
    if y.entries ≠ [] ∨ up = [] then .ok (p.put g n y)
    else match s.leafBefore g r n 1 up with
      | .error e => .error e
      | .ok before =>
        let p := match before with
          | some (m, z) => p.put g m { z with next := x.next }
          | none => p
        match (p.free g n).prune g n up with
        | (p, some (m, z)) => if m = p.region.root then s.collapse g p z 40 else .ok p
        | (p, none) => .ok p

/-- Store a nonzero value at a key (R207, R214, R222); with too few nodes nothing of the region changes. -/
def State.planStore (s : State) (g : Nat) (r : Region) (key v : Nat) (path : List (Nat × Node)) (old : Nat) : Except RegErr Plan :=
  let p : Plan := { region := r, writes := [], value := old, short := none }
  match path with
  | [] => .ok p
  | (n, x) :: up =>
    let y := leafNode (setEntry x.entries key v) x.next
    if old ≠ 0 then .ok (p.put g n y)
    else
      let need := needOf path
      let p := s.intake need p 16
      if p.region.freeCount < need then .ok { region := r, writes := [], value := old, short := some need }
      else .ok (({ p with region := { p.region with entries := p.region.entries + 1 } }).grow g ((n, y) :: up) none)

/-- A value of a type that counts as zero (R207): 0 i32, 1 f32, 2 bf16. -/
def regZero (ty v : Nat) : Bool := if ty = 0 then v == 0 else if ty = 1 then v % 2 ^ 31 == 0 else v % 2 ^ 15 == 0

/-- The sum of two values of a type (R207). -/
def regAdd (ty x y : Nat) : Nat :=
  if ty = 0 then (x + y) % 2 ^ 32
  else if ty = 1 then (fpAdd fmtF32 0 (unpack fmtF32 x) (unpack fmtF32 y)).1
  else (fpAdd fmtBf16 0 (unpack fmtBf16 x) (unpack fmtBf16 y)).1

/-- A stored value as `sld` places it in a register (R207). -/
def regValue (ty v : Nat) : Dword := if ty = 0 then sextTo v 32 else zextTo v 32

/-- The value operand of a type (R242). -/
def regOperand (ty : Nat) (v : Dword) : Nat := v.toNat % 2 ^ (if ty = 2 then 16 else 32)

/-- A store: zero removes the key (R207). -/
def State.planWrite (s : State) (g : Nat) (r : Region) (key : Nat) (f : Nat → Nat) : Except RegErr Plan :=
  match s.pathTo g r key with
  | .error e => .error e
  | .ok path =>
    let old := match path with | (_, x) :: _ => x.value key | [] => 0
    let v := f old
    if regZero r.ty v then
      if old = 0 then .ok { region := r, writes := [], value := old, short := none } else s.planDelete g r key path old
    else s.planStore g r key v path old

/-- The value at a key. -/
def State.regRead (s : State) (g : Nat) (r : Region) (key : Nat) : Except RegErr Nat :=
  match s.pathTo g r key with
  | .error e => .error e
  | .ok path => .ok (match path with | (_, x) :: _ => x.value key | [] => 0)

/-- The first `n` entries above a cursor (R219); bit 127 set means before every key. -/
def State.regScan (s : State) (g : Nat) (r : Region) (cursor n : Nat) : Except RegErr (List (Nat × Nat)) :=
  let start := 2 ^ 127 ≤ cursor
  match s.pathTo g r (if start then 0 else cursor + 1) with
  | .error e => .error e
  | .ok [] => .ok []
  | .ok ((_, x) :: _) => s.scanFrom g r (fun k => start || cursor < k) n (n + 2) x

/-! ### Applying a plan -/

/-- Whether the writes of a plan can all be made now (R211): those of nodes, and of TAKEN in a grant record, which counts as one of them
(log 123, DESIGN CHOICE). -/
inductive Ready where
  | yes
  | wait (s : State)
  | bad
  deriving Repr

def State.regReady (s : State) (r : Region) : List (Nat × List Byte) → Ready
  | [] => .yes
  | (va, bs) :: rest =>
    match s.reach r.tenant va 1 with
    | .fault _ => .bad
    | .at_ pa _ blk =>
      match peerOf pa with
      | some w => if s.peerAllows w (pa % 2 ^ 41) bs.length 1 then s.regReady r rest else .bad
      | none =>
      if s.walkerBusy r.die r.tenant va || s.zeroing (pa / 64) then .wait s
      else match blk with
      | none => s.regReady r rest
      | some a =>
        match s.blockWrite r.die a va r.tenant nobody with
        | .inPlace _ => s.regReady r rest
        | .full => .wait s
        | .held s2 =>
          if (s.cowQueued a).isNone && blkCow (s.blk a) && !blkWb (s.blk a) &&
              (s.freeList (freeKey r.die r.tenant (blkTier (s.blk a)))).isEmpty then .bad
          else .wait s2

/-- Write bytes of granted memory (R211). -/
def State.regPut (s : State) (r : Region) (w : Nat × List Byte) : State :=
  match s.reach r.tenant w.1 1 with
  | .fault _ => s
  | .at_ pa key blk =>
    let s := match blk with
      | some a => (match s.blockWrite r.die a w.1 r.tenant nobody with
        | .inPlace s => s
        | _ => s)
      | none => s
    s.writeBytes r.die key pa w.1 w.2

/-- What an operation on a region gives its caller. -/
inductive RegOut where
  | done (p : Plan) (s : State)
  /-- The region is broken by this operation: the STATUS of the record and, for lost data, the address. -/
  | broken (status : Nat) (va : Nat) (s : State)
  | wait (s : State)
  deriving Repr

/-- The record of a broken region (R226, R259). -/
def State.reportBreak (s : State) (g : Nat) (r : Region) (launch status : Nat) : State :=
  let lser := match s.launch? launch with | some l => l.lser % 2 ^ 16 | none => 0
  s.postFault r.tenant { kind := 0x12, die := r.die, status := status, p0 := BitVec.ofNat 64 g, p1 := BitVec.ofNat 64 (lser * 2 ^ 48),
                         launch := launch }

/-- The operation `me` breaks a region (R226): a record goes to the tenant's fault queue, and the operation waits for its place there
(R258). -/
def State.breakRegion (s : State) (g : Nat) (r : Region) (me launch status va : Nat) : RegOut :=
  let r := { r.mine me with broken := true }
  if s.faultRoom r.tenant then
    .broken status va (({ s with regions := mput s.regions g r }).reportBreak g r launch status)
  else .wait { s with regions := mput s.regions g { r with found := some (me, status, va, launch) } }

/-- An operation that has found a region broken goes on once its record has a place: the STATUS and the address (R258). -/
def State.resumeBreak (s : State) (g me : Nat) : Option RegOut :=
  match mget s.regions g with
  | none => none
  | some r => match r.found with
    | some (o, status, va, launch) =>
      if o ≠ me then none
      else if s.faultRoom r.tenant then
        some (.broken status va (({ s with regions := mput s.regions g { r with found := none } }).reportBreak g r launch status))
      else some (.wait s)
    | none => none

/-- The controller has received an operation that waits, with the writes that it holds: what needs those nodes waits with it (R209, R211). -/
def State.markOp (s : State) (g me : Nat) (held : List Nat) : State :=
  { s with regions := mmod s.regions g fun r => { r with ops := mput r.ops me held } }

/-- The walks that an operation of a controller starts: as many as a free value says (R164, R353; log 68, DESIGN CHOICE). -/
def State.nodeWalks (s : State) (d tenant : Nat) : State :=
  if s.dies.all fun e => e.2.devs.isEmpty then s
  else (List.range (nbits (BitVec.ofNat 64 s.free) 0 8)).foldl (fun s _ => s.countDie d 0x07 tenant) s.tick

/-- An operation that is refused has completed: it holds nothing of the region any more (R209). -/
def State.dropOp (s : State) (g me : Nat) : State := match mget s.regions g with
  | some r => if (mget r.ops me).isSome then s.forgetOp me else s
  | none => s

/-- Carry out what the operation `me` has planned at this point (R217). -/
def State.regApply (s : State) (g : Nat) (r : Region) (me launch : Nat) (e : Except RegErr Plan) : RegOut :=
  match e with
  | .error .translation => s.breakRegion g r me launch 0 0
  | .error .mismatch => s.breakRegion g r me launch 1 0
  | .error (.lost va) => s.breakRegion g r me launch 2 va
  | .error .wait => .wait (s.markOp g me [])
  | .error (.silent key) => .wait ((s.unheard key).markOp g me [])
  | .ok p =>
    match s.regReady p.region p.writes with
    | .bad => s.breakRegion g r me launch 0 0
    | .wait s => .wait (s.markOp g me (p.writes.map Prod.fst))
    | .yes =>
      let s := s.nodeWalks r.die r.tenant
      .done p { p.writes.foldl (fun s w => s.regPut p.region w) s with regions := mput s.regions g p.region }

/-! ### The checks of R206 -/

/-- Dimension `d` of a coordinate. -/
def coordOf (r : Region) (v d : Nat) : Nat := field v (24 * (r.rank - 1 - d)) 24

/-- TRAPV of a refused operation (R206). -/
def regTrapv (g reason coord : Nat) : Dword := BitVec.ofNat 64 (g + reason * 16 + coord * 2 ^ 8)

/-- The coordinate or cursor is refused (R206, R219). -/
def regCheck (g : Nat) (r : Region) (v : Nat) (cursor : Bool) : Option Dword :=
  match (List.range r.rank).find? fun d => r.extents.getD d 0 ≤ coordOf r v d with
  | some d => some (regTrapv g d (coordOf r v d))
  | none => if (if cursor then v % 2 ^ 127 else v) / 2 ^ (24 * r.rank) ≠ 0 then some (regTrapv g 12 0) else none

/-- The region that a tenant's operation names, or TRAPV of the refusal (R206). -/
def State.regionFor (s : State) (tenant g : Nat) : Except Dword Region :=
  match mget s.regions g with
  | none => .error (regTrapv g 13 0)
  | some r => if r.tenant ≠ tenant then .error (regTrapv g 13 0) else if r.broken then .error (regTrapv g 14 0) else .ok r

/-! ### The instructions (R242) -/

/-- A region operation: its coordinate (none for `scnt`), what it plans, and what its plan leaves in the thread. -/
def regionOp (q : Req) (g : BitVec 4) (cause : Nat) (cursor : Bool) (coord : Option (BitVec 7))
    (plan : State → Region → Thread → Nat → Except RegErr Plan) (result : Region → Plan → Thread → Thread) (s : State) : Out :=
  begin { q with access := true, commit := true } s fun s t th =>
    let broken (status va : Nat) (s : State) : Out :=
      if status = 2 then raise s t q 0x07 (BitVec.ofNat 64 va) else raise s t q 0x06 (regTrapv g.toNat 14 0)
    if s.edge (coreOf t) none then .next (hold s t cause)
    else match s.resumeBreak g.toNat th.who with
    | some (.broken status va s) => broken status va s
    | some _ => .next (holdReply s t cause)
    | none =>
    match s.regionFor th.tenant g.toNat with
    | .error v => raise (s.dropOp g.toNat th.who) t q 0x06 v
    | .ok r =>
      let r := r.mine th.who
      let v := match coord with | some a => (th.V a).toNat % 2 ^ 128 | none => 0
      match coord.bind fun _ => regCheck g.toNat r v cursor with
      | some tv => raise s t q 0x06 tv
      | none =>
        match s.regApply g.toNat r th.who th.launch (plan s r th v) with
        | .wait s => .next (holdReply s t cause)
        | .broken status va s => broken status va s
        | .done p s =>
          match p.short with
          | some need => raise s t q 0x0A (regTrapv g.toNat 0 need)
          | none => .next (finish (s.countDie r.die 0x0C th.tenant) t (result r p th) q .seq)

/-- A plan that only answers. -/
def answer (r : Region) (v : Nat) : Plan := { region := r, writes := [], value := v, short := none }

/-- SLD (R207, R242). -/
def execSld (d a : BitVec 7) (g : BitVec 4) (s : State) : Out :=
  regionOp (reqDA (.sld d a g) d a) g 4 false (some a) (fun s r _ key => (s.regRead g.toNat r key).map (answer r))
    (fun r p th => th.setS d (regValue r.ty p.value)) s

/-- SST (R207, R242); d names the value. -/
def execSst (d a : BitVec 7) (g : BitVec 4) (s : State) : Out :=
  regionOp (reqAB (.sst d a g) d a) g 5 false (some a)
    (fun s r th key => s.planWrite g.toNat r key fun _ => regOperand r.ty (th.S d)) (fun _ _ th => th) s

/-- SADD (R207, R242). -/
def execSadd (d a : BitVec 7) (g : BitVec 4) (s : State) : Out :=
  regionOp (reqXA (.sadd d a g) d a) g 5 false (some a)
    (fun s r th key => s.planWrite g.toNat r key fun old => regAdd r.ty old (regOperand r.ty (th.S d)))
    (fun r p th => th.setS d (regValue r.ty p.value)) s

/-- The slots of a scan step (R219). -/
def scanSlots (es : List (Nat × Nat)) : Nat := es.foldr (fun e acc => e.1 + e.2 * 2 ^ 96 + acc * 2 ^ 128) 0

/-- SCAN (R219, R242). -/
def execScan (d a : BitVec 7) (n : BitVec 2) (g : BitVec 4) (s : State) : Out :=
  regionOp (reqDA (.scan d a n g) d a) g 4 true (some a)
    (fun s r _ cur => (s.regScan g.toNat r cur (n.toNat + 1)).map fun es => answer r (scanSlots es))
    (fun _ p th => th.setV d (BitVec.ofNat 512 p.value)) s

/-- SCNT (R218, R242). -/
def execScnt (d : BitVec 7) (g : BitVec 4) (s : State) : Out :=
  regionOp (reqD (.scnt d g) d) g 4 false none
    (fun _ r _ _ => .ok (answer r (r.entries % 2 ^ 40 + Nat.min r.freeCount (2 ^ 24 - 1) * 2 ^ 40)))
    (fun _ p th => th.setS d (BitVec.ofNat 64 p.value)) s

/-! ### Commands of the host (R208, R209, R384, R385) -/

/-- The header of a command of a KIND is in form: VERSION 1, a zero reserved byte, the length of its body (R384). -/
def hdrOk (kind len : Nat) (hdr : BitVec 128) : Bool :=
  nbits hdr 0 16 == kind && nbits hdr 16 8 == 1 && nbits hdr 24 8 == 0 && nbits hdr 32 32 == len

/-- The TAG of a command, which its reply carries back (R384). -/
def tagOf (hdr : BitVec 128) : Dword := bits hdr 64 64

/-- The header of a LAUNCH message (R384). -/
def launchHeader (msg : BitVec 1152) : BitVec 128 := msg.extractLsb' 0 128

/-- The record that a LAUNCH message carries after its header (R384). -/
def launchRecord (msg : BitVec 1152) : BitVec 1024 := msg.extractLsb' 128 1024

/-- The KIND of a command (R384). -/
def kindOf (hdr : BitVec 128) : Nat := nbits hdr 0 16

/-- The address to which the reply to a session's command goes: that of the command's tenant; of the session's first tenant if the command
names none that is bound; over management, which binds none, the session's other end (R383, R385; log 110, DESIGN CHOICE). -/
def State.replyTo (s : State) (sess tenant : Nat) : Nat := match mget s.host.sessions sess with
  | none => s.host.record.host
  | some x => if x.tenants.contains tenant then s.hostOf tenant else match x.tenants with
    | [] => x.remote
    | k :: _ => s.hostOf k

/-- A reply on the completion path to a command that names a tenant (R385). -/
def State.reply (s : State) (sess tenant : Nat) (tag : Dword) (kind status : Nat) : State :=
  let dest := s.replyTo sess tenant
  s.post dest (.reply sess dest (framed 2 (BitVec.ofNat 256 (tag.toNat + kind * 2 ^ 64 + status * 2 ^ 80))))

/-- A tenant is bound to a session of the command endpoint (R384). -/
def State.bound (s : State) (sess tenant : Nat) : Bool :=
  match mget s.host.sessions sess with
  | some x => x.endpoint == 0 && x.tenants.contains tenant
  | none => false

/-- The session is set up on the command endpoint and the device runs. -/
def State.commandsOn (s : State) (sess : Nat) : Bool :=
  s.host.phase == .running && (match mget s.host.sessions sess with | some x => x.endpoint == 0 | none => false)

/-- The session takes its next command: no earlier one waits (R384). -/
def State.commands (s : State) (sess : Nat) : Bool := s.commandsOn sess && s.host.waiting.all fun w => w.1 != some sess

/-- A command that cannot take effect yet, and one behind it, waits in its session (R258, R384; log 84, DEDUCED). -/
def State.later (s : State) (sess : Nat) (i : Command) : State :=
  if s.commandsOn sess then s.modHost fun h => { h with waiting := h.waiting ++ [(some sess, i)] } else s

/-- The region that a REGION_OPEN asks for (R208). -/
def openRegion (body : BitVec 256) : Region :=
  { tenant := nbits body 8 8, rank := nbits body 16 8, ty := nbits body 24 8,
    extents := ((List.range 4).map fun d => nbits body (64 + 32 * d) 32).take (nbits body 16 8), die := nbits body 32 8,
    grqb := nbits body 192 64, root := 0, free := [], grants := [], entries := 0, height := 1, broken := false, closing := false,
    ops := [], found := none }

/-- The fields of a REGION_OPEN are in range and its region is free (R208, R408). -/
def State.mayOpen (s : State) (body : BitVec 256) : Bool :=
  let by_ (o n : Nat) : Nat := nbits body (8 * o) (8 * n)
  let rank := by_ 2 1
  let grqb := by_ 24 8
  !(15 < by_ 0 1 || (mget s.regions (by_ 0 1)).isSome || by_ 1 1 == 0 || 63 < by_ 1 1 || rank == 0 || 4 < rank || 2 < by_ 3 1 || 3 < by_ 4 1 ||
    grqb % 256 != 0 || decide (2 ^ 52 ≤ grqb) ||
    (List.range 4).any fun d => if d < rank then by_ (8 + 4 * d) 4 == 0 || decide (2 ^ 24 < by_ (8 + 4 * d) 4) else by_ (8 + 4 * d) 4 != 0)

/-- The first grant is taken and its first node becomes the root, an empty leaf (R208, R214). -/
def openPlan (g : Nat) (r : Region) (base n : Nat) : Plan :=
  let p := ({ region := r, writes := [], value := 0, short := none : Plan }).grant base n true
  ({ p with region := p.region.pop }).put g 0 (leafNode [] noNode)

/-- REGION_OPEN (R208, R408). Nonzero reserved bytes of the body make it malformed (log 112, DEDUCED); a
record 0 with a field out of range refuses it and stays untaken (log 122, DESIGN CHOICE). -/
def execRegionOpen (sess : Nat) (hdr : BitVec 128) (body : BitVec 256) (s : State) : Out :=
  let g := nbits body 0 8
  let r := openRegion body
  if !s.commands sess then .next (s.later sess (.regionOpen sess hdr body))
  else if !hdrOk 2 32 hdr ∨ nbits body 40 24 ≠ 0 then .next (s.reply sess r.tenant (tagOf hdr) (kindOf hdr) 1)
  else if !s.bound sess r.tenant then .next (s.reply sess r.tenant (tagOf hdr) 2 2)
  else if !s.mayOpen body then .next (s.reply sess r.tenant (tagOf hdr) 2 3)
  else match s.grantRecord r 0 with
    | some (b, n, true) =>
      let p := openPlan g r b n
      match s.regReady p.region p.writes with
      | .bad => .next (s.reply sess r.tenant (tagOf hdr) 2 3)
      | .wait s => .next (s.later sess (.regionOpen sess hdr body))
      | .yes =>
        let s := { p.writes.foldl (fun s w => s.regPut p.region w) s with regions := mput s.regions g p.region }
        .next (s.reply sess r.tenant (tagOf hdr) 2 0)
    | _ => .next (s.reply sess r.tenant (tagOf hdr) 2 3)

/-- REGION_CLOSE: the close is accepted (R209, R384). -/
def execRegionClose (sess : Nat) (hdr : BitVec 128) (body : BitVec 64) (s : State) : Out :=
  let g := nbits body 0 8
  if !s.commands sess then .next (s.later sess (.regionClose sess hdr body))
  else if !hdrOk 3 8 hdr ∨ nbits body 8 56 ≠ 0 then .next (s.reply sess nobody (tagOf hdr) (kindOf hdr) 1)
  else match mget s.regions g with
  | none => .next (s.reply sess nobody (tagOf hdr) 3 3)
  | some r =>
    if r.closing then .next (s.reply sess r.tenant (tagOf hdr) 3 3)
    else if !s.bound sess r.tenant then .next (s.reply sess r.tenant (tagOf hdr) 3 2)
    else .next (({ s with regions := mput s.regions g { r with closing := true } }).reply sess r.tenant (tagOf hdr) 3 0)

/-- An operation that the controller has received is not complete, or a record of the region waits (R209, R258). -/
def Region.waiting (r : Region) : Bool := r.found.isSome || !r.ops.isEmpty

/-- A tenant's broken regions whose operation is gone are reported when there is room (R226, R258). -/
def State.reportLost (s : State) (tenant : Nat) : State :=
  s.regions.foldl (fun s e => match e.2.found with
    | some (o, status, _, launch) =>
      if e.2.tenant = tenant ∧ o = nobody ∧ s.faultRoom tenant then
        ({ s with regions := mput s.regions e.1 { e.2 with found := none } }).reportBreak e.1 e.2 launch status
      else s
    | none => s) s

/-- REGION_CLOSE_EFFECT: the controller lets go of the region, once every operation that it has received has completed (R209). -/
def execRegionCloseEffect (g : Nat) (s : State) : Out :=
  .next (match mget s.regions g with
    | some r => if r.closing && !r.waiting then { s with regions := mdel s.regions g } else s
    | none => s)

end Sys2Proof.Machine
end

