-- ==== Sys2Proof/Machine/Copy.lean ====
section
/-! DEFINITION. Sys2Proof/Machine/Copy.lean: the copy engine (R246, R249, R250) and its commands (R284 to R290), the
ordered-reduction buffers (R105, R106). -/

namespace Sys2Proof.Machine

/-! ### Issue (R281, R284 to R290) -/

/-- The shape operand of a command. -/
def CopyCmd.box (m : CopyCmd) : Option Vec := match m.op with
  | 0 | 3 => some m.b
  | 1 | 2 | 4 | 6 | 7 => some m.a
  | _ => none

/-- The in-bounds elements of a box with their addresses. -/
def boxTargets (shape box : Vec) : List (Nat × Nat) :=
  (List.range (boxCount box (shapeRank shape))).filterMap fun i => (boxAddr shape box i).map fun va => (i, va)

def CopyCmd.owner (m : CopyCmd) (c : Nat) : Owner := { core := c, launch := m.launch, tenant := m.tenant, who := m.who, id := m.id }

/-- An address lies in a peer page. -/
def State.peerAt (s : State) (o : Owner) (va : Nat) : Bool := match s.engLoc o va 1 1 with
  | .loc (.peer _ _) _ => true
  | _ => false

/-- A box of rank 2 has rows from 0 to the shape's extent, in which a scatter may write. -/
def rowsOf (shape box : Vec) : List Nat :=
  (List.range (shapeExt shape 0)).filterMap fun (i : Nat) => elementAt shape [(i : Int), boxOrg box 1]

/-- The command writes through a peer window, as its addresses are translated at issue: it is a message to a peer (R29, R281). -/
def State.toPeer (s : State) (c : Nat) (m : CopyCmd) : Bool :=
  let shape := match m.box with | some v => (s.shapeRec m.tenant (boxHandle v)).getD 0 | none => 0
  let at_ := s.peerAt (m.owner c)
  match m.op with
  | 1 | 2 | 6 | 7 => (boxTargets shape m.a).any fun x => at_ x.2
  | 4 => (rowsOf shape m.a).any at_
  | 8 => (List.range (nbits m.c 0 64 / 4096 + 2)).any fun i => at_ (nbits m.a 0 64 + Nat.min (4096 * i) (nbits m.c 0 64 - 1))
  | _ => false

/-- Place a copy command in the queue of the core where its thread runs. -/
def putCopy (op : Nat) (a b c : Thread → Vec) (s : State) (t : Nat) (th : Thread) (n : Nat) : State :=
  let k := coreOf t
  let m : CopyCmd := { id := s.sched.nextId, home := th.home, who := th.who, launch := th.launch, tenant := th.tenant, n := n, op := op,
                       a := a th, b := b th, c := c th, started := false, slots := [], read := [], pos := 0, peer := false,
                       moved := false, shape := 0 }
  let p := s.toPeer k m
  let s := if p then s.countSent k th.who th.launch 1 else s
  s.modCore k fun x => { x with copyQ := x.copyQ ++ [{ m with peer := p }] }

/-- Issue a copy command with its operand registers and the checks of its entry. -/
def copyIssue (q : Req) (op : Nat) (a b c : Thread → Vec) (check : State → Thread → Refusal281) (s : State) : Out :=
  engIssue q false (fun _ => 1) check (putCopy op a b c) s

def noOperand (_ : Thread) : Vec := 0
/-- The requirements of an engine command: its operand registers are read whole. -/
def reqEng (i : Instr) (rs : List (BitVec 7)) : Req :=
  { word := encodeNat i, regs := rs.map BitVec.toNat, reads := rs.map BitVec.toNat }

/-- CPLD: a the place, b the box (R284). -/
def execCpld (a b : BitVec 7) (s : State) : Out :=
  copyIssue (reqEng (.cpld a b) [a, b]) 0 (·.V a) (·.V b) noOperand
    (fun s th => firstRefusal [operandRule (placeOk (th.V a)) (th.V a), boxRule (th.V b), staleRule s th (th.V b)]) s

/-- CPST: a the box, b the place (R284). -/
def execCpst (a b : BitVec 7) (s : State) : Out :=
  copyIssue (reqEng (.cpst a b) [a, b]) 1 (·.V a) (·.V b) noOperand
    (fun s th => firstRefusal [boxRule (th.V a), operandRule (placeOk (th.V b)) (th.V b), staleRule s th (th.V a)]) s

/-- CPADD: a the box, b the place, c the control (R284). -/
def execCpadd (a b c : BitVec 7) (s : State) : Out :=
  copyIssue (reqEng (.cpadd a b c) [a, b, c]) 2 (·.V a) (·.V b) (·.V c)
    (fun s th => firstRefusal [boxRule (th.V a), operandRule (placeOk (th.V b)) (th.V b),
      operandRule (nbits (th.V c) 1 15 == 0 && nbits (th.V c) 28 36 == 0) (th.V c), staleRule s th (th.V a)]) s

/-- The index list of a gather or scatter (R285). -/
def indexRule (v : Vec) : Refusal281 :=
  operandRule (nbits v 0 2 == 0 && nbits v 23 9 == 0 && nbits v 32 16 != 0 && nbits v 48 16 == 0) v
/-- A row box leaves dimension 0 unused (R285). -/
def rowBoxRule (v : Vec) : Refusal281 := operandRule (nbits v 192 320 == 0 && boxOrg v 0 == 0 && boxExt v 0 == 1) v

/-- CPGAT: a the place, b the box, c the index list (R285). -/
def execCpgat (a b c : BitVec 7) (s : State) : Out :=
  copyIssue (reqEng (.cpgat a b c) [a, b, c]) 3 (·.V a) (·.V b) (·.V c)
    (fun s th => firstRefusal [operandRule (placeOk (th.V a)) (th.V a), rowBoxRule (th.V b), indexRule (th.V c), staleRule s th (th.V b)]) s

/-- CPSCA: a the box, b the place, c the index list (R285). -/
def execCpsca (a b c : BitVec 7) (s : State) : Out :=
  copyIssue (reqEng (.cpsca a b c) [a, b, c]) 4 (·.V a) (·.V b) (·.V c)
    (fun s th => firstRefusal [rowBoxRule (th.V a), operandRule (placeOk (th.V b)) (th.V b), indexRule (th.V c), staleRule s th (th.V a)]) s

/-- The descriptor of `kvld` (R286). -/
def kvRule (v : Vec) : Refusal281 :=
  operandRule (nbits v 160 32 == 0 && nbits v 84 12 == 0 && decide (nbits v 80 4 ≤ 10) && nbits v 128 32 != 0 &&
    decide (nbits v 128 32 ≤ 2 ^ 20) && nbits v 0 30 == 0) v

/-- KVLD: a the place, which is a ring, b the descriptor (R286). -/
def execKvld (a b : BitVec 7) (s : State) : Out :=
  copyIssue (reqEng (.kvld a b) [a, b]) 5 (·.V a) (·.V b) noOperand
    (fun _ th => firstRefusal [operandRule (placeOk (th.V a) && placeRing (th.V a)) (th.V a), kvRule (th.V b)]) s

/-- DENS: a the box, b the region, c the origin (R287). -/
def execDens (a b c : BitVec 7) (s : State) : Out :=
  copyIssue (reqEng (.dens a b c) [a, b, c]) 6 (·.V a) (·.V b) (·.V c)
    (fun s th => firstRefusal [boxRule (th.V a), operandRule (nbits (th.V b) 4 60 == 0) (th.V b), staleRule s th (th.V a)]) s

/-- CPFILL: a the box, b the value (R284). -/
def execCpfill (a b : BitVec 7) (s : State) : Out :=
  copyIssue (reqEng (.cpfill a b) [a, b]) 7 (·.V a) (·.V b) noOperand
    (fun s th => firstRefusal [boxRule (th.V a), staleRule s th (th.V a)]) s

/-- CPCOPY: a the destination, b the source, c the length (R288). -/
def execCpcopy (a b c : BitVec 7) (s : State) : Out :=
  copyIssue (reqEng (.cpcopy a b c) [a, b, c]) 8 (·.V a) (·.V b) (·.V c)
    (fun _ th => operandRule (1 ≤ (th.S c).toNat && decide ((th.S c).toNat ≤ 2 ^ 32)) (th.V c)) s

/-- A length of `rpush` or `rpop` (R290). -/
def ringLenRule (v : Vec) : Refusal281 := operandRule (1 ≤ nbits v 0 64 && decide (nbits v 0 64 ≤ 131072)) v

/-- RPUSH: a the ring, b the place, c the length (R290). -/
def execRpush (a b c : BitVec 7) (s : State) : Out :=
  copyIssue (reqEng (.rpush a b c) [a, b, c]) 14 (·.V a) (·.V b) (·.V c)
    (fun _ th => firstRefusal [operandRule (placeOk (th.V b)) (th.V b), ringLenRule (th.V c)]) s

/-- RPOP: a the place, b the ring, c the length (R290). -/
def execRpop (a b c : BitVec 7) (s : State) : Out :=
  copyIssue (reqEng (.rpop a b c) [a, b, c]) 15 (·.V a) (·.V b) (·.V c)
    (fun _ th => firstRefusal [operandRule (placeOk (th.V a)) (th.V a), ringLenRule (th.V c)]) s

/-! ### RCFG (R289) -/

/-- The rings that a copy command names: its own, and that of a place with RING (R282, R289). -/
def CopyCmd.ringNamed (m : CopyCmd) : List Nat :=
  let named (v : Vec) : List Nat := if placeRing v then [ringNo v] else []
  match m.op with
  | 0 | 3 | 5 => named m.a
  | 1 | 2 | 4 => named m.b
  | 14 => ringNo m.a :: named m.b
  | 15 => ringNo m.b :: named m.a
  | _ => []
/-- The rings that a matrix command names. -/
def MatCmd.names (m : MatCmd) (k : Nat) : Bool :=
  (m.op == 9 || m.op == 10) && ((placeRing m.a && ringNo m.a == k) || (placeRing m.b && ringNo m.b == k))

/-- The ring is in use: a counter differs from HEAD, or a command names it (R289). -/
def State.ringBusy (s : State) (c k launch : Nat) : Bool :=
  (match s.ring? c launch k with
   | some r => r.tail != r.head || r.wptr != r.head || r.rptr != r.head
   | none => false) ||
  ((s.core c).copyQ.any fun m => m.launch == launch && m.ringNamed.contains k) ||
  ((s.core c).matQ.any fun m => m.launch == launch && m.names k)

/-- RCFG: it acts when it commits; it is no engine command (R289). -/
def execRcfg (a b : BitVec 7) (s : State) : Out :=
  let q := { reqAB (.rcfg a b) a b with commit := true }
  begin q s fun s t th =>
    let c := coreOf t
    let k := nbits (th.S a) 0 4
    let v := (th.S b).toNat
    let valid := field v 63 1 == 1
    let r : Ring := { launch := th.launch, desc := BitVec.ofNat 64 (field v 0 32 + 2 ^ 63), tail := 0, wptr := 0, head := 0, rptr := 0,
                      filled := [], read := [] }
    let foreign := match mget (s.core c).rings k with
      | some x => x.launch != th.launch
      | none => false
    let bad := field v 30 2 == 3 || decide (8 < field v 26 4) || field v 12 8 != 0 || field v 32 31 != 0 ||
      (valid && decide (s.grantSize th.launch < r.base + r.count * r.slotSize)) || foreign || s.ringBusy c k th.launch
    if bad then raise s t q 0x06 (th.S b)
    else .next (finish (s.modCore c fun x => { x with rings := if valid then mput x.rings k r else mdel x.rings k }) t th q .seq)

/-! ### Starting (R246, R281) -/

/-- The place operand of a command, and whether the command fills it. -/
def CopyCmd.place (m : CopyCmd) : Option (Vec × Bool) := match m.op with
  | 0 | 3 => some (m.a, true)
  | 1 | 2 | 4 => some (m.b, false)
  | 14 => some (m.b, false)
  | 15 => some (m.a, true)
  | _ => none
/-- The ring slot that a command takes when it starts, and whether it pushes. -/
def CopyCmd.ringUse (m : CopyCmd) : Option (Nat × Bool) := match m.op with
  | 14 => some (ringNo m.a, true)
  | 15 => some (ringNo m.b, false)
  | 5 => none
  | _ => match m.place with
    | some (v, fills) => if placeRing v then some (ringNo v, fills) else none
    | none => none

/-- Bytes that a command moves to or from its place. -/
def CopyCmd.bytes (m : CopyCmd) (shape : Vec) : Nat := match m.op with
  | 0 => boxCount m.b (shapeRank shape) * typeBytes (shapeType shape)
  | 1 | 2 => boxCount m.a (shapeRank shape) * typeBytes (shapeType shape)
  | 3 => nbits m.c 32 16 * boxExt m.b 1 * typeBytes (shapeType shape)
  | 4 => nbits m.c 32 16 * boxExt m.a 1 * typeBytes (shapeType shape)
  | _ => nbits m.c 0 64

/-- The shape type that holds the values of a region type (R287). -/
def regionShapeType (ty : Nat) : Nat := [7, 6, 4].getD ty 12

/-- SPLIT of the block window at an address, if there is one (R176, R286). -/
def State.windowSplit (s : State) (tenant va : Nat) : Option Nat :=
  if 2 ^ 52 ≤ va then none
  else match s.walk tenant va with
  | .leaf e _ _ => if pteBlock e then some (pteSplit e) else none
  | .fault _ => none

/-- The cause for which a command fails at its start, if any (R281, R247). -/
def State.startFails (s : State) (c : Nat) (m : CopyCmd) : Option Nat :=
  let shape := match m.box with | some v => s.shapeRec m.tenant (boxHandle v) | none => some 0
  match shape with
  | none => some 12
  | some r =>
    let box := m.box.getD 0
    let grant := s.grantSize m.launch
    let bytes := m.bytes r
    if m.box.isSome && !boxFits r box then some 5
    else if match m.place with | some (v, _) => swizzleBad v | none => false then some 8
    else if m.op = 2 ∧ shapeType r ≠ 4 ∧ shapeType r ≠ 6 ∧ shapeType r ≠ 7 then some 5
    else if (m.op = 3 ∨ m.op = 4) ∧ shapeRank r ≠ 2 then some 5
    else if m.op = 2 ∧ m.c.getLsbD 0 ∧ (match s.launch? m.launch with | some l => l.part 4 2 | none => 0) ≤ nbits m.c 16 12 then some 7
    else if (m.op = 3 ∨ m.op = 4) ∧ grant < nbits m.c 0 23 + 4 * nbits m.c 32 16 then some 2
    else if m.op = 6 then
      match s.regionFor m.tenant (nbits m.b 0 4) with
      | .error _ => some 10
      | .ok g =>
        if g.rank ≠ shapeRank r ∨ regionShapeType g.ty ≠ shapeType r then some 5
        else if nbits m.c (24 * g.rank) (128 - 24 * g.rank) ≠ 0 then some 10 else none
    else if m.op = 5 then
      match s.ring? c m.launch (ringNo m.a) with
      | none => some 9
      | some g =>
        if g.slotSize / 2 ^ (nbits m.b 80 4 + 6) = 0 then some 9
        else if (s.windowSplit m.tenant (nbits m.b 0 64)).isNone then some 1 else none
    else if (m.op = 14 ∨ m.op = 15) && (match m.place with | some (v, _) => placeRing v | none => false) then some 9
    else match m.ringUse with
      | some (k, _) => (match s.ring? c m.launch k with
        | none => some 9
        | some g =>
          if g.slotSize < bytes then some 9
          else if (m.op = 14 ∨ m.op = 15) && (match m.place with | some (v, _) => decide (grant < placeOff v + bytes) | none => false) then some 2
          else none)
      | none => (match m.place with
        | some (v, _) => if grant < placeOff v + bytes then some 2 else none
        | none => none)

/-- The ring that a command waits for at its start, and whether it pushes: of `kvld`, which reserves its slots one by one, the ring of its
first (R250, R286). -/
def CopyCmd.ringFirst (m : CopyCmd) : Option (Nat × Bool) := if m.op = 5 then some (ringNo m.a, true) else m.ringUse

/-- The ring slot that a command takes first is there (R249, R250). -/
def State.ringReady (s : State) (c : Nat) (m : CopyCmd) : Bool :=
  match m.ringFirst with
  | none => true
  | some (k, push) => match s.ring? c m.launch k with
    | none => true
    | some r => if push then r.canPush else r.canPop

/-- A command may leave the wait to start: its ring slot is there, or it fails and its record has a place (R246, R258). -/
def State.mayStart (s : State) (c : Nat) (m : CopyCmd) : Bool :=
  if (s.startFails c m).isSome then s.faultRoom m.tenant else s.ringReady c m

/-- An earlier command of the context still waits to start, on whatever core (R246). -/
def State.startsAfter (s : State) (m : CopyCmd) : Bool :=
  s.cores.any fun e => e.2.copyQ.any fun x => x.home == m.home && x.n < m.n && !x.started

/-- The oldest command of a launch that may start: its context has no earlier one waiting to start (R246). -/
def State.nextStart (s : State) (c launch : Nat) (q : List CopyCmd) : Option CopyCmd :=
  q.find? fun m => !m.started && m.launch == launch && !s.startsAfter m && s.mayStart c m

/-- A launch's weight: its positions on the core that are not BUBBLE, and 1 for none (R246; log 52, DESIGN CHOICE). -/
def State.copyWeight (s : State) (c launch : Nat) : Nat :=
  match s.launch? launch with
  | none => 1
  | some l => Nat.max 1 ((s.core c).imp.filter fun e => !impBubble e.2 && impLidx e.2 == l.lidx).length

/-- The launch that a unit of the copy engine's work goes to, by weighted round robin over the launches that `can` (R246): the one being
served while it has granules left in its turn, else the next by number. -/
def State.copyPick (s : State) (c : Nat) (can : Nat → Bool) : Option Nat :=
  let x := s.core c
  let ls := ((x.copyQ.map CopyCmd.launch).filter can)
  if 0 < x.copyLeft && ls.contains x.copyAt then some x.copyAt
  else match (ls.filter fun l => x.copyAt < l).min? with
  | some l => some l
  | none => ls.min?

/-- A granule of the launch's data has moved (R246). -/
def State.copyServed (s : State) (c launch : Nat) : State :=
  s.modCore c fun x => { x with copyAt := launch,
                                copyLeft := (if 0 < x.copyLeft && x.copyAt == launch then x.copyLeft else s.copyWeight c launch) - 1 }

/-- Size of a row of `kvld`, the bytes that it moves in all, and the bytes that it puts into one slot (R286). -/
def CopyCmd.rowSize (m : CopyCmd) : Nat := 2 ^ (nbits m.b 80 4 + 6)
def CopyCmd.kvTotal (m : CopyCmd) : Nat := nbits m.b 128 32 * m.rowSize
def CopyCmd.kvSlot (m : CopyCmd) (g : Ring) : Nat := g.slotSize / m.rowSize * m.rowSize

/-- A command holds one of the eight places of the copy engine: it has started, and is no `kvld` between two slots, which may wait for its
ring (R246, R250). -/
def State.atWork (s : State) (c : Nat) (m : CopyCmd) : Bool :=
  m.started && !(m.op == 5 && !m.moved && (match s.ring? c m.launch (ringNo m.a) with
    | some g => m.pos % m.kvSlot g == 0
    | none => false))

/-- A place of the copy engine is free (R246). -/
def State.copyRoom (s : State) (c : Nat) : Bool := ((s.core c).copyQ.filter (s.atWork c)).length < 8

/-- Change a queued copy command. -/
def State.modCopy (s : State) (c id : Nat) (f : CopyCmd → CopyCmd) : State :=
  s.modCore c fun x => { x with copyQ := x.copyQ.map fun m => if m.id = id then f m else m }

/-- The copy command `m` of a core fails (R247). -/
def State.copyFails (s : State) (c : Nat) (m : CopyCmd) (cause : Nat) : State :=
  s.failCmd c m.home m.launch m.tenant m.n false cause

/-- COPY_COMMAND_START: at most eight commands are at work; the command reads its shape and takes its ring slot (R246,
R249, R281). Its launch has the turn, with which the command's first unit of data goes (log 52, DESIGN CHOICE). -/
def execCopyCommandStart (core : Nat) (s : State) : Out :=
  let q := (s.core core).copyQ
  let first (l : Nat) : Option CopyCmd := s.nextStart core l q
  if s.rowHeld core || !s.copyRoom core then .next s
  else match (s.copyPick core fun l => (first l).isSome).bind first with
  | none => .next s
  | some m =>
    match s.startFails core m with
    | some k => .next (s.copyFails core m k)
    | none =>
      let shape := match m.box with | some v => (s.shapeRec m.tenant (boxHandle v)).getD 0 | none => 0
      let slot := match m.ringUse with
        | some (k, push) => (match s.ring? core m.launch k with
          | some r => [(k, if push then r.wptr else r.rptr)]
          | none => [])
        | none => []
      let s := match m.ringUse with
        | some (k, push) => s.modRing core k fun r => if push then { r with wptr := ringNext r.wptr } else { r with rptr := ringNext r.rptr }
        | none => s
      .next ((s.modCopy core m.id fun x => { x with started := true, paid := true, slots := slot, shape := shape }).copyServed core m.launch)

/-! ### The ordered-reduction buffers (R105, R106) -/

/-- A value of a destination type widened to f32, or an i32 (R105). -/
def widenTo (ty v : Nat) : Nat := if ty = 4 then v % 2 ^ 16 * 2 ^ 16 else v % 2 ^ 32
/-- One addition in the buffer: f32, or i32 wrapping (R105). -/
def ordAdd (ty x y : Nat) : Nat :=
  if ty = 7 then (x + y) % 2 ^ 32 else (fpAdd fmtF32 0 (unpack fmtF32 x) (unpack fmtF32 y)).1
/-- The result written to a destination (R105). -/
def narrowTo (ty v : Nat) : Nat := if ty = 4 then (roundTo fmtBf16 0 false (unpack fmtF32 v)).1 else v
/-- An unordered addition of a value to an element (R104). -/
def elemAdd (ty x y : Nat) : Nat :=
  if ty = 7 then (x + y) % 2 ^ 32
  else if ty = 4 then (fpAdd fmtBf16 0 (unpack fmtBf16 x) (unpack fmtBf16 y)).1
  else (fpAdd fmtF32 0 (unpack fmtF32 x) (unpack fmtF32 y)).1

def State.slices (s : State) (launch : Nat) : Nat := match s.launch? launch with | some l => l.part 4 2 | none => 0
/-- Every slice of an entry is present. -/
def State.ordFull (s : State) (e : Ord) : Bool := decide (s.slices e.launch ≤ e.slices.length)
/-- Pending entries of a die: one for each slice present (R105, R106). -/
def Die.pendingOrd (d : Die) : Nat := d.ordered.foldl (fun n e => n + e.slices.length) 0

/-- The entry after a contribution of command `id` to a slice: a slice that has a value already adds to it; the command that brings the last
slice completes the entry; a block's counter gets one access for each granule of a command (R105, R106, R318). -/
def Ord.take (e : Ord) (o : Owner) (slices slice v : Nat) (counts : Bool) : Ord :=
  let c := match mget e.slices slice with
    | some w => ordAdd e.ty w v
    | none => v
  let e := { e with slices := mput e.slices slice c, adds := if counts then e.adds + 1 else e.adds }
  if slices ≤ e.slices.length then { e with closer := some o.id } else e

/-- A contribution to an element is taken into a pending entry (R105, R106). An entry keeps the address and the type of its first
contribution. One that brings no new pending slice does not wait for room (log 133, DESIGN CHOICE). (Log 54, DEDUCED.) (Log 95, DESIGN CHOICE.) -/
def contribute (r : Run) (o : Owner) (ty slice va v : Nat) : Eff Unit :=
  match r.s.engWalk o va with
  | some y => .wait 1 { r with s := y }
  | none => match r.s.engLoc o va (typeBytes ty) 2 with
  | .bad k => .fail k r
  | .loc (.mem pa key blk) x =>
    let d := (homeDie pa).getD 4
    let n := r.s.slices o.launch
    let old := (r.s.die d).ordered.find? fun e => e.launch == o.launch && e.pa == pa
    let e : Ord := old.getD { launch := o.launch, pa := pa, va := va, key := key, ty := ty, slices := [], adds := 0, closer := none }
    let brings := (mget e.slices slice).isNone
    if r.s.zeroing (pa / 64) || r.s.ordFull e then .wait 2 r
    else if brings && 32768 ≤ (r.s.die d).pendingOrd then .wait 5 r
    else if brings && e.slices.length + 1 == n && r.s.badAt pa (typeBytes ty) then .fail 3 r
    else
      let new := e.take o n slice v (blk.isSome && !r.grans.contains (va / 256))
      let s := match blk, x with
        | none, some x => r.s.engDirty o x
        | _, _ => r.s
      let put (es : List Ord) : List Ord :=
        if old.isSome then es.map fun y => if y.launch = o.launch ∧ y.pa = pa then new else y else es ++ [new]
      .ok () { r with s := s.modDie d fun y => { y with ordered := put y.ordered }, grans := if blk.isSome && !r.grans.contains (va / 256) then va / 256 :: r.grans else r.grans }
  | .loc _ _ => .fail 2 r

/-- ORDERED_ENTRY_COMPLETION: every slice is present; the sum goes to memory (R105). A block that has to be copied first is copied (R177,
R178), and a line that is being zeroed is waited for (R166). (Log 95, DESIGN CHOICE.) -/
def execOrderedEntryCompletion (die launch addr : Nat) (s : State) : Out :=
  match (s.die die).ordered.find? fun e => e.launch == launch && e.pa == addr && s.ordFull e with
  | none => .next s
  | some e =>
    let n := typeBytes e.ty
    let tenant := match s.launch? launch with | some l => l.tenant | none => 0
    let w := match s.reach tenant e.va 2 with
      | .at_ pa key blk => (pa, key, blk)
      | .fault _ => (e.pa, e.key, none)
    let write (s : State) : Out :=
      let v0 := widenTo e.ty (ofBytes (s.homeBytes w.1 n w.2.1))
      let v := e.slices.foldl (fun v c => ordAdd e.ty v c.2) v0
      let s := s.performWrite 65535 die w.2.1 (place w.1 (bytesOf (narrowTo e.ty v) n))
      let s := (s.engInvals 65535).countDie die 0x0D tenant
      .next (s.modDie die fun x => { x with ordered := x.ordered.filter fun y => !(y.launch == launch && y.pa == addr) })
    if s.zeroing (w.1 / 64) then .next s
    else match w.2.2 with
    | none => write s
    | some a => match s.blockWrite (if die < 4 then die else s.blockDie a) a e.va tenant nobody with
      | .inPlace s => write (if e.adds = 0 then s else s.countAcc die tenant a e.va e.adds)
      | .held s => .next s
      | .full => .next s

/-- A command has completed an entry whose result is not yet written (R106). -/
def State.ordWaits (s : State) (o : Owner) : Bool := s.dies.any fun d => d.2.ordered.any fun e => e.launch == o.launch && e.closer == some o.id

/-- Contribute elements one after the other: how many were taken, and how it ended. -/
def contributeAll (o : Owner) (ty slice : Nat) : Run → List (Nat × Nat) → Nat → Nat × Eff Unit
  | r, [], k => (k, .ok () r)
  | r, (va, v) :: rest, k =>
    match contribute r o ty slice va v with
    | .ok _ r => contributeAll o ty slice r rest (k + 1)
    | .fail c r => (k, .fail c r)
    | .wait w r => (k, .wait w r)

/-! ### Moving the data (R284 to R290) -/

/-- Pieces of a range of addresses, none crossing a line. -/
def linePieces (va : Nat) : Nat → Nat → List (Nat × Nat)
  | _, 0 => []
  | 0, _ => []
  | fuel + 1, n =>
    let k := Nat.min n (64 - va % 64)
    (va, k) :: linePieces (va + k) fuel (n - k)
def piecesOf (va n : Nat) : List (Nat × Nat) := linePieces va (n / 64 + 2) n

/-- Read a range piece by piece. -/
def readPieces (o : Owner) : Run → List (Nat × Nat) → Eff (List Byte)
  | r, [] => .ok [] r
  | r, (va, n) :: rest =>
    match engRead r o va n with
    | .fail k r => .fail k r
    | .wait k r => .wait k r
    | .ok bs r => match readPieces o r rest with
      | .ok more r => .ok (bs ++ more) r
      | .fail k r => .fail k r
      | .wait k r => .wait k r

/-- Write bytes piece by piece. -/
def writePieces (o : Owner) : Run → List (Nat × Nat) → List Byte → Eff Unit
  | r, [], _ => .ok () r
  | r, (va, n) :: rest, bs =>
    match engWrite r o va (bs.take n) with
    | .fail k r => .fail k r
    | .wait k r => .wait k r
    | .ok _ r => writePieces o r rest (bs.drop n)

/-- Copy a granule of `cpcopy` (R288). -/
def copyGranule (o : Owner) (dst src n : Nat) (r : Run) (i : Nat) : Eff Unit :=
  let k := Nat.min 256 (n - 256 * i)
  match readPieces o r (piecesOf (src + 256 * i) k) with
  | .fail c r => .fail c r
  | .wait k r => .wait k r
  | .ok bs r => writePieces o r (piecesOf (dst + 256 * i) k) bs

/-- Where the place of a started command lies. -/
def State.placeOf (s : State) (c : Nat) (m : CopyCmd) : PlaceAt :=
  match m.place with
  | some (v, _) =>
    if placeRing v then
      match m.slots, s.ring? c m.launch (ringNo v) with
      | (_, n) :: _, some r => r.place n
      | _, _ => { off := 0, swz := 0 }
    else { off := placeOff v, swz := placeSwz v }
  | none => { off := 0, swz := 0 }

/-- The slot of the ring that `rpush` and `rpop` name. -/
def State.slotOfCmd (s : State) (c : Nat) (m : CopyCmd) : PlaceAt :=
  match m.slots with
  | (k, n) :: _ => (match s.ring? c m.launch k with
    | some r => r.place n
    | none => { off := 0, swz := 0 })
  | [] => { off := 0, swz := 0 }

/-- The row numbers of a gather or scatter (R285). -/
def State.indexList (s : State) (c : Nat) (m : CopyCmd) : List Int :=
  (List.range (nbits m.c 32 16)).map fun j =>
    signedOf (ofBytes (s.placeBytes c m.launch { off := nbits m.c 0 23, swz := 0 } (4 * j) 4)) 32

/-- The address of column `k` of shape row `i` (R285). -/
def rowAddr (shape box : Vec) (i : Int) (k : Nat) : Option Nat := elementAt shape [i, boxOrg box 1 + (k : Int)]

/-- The moves of a command that reads memory into its place: element number and address. -/
def State.loadList (s : State) (c : Nat) (m : CopyCmd) : List (Nat × Option Nat) :=
  if m.op = 0 then (List.range (boxCount m.b (shapeRank m.shape))).map fun i => (i, boxAddr m.shape m.b i)
  else
    let e := boxExt m.b 1
    ((s.indexList c m).zipIdx.map fun x => (List.range e).map fun k => (x.2 * e + k, rowAddr m.shape m.b x.1 k)).flatten

/-- Store elements in box order. -/
def storeEach (o : Owner) (value : Run → Nat → List Byte) (r : Run) (ts : List (Nat × Nat)) : Eff Unit :=
  engEach (fun r x => engWrite r o x.2 (value r x.1)) r ts

/-- The writes of one chunk of a scatter, whose indices and values are all read before any of them (R285). -/
def State.scatterChunk (s : State) (c : Nat) (m : CopyCmd) (p : PlaceAt) (idx : List Int) (q : Nat) : List (Nat × List Byte) :=
  let e := boxExt m.a 1
  let z := typeBytes (shapeType m.shape)
  let rows := ((List.range 64).map fun j => 64 * q + j).filter fun j => j < idx.length
  rows.flatMap fun j => (List.range e).filterMap fun k =>
    (rowAddr m.shape m.a (idx.getD j 0) k).map fun va => (va, s.placeBytes c m.launch p ((j * e + k) * z) z)

/-- Entries `lo` to `lo + n` of the index list hold an uncorrectable error (R169, R247). -/
def State.indexBad (s : State) (c : Nat) (m : CopyCmd) (lo n : Nat) : Bool :=
  s.placeBad c m.launch { off := nbits m.c 0 23, swz := 0 } (4 * lo) (4 * n)

/-- `n` bytes of the rows of `kvld`, from byte `off` of row `j` on, none crossing a row; a row that lies beyond its sequence or the table reads
as zero, and a row counts once, with its first byte (R286, R318). -/
def kvPart (o : Owner) (m : CopyCmd) (split j off n : Nat) (r : Run) : Eff (List Byte) :=
  let blk := j * m.rowSize / 65536
  let e := nbits m.b 64 16 * 2 ^ split + blk
  if 2 ^ split ≤ blk ∨ 2 ^ 14 ≤ e then .ok (List.replicate n 0) r
  else
    let va := nbits m.b 0 64 + e * 65536 + j * m.rowSize % 65536 + off
    match readPieces o { r with grans := [va / 256] } (piecesOf va n) with
    | .ok bs y => (match y.s.engLoc o va 1 0 with
      | .loc (.mem _ _ (some a)) _ => .ok bs (if off = 0 then { y with s := y.s.countAcc (dieOf o.core) o.tenant a va 1 } else y)
      | _ => .ok bs y)
    | .fail k r => .fail k r
    | .wait k r => .wait k r

/-- The addresses that a part of a row of `kvld` reads. -/
def kvPlaces (m : CopyCmd) (split : Nat) (x : Nat × Nat × Nat) : List Nat :=
  let blk := x.1 * m.rowSize / 65536
  let e := nbits m.b 64 16 * 2 ^ split + blk
  if 2 ^ split ≤ blk ∨ 2 ^ 14 ≤ e then [] else (piecesOf (nbits m.b 0 64 + e * 65536 + x.1 * m.rowSize % 65536 + x.2.1) x.2.2).map Prod.fst

/-- A list of parts of rows: row, offset, length. -/
def kvParts (o : Owner) (m : CopyCmd) (split : Nat) : Run → List (Nat × Nat × Nat) → Eff (List Byte)
  | r, [] => .ok [] r
  | r, (j, off, n) :: rest => match kvPart o m split j off n r with
    | .fail k r => .fail k r
    | .wait k r => .wait k r
    | .ok bs r => match kvParts o m split r rest with
      | .ok more r => .ok (bs ++ more) r
      | .fail k r => .fail k r
      | .wait k r => .wait k r

/-- The parts that make the granule of 256 bytes at byte `at_` of all rows. -/
def CopyCmd.granule (m : CopyCmd) (at_ : Nat) : List (Nat × Nat × Nat) :=
  let z := m.rowSize
  let n := Nat.min 256 (m.kvTotal - at_)
  if 256 ≤ z then [(nbits m.b 96 32 + at_ / z, at_ % z, n)]
  else (List.range (n / z)).map fun i => (nbits m.b 96 32 + at_ / z + i, 0, z)

/-- What moving a command's data comes to: the command goes on with what it has done, or its data have moved. -/
inductive Moving where
  | moved (s : State)
  | more (m : CopyCmd) (s : State)
  | fail (cause : Nat) (s : State)
  /-- It waits, in a state of R352. -/
  | wait (why : Nat) (s : State)
  deriving Repr

def Moving.ofEff : Eff Unit → Moving
  | .ok _ r => .moved r.s
  | .fail k r => .fail k r.s
  | .wait w r => .wait w r.s

/-- First see that no access of a kind has to wait, then do it. -/
def whenReady (s : State) (o : Owner) (acc n : Nat) (vas : List Nat) (k : Unit → Moving) : Moving :=
  match s.engReady o acc n vas with
  | some x => .wait x.1 x.2
  | none => k ()

/-- A unit of work is done: the command goes on at `pos`, or its data have moved. -/
def Moving.unit (m : CopyCmd) (pos total : Nat) : Eff Unit → Moving
  | .ok _ r => if total ≤ pos then .moved r.s else .more { m with pos := pos, grans := r.grans } r.s
  | .fail k r => .fail k r.s
  | .wait w r => .wait w r.s

/-- The elements of 256 bytes that a command of element size `z` moves next. -/
def CopyCmd.next {α : Type} (m : CopyCmd) (z : Nat) (xs : List α) : List α := (xs.drop m.pos).take (256 / z)

/-- The next granule of `kvld` (R286): it reserves a slot when it begins one, and publishes it when the slot or the rows are complete. -/
def State.moveRows (s : State) (c : Nat) (m : CopyCmd) (g : Ring) (split : Nat) : Moving :=
  let per := m.kvSlot g
  let at_ := m.pos % per
  let total := m.kvTotal
  let k := ringNo m.a
  if at_ = 0 && (!g.canPush || !s.copyRoom c) then .wait 3 s
  else whenReady s (m.owner c) 0 1 ((m.granule m.pos).flatMap (kvPlaces m split)) fun _ =>
    let v := if at_ = 0 then g.wptr else (m.slots.head?.map Prod.snd).getD g.wptr
    match kvParts (m.owner c) m split { s := s } (m.granule m.pos) with
    | .fail e r => .fail e r.s
    | .wait w r => .wait w r.s
    | .ok bs r =>
      let pos := m.pos + bs.length
      let s := r.s.putPlace c m.launch (g.place v) at_ bs
      let s := if at_ = 0 then s.modRing c k fun y => { y with wptr := ringNext y.wptr } else s
      let s := if total ≤ pos then s.putPlace c m.launch (g.place v) (at_ + bs.length) (List.replicate (g.slotSize - (at_ + bs.length)) 0) else s
      let s := if total ≤ pos ∨ pos % per = 0 then s.modRing c k (Ring.fill · v) else s
      if total ≤ pos then .moved s else .more { m with pos := pos, slots := [(k, v)] } s

/-- The next unit of a started command's data, of 256 bytes (R246, R284 to R290). (Log 32, DEDUCED.) (Log 52,
DESIGN CHOICE.) -/
def State.moveCopy (s : State) (c : Nat) (m : CopyCmd) : Moving :=
  let o := m.owner c
  let r : Run := { s := s, grans := m.grans }
  let z := typeBytes (shapeType m.shape)
  let p := s.placeOf c m
  let after := m.pos + 256 / z
  match m.op with
  | 0 | 3 =>
    let all := s.loadList c m
    let xs := m.next z all
    let e := boxExt m.b 1
    if m.op = 3 && xs.any fun x => s.indexBad c m (x.1 / e) 1 then .fail 3 s
    else whenReady s o 0 z (xs.filterMap Prod.snd) fun _ =>
      Moving.unit m after all.length (engEach (fun r x =>
        match x.2 with
        | none => .ok () { r with s := r.s.putPlace c m.launch p (x.1 * z) (List.replicate z 0) }
        | some va => match engRead r o va z with
          | .ok bs r => .ok () { r with s := r.s.putPlace c m.launch p (x.1 * z) bs }
          | .fail k r => .fail k r
          | .wait k r => .wait k r) r xs)
  | 1 =>
    let all := boxTargets m.shape m.a
    let ts := m.next z all
    if ts.any fun x => s.placeBad c m.launch p (x.1 * z) z then .fail 3 s
    else whenReady s o 1 z (ts.map Prod.snd) fun _ =>
      Moving.unit m after all.length (storeEach o (fun r i => r.s.placeBytes c m.launch p (i * z) z) r ts)
  | 2 =>
    let all := boxTargets m.shape m.a
    let ts := m.next z all
    let ty := shapeType m.shape
    if ts.any fun x => s.placeBad c m.launch p (x.1 * z) z then .fail 3 s
    else if m.c.getLsbD 0 then
      let xs := ts.map fun x => (x.2, widenTo ty (ofBytes (s.placeBytes c m.launch p (x.1 * z) z)))
      match contributeAll o ty (nbits m.c 16 12) r xs 0 with
      | (_, .ok _ r) => if all.length ≤ after then .moved r.s else .more { m with pos := after, grans := r.grans } r.s
      | (_, .fail cause r) => .fail cause r.s
      | (k, .wait w r) => if k = 0 then .wait w r.s else .more { m with pos := m.pos + k, grans := r.grans } r.s
    else
      whenReady s o 2 z (ts.map Prod.snd) fun _ =>
        Moving.unit m after all.length (engEach (fun r x =>
          let v := ofBytes (r.s.placeBytes c m.launch p (x.1 * z) z)
          engModify r o x.2 z 2 fun bs => bytesOf (elemAdd ty (ofBytes bs) v) z) r ts)
  | 4 =>
    let idx := s.indexList c m
    let e := boxExt m.a 1
    let n := ((idx.drop (64 * m.pos)).take 64).length
    let bad := m.chunk.isEmpty && (s.indexBad c m (64 * m.pos) n || s.placeBad c m.launch p (64 * m.pos * e * z) (n * e * z))
    if bad then .fail 3 s
    else
      let all := if m.chunk.isEmpty then s.scatterChunk c m p idx m.pos else m.chunk
      let ws := all.take (256 / z)
      whenReady s o 1 z (ws.map Prod.fst) fun _ =>
        let rest := all.drop (256 / z)
        Moving.unit { m with chunk := rest } (if rest.isEmpty then m.pos + 1 else m.pos) ((idx.length + 63) / 64)
          (engEach (fun r w => engWrite r o w.1 w.2) r ws)
  | 5 =>
    match s.ring? c m.launch (ringNo m.a), s.windowSplit m.tenant (nbits m.b 0 64) with
    | some g, some split => s.moveRows c m g split
    | none, _ => .fail 9 s
    | _, none => .fail 1 s
  | 6 =>
    if m.read.length < boxCount m.a (shapeRank m.shape) then .wait 2 s
    else
      let all := boxTargets m.shape m.a
      let ts := m.next z all
      whenReady s o 1 z (ts.map Prod.snd) fun _ =>
        Moving.unit m after all.length (storeEach o (fun _ i => bytesOf (m.read.getD i 0) z) r ts)
  | 7 =>
    let all := boxTargets m.shape m.a
    let ts := m.next z all
    whenReady s o 1 z (ts.map Prod.snd) fun _ => Moving.unit m after all.length (storeEach o (fun _ _ => bytesOf m.b.toNat z) r ts)
  | 8 =>
    let dst := nbits m.a 0 64
    let src := nbits m.b 0 64
    let n := nbits m.c 0 64
    let k := Nat.min 256 (n - 256 * m.pos)
    whenReady s o 0 1 ((piecesOf (src + 256 * m.pos) k).map Prod.fst) fun _ =>
      whenReady s o 1 1 ((piecesOf (dst + 256 * m.pos) k).map Prod.fst) fun _ =>
        Moving.unit m (m.pos + 1) ((n + 255) / 256) (copyGranule o dst src n r m.pos)
  | 14 =>
    let n := nbits m.c 0 64
    let k := Nat.min 256 (n - 256 * m.pos)
    if s.placeBad c m.launch p (256 * m.pos) k then .fail 3 s
    else Moving.unit m (m.pos + 1) ((n + 255) / 256)
      (.ok () { r with s := s.putPlace c m.launch (s.slotOfCmd c m) (256 * m.pos) (s.placeBytes c m.launch p (256 * m.pos) k) })
  | _ =>
    let n := nbits m.c 0 64
    let k := Nat.min 256 (n - 256 * m.pos)
    if s.placeBad c m.launch (s.slotOfCmd c m) (256 * m.pos) k then .fail 3 s
    else Moving.unit m (m.pos + 1) ((n + 255) / 256)
      (.ok () { r with s := s.putPlace c m.launch p (256 * m.pos) (s.placeBytes c m.launch (s.slotOfCmd c m) (256 * m.pos) k) })

/-- A pop reads its slot only once it is published (R249). -/
def State.copyPublished (s : State) (c : Nat) (m : CopyCmd) : Bool :=
  match m.ringUse, m.slots with
  | some (k, false), (_, n) :: _ => (match s.ring? c m.launch k with | some r => r.published n | none => true)
  | _, _ => true

/-- A command is complete: its slot is published or retired, it leaves the queue, and its timeline goes on (R201). -/
def State.copyDone (s : State) (c : Nat) (m : CopyCmd) : State :=
  let s := match m.ringUse, m.slots with
    | some (k, push), (_, n) :: _ => s.modRing c k fun r => if push then r.fill n else r.retire n
    | _, _ => s
  let s := s.modCore c fun x => { x with copyQ := x.copyQ.filter fun y => y.id != m.id }
  ((s.modCtx m.home false fun e => e.complete m.n 0).lowerOpc m.home false 1).endPeer c m.who m.launch m.id m.peer

/-- A command whose writes are all answered is complete, or fails with cause 2, once its record has a place, if a peer has refused one
(R387). -/
def State.copyEnds (s : State) (c : Nat) (m : CopyCmd) : State :=
  if !m.refused then s.copyDone c m else if s.faultRoom m.tenant then s.copyFails c m 2 else s

/-- Everything a moved command still waits for is answered: peer writes, and ordered entries (R201, R106). -/
def State.settled (s : State) (o : Owner) : Bool := !(s.flight.peers.any fun p => p.tid == o.tag) && !s.ordWaits o

/-- The command that may move data or complete next under an id: it has started, and no earlier one of its context is queued, on whatever
core (R200). -/
def State.copyTurn (s : State) (c id : Nat) : Option CopyCmd :=
  match (s.core c).copyQ.find? fun m => m.id == id with
  | some m =>
    if m.started && !(s.cores.any fun e => e.2.copyQ.any fun x => x.home == m.home && x.n < m.n) then some m else none
  | none => none

/-- A started command has a unit of work that can be done now and that no turn has paid for (R246). -/
def State.canMove (s : State) (c : Nat) (m : CopyCmd) : Bool :=
  (s.copyTurn c m.id).isSome && !m.paid && !m.moved && s.copyPublished c m && (match s.moveCopy c m with
    | .wait _ _ => false
    | .fail _ _ => s.faultRoom m.tenant
    | _ => true)

/-- A unit of a command's data has moved (R246): its launch has had the turn, unless its start has. -/
def State.unitMoved (s : State) (c : Nat) (m : CopyCmd) : State :=
  (if m.paid then s.modCopy c m.id fun x => { x with paid := false } else s.copyServed c m.launch).corrected c m.who m.launch m.tenant

/-- COPY_COMMAND_COMPLETE: the command moves its next unit of data when its launch has the turn; when all have moved and are answered, its
timeline advances (R201, R246). -/
def execCopyCommandComplete (core id : Nat) (s : State) : Out :=
  match s.copyTurn core id with
  | none => .next s
  | some m =>
    if !s.copyPublished core m then .next s
    else if m.moved then .next (if s.settled (m.owner core) then s.copyEnds core m else s)
    else if !m.paid && s.copyPick core (fun l => (s.core core).copyQ.any fun x => x.launch == l && s.canMove core x) != some m.launch then
      .next (match s.moveCopy core m with
        | .wait _ s => s
        | _ => s)
    else match s.moveCopy core m with
    | .wait _ s => .next s
    | .more m2 s => .next ((s.modCopy core id fun _ => m2).unitMoved core m)
    | .fail k s2 => .next (if s.faultRoom m.tenant then s2.copyFails core m k else s)
    | .moved s =>
      let s := s.unitMoved core m
      .next (if s.settled (m.owner core) then s.copyEnds core m else s.modCopy core id fun x => { x with moved := true })

/-! ### The steps of `dens` (R221, R287) -/

/-- The region coordinates of a box element. -/
def densCoords (g : Region) (m : CopyCmd) (i : Nat) : List Nat :=
  let cs := boxCoords m.a g.rank i
  (List.range g.rank).map fun d => coordOf g (nbits m.c 0 128) d + cs.getD d 0

def keyOf (cs : List Nat) : Nat := cs.foldl (fun k x => k * 2 ^ 24 + x) 0

/-- REGION_POINT: the next scan step of a `dens`, up to 15 entries along a run of its last dimension (R217, R221). -/
def execRegionPoint (core id : Nat) (s : State) : Out :=
  match s.copyTurn core id with
  | none => .next s
  | some m =>
    let n := boxCount m.a (shapeRank m.shape)
    let i := m.read.length
    if m.op ≠ 6 ∨ n ≤ i then .next s
    else
      let k := nbits m.b 0 4
      let me := 2 ^ 40 + cmdTag m.id
      match s.resumeBreak k me with
      | some (.broken _ _ s) => .next (s.copyFails core m 10)
      | some _ => .next s
      | none =>
      match s.regionFor m.tenant k with
      | .error _ => .next (s.copyFails core m 10)
      | .ok g =>
        let w := boxExt m.a (g.rank - 1)
        let run := w - i % w
        let cs := densCoords g m i
        let top := g.extents.getD (g.rank - 1) 0
        let leads := (List.range (g.rank - 1)).all fun d => decide (cs.getD d 0 < g.extents.getD d 0)
        let last := cs.getD (g.rank - 1) 0
        let inside := if leads then Nat.min run (top - last) else 0
        if inside = 0 then .next (s.modCopy core id fun x => { x with read := x.read ++ List.replicate run 0 })
        else
          let key := keyOf cs
          match s.regScan k g (if key = 0 then 2 ^ 127 else key - 1) 15 with
          | .error .wait => .next (s.markOp k me [])
          | .error (.silent key) => .next ((s.unheard key).markOp k me [])
          | .error e =>
            let r := match e with | .translation => (0, 0) | .mismatch => (1, 0) | .lost va => (2, va) | .silent _ | .wait => (0, 0)
            (match s.breakRegion k g me m.launch r.1 r.2 with
             | .broken _ _ s => .next (s.copyFails core m 10)
             | .wait s => .next s
             | .done _ s => .next s)
          | .ok es =>
            -- fifteen entries reach as far as the last of them; fewer reach to the end of the run
            let span := if es.length = 15 then Nat.min inside ((es.getLastD (0, 0)).1 - key + 1) else inside
            let vals := (List.range span).map fun j => ((es.find? fun e => e.1 == key + j).map Prod.snd).getD 0
            let rest := if span = inside then List.replicate (run - inside) 0 else []
            .next ((s.forgetOp me).modCopy core id fun x => { x with read := x.read ++ vals ++ rest })

end Sys2Proof.Machine
end

