-- ==== Sys2Proof/Machine/Matrix.lean ====
section
/-! DEFINITION. Sys2Proof/Machine/Matrix.lean: the matrix unit (R251 to R254, R101 to R103, R173) and its commands (R291 to
R293), and the failure of engine commands as an event (R247). -/

namespace Sys2Proof.Machine

/-! ### Issue (R281, R291 to R293) -/

def MatCmd.owner (m : MatCmd) (c : Nat) : Owner := { core := c, launch := m.launch, tenant := m.tenant, who := m.who, id := m.id }

/-- Place a matrix command in the queue of the core where its thread runs; a drain into a peer page is a message to the peer (R28, R29). -/
def putMat (op : Nat) (a b c : Thread → Vec) (s : State) (t : Nat) (th : Thread) (n : Nat) : State :=
  let k := coreOf t
  let m : MatCmd := { id := s.sched.nextId, home := th.home, who := th.who, launch := th.launch, tenant := th.tenant, n := n, op := op,
                      a := a th, b := b th, c := c th, fmta := th.ctx.fmta, fmtb := th.ctx.fmtb, scla := th.ctx.scla,
                      sclb := th.ctx.sclb, rnd := th.rnd, granted := 0, retired := 0, slots := [], peer := false,
                      drained := false, sent := 0, moved := false, shape := 0 }
  let shape := (s.shapeRec m.tenant (boxHandle m.a)).getD 0
  let p := op == 12 && (boxTargets shape m.a).any fun x => s.peerAt (m.owner k) x.2
  let s := if p then s.countSent k th.who th.launch 1 else s
  s.modCore k fun x => { x with matQ := x.matQ ++ [{ m with peer := p }] }

/-- The control of `mma` and `smma` (R291). -/
def tileRule (sparse : Bool) (v : Vec) : Refusal281 :=
  operandRule (nbits v 18 46 == 0 && nbits v 3 5 == 0 && (sparse || nbits v 16 2 == 0)) v

def tileIssue (q : Req) (op : Nat) (sparse : Bool) (a b c : BitVec 7) (s : State) : Out :=
  engIssue q true (fun th => nbits (th.V c) 8 8 + 1)
    (fun _ th => firstRefusal [operandRule (placeOk (th.V a)) (th.V a), operandRule (placeOk (th.V b)) (th.V b), tileRule sparse (th.V c)])
    (putMat op (·.V a) (·.V b) (·.V c)) s

/-- MMA (R291). -/
def execMma (a b c : BitVec 7) (s : State) : Out := tileIssue (reqEng (.mma a b c) [a, b, c]) 9 false a b c s
/-- SMMA (R291). -/
def execSmma (a b c : BitVec 7) (s : State) : Out := tileIssue (reqEng (.smma a b c) [a, b, c]) 10 true a b c s

/-- MZERO (R292). -/
def execMzero (a : BitVec 7) (s : State) : Out :=
  engIssue (reqEng (.mzero a) [a]) true (fun _ => 1) (fun _ th => operandRule (nbits (th.V a) 3 61 == 0) (th.V a))
    (putMat 11 (·.V a) noOperand noOperand) s

/-- The limits of a drain's box for a shape of rank `r` (R293): of all four dimensions of the box, but of dimension 0 alone for rank 1. -/
def drainBoxOk (r v : Vec) : Bool :=
  let k := shapeRank r
  if k = 1 then decide (boxExt v 0 ≤ 32) else (List.range 4).all fun d => decide (boxExt v d ≤ if d < k && k ≤ d + 2 then 32 else 1)
def drainBoxRule (s : State) (th : Thread) (v : Vec) : Refusal281 :=
  match s.shapeRec th.tenant (boxHandle v) with
  | some r => operandRule (drainBoxOk r v) v
  | none => none

/-- MDRAIN: a the box, c the control (R293). -/
def execMdrain (a c : BitVec 7) (s : State) : Out :=
  engIssue (reqEng (.mdrain a c) [a, c]) true (fun _ => 1)
    (fun s th => firstRefusal [boxRule (th.V a),
      operandRule (nbits (th.V c) 28 36 == 0 && nbits (th.V c) 8 8 == 0 && nbits (th.V c) 3 1 == 0 && nbits (th.V c) 4 2 != 3) (th.V c),
      staleRule s th (th.V a), drainBoxRule s th (th.V a)])
    (putMat 12 (·.V a) noOperand (·.V c)) s

/-! ### Numbers of tiles (R101, R102, R173) -/

/-- The accumulator type of a pairing: some true for i32, some false for f32, none where it is refused (R102). -/
def accInt (fa fb : Dword) : Option Bool :=
  let a := nbits fa 0 4
  let b := nbits fb 0 4
  let int (t : Nat) : Bool := t == 2 || t == 3
  if int a && int b then some true
  else if (a ≤ 1 ∧ b ≤ 1) ∨ ((a = 4 ∨ a = 5) ∧ (b = 4 ∨ b = 5)) ∨ (a = 6 ∧ b = 6) then some false
  else none

/-- K of an operand type (R101). -/
def kOf (f : Dword) : Nat := match nbits f 0 4 with
  | 4 => 32
  | 5 => 32
  | 6 => 128
  | _ => 64

/-- The operand carries scales (R85). -/
def scaledOp (f : Dword) : Bool := nbits f 0 4 == 6 || (nbits f 0 4 == 0 && nbits f 4 1 == 1)

/-- Element `k` of a row or column of 64 bytes as a number, with its scale byte (R84, R85). -/
def elemNum (f : Dword) (row : List Byte) (sb k : Nat) : Num :=
  let b (i : Nat) : Nat := (row.getD i 0).toNat
  match nbits f 0 4 with
  | 1 => unpack fmtE5m2 (b k)
  | 4 => unpack fmtBf16 (b (2 * k) + 256 * b (2 * k + 1))
  | 5 => unpack fmtF16 (b (2 * k) + 256 * b (2 * k + 1))
  | 6 => q4Num sb (b (k / 2) / 2 ^ (4 * (k % 2)) % 16)
  | _ =>
    let x := unpack fmtE4m3 (b k)
    if nbits f 4 1 = 1 then
      if sb % 64 = 63 then .nan false
      else match x with
        | .fin n m e => .fin n m (e + (sb % 64 : Nat) - 32)
        | y => y
    else x

/-- Element `k` of an integer operand (R79). -/
def elemInt (f : Dword) (row : List Byte) (k : Nat) : Int :=
  if nbits f 0 4 = 2 then signedOf (row.getD k 0).toNat 8 else (row.getD k 0).toNat

/-- An f32 element of a tile operation: one rounding of the exact sum (R101). A product of 0 and an infinity, infinities of both
signs in the sum, and a signalling accumulator raise NV (R98, R82). (Log 76, DEDUCED.) -/
def tileF32 (acc : Nat) (xs ys : List Num) : Nat × Flg :=
  let a := unpack fmtF32 acc
  let ps := (xs.zip ys).map fun p => exactMul p.1 p.2
  let terms := a :: ps.map Prod.fst
  let nv := flIf (a.isSig || (terms.any fun x => x.isInf && x.neg) && terms.any fun x => x.isInf && !x.neg) flNV ||| flAll (ps.map Prod.snd)
  let sum := terms.foldl (fun t x => (exactAdd 0 t x).1) (.fin false 0 0)
  if sum.isZero then (0, nv) else rounded fmtF32 0 (sum, nv)

/-- An i32 element of a tile operation (R101). -/
def tileI32 (acc : Nat) (xs ys : List Int) : Nat :=
  wrap ((xs.zip ys).foldl (fun t p => t + p.1 * p.2) (acc : Int)) 32

/-- A sparse slot as its dense tile (R173, R103): its bitmap, then the present values in order. -/
def denseOf (z : Nat) (bitmap values : List Byte) : List Byte :=
  ((List.range (2048 / z)).foldl (fun (acc : List Byte × List Byte) j =>
    if (bitmap.getD (j / 8) 0).getLsbD (j % 8) then (acc.1 ++ acc.2.take z, acc.2.drop z)
    else (acc.1 ++ List.replicate z 0, acc.2)) ([], values)).1

/-- The 32 rows of an operand's slot (R173; log 9, DESIGN CHOICE for a sparse slot of q4). -/
def tileRows (f : Dword) (sparse : Bool) (slot : List Byte) : List (List Byte) :=
  if sparse && nbits f 0 4 == 6 then (List.range 32).map fun r => bytesOf (Config.sparseQ4 slot r).toNat 64
  else
    let z := if kOf f = 32 then 2 else 1
    let dense := if sparse then denseOf z (slot.take 256) (slot.drop 256) else slot
    (List.range 32).map fun r => (dense.drop (64 * r)).take 64

/-! ### The arbiter (R252) -/

def MatCmd.tile (m : MatCmd) : Bool := m.op == 9 || m.op == 10
/-- The accumulator a command names. -/
def MatCmd.acc (m : MatCmd) : Nat := if m.op = 11 then nbits m.a 0 3 else nbits m.c 0 3
def MatCmd.sparseA (m : MatCmd) : Bool := m.op == 10 && m.c.getLsbD 16
def MatCmd.sparseB (m : MatCmd) : Bool := m.op == 10 && m.c.getLsbD 17
def MatCmd.mode (m : MatCmd) : Nat := nbits m.c 4 2

def State.modMat (s : State) (c id : Nat) (f : MatCmd → MatCmd) : State :=
  s.modCore c fun x => { x with matQ := x.matQ.map fun m => if m.id = id then f m else m }
def State.matFails (s : State) (c : Nat) (m : MatCmd) (cause : Nat) : State :=
  s.failCmd c m.home m.launch m.tenant m.n true cause
def State.matCmd? (s : State) (c id : Nat) : Option MatCmd := (s.core c).matQ.find? fun m => m.id == id

/-- Earlier commands of the same context that are queued, on whatever core (R200). -/
def State.matBefore (s : State) (m : MatCmd) : List MatCmd :=
  s.cores.flatMap fun e => e.2.matQ.filter fun x => x.home == m.home && x.n < m.n

/-- A command no longer waits at the arbiter. -/
def MatCmd.through (m : MatCmd) : Bool := if m.tile then m.granted == m.tiles else m.drained

/-- Every earlier operation of the context on the accumulator has retired, and none waits (R251, R254, R292). -/
def State.matTurn (s : State) (m : MatCmd) : Bool :=
  (s.matBefore m).all fun x => x.through && (!x.tile || x.retired == x.tiles || x.acc != m.acc)

/-- Accumulators of a launch (R175). -/
def State.accCount (s : State) (launch : Nat) : Nat := match s.launch? launch with | some l => l.part 40 1 | none => 0
/-- The accumulator of the core that a launch numbers `a`. -/
def State.accIndex (s : State) (c launch a : Nat) : Nat :=
  match s.launch? launch with
  | some l => (mgetD l.accBase c []).getD a 8
  | none => a
def State.accData (s : State) (c k : Nat) : List (BitVec 32) := mgetD (s.core c).accs k (List.replicate 1024 0)
def State.setAcc (s : State) (c k : Nat) (v : List (BitVec 32)) : State :=
  (s.mendLines (sramLine 5 c (64 * k)) 64).modCore c fun x => { x with accs := mput x.accs k v }
/-- An accumulator of a core holds an uncorrectable error (R169). -/
def State.accBad (s : State) (c k : Nat) : Bool := (List.range 64).any fun i => s.badLine (sramLine 5 c (64 * k + i))

/-- Bytes of a slot of an operand. (Log 39, DEDUCED.) -/
def slotLen (sparse : Bool) : Nat := if sparse then 4096 else 2048

/-- An operand of a command's tile operations: why the command fails as it starts (R247, R281), or the ring they take their slots of. -/
def State.tileOperand (s : State) (c : Nat) (m : MatCmd) (v : Vec) (sparse : Bool) : Except Nat (Option Nat) :=
  if placeRing v then
    match s.ring? c m.launch (ringNo v) with
    | none => .error 9
    | some r => if r.slotSize < slotLen sparse then .error 9 else .ok (some (ringNo v))
  else if swizzleBad v then .error 8
  else if s.grantSize m.launch < placeOff v + m.tiles * slotLen sparse then .error 2 else .ok none

/-- Why a command of tile operations fails, if it does (R102, R175, R247). -/
def State.tileFails (s : State) (c : Nat) (m : MatCmd) : Option Nat :=
  if (accInt m.fmta m.fmtb).isNone then some 5
  else if s.accCount m.launch ≤ m.acc then some 6
  else match s.tileOperand c m m.a m.sparseA, s.tileOperand c m m.b m.sparseB with
    | .error k, _ => some k
    | _, .error k => some k
    | _, _ => none

/-- The conversion of an accumulator element to a destination type, where the pairing is allowed (R293). (Log 55, DEDUCED.) -/
def drainConvert (int : Bool) (ty mode : Nat) (sat : Bool) (v : Nat) : Option (Nat × Flg) :=
  let x := unpack fmtF32 v
  if int then
    match ty with
    | 7 => some (v, 0)
    | 6 => some (i32ToF32 mode v)
    | 2 =>
      let i := signedOf v 32
      some (wrap (if sat then (if i < -128 then -128 else if 127 < i then 127 else i) else i) 8, 0)
    | _ => none
  else
    match ty with
    | 6 => some (if x.isNan then (roundTo fmtF32 0 false x) else (v, 0))
    | 4 => some (roundTo fmtBf16 mode sat x)
    | 5 => some (roundTo fmtF16 mode sat x)
    | 0 => some (roundTo fmtE4m3 mode sat x)
    | 1 => some (roundTo fmtE5m2 mode sat x)
    | 7 => some (f32ToI32 mode v)
    | _ => none

/-- Why a drain fails at its turn, if it does (R293, R247). -/
def State.drainFails (s : State) (m : MatCmd) : Option Nat :=
  match s.shapeRec m.tenant (boxHandle m.a) with
  | none => some 12
  | some r =>
    match accInt m.fmta m.fmtb with
    | none => some 5
    | some int =>
      let ty := shapeType r
      if !boxFits r m.a || (drainConvert int ty 0 false 0).isNone then some 5
      else if m.mode ≠ 0 ∧ ty ≠ 6 ∧ ty ≠ 4 ∧ ty ≠ 7 then some 5
      else if s.accCount m.launch ≤ m.acc then some 6
      else if m.mode = 2 ∧ s.slices m.launch ≤ nbits m.c 16 12 then some 7
      else none

/-- Claim the next slot of a ring, if it is published (R249). -/
def Ring.claim (r : Ring) : Option (Nat × Ring) :=
  if r.canPop && r.published r.rptr then some (r.rptr, { r with rptr := ringNext r.rptr }) else none

/-- Claim the slots of an operation, A first: the slots, and the state after it. -/
def State.claimSlots (s : State) (c : Nat) (m : MatCmd) : List Nat → Option (List (Nat × Nat) × State)
  | [] => some ([], s)
  | k :: rest =>
    match (s.ring? c m.launch k).bind Ring.claim with
    | none => none
    | some (v, r) =>
      match State.claimSlots (s.modRing c k fun _ => r) c m rest with
      | none => none
      | some (vs, s) => some ((k, v) :: vs, s)

/-- The rings of a command's operands, A first. -/
def MatCmd.rings (m : MatCmd) : List Nat :=
  (if placeRing m.a then [ringNo m.a] else []) ++ (if placeRing m.b then [ringNo m.b] else [])

/-- A drain buffer of a cluster is free, and no granted drain is about to take it (R254). -/
def State.drainFree (s : State) (k : Nat) : Bool :=
  let due := ((List.range 8).map fun j => ((s.core (k * 8 + j)).matQ.filter fun m => m.op == 12 && m.granted == 1 && !m.drained).length).sum
  decide ((s.cluster k).drains.length + due < 8)

/-- What a command needs to be ready, at its turn: of a tile operation its ring slots, of a drain a buffer; or it fails, and its record has a
place (R252, R254, R258). -/
def State.readyNow (s : State) (c : Nat) (m : MatCmd) : Bool :=
  if m.op = 12 then if (s.drainFails m).isSome then s.faultRoom m.tenant else s.drainFree (clusterOf c)
  else if (s.tileFails c m).isSome then s.faultRoom m.tenant else (s.claimSlots c m m.rings).isSome

/-- A command waits at the arbiter, and none of its context before it: a drain once the earlier operations on its accumulator have retired
(R252, R254). -/
def State.atArbiter (s : State) (m : MatCmd) : Bool :=
  decide (m.granted < m.tiles) && (if m.op = 12 then s.matTurn m else m.tile && (s.matBefore m).all MatCmd.through)

/-- The next operation of a core's queue that is ready: the oldest whose context has no earlier one waiting (R252). -/
def State.readyTile (s : State) (c : Nat) : Option MatCmd := (s.core c).matQ.find? fun m => s.atArbiter m && s.readyNow c m

/-- A core's weight: its positions that are not BUBBLE and not the machine slot's (R252). -/
def State.matWeight (s : State) (c : Nat) : Nat :=
  let n := ((s.core c).imp.filter fun e => !impBubble e.2 && impLidx e.2 != 63).length
  if n = 0 ∧ (s.core c).matQ ≠ [] then 1 else n

/-- The first core from a place of the pass on that has credit and a ready operation. (Log 56, DEDUCED.) -/
def State.nextGrant (s : State) (k at_ : Nat) (credit : Nat → Nat) : Option Nat :=
  ((List.range 8).map fun j => k * 8 + (at_ + j) % 8).find? fun c => decide (0 < credit c) && (s.readyTile c).isSome

/-- Grant a ready tile operation of a core, or its drain (R251, R252, R254). -/
def State.grantTile (s : State) (c : Nat) : State :=
  match s.readyTile c with
  | none => s
  | some m =>
    if m.op = 12 then
      match s.drainFails m with
      | some k => s.matFails c m k
      | none => s.modMat c m.id fun x => { x with granted := 1 }
    else match s.tileFails c m with
    | some k => s.matFails c m k
    | none => match s.claimSlots c m m.rings with
      | none => s
      | some (vs, s) => s.modMat c m.id fun x => { x with granted := x.granted + 1, slots := x.slots ++ vs }

/-- TILE_GRANT (R252): the next operation of the round, or the first of a new one; while no operation is ready there is no round, and no
credit is left of the last. -/
def execTileGrant (cluster : Nat) (s : State) : Out :=
  let k := s.cluster cluster
  match s.nextGrant cluster k.at_ (fun c => mgetD k.credit c 0) with
  | some c =>
    .next ((s.modCluster cluster fun x => { x with credit := mput x.credit c (mgetD x.credit c 0 - 1), at_ := (c % 8 + 1) % 8 }).grantTile c)
  | none =>
    match s.nextGrant cluster 0 s.matWeight with
    | none => .next (if k.credit.isEmpty && k.at_ == 0 then s else s.modCluster cluster fun x => { x with credit := [], at_ := 0 })
    | some c =>
      let fresh := (List.range 8).map fun j => (cluster * 8 + j, s.matWeight (cluster * 8 + j))
      .next ((s.modCluster cluster fun x => { x with credit := mput fresh c (mgetD fresh c 0 - 1), at_ := (c % 8 + 1) % 8 }).grantTile c)

/-! ### Retirement (R251, R291) -/

/-- The K scale bytes of an operand for operation `i` (R291). -/
def readScales (o : Owner) (f base : Dword) (i : Nat) (r : Run) : Eff (List Byte) :=
  if scaledOp f then readPieces o r (piecesOf ((base.toNat + kOf f * i) % 2 ^ 64) (kOf f)) else .ok [] r

/-- The numbers of an operand: 32 rows or columns of K elements (R101, R291). -/
def operandNums (f : Dword) (rows : List (List Byte)) (scales : List Byte) : List (List Num) :=
  let k := kOf f
  rows.zipIdx.map fun x => (List.range k).map fun j => elemNum f x.1 (scales.getD (k / 32 * x.2 + j / 32) 0).toNat j

/-- The accumulator after a tile operation, and its flags (R101). -/
def tileProduct (m : MatCmd) (acc : List (BitVec 32)) (ra rb : List (List Byte)) (sa sb : List Byte) : List (BitVec 32) × Flg :=
  if accInt m.fmta m.fmtb = some true then
    let xs := ra.map fun r => (List.range 64).map (elemInt m.fmta r)
    let ys := rb.map fun r => (List.range 64).map (elemInt m.fmtb r)
    (acc.zipIdx.map fun e => BitVec.ofNat 32 (tileI32 e.1.toNat (xs.getD (e.2 / 32) []) (ys.getD (e.2 % 32) [])), 0)
  else
    let xs := operandNums m.fmta ra sa
    let ys := operandNums m.fmtb rb sb
    let zs := acc.zipIdx.map fun e => tileF32 e.1.toNat (xs.getD (e.2 / 32) []) (ys.getD (e.2 % 32) [])
    (zs.map fun z => BitVec.ofNat 32 z.1, flAll (zs.map Prod.snd))

/-- A matrix command is complete: it leaves its queue and its timeline goes on (R201). -/
def State.matDone (s : State) (c : Nat) (m : MatCmd) (fl : Flg) : State :=
  let s := s.modCore c fun x => { x with matQ := x.matQ.filter fun y => y.id != m.id }
  s.modCtx m.home true fun e => e.complete m.n fl

/-- The place of an operand for the next operation to retire. -/
def State.operandPlace (s : State) (c : Nat) (m : MatCmd) (v : Vec) (sparse : Bool) (slot : Option (Nat × Nat)) : Option PlaceAt :=
  if placeRing v then slot.bind fun x => (s.ring? c m.launch x.1).map fun r => r.place x.2
  else some { off := placeOff v + m.retired * slotLen sparse, swz := placeSwz v }

/-- The bytes of an operand's slot for the next operation to retire. -/
def State.slotBytes (s : State) (c : Nat) (m : MatCmd) (v : Vec) (sparse : Bool) (slot : Option (Nat × Nat)) : List Byte :=
  match s.operandPlace c m v sparse slot with
  | some p => s.placeBytes c m.launch p 0 (slotLen sparse)
  | none => []

/-- Bytes of a slot that an operation reads: of a sparse slot the bitmap and the present values (R173); of one of q4 the whole slot, whose
layout is open (log 9, DESIGN CHOICE). -/
def slotReads (f : Dword) (sparse : Bool) (slot : List Byte) : Nat :=
  if !sparse || nbits f 0 4 == 6 then slotLen sparse
  else
    let z := if kOf f = 32 then 2 else 1
    256 + z * ((List.range (2048 / z)).filter fun j => (slot.getD (j / 8) 0).getLsbD (j % 8)).length

/-- What the next operation reads holds an uncorrectable error: a slot, or its accumulator (R169). -/
def State.tileBad (s : State) (c : Nat) (m : MatCmd) : Bool :=
  let mine := m.slots.take m.rings.length
  let bad (v : Vec) (f : Dword) (sparse : Bool) (slot : Option (Nat × Nat)) : Bool := match s.operandPlace c m v sparse slot with
    | some p => s.placeBad c m.launch p 0 (slotReads f sparse (s.slotBytes c m v sparse slot))
    | none => false
  bad m.a m.fmta m.sparseA (if placeRing m.a then mine.head? else none) || bad m.b m.fmtb m.sparseB (if placeRing m.b then mine.getLast? else none) ||
    s.accBad c (s.accIndex c m.launch m.acc)

/-- A drain of an earlier command writes into the scratchpad, or memory that the operation reads scales of. -/
def MatCmd.feeds (x m : MatCmd) : Bool :=
  x.op == 12 && x.drained && (scaledOp m.fmta || scaledOp m.fmtb || (boxTargets x.shape x.a).any fun y => y.2 / 2 ^ 52 == 0xFF0)

/-- The next operation has to wait for an earlier one of its context: one on its accumulator that has not retired, or a drain whose writes it
may read (R200, R251). -/
def State.tileBehind (s : State) (m : MatCmd) : Bool :=
  (s.matBefore m).any fun x => (x.tile && x.acc == m.acc && x.retired != x.tiles) || x.feeds m

/-- TILE_RETIREMENT: the product is in the accumulator and the ring slots pop (R251); for `mzero`, its turn (R292). -/
def execTileRetirement (core id : Nat) (s : State) : Out :=
  match s.matCmd? core id with
  | none => .next s
  | some m =>
    if m.op = 11 then
      if !s.matTurn m then .next s
      else if s.accCount m.launch ≤ m.acc then .next (s.matFails core m 6)
      else
        let s := s.setAcc core (s.accIndex core m.launch m.acc) (List.replicate 1024 0)
        .next ((s.matDone core m 0).lowerOpc m.home true 1)
    else if !m.tile || m.granted ≤ m.retired || s.tileBehind m then .next s
    else if s.tileBad core m then .next (s.matFails core m 3)
    else
      let o := m.owner core
      let mine := m.slots.take m.rings.length
      let slotA := if placeRing m.a then mine.head? else none
      let slotB := if placeRing m.b then mine.getLast? else none
      let ra := tileRows m.fmta m.sparseA (s.slotBytes core m m.a m.sparseA slotA)
      let rb := tileRows m.fmtb m.sparseB (s.slotBytes core m m.b m.sparseB slotB)
      let keep (r : Run) : Out := .next (r.s.modMat core id fun x => { x with grans := r.grans })
      match readScales o m.fmta m.scla m.retired { s := s, grans := m.grans } with
      | .fail k _ => .next (s.matFails core m k)
      | .wait _ r => keep r
      | .ok sa r => match readScales o m.fmtb m.sclb m.retired r with
        | .fail k _ => .next (s.matFails core m k)
        | .wait _ r => keep r
        | .ok sb r =>
          let k := r.s.accIndex core m.launch m.acc
          let z := tileProduct m (r.s.accData core k) ra rb sa sb
          let s := r.s.setAcc core k z.1
          let s := mine.foldl (fun s x => s.modRing core x.1 fun g => g.retire x.2) s
          let s := (s.modMat core id fun x => { x with retired := x.retired + 1, slots := x.slots.drop m.rings.length, grans := r.grans }).lowerOpc m.home true 1
          let s := s.corrected core m.who m.launch m.tenant
          if m.retired + 1 = m.tiles then .next (s.matDone core m z.2)
          else .next (if z.2 = 0 then s else s.modCtx m.home true fun e => { e with flags := e.flags ++ [(m.n, z.2.toNat)] })

/-! ### Drains (R254, R293) -/

/-- DRAIN_TURN: a drain that the arbiter has granted copies its accumulator into a free drain buffer, and zeroes it if the command says so
(R252, R254); the copy takes a cycle of the unit (R352; log 67, DEDUCED). -/
def execDrainTurn (core id : Nat) (s : State) : Out :=
  match s.matCmd? core id with
  | none => .next s
  | some m =>
    if m.op ≠ 12 || m.drained || m.granted = 0 || s.rowHeld core then .next s
    else match s.drainFails m with
    | some k => .next (s.matFails core m k)
    | none =>
      let k := s.accIndex core m.launch m.acc
      if s.accBad core k then .next (s.matFails core m 3)
      else
        let s := s.modCluster (clusterOf core) fun x =>
          { x with drains := x.drains ++ [{ core := core, id := id, data := s.accData core k }],
                   copied := x.copied ++ [(core, m.who, m.launch, m.tenant)] }
        let s := if m.c.getLsbD 6 then s.setAcc core k (List.replicate 1024 0) else s
        .next (s.modMat core id fun x => { x with drained := true, shape := (s.shapeRec m.tenant (boxHandle m.a)).getD 0 })

/-- The box elements of a drain with their addresses and accumulator elements (R293). -/
def drainTargets (m : MatCmd) : List (Nat × Nat) :=
  let k := shapeRank m.shape
  let w := boxExt m.a (k - 1)
  (boxTargets m.shape m.a).map fun x => (if k = 1 then x.1 else x.1 / w * 32 + x.1 % w, x.2)

/-- The converted elements of a drain: address and bits, and the flags. -/
def drainValues (m : MatCmd) (data : List (BitVec 32)) : List (Nat × Nat) × Flg :=
  let int := accInt m.fmta m.fmtb == some true
  let zs := (drainTargets m).map fun x =>
    (x.2, (drainConvert int (shapeType m.shape) m.rnd (m.c.getLsbD 7) ((data.getD x.1 0).toNat)).getD (0, 0))
  (zs.map fun z => (z.1, z.2.1), flAll (zs.map fun z => z.2.2))

/-- The next writes of a drain, of 256 bytes, and how far it has come (R246, R254). -/
def State.moveDrain (s : State) (c : Nat) (m : MatCmd) (data : List (BitVec 32)) : Moving × Nat × List Nat :=
  let o := m.owner c
  let ty := shapeType m.shape
  let z := typeBytes ty
  let all := (drainValues m data).1
  let u := 256 / z
  let xs := (all.drop m.sent).take u
  let r : Run := { s := s, grans := m.grans }
  if m.mode = 2 then
    match contributeAll o ty (nbits m.c 16 12) r (xs.map fun x => (x.1, widenTo ty x.2)) m.sent with
    | (k, .ok _ r) => (.moved r.s, k, r.grans)
    | (k, .fail cause r) => (.fail cause r.s, k, r.grans)
    | (k, .wait w r) => (.wait w r.s, k, r.grans)
  else match s.engReady o (if m.mode = 0 then 1 else 2) z (xs.map Prod.fst) with
  | some (w, s) => (.wait w s, m.sent, m.grans)
  | none =>
    match engEach (fun r x =>
        if m.mode = 0 then engWrite r o x.1 (bytesOf x.2 z)
        else engModify r o x.1 z 2 fun bs => bytesOf (elemAdd ty (ofBytes bs) x.2) z) r xs with
    | .ok _ r => (.moved r.s, m.sent + xs.length, r.grans)
    | .fail k r => (.fail k r.s, m.sent, r.grans)
    | .wait w r => (.wait w r.s, m.sent, m.grans)

/-- A drain is complete and its buffer is free (R254). -/
def State.drainDone (s : State) (c : Nat) (m : MatCmd) (fl : Flg) : State :=
  let s := s.modCluster (clusterOf c) fun x => { x with drains := x.drains.filter fun d => !(d.core == c && d.id == m.id) }
  ((s.matDone c m fl).lowerOpc m.home true 1).endPeer c m.who m.launch m.id m.peer

/-- A drain whose writes are all answered is complete, or fails with cause 2, once its record has a place, if a peer has refused one (R387). -/
def State.drainEnds (s : State) (c : Nat) (m : MatCmd) (fl : Flg) : State :=
  if !m.refused then s.drainDone c m fl else if s.faultRoom m.tenant then s.matFails c m 2 else s

/-- A drain's writes have to wait for an earlier command of its context: for a drain, or for tile operations that have still to read what
they may change (R200). -/
def State.drainBehind (s : State) (m : MatCmd) : Bool :=
  (s.matBefore m).any fun x => x.op == 12 || (x.tile && x.retired != x.tiles && m.feeds x)

/-- The drain buffer of a command. -/
def State.drainData (s : State) (c id : Nat) : Option (List (BitVec 32)) :=
  ((s.cluster (clusterOf c)).drains.find? fun d => d.core == c && d.id == id).map Drain.data

/-- DRAIN_COMPLETE: the buffer is converted and written through the shape (R254, R293). A drain that fails brings no flags (log 97,
DESIGN CHOICE). -/
def execDrainComplete (core id : Nat) (s : State) : Out :=
  match s.matCmd? core id, s.drainData core id with
  | some m, some data =>
    let fl := (drainValues m data).2
    if s.drainBehind m then .next s
    else if m.moved then .next (if s.settled (m.owner core) then s.drainEnds core m fl else s)
    else match s.moveDrain core m data with
    | (.wait _ s, k, gs) => .next (s.modMat core id fun x => { x with sent := k, grans := gs })
    | (.more _ s, _) => .next s
    | (.fail k s2, _) =>
      .next (if s.faultRoom m.tenant then s2.matFails core m k else s)
    | (.moved s, k, gs) =>
      .next (if k < (drainTargets m).length then s.modMat core id fun x => { x with sent := k, grans := gs }
        else if s.settled (m.owner core) then s.drainEnds core m fl
        else s.modMat core id fun x => { x with sent := k, grans := gs, moved := true })
  | _, _ => .next s

/-- What moving a queued command comes to now, copy or drain (R247). -/
def State.engOutcome (s : State) (core id : Nat) : Option (Moving × (State → Nat → State)) :=
  match s.copyTurn core id with
  | some m => if m.moved || !s.copyPublished core m then none else some (s.moveCopy core m, fun s k => s.copyFails core m k)
  | none => match s.matCmd? core id, s.drainData core id with
    | some m, some data =>
      if m.moved || s.drainBehind m then none else some ((s.moveDrain core m data).1, fun s k => s.matFails core m k)
    | _, _ => none

/-- ENGINE_FAILED: a command fails with the cause it meets; one whose write is held by a block window beyond BBWIN fails
with cause 11 (R247, R179). -/
def execEngineFailed (core id cause : Nat) (s : State) : Out :=
  match s.engOutcome core id with
  | some (.fail k s2, f) => .next (if k = cause then f s2 k else s)
  | some (.wait 6 s2, f) => .next (if cause = 11 then f s2 11 else s)
  | _ => .next s

end Sys2Proof.Machine
end

