-- ==== Sys2Proof/Machine/Observe.lean ====
section
/-! DEFINITION. Sys2Proof/Machine/Observe.lean: state-change logs and the proofing engine (R353, R355 to R358). -/

namespace Sys2Proof.Machine

/-! ### State-change logs (R355, R356) -/

/-- Some live thread of the core is held by one of the causes. -/
def State.heldAny (s : State) (c : Nat) (causes : List Nat) : Bool :=
  s.threads.any fun e => coreOf e.1 == c && (match e.2.cause with | some k => causes.contains k | none => false)

/-- The core state of the pass that has ended (R355). -/
def State.coreState (s : State) (c : Nat) : Nat :=
  if (s.core c).issued then 0
  else if s.heldAny c [8, 9, 12, 14] then 1
  else if s.heldAny c [4, 5, 6, 7, 10, 13] then 2
  else 3

/-- An entry of the log (R355). -/
def logEntry (delta state : Nat) (lost keep : Bool) : Word :=
  BitVec.ofNat 32 (Nat.min delta 65535 * 2 ^ 16 + state * 2 ^ 14 + (if lost then 2 ^ 13 else 0) + (if keep then 2 ^ 12 else 0))

/-- An entry takes the next place of the ring (R355). -/
def Core.append (x : Core) (e : Word) : Core := { x with slog := mput x.slog (x.slogW % 512) e, slogW := x.slogW + 1 }

/-- The core after a pass that ended in a state: an entry for a change or after 65,535 passes, held back while the ring is full
(R355, R356); and whether a change was dropped. -/
def Core.endPass (x : Core) (st : Nat) : Core × Bool :=
  let n := x.delta + 1
  let changed := st != x.sstate
  let x := { x with passDue := none, sstate := st }
  if !changed && n < 65535 then ({ x with delta := n }, false)
  else if x.slogW - x.slogR < 512 then
    ({ x.append (logEntry n st x.lostEntry (!changed)) with delta := 0, lostEntry := false }, false)
  else ({ x with delta := n, lostEntry := x.lostEntry || changed }, changed)

/-- A pass that has ended enters the log of its core (R355). -/
def State.logPass (s : State) (c : Nat) : State :=
  match (s.core c).passDue with
  | none => s
  | some st =>
    let r := (s.core c).endPass st
    let s := s.modCore c fun _ => r.1
    if r.2 then s.modDie (dieOf c) fun d => { d with changesDropped := d.changesDropped + 1 } else s

/-- The core reaches position 0: the pass behind it is over, and its state is evaluated (R355). -/
def State.passEnds (s : State) (c : Nat) : State :=
  let s := s.logPass c
  let st := s.coreState c
  s.modCore c fun x => { x with passDue := some st, issued := false }

/-- STATE_CHANGE_PASS: a pass that has ended is entered in the log (R355). -/
def execStateChangePass (core : Nat) (s : State) : Out := .next (s.logPass core)

/-- The proofing engine reads an entry: the passes since the entry before go to the state that the core was in (R355, R357). -/
def Die.readEntry (d : Die) (core : Nat) (e : Word) : Die :=
  let old := mgetD d.logState core 3
  { d with totals := mupd d.totals (core * 4 + old) 0 (fun n => (n + nbits e 16 16) % 2 ^ 64),
           logState := mput d.logState core (nbits e 14 2) }

/-- The entries of the log that the proofing engine has not read, oldest first (R355). -/
def Core.unread (x : Core) : List Word := (List.range (x.slogW - x.slogR)).map fun i => mgetD x.slog ((x.slogR + i) % 512) 0

/-- LOG_DRAIN: the proofing engine reads the entries of a core's log (R356). -/
def execLogDrain (core : Nat) (s : State) : Out :=
  if !coreOk core then .next s
  else
    let log := (s.core core).unread
    if log.isEmpty then .next s
    else .next ((s.modCore core fun x => { x with slogR := x.slogW }).modDie (dieOf core) fun d =>
      log.foldl (fun d e => d.readEntry core e) d)

/-! ### Samples (R357, R358) -/

/-- The cause that holds a named thread that does not issue (R349, R357). -/
def Thread.sampleCause (th : Thread) : Nat := if th.upcall.isSome || th.stopped || th.ending then 15 else th.cause.getD 15

/-- The sample of the position that the core visits, as its turn begins (R357); the turn settles the cause of a named thread that
issues or is found held (`State.sampled`). A position of no launch is of no tenant, 64. (Log 69, DEDUCED.) -/
def State.sample (s : State) (c : Nat) : Sample :=
  let e := (s.core c).entry
  let key := if impUsed e && impLidx e != 63 then s.launchAt c (impLidx e) else none
  let l := key.bind s.launch?
  let at_ (slot pc cause : Nat) : Sample :=
    { die := dieOf c, core := c, slot := slot, tenant := (match l with | some l => l.tenant | none => 64),
      launch := (match l with | some l => l.lser | none => 0), image := (match l with | some l => l.part 8 2 | none => 0),
      pc := pc, cause := cause }
  if impBubble e then at_ 63 0 (if !impUsed e || e.getLsbD 13 then 1 else 2)
  else if !impThr e then at_ 63 0 15
  else match s.thread? (c * 64 + impSlot e) with
    | none => at_ 63 0 15
    | some th => at_ (impSlot e) th.ctx.pc.toNat th.sampleCause

/-- A count of a bin goes up, and stops at its maximum (R358). -/
def Bin.add (b : Bin) (cause : Nat) : Bin :=
  let n := mgetD b.counts cause 0
  if 2 ^ 32 - 1 ≤ n + 1 then { b with counts := mput b.counts cause (2 ^ 32 - 1), saturated := true }
  else { b with counts := mput b.counts cause (n + 1) }

/-- A sample is filed: in its bin, in a free one, or in its tenant's other bin (R358). -/
def Die.file (d : Die) (x : Sample) : Die :=
  let bucket := x.pc / 2 ^ d.shift
  let mine (b : Bin) : Bool := b.tenant == x.tenant && b.image == x.image && b.bucket == bucket
  if d.bins.any mine then { d with bins := d.bins.map fun b => if mine b then b.add x.cause else b }
  else if d.bins.length < 8192 then
    { d with bins := d.bins ++ [{ tenant := x.tenant, image := x.image, bucket := bucket, counts := [(x.cause, 1)], saturated := false }] }
  else
    let other : Bin := { tenant := x.tenant, image := 0, bucket := 0, counts := [], saturated := false }
    { d with others := mput d.others x.tenant ((mgetD d.others x.tenant other).add x.cause), dropped := d.dropped + 1 }

/-- The sample of a core is filed (R358). -/
def State.fileSample (s : State) (c : Nat) : State :=
  match (s.core c).sampleDue with
  | none => s
  | some x => (s.modCore c fun y => { y with sampleDue := none }).modDie (dieOf c) fun d => d.file x

/-- PROOFING_SAMPLE: the sample of a period that has ended is filed, once the cycle in which it was taken is over (R357). -/
def execProofingSample (core : Nat) (s : State) : Out :=
  if s.sched.issue && coreOf s.sched.cur == core then .next s else .next (s.fileSample core)

/-- PROOFING_CLEAR: the host reads what the proofing engine holds, whole or for a tenant, and clears it (R358). -/
def execProofingClear (die : Nat) (tenant : Option Nat) (s : State) : Out :=
  if !dieOk die || !s.managed then .next s
  else
    let d := s.die die
    let of_ (n : Nat) : Bool := match tenant with | some k => n == k | none => true
    let s := s.post s.manager (.proofing die tenant (d.bins.filter fun b => of_ b.tenant) (d.others.filter fun e => of_ e.1) d.totals d.dropped
      d.changesDropped)
    let kept : Die := { d with bins := d.bins.filter fun b => !of_ b.tenant, others := d.others.filter fun e => !of_ e.1 }
    .next (s.modDie die fun _ => if tenant.isSome then kept else { kept with totals := [], dropped := 0, changesDropped := 0 })

/-- PROOFING_SETTINGS: the sampling period, 2^10 to 2^24 cycles, and the bucket shift, 2 to 16 (R357, R358). -/
def execProofingSettings (n shift : Nat) (s : State) : Out :=
  if !s.managed ∨ n < 10 ∨ 24 < n ∨ shift < 2 ∨ 16 < shift then .next s
  else .next ((List.range 4).foldl (fun s d => s.modDie d fun x => { x with sampleExp := n, shift := shift }) s)

/-! ### Die event counters (R353) -/

/-- The selector of a die event counter after a write: a reserved source is not taken, and bit 14 stays clear (R353, R69). -/
def devSel (old sel : BitVec 16) : BitVec 16 :=
  setBits (if nbits sel 0 8 ≤ 0x0E then sel else setBits sel 0 8 (nbits old 0 8)) 14 1 0

/-- DIE_EVENT_COUNTER_WRITE (R353). -/
def execDieEventCounterWrite (die n : Nat) (sel : BitVec 16) (v : BitVec 64) (s : State) : Out :=
  if !dieOk die || 16 ≤ n then .next s
  else .next (s.modDie die fun d => { d with devs := mput d.devs n (devSel (mgetD d.devs n (0, 0)).1 sel, v) })

end Sys2Proof.Machine
end

