-- ==== Sys2Proof/Machine/Place.lean ====
section
/-! DEFINITION. Sys2Proof/Machine/Place.lean: what of a core is free for a thread: positions, slots, windows, record
numbers (R59, R62, R264, R267, R361, R373). -/

namespace Sys2Proof.Machine

/-- Set or clear SB on every position of a slot (R326). -/
def Core.setStopped (x : Core) (slot : Nat) (on : Bool) : Core :=
  (x.positionsOf slot).foldl (fun x p => x.setImp p (setBits (x.impView p) 12 1 (if on then 1 else 0))) x

/-- The positions that a launch index holds on a core, lowest first. -/
def Core.heldBy (x : Core) (lidx : Nat) : List Nat :=
  (List.range 64).filter fun p => impUsed (x.impView p) && impLidx (x.impView p) == lidx

/-- Those of them that no thread owns. -/
def Core.unowned (x : Core) (lidx : Nat) : List Nat := (x.heldBy lidx).filter fun p => !impThr (x.impView p)

/-- A launch holds positions on a core. -/
def State.holds (s : State) (c launch : Nat) : Bool :=
  match s.launch? launch with
  | some l => l.cores.contains c && !((s.core c).heldBy l.lidx).isEmpty
  | none => false

/-- The unowned positions of a launch on a core. -/
def State.unowned (s : State) (c launch : Nat) : List Nat :=
  match s.launch? launch with
  | some l => if l.cores.contains c then (s.core c).unowned l.lidx else []
  | none => []

/-- A slot takes the lowest `n` unowned positions of a launch (R267). -/
def State.takePositions (s : State) (c launch slot n : Nat) : State :=
  let ps := (s.unowned c launch).take n
  (s.modCore c fun x => ps.foldl (fun x p => x.setImp p (setBits (setBits (x.impView p) 14 1 1) 0 6 slot)) x).keepPosition c slot

/-- The thread is one of a forme's. -/
def ofForme (id who : Nat) : Bool := id != 0 && who / 1024 == 32 + id

/-- Commands of a context that was in this home slot are still queued: a new thread must not find them (R361). Those of the forme that
comes back run on and hold nothing (R202). -/
def State.busyHome (s : State) (h : Nat) (forme : Nat := 0) : Bool :=
  s.cores.any fun e => (e.2.copyQ.any fun m => m.home == h && !ofForme forme m.who) || e.2.matQ.any fun m => m.home == h && !ofForme forme m.who

/-- A slot that a thread can be given: no live thread, no supervisor, no context with commands in flight. -/
def State.slotFree (s : State) (c slot : Nat) (forme : Nat := 0) : Bool :=
  decide (slot < 63) && (mget s.threads (c * 64 + slot)).isNone && !s.busyHome (c * 64 + slot) forme

def State.freeSlots (s : State) (c : Nat) (forme : Nat := 0) : List Nat := (List.range 63).filter fun k => s.slotFree c k forme

/-- The windows held on a core: first entry and size. The machine slot's lies outside the file (R62). -/
def State.windows (s : State) (c : Nat) : List (Nat × Nat) :=
  (s.threads.filter fun e => coreOf e.1 == c && e.2.pl != 2).map fun e => (e.2.base, e.2.limit)

/-- The lowest base, a multiple of 8, where a window of `w` entries fits beside others (R59; log 16, DESIGN CHOICE). -/
def lowestBase (ws : List (Nat × Nat)) (w : Nat) : Option Nat :=
  (((List.range 256).map (8 * ·)).find? fun b => b + w ≤ 2048 && ws.all fun x => b + w ≤ x.1 || x.1 + x.2 ≤ b)

/-- Bases for `n` windows of `w` entries. -/
def bases (ws : List (Nat × Nat)) (w : Nat) : Nat → Option (List Nat)
  | 0 => some []
  | n + 1 => (lowestBase ws w).bind fun b => (bases ((b, w) :: ws) w n).map (b :: ·)

/-- The lowest `n` free save-record numbers of a tenant (R373). -/
def Tenant.freeRecs (x : Tenant) (n : Nat) : Option (List Nat) :=
  let free := ((List.range (x.recs.length + n)).filter fun r => r < x.spilln && !x.recs.contains r).take n
  if free.length = n then some free else none

/-- The key of a pre-empted context (R373); a guest and its home share a record. -/
def Thread.key (th : Thread) : Nat := th.tenant * 2 ^ 32 + th.recno + (if th.guest then 2 ^ 24 else 0)

end Sys2Proof.Machine
end

