-- ==== Sys2Proof/Machine/Record.lean ====
section
/-! DEFINITION. Sys2Proof/Machine/Record.lean: save records (R373, R75) and bank claims (R76, R77). -/

namespace Sys2Proof.Machine

/-- Lines of 64 bytes written into a tenant's memory from `va` on; a line that no translation reaches is lost (log 18, DESIGN CHOICE). -/
def State.hwLines (s : State) (tenant va : Nat) : List (List Byte) → State
  | [] => s
  | l :: rest => State.hwLines ((s.hwWrite tenant va l).orElse s) tenant (va + 64) rest

/-- Bytes cut into lines. -/
def linesOf (bs : List Byte) : Nat → List (List Byte)
  | 0 => []
  | n + 1 => bs.take 64 :: linesOf (bs.drop 64) n

/-- The address of a thread's save record (R373). -/
def State.recordAt (s : State) (th : Thread) : Nat :=
  (match s.tenant? th.tenant with | some x => x.spillb.toNat | none => 0) + 16384 * th.recno

/-- A thread's record cannot be written now: the state in which what it waits for is queued (R177, R372; log 108, DESIGN CHOICE). -/
def State.recordWaits (s : State) (th : Thread) : Option State :=
  [0, 4096, 8192, 12288, 16383].findSome? fun o => s.hwHeld th.tenant (s.recordAt th + o)

/-- The same for the records of several threads. -/
def State.recordsWait (s : State) (ths : List Thread) : Option State := ths.findSome? s.recordWaits

/-- Registers that migration carries (R61). (Log 64, DEDUCED.) -/
def Thread.carried (th : Thread) : Nat := Nat.min th.w 32

/-- A thread is away as a guest. -/
def Thread.isAway (th : Thread) : Bool := !th.guest && th.away.isSome

/-- The other half of a thread that is away: the guest of a home, or the home of a guest, live or pre-empted. The two share the thread's
record (R373; log 18, DESIGN CHOICE). -/
def State.half (s : State) (th : Thread) : Option Thread :=
  let stored := (s.saved.find? fun e => e.2.home == th.home && e.2.forme == th.forme && e.2.guest != th.guest).map Prod.snd
  let live := if th.guest then s.thread? th.home else th.away.bind fun g => if g = th.home then none else s.thread? g
  if th.guest || th.isAway then stored.or live else none

/-- Presence bits of the window. -/
def Thread.present (th : Thread) : Nat := (~~~ th.ctx.armed).toNat % 2 ^ th.limit

/-- Presence bits of a thread (R373): of one that is away, those of the registers that migration carries are the guest's, the others
the home's (R61). -/
def State.presence (s : State) (th : Thread) : Nat :=
  match s.half th with
  | none => th.present
  | some y =>
    let n := 2 ^ th.carried
    if th.guest then th.present % n + y.present / n * n else y.present % n + th.present / n * n

/-- Which of the window's banks lie in the record (R373): those that were claimed and then written out. -/
def Thread.bankBits (th : Thread) : Nat := (if th.res0 || th.fresh0 then 0 else 1) + (if th.res1 || th.fresh1 then 0 else 2)

/-- The bank bits of a thread's record; of one that is away they are its home's (log 18, DESIGN CHOICE). -/
def State.recordBanks (s : State) (th : Thread) : Nat := (if th.guest then (s.half th).getD th else th).bankBits

/-- The upper half of a save record: everything but the window's registers. -/
def recordBytes (s : State) (t : Nat) (th : Thread) : List Byte :=
  let regs := (List.range 8).flatMap fun n => bytesOf (mgetD th.ctx.shadow n 0).toNat 64
  let masks := (List.range 8).flatMap fun n => bytesOf (th.ctx.mask n).toNat 16
  let words := (controlWords s t th).flatMap fun w => bytesOf w 8
  let pad (bs : List Byte) (n : Nat) : List Byte := (bs ++ List.replicate n 0).take n
  pad (pad (regs ++ masks ++ bytesOf (s.presence th) 16 ++ bytesOf (s.recordBanks th) 8) 1024 ++ words) 8192

/-- The control words of a pre-empted thread go to its record (R372). -/
def State.writeRecord (s : State) (t : Nat) (th : Thread) : State :=
  s.hwLines th.tenant (s.recordAt th + 8192) (linesOf (recordBytes s t th) 128)

/-- The line of the record that holds the presence bits and the bank bits. -/
def State.writePresence (s : State) (th : Thread) : State :=
  if th.pl ≠ 0 then s else (s.hwWrite th.tenant (s.recordAt th + 0x2280) (bytesOf (s.presence th) 16 ++ bytesOf (s.recordBanks th) 8)).orElse s

/-- A register of a pre-empted thread goes to its place in the record. -/
def State.writeRecordReg (s : State) (th : Thread) (n : Nat) : State :=
  (s.hwWrite th.tenant (s.recordAt th + 64 * n) (bytesOf (th.ctx.reg n).toNat 64)).orElse s

/-- Registers of the window in its first bank, or in its second; a home that is away has left those that migration carries (R61). -/
def Thread.bankRegs (th : Thread) (second : Bool) : List Nat :=
  (List.range th.limit).filter fun n => th.inSecond n == second && !(th.isAway && n < th.carried)

/-- The register's bank has been written out, so that its value lies in the record (R76, R77): a user thread has one. -/
def Thread.stored (th : Thread) (n : Nat) : Bool := th.pl == 0 && th.absent n && !(if th.inSecond n then th.fresh1 else th.fresh0)

/-- A value that has reached a register of a thread reaches the record too, where the register's bank lies there (R64, R77). -/
def State.intoRecord (s : State) (th : Thread) (n : Nat) : State :=
  if th.stored n then (s.writeRecordReg th n).writePresence th else s

/-- A pre-empted context's entries in one of its banks are written to its record (R76, R77). -/
def State.evict (s : State) (k : Nat) (th : Thread) (second : Bool) : State :=
  let s := (th.bankRegs second).foldl (fun s n => s.writeRecordReg th n) s
  let th := if second then { th with res1 := false } else { th with res0 := false }
  let s := s.writePresence th
  { s with saved := mput s.saved k th }

/-- Every resident entry of a pre-empted context leaves the file (R77). -/
def State.evictAll (s : State) (k : Nat) : State :=
  let one (s : State) (second : Bool) : State := match mget s.saved k with
    | some th => if (if second then th.res1 else th.res0) then s.evict k th second else s
    | none => s
  one (one s false) true

/-- A pre-empted context on core `c` owns an entry of bank `b` between `lo` and `hi`: in its first or its second bank. -/
def Thread.owns (th : Thread) (c b lo hi : Nat) : Option Bool :=
  if coreOf th.ranIn ≠ c then none
  else
    let hits (second : Bool) : Bool := (th.bankRegs second).any fun n => (th.base + n) / 128 == b && lo ≤ th.base + n && th.base + n < hi
    if th.res0 && hits false then some false else if th.res1 && hits true then some true else none

/-- The registers of a bank and their presence bits come back from the thread's record; what no translation reaches stays as it
was (R76; log 18, DESIGN CHOICE). -/
def State.reload (s : State) (th : Thread) (second : Bool) : Thread :=
  let at_ := s.recordAt th
  let bits := (s.hwRead th.tenant (at_ + 0x2280) 16).map ofBytes
  let one (x : Ctx) (n : Nat) : Ctx :=
    let x := match s.hwRead th.tenant (at_ + 64 * n) 64 with
      | some bs => { x with regs := mputD x.regs n (BitVec.ofNat 512 (ofBytes bs)) 0 }
      | none => x
    match bits with
    | some p => { x with armed := setBits x.armed n 1 (1 - field p n 1) }
    | none => x
  th.setCtx fun x => (th.bankRegs second).foldl one x

/-- The reads of a reload that the port has dropped are counted (R391). -/
def State.reloadSent (s : State) (th : Thread) (second : Bool) : State :=
  (0x2280 :: (th.bankRegs second).map (64 * ·)).foldl (fun s o => s.hwSent th.tenant (s.recordAt th + o)) s

/-- The thread's entries of a bank are tagged with it: fresh ones are zero, others come from its record (R76). -/
def State.claimed (s : State) (th : Thread) (second : Bool) : Thread :=
  let y := if (if second then th.fresh1 else th.fresh0) || th.pl != 0 then th else s.reload th second
  if second then { y with res1 := true, fresh1 := false, claim := none } else { y with res0 := true, fresh0 := false, claim := none }

/-- BANK_CLAIM: the bank of the window's first entry, or the next one, is claimed for a thread (R76). -/
def execBankClaim (tid : Nat) (second : Bool) (s : State) : Out :=
  match s.thread? tid with
  | none => .next s
  | some th =>
    if th.pl = 2 ∨ (if second then th.res1 else th.res0) then .next s
    else
      let c := coreOf tid
      let b := th.base / 128 + (if second then 1 else 0)
      let owners := s.saved.filterMap fun e => (e.2.owns c b th.base (th.base + th.limit)).map fun w => (e.1, w)
      match s.recordsWait (owners.filterMap fun o => mget s.saved o.1) with
      | some s => .next s
      | none =>
      let s := s.tick
      let step (s : State) (o : Nat × Bool) : State := match mget s.saved o.1 with
        | some y => (s.evict o.1 y o.2).countFor c y.who y.launch y.tenant 0x35 1
        | none => s
      let s := owners.foldl step s
      let s := if (if second then th.fresh1 else th.fresh0) || th.pl != 0 then s else s.reloadSent th second
      let th := s.claimed th second
      .next ((s.setThread tid th).count tid th 0x34 1)

end Sys2Proof.Machine
end

