-- ==== Sys2Proof/Machine/Vector.lean ====
section
/-! DEFINITION. Sys2Proof/Machine/Vector.lean: the meanings of majors 0x20 to 0x29: vector lanes (R135 to R155). -/

namespace Sys2Proof.Machine

/-! ### Writing lanes (R137) -/

/-- What the inactive lanes of a destination keep: of a register that migration still brings, the value that is on its way (R61, R135). -/
def Thread.old (th : Thread) (d : BitVec 7) : Vec :=
  match if th.shadowed d.toNat then none else th.coming.find? fun e => e.1 == d.toNat with
  | some e => e.2
  | none => th.V d

/-- Lane i of the destination is written when it is active; inactive lanes keep their old value (R135). -/
def Thread.lanes (th : Thread) (w : Nat) (d : BitVec 7) (f : Nat → Nat) : Vec :=
  let old := th.old d
  ofLanes w ((List.range (512 / w)).map fun i => if th.active i w then f i else lane old i w)

/-- An integer lane operation of two sources (R139, R140). -/
def lane3 (q : Req) (d a b : BitVec 7) (w : BitVec 2) (f : Nat → Nat → Nat → Nat) (s : State) : Out :=
  let n := laneWidth w
  simple q s fun th => th.setV d (th.lanes n d fun i => f n (lane (th.V a) i n) (lane (th.V b) i n))

/-- The bits of active lanes of a mask become the relation; the others, and bits 127:64, are kept (R141). -/
def Thread.laneMask (th : Thread) (w : Nat) (old : Mask) (f : Nat → Bool) : Mask :=
  BitVec.ofNat 128 ((List.range 128).foldl (fun acc j =>
    let i := 8 * j / w
    let v := if j < 64 && th.active i w then f i else old.getLsbD j
    acc + if v then 2 ^ j else 0) 0)

/-- A compare of integer lanes into a mask (R141). -/
def laneCmp (q : Req) (d : BitVec 3) (a b : BitVec 7) (w : BitVec 2) (f : Nat → Nat → Nat → Bool) (s : State) : Out :=
  let n := laneWidth w
  simple q s fun th => th.setK d (th.laneMask n (th.K d) fun i => f n (lane (th.V a) i n) (lane (th.V b) i n))


/-! ### Integer and logic lanes (R139 to R141) -/

/-- VADD (R139). -/
def execVadd (d a b : BitVec 7) (w : BitVec 2) (s : State) : Out :=
  lane3 (reqDAB (.vadd d a b w) d a b) d a b w (fun _ x y => x + y) s

/-- VSUB (R139). -/
def execVsub (d a b : BitVec 7) (w : BitVec 2) (s : State) : Out :=
  lane3 (reqDAB (.vsub d a b w) d a b) d a b w (fun w x y => x + (2 ^ w - y)) s

/-- VMUL (R139). -/
def execVmul (d a b : BitVec 7) (w : BitVec 2) (s : State) : Out :=
  lane3 (reqDAB (.vmul d a b w) d a b) d a b w (fun _ x y => x * y) s

/-- VMAC: d is also a source (R139). -/
def execVmac (d a b : BitVec 7) (w : BitVec 2) (s : State) : Out :=
  let n := laneWidth w
  simple (reqXAB (.vmac d a b w) d a b) s fun th =>
    th.setV d (th.lanes n d fun i => lane (th.V d) i n + lane (th.V a) i n * lane (th.V b) i n)

/-- VMIN (R139). -/
def execVmin (d a b : BitVec 7) (w : BitVec 2) (s : State) : Out :=
  lane3 (reqDAB (.vmin d a b w) d a b) d a b w (fun w x y => if signedOf x w ≤ signedOf y w then x else y) s

/-- VMAX (R139). -/
def execVmax (d a b : BitVec 7) (w : BitVec 2) (s : State) : Out :=
  lane3 (reqDAB (.vmax d a b w) d a b) d a b w (fun w x y => if signedOf x w ≤ signedOf y w then y else x) s

/-- VMINN (R139). -/
def execVminn (d a b : BitVec 7) (w : BitVec 2) (s : State) : Out :=
  lane3 (reqDAB (.vminn d a b w) d a b) d a b w (fun _ x y => Nat.min x y) s

/-- VMAXN (R139). -/
def execVmaxn (d a b : BitVec 7) (w : BitVec 2) (s : State) : Out :=
  lane3 (reqDAB (.vmaxn d a b w) d a b) d a b w (fun _ x y => Nat.max x y) s

/-- VAND (R140). -/
def execVand (d a b : BitVec 7) (w : BitVec 2) (s : State) : Out :=
  lane3 (reqDAB (.vand d a b w) d a b) d a b w (fun _ x y => x &&& y) s

/-- VOR (R140). -/
def execVor (d a b : BitVec 7) (w : BitVec 2) (s : State) : Out :=
  lane3 (reqDAB (.vor d a b w) d a b) d a b w (fun _ x y => x ||| y) s

/-- VXOR (R140). -/
def execVxor (d a b : BitVec 7) (w : BitVec 2) (s : State) : Out :=
  lane3 (reqDAB (.vxor d a b w) d a b) d a b w (fun _ x y => x ^^^ y) s

/-- VANDN (R140). -/
def execVandn (d a b : BitVec 7) (w : BitVec 2) (s : State) : Out :=
  lane3 (reqDAB (.vandn d a b w) d a b) d a b w (fun w x y => x &&& (2 ^ w - 1 - y)) s

/-- VSHL (R140). -/
def execVshl (d a b : BitVec 7) (w : BitVec 2) (s : State) : Out :=
  lane3 (reqDAB (.vshl d a b w) d a b) d a b w (fun w x y => x * 2 ^ (y % w)) s

/-- VSHR (R140). -/
def execVshr (d a b : BitVec 7) (w : BitVec 2) (s : State) : Out :=
  lane3 (reqDAB (.vshr d a b w) d a b) d a b w (fun w x y => x / 2 ^ (y % w)) s

/-- VSRA (R140). -/
def execVsra (d a b : BitVec 7) (w : BitVec 2) (s : State) : Out :=
  lane3 (reqDAB (.vsra d a b w) d a b) d a b w (fun w x y => wrap (signedOf x w / 2 ^ (y % w)) w) s

/-- VPOPC (R140). -/
def execVpopc (d a : BitVec 7) (w : BitVec 2) (s : State) : Out :=
  let n := laneWidth w
  simple (reqDA (.vpopc d a w) d a) s fun th =>
    th.setV d (th.lanes n d fun i => onesIn (BitVec.ofNat 64 (lane (th.V a) i n)) 64)

/-- VCEQ (R141). -/
def execVceq (d : BitVec 3) (a b : BitVec 7) (w : BitVec 2) (s : State) : Out :=
  laneCmp (reqAB (.vceq d a b w) a b) d a b w (fun _ x y => x == y) s

/-- VCNE (R141). -/
def execVcne (d : BitVec 3) (a b : BitVec 7) (w : BitVec 2) (s : State) : Out :=
  laneCmp (reqAB (.vcne d a b w) a b) d a b w (fun _ x y => x != y) s

/-- VCLT (R141). -/
def execVclt (d : BitVec 3) (a b : BitVec 7) (w : BitVec 2) (s : State) : Out :=
  laneCmp (reqAB (.vclt d a b w) a b) d a b w (fun w x y => decide (signedOf x w < signedOf y w)) s

/-- VCGE (R141). -/
def execVcge (d : BitVec 3) (a b : BitVec 7) (w : BitVec 2) (s : State) : Out :=
  laneCmp (reqAB (.vcge d a b w) a b) d a b w (fun w x y => decide (signedOf y w ≤ signedOf x w)) s

/-- VCLTN (R141). -/
def execVcltn (d : BitVec 3) (a b : BitVec 7) (w : BitVec 2) (s : State) : Out :=
  laneCmp (reqAB (.vcltn d a b w) a b) d a b w (fun _ x y => decide (x < y)) s

/-- VCGEN (R141). -/
def execVcgen (d : BitVec 3) (a b : BitVec 7) (w : BitVec 2) (s : State) : Out :=
  laneCmp (reqAB (.vcgen d a b w) a b) d a b w (fun _ x y => decide (y ≤ x)) s

/-! ### Floating-point lanes (R142 to R144) -/

/-- The format of a code of VF and VFX (R142). -/
def laneFmt (f : BitVec 2) : Fmt := match f.toNat with
  | 0 => fmtBf16
  | 1 => fmtF16
  | _ => fmtF32

/-- The union of the flags of active lanes (R97). -/
def Thread.laneFlags (th : Thread) (w : Nat) (f : Nat → Flg) : Flg :=
  flAll ((List.range (512 / w)).map fun i => if th.active i w then f i else 0)

/-- Write lanes that come with flags. -/
def Thread.setLanes (th : Thread) (d : BitVec 7) (w : Nat) (f : Nat → Nat × Flg) : Thread :=
  (th.setV d (th.lanes w d fun i => (f i).1)).orFlags (th.laneFlags w fun i => (f i).2)

/-- A floating-point lane operation of two sources (R142). -/
def float3 (q : Req) (d a b : BitVec 7) (f : BitVec 2) (op : Fmt → Nat → Num → Num → Nat × Flg) (s : State) : Out :=
  let m := laneFmt f
  simple { q with legal := fmtOk f } s fun th => th.setLanes d m.width fun i =>
    op m th.rnd (unpack m (lane (th.V a) i m.width)) (unpack m (lane (th.V b) i m.width))

/-- A floating-point lane operation of one source (R142, R143). -/
def float2 (q : Req) (d a : BitVec 7) (f : BitVec 2) (op : Fmt → Nat → Num → Nat × Flg) (s : State) : Out :=
  let m := laneFmt f
  simple { q with legal := fmtOk f } s fun th => th.setLanes d m.width fun i =>
    op m th.rnd (unpack m (lane (th.V a) i m.width))


/-- VFADD (R142). -/
def execVfadd (d a b : BitVec 7) (f : BitVec 2) (s : State) : Out := float3 (reqDAB (.vfadd d a b f) d a b) d a b f fpAdd s

/-- VFSUB (R142). -/
def execVfsub (d a b : BitVec 7) (f : BitVec 2) (s : State) : Out := float3 (reqDAB (.vfsub d a b f) d a b) d a b f fpSub s

/-- VFMUL (R142). -/
def execVfmul (d a b : BitVec 7) (f : BitVec 2) (s : State) : Out := float3 (reqDAB (.vfmul d a b f) d a b) d a b f fpMul s

/-- VFDIV (R142). -/
def execVfdiv (d a b : BitVec 7) (f : BitVec 2) (s : State) : Out := float3 (reqDAB (.vfdiv d a b f) d a b) d a b f fpDiv s

/-- VFMA: d is also a source; one rounding (R142, R91). -/
def execVfma (d a b : BitVec 7) (f : BitVec 2) (s : State) : Out :=
  let m := laneFmt f
  simple { reqXAB (.vfma d a b f) d a b with legal := fmtOk f } s fun th => th.setLanes d m.width fun i =>
    fpFma m th.rnd (unpack m (lane (th.V a) i m.width)) (unpack m (lane (th.V b) i m.width)) (unpack m (lane (th.V d) i m.width))

/-- VFMIN (R92). -/
def execVfmin (d a b : BitVec 7) (f : BitVec 2) (s : State) : Out :=
  let m := laneFmt f
  simple { reqDAB (.vfmin d a b f) d a b with legal := fmtOk f } s fun th => th.setLanes d m.width fun i =>
    fpMinMax m false (lane (th.V a) i m.width) (lane (th.V b) i m.width)

/-- VFMAX (R92). -/
def execVfmax (d a b : BitVec 7) (f : BitVec 2) (s : State) : Out :=
  let m := laneFmt f
  simple { reqDAB (.vfmax d a b f) d a b with legal := fmtOk f } s fun th => th.setLanes d m.width fun i =>
    fpMinMax m true (lane (th.V a) i m.width) (lane (th.V b) i m.width)

/-- VFSQRT (R142). -/
def execVfsqrt (d a : BitVec 7) (f : BitVec 2) (s : State) : Out := float2 (reqDA (.vfsqrt d a f) d a) d a f fpSqrt s

/-- VFRCP (R143). -/
def execVfrcp (d a : BitVec 7) (f : BitVec 2) (s : State) : Out := float2 (reqDA (.vfrcp d a f) d a) d a f fpRcp s

/-- VFRSQ (R143). -/
def execVfrsq (d a : BitVec 7) (f : BitVec 2) (s : State) : Out := float2 (reqDA (.vfrsq d a f) d a) d a f fpRsq s

/-- VFEXP2 (R143). -/
def execVfexp2 (d a : BitVec 7) (f : BitVec 2) (s : State) : Out := float2 (reqDA (.vfexp2 d a f) d a) d a f fpExp2 s

/-- VFLOG2 (R143). -/
def execVflog2 (d a : BitVec 7) (f : BitVec 2) (s : State) : Out := float2 (reqDA (.vflog2 d a f) d a) d a f fpLog2 s

/-- VFABS (R144). -/
def execVfabs (d a : BitVec 7) (f : BitVec 2) (s : State) : Out :=
  let m := laneFmt f
  simple { reqDA (.vfabs d a f) d a with legal := fmtOk f } s fun th => th.setLanes d m.width fun i =>
    fpSign m true (lane (th.V a) i m.width)

/-- VFNEG (R144). -/
def execVfneg (d a : BitVec 7) (f : BitVec 2) (s : State) : Out :=
  let m := laneFmt f
  simple { reqDA (.vfneg d a f) d a with legal := fmtOk f } s fun th => th.setLanes d m.width fun i =>
    fpSign m false (lane (th.V a) i m.width)

/-- A floating-point compare of lanes into a mask (R144, R92). -/
def floatCmp (q : Req) (d : BitVec 3) (a b : BitVec 7) (f : BitVec 2) (rel : Num → Num → Bool) (s : State) : Out :=
  let m := laneFmt f
  simple { q with legal := fmtOk f } s fun th =>
    let x (i : Nat) : Num := unpack m (lane (th.V a) i m.width)
    let y (i : Nat) : Num := unpack m (lane (th.V b) i m.width)
    (th.setK d (th.laneMask m.width (th.K d) fun i => rel (x i) (y i))).orFlags
      (th.laneFlags m.width fun i => flIf ((x i).isSig || (y i).isSig) flNV)

/-- VFCLT (R144). -/
def execVfclt (d : BitVec 3) (a b : BitVec 7) (f : BitVec 2) (s : State) : Out :=
  floatCmp (reqAB (.vfclt d a b f) a b) d a b f numLt s
/-- VFCEQ (R144). -/
def execVfceq (d : BitVec 3) (a b : BitVec 7) (f : BitVec 2) (s : State) : Out :=
  floatCmp (reqAB (.vfceq d a b f) a b) d a b f numEq s

/-! ### Conversions (R145 to R147) -/

/-- A conversion from lanes of width ws to lanes of width wd: lanes without a source receive zero (R145). (Log 40, DEDUCED.) -/
def convert (q : Req) (d a : BitVec 7) (r : BitVec 3) (ws wd : Nat) (f : Nat → Nat → Nat × Flg) (s : State) : Out :=
  simple { q with legal := roundOk r } s fun th => th.setLanes d wd fun i =>
    if i < 512 / ws then f (th.modeOf r) (lane (th.V a) i ws) else (0, 0)


/-- CVT_BF16_F32 (R93, R145). -/
def execCvtBf16F32 (d a : BitVec 7) (s : BitVec 1) (r : BitVec 3) (st : State) : Out :=
  convert (reqDA (.cvtBf16F32 d a s r) d a) d a r 32 16 (fun m x => fpConvert fmtF32 fmtBf16 m (s == 1) x) st

/-- CVT_F16_F32 (R93, R145). -/
def execCvtF16F32 (d a : BitVec 7) (s : BitVec 1) (r : BitVec 3) (st : State) : Out :=
  convert (reqDA (.cvtF16F32 d a s r) d a) d a r 32 16 (fun m x => fpConvert fmtF32 fmtF16 m (s == 1) x) st

/-- CVT_F32_BF16 (R93, R145). -/
def execCvtF32Bf16 (d a : BitVec 7) (s : BitVec 1) (r : BitVec 3) (st : State) : Out :=
  convert (reqDA (.cvtF32Bf16 d a s r) d a) d a r 16 32 (fun m x => fpConvert fmtBf16 fmtF32 m false x) st

/-- CVT_F32_F16 (R93, R145). -/
def execCvtF32F16 (d a : BitVec 7) (s : BitVec 1) (r : BitVec 3) (st : State) : Out :=
  convert (reqDA (.cvtF32F16 d a s r) d a) d a r 16 32 (fun m x => fpConvert fmtF16 fmtF32 m false x) st

/-- CVT_E4M3_F32 (R93, R145). -/
def execCvtE4m3F32 (d a : BitVec 7) (s : BitVec 1) (r : BitVec 3) (st : State) : Out :=
  convert (reqDA (.cvtE4m3F32 d a s r) d a) d a r 32 8 (fun m x => fpConvert fmtF32 fmtE4m3 m (s == 1) x) st

/-- CVT_E5M2_F32 (R93, R145). -/
def execCvtE5m2F32 (d a : BitVec 7) (s : BitVec 1) (r : BitVec 3) (st : State) : Out :=
  convert (reqDA (.cvtE5m2F32 d a s r) d a) d a r 32 8 (fun m x => fpConvert fmtF32 fmtE5m2 m (s == 1) x) st

/-- CVT_F32_E4M3 (R93, R145). -/
def execCvtF32E4m3 (d a : BitVec 7) (s : BitVec 1) (r : BitVec 3) (st : State) : Out :=
  convert (reqDA (.cvtF32E4m3 d a s r) d a) d a r 8 32 (fun m x => fpConvert fmtE4m3 fmtF32 m false x) st

/-- CVT_F32_E5M2 (R93, R145). -/
def execCvtF32E5m2 (d a : BitVec 7) (s : BitVec 1) (r : BitVec 3) (st : State) : Out :=
  convert (reqDA (.cvtF32E5m2 d a s r) d a) d a r 8 32 (fun m x => fpConvert fmtE5m2 fmtF32 m false x) st

/-- CVT_I32_F32 (R94, R145). -/
def execCvtI32F32 (d a : BitVec 7) (s : BitVec 1) (r : BitVec 3) (st : State) : Out :=
  convert (reqDA (.cvtI32F32 d a s r) d a) d a r 32 32 (fun m x => f32ToI32 m x) st

/-- CVT_F32_I32 (R93, R145). -/
def execCvtF32I32 (d a : BitVec 7) (s : BitVec 1) (r : BitVec 3) (st : State) : Out :=
  convert (reqDA (.cvtF32I32 d a s r) d a) d a r 32 32 (fun m x => i32ToF32 m x) st

/-- CVT_I8_I32 (R93, R145). -/
def execCvtI8I32 (d a : BitVec 7) (s : BitVec 1) (r : BitVec 3) (st : State) : Out :=
  convert (reqDA (.cvtI8I32 d a s r) d a) d a r 32 8 (fun _ x => (if s = 1 then wrap (max (-128) (min 127 (signedOf x 32))) 8 else x % 256, 0)) st

/-- CVT_I32_I8 (R93, R145). -/
def execCvtI32I8 (d a : BitVec 7) (s : BitVec 1) (r : BitVec 3) (st : State) : Out :=
  convert (reqDA (.cvtI32I8 d a s r) d a) d a r 8 32 (fun _ x => (wrap (signedOf x 8) 32, 0)) st

/-- The second register of a pair (R136). -/
def Thread.V2 (th : Thread) (n : BitVec 7) : Vec := th.ctx.reg (th.regId (n.toNat + 1))
def Thread.setV2 (th : Thread) (n : BitVec 7) (v : Vec) : Thread := { th with ctx := th.ctx.setReg (th.regId (n.toNat + 1)) v }

/-- Q4PACK: the 32 numbers of a register pair become one block (R147, R95). -/
def execQ4pack (d a : BitVec 7) (s : BitVec 1) (r : BitVec 3) (t : BitVec 2) (st : State) : Out :=
  let q : Req := { word := encodeNat (.q4pack d a s r t), regs := [d.toNat, a.toNat, a.toNat + 1],
                   reads := [a.toNat, a.toNat + 1], writes := [d.toNat], legal := roundOk r }
  simple q st fun th =>
    let xs := ((List.range 16).map fun i => unpack fmtF32 (lane (th.V a) i 32)) ++
              ((List.range 16).map fun i => unpack fmtF32 (lane (th.V2 a) i 32))
    let e := q4enc xs t.toNat (th.modeOf r) (s == 1)
    (th.setV d (ofLanes 4 (e.1 ++ [e.2.1 % 16, e.2.1 / 16]))).orFlags e.2.2

/-- Q4UNPK (R147, R96). -/
def execQ4unpk (d a : BitVec 7) (s : BitVec 1) (r : BitVec 3) (st : State) : Out :=
  let q : Req := { word := encodeNat (.q4unpk d a s r), regs := [d.toNat, d.toNat + 1, a.toNat],
                   reads := [a.toNat], writes := [d.toNat, d.toNat + 1], legal := roundOk r }
  simple q st fun th =>
    let sb := lane (th.V a) 16 8
    let el (i : Nat) : Nat := q4ToF32 sb (lane (th.V a) i 4)
    (th.setV d (ofLanes 32 ((List.range 16).map el))).setV2 d (ofLanes 32 ((List.range 16).map fun i => el (i + 16)))

/-! ### Reductions (R100, R148, R149) -/

/-- The lane width of a reduction's type: i32, f32, bf16, f16 (R148). -/
def redWidth (t : BitVec 2) : Nat := if t.toNat < 2 then 32 else 16
def redFmt (t : BitVec 2) : Fmt := match t.toNat with
  | 1 => fmtF32
  | 2 => fmtBf16
  | _ => fmtF16

/-- A float lane widened exactly to f32; a NaN keeps whether it signals. -/
def redNum (t : BitVec 2) (x : Nat) : Num := unpack (redFmt t) x

/-- One level of the pairwise tree (R100). -/
def treeLevel {α : Type} (f : α → α → α) : List α → List α
  | x :: y :: rest => f x y :: treeLevel f rest
  | l => l

/-- The pairwise tree over `2 ^ k` values (R100). -/
def tree {α : Type} (f : α → α → α) (l : List α) : Nat → List α
  | 0 => l
  | k + 1 => tree f (treeLevel f l) k

/-- The active lanes of a reduction, in order, with their indexes. -/
def Thread.picked (th : Thread) (v : Vec) (w : Nat) : List (Nat × Nat) :=
  ((List.range (512 / w)).filter fun i => th.active i w).map fun i => (i, lane v i w)

/-- Sum the values that active lanes give, by the tree; inactive lanes give −0.0 (R100). -/
def Thread.sumLanes (th : Thread) (w : Nat) (f : Nat → Num × Flg) : Nat × Flg :=
  let negZero : Num × Flg := (.fin true 0 0, 0)
  let ls := (List.range (512 / w)).map fun i => if th.active i w then f i else negZero
  let up := if w = 32 then 4 else 5
  let r := tree (fun x y =>
    let z := fpAdd fmtF32 th.rnd x.1 y.1
    (unpack fmtF32 z.1, x.2 ||| y.2 ||| z.2)) ls up
  match r with
  | x :: _ => ((roundTo fmtF32 th.rnd false x.1).1, x.2)
  | [] => (0, 0)

/-- VRSUM (R148). -/
def execVrsum (d a : BitVec 7) (t : BitVec 2) (s : State) : Out :=
  simple (reqDA (.vrsum d a t) d a) s fun th =>
    if t = 0 then th.setS d (sextTo (((th.picked (th.V a) 32).map Prod.snd).foldl (· + ·) 0) 32)
    else
      let w := redWidth t
      let r := th.sumLanes w fun i => (redNum t (lane (th.V a) i w), 0)
      (th.setS d (BitVec.ofNat 64 r.1)).orFlags r.2

/-- VRDOT: products, then the tree (R148). -/
def execVrdot (d a b : BitVec 7) (t : BitVec 2) (s : State) : Out :=
  simple (reqDAB (.vrdot d a b t) d a b) s fun th =>
    let w := redWidth t
    if t = 0 then
      th.setS d (sextTo ((((List.range 16).filter fun i => th.active i 32).map fun i =>
        lane (th.V a) i 32 * lane (th.V b) i 32 % 2 ^ 32).foldl (· + ·) 0) 32)
    else
      let r := th.sumLanes w fun i =>
        let z := fpMul fmtF32 th.rnd (redNum t (lane (th.V a) i w)) (redNum t (lane (th.V b) i w))
        (unpack fmtF32 z.1, z.2)
      (th.setS d (BitVec.ofNat 64 r.1)).orFlags r.2

/-- The f32 bits of a widened lane. -/
def widenBits (t : BitVec 2) (x : Nat) : Nat := (roundTo fmtF32 0 false (redNum t x)).1

/-- The largest or smallest active lane, as f32 or i32 bits, and the flag (R148). -/
def Thread.extreme (th : Thread) (v : Vec) (t : BitVec 2) (takeMax : Bool) : Nat × Flg :=
  if t = 0 then
    let xs := (th.picked v 32).map Prod.snd
    (match xs with
     | [] => if takeMax then 0x80000000 else 0x7FFFFFFF
     | x :: rest => rest.foldl (fun m y =>
        if takeMax then (if signedOf m 32 ≤ signedOf y 32 then y else m) else (if signedOf y 32 ≤ signedOf m 32 then y else m)) x, 0)
  else
    let xs := (th.picked v (redWidth t)).map Prod.snd
    let sig := flIf (xs.any fun x => (redNum t x).isSig) flNV
    match xs.filter fun x => !(redNum t x).isNan with
    | [] => (if xs.isEmpty then infBits fmtF32 takeMax else qnan fmtF32, sig)
    | x :: rest => (rest.foldl (fun m y => (fpMinMax fmtF32 takeMax m (widenBits t y)).1) (widenBits t x), sig)

/-- A reduction's scalar: sign-extended for i32, zero-extended for the float types (R148). -/
def redScalar (t : BitVec 2) (x : Nat) : Dword := if t = 0 then sextTo x 32 else BitVec.ofNat 64 x

/-- VRMAX (R148). -/
def execVrmax (d a : BitVec 7) (t : BitVec 2) (s : State) : Out :=
  simple (reqDA (.vrmax d a t) d a) s fun th =>
    let r := th.extreme (th.V a) t true
    (th.setS d (redScalar t r.1)).orFlags r.2
/-- VRMIN (R148). -/
def execVrmin (d a : BitVec 7) (t : BitVec 2) (s : State) : Out :=
  simple (reqDA (.vrmin d a t) d a) s fun th =>
    let r := th.extreme (th.V a) t false
    (th.setS d (redScalar t r.1)).orFlags r.2

/-- VRARG (R149). -/
def execVrarg (d a : BitVec 7) (t : BitVec 2) (s : State) : Out :=
  simple (reqDA (.vrarg d a t) d a) s fun th =>
    let r := th.extreme (th.V a) t true
    let xs := th.picked (th.V a) (redWidth t)
    let widened (x : Nat) : Nat := if t = 0 then x else widenBits t x
    let allNan := t ≠ 0 && xs.all fun x => (redNum t x.2).isNan
    let idx := match xs with
      | [] => 0xFFFF
      | y :: _ => if allNan then y.1 else ((xs.find? fun x => widened x.2 == r.1).getD y).1
    (th.setS d (BitVec.ofNat 64 (r.1 + idx * 2 ^ 32))).orFlags r.2

/-! ### Permutes (R150) -/

/-- A permute written under the write mask (R137, R150). -/
def permute (q : Req) (d : BitVec 7) (w : BitVec 2) (f : Thread → Nat → Nat → Nat) (s : State) : Out :=
  let n := laneWidth w
  simple q s fun th => th.setV d (th.lanes n d (f th n))


/-- VSHUF (R150). -/
def execVshuf (d a b : BitVec 7) (w : BitVec 2) (s : State) : Out :=
  permute (reqDAB (.vshuf d a b w) d a b) d w (fun th n i => lane (th.V a) (lane (th.V b) i n % (512 / n)) n) s

/-- VSLUP (R150). -/
def execVslup (d a b : BitVec 7) (w : BitVec 2) (s : State) : Out :=
  permute (reqDAB (.vslup d a b w) d a b) d w (fun th n i => if Nat.min (th.S b).toNat (512 / n) ≤ i then lane (th.V a) (i - Nat.min (th.S b).toNat (512 / n)) n else 0) s

/-- VSLDN (R150). -/
def execVsldn (d a b : BitVec 7) (w : BitVec 2) (s : State) : Out :=
  permute (reqDAB (.vsldn d a b w) d a b) d w (fun th n i => if i + Nat.min (th.S b).toNat (512 / n) < 512 / n then lane (th.V a) (i + Nat.min (th.S b).toNat (512 / n)) n else 0) s

/-- VZIP (R150). -/
def execVzip (d a b : BitVec 7) (w : BitVec 2) (s : State) : Out :=
  permute (reqDAB (.vzip d a b w) d a b) d w (fun th n i => if i % 2 = 0 then lane (th.V a) (i / 2) n else lane (th.V b) (i / 2) n) s

/-- VUNZIP (R150). -/
def execVunzip (d a b : BitVec 7) (w : BitVec 2) (s : State) : Out :=
  permute (reqDAB (.vunzip d a b w) d a b) d w (fun th n i => if 2 * i < 512 / n then lane (th.V a) (2 * i) n else lane (th.V b) (2 * i - 512 / n) n) s

/-- VSPLAT (R150). -/
def execVsplat (d a : BitVec 7) (w : BitVec 2) (s : State) : Out :=
  permute (reqDA (.vsplat d a w) d a) d w (fun th n _ => lane (th.V a) 0 n) s

/-- VCOMP: the active lanes move together to the bottom; every lane is written (R150). -/
def execVcomp (d a : BitVec 7) (w : BitVec 2) (s : State) : Out :=
  simple (reqDA (.vcomp d a w) d a) s fun th =>
    th.setV d (ofLanes (laneWidth w) ((th.picked (th.V a) (laneWidth w)).map Prod.snd))

/-- Active lanes below lane `i`. -/
def Thread.rankBelow (th : Thread) (i w : Nat) : Nat := ((List.range i).filter fun j => th.active j w).length

/-- VEXPD: the active lanes take the lanes of a in order (R150). -/
def execVexpd (d a : BitVec 7) (w : BitVec 2) (s : State) : Out :=
  permute (reqDA (.vexpd d a w) d a) d w (fun th n i => lane (th.V a) (th.rankBelow i n) n) s

/-! ### Bitmap intersection (R151 to R153) -/

/-- BMPFX (R151). -/
def execBmpfx (d a : BitVec 7) (s : State) : Out :=
  simple (reqDA (.bmpfx d a) d a) s fun th =>
    th.setV d (th.lanes 16 d fun i => onesIn (th.V a) (16 * i))

/-- IXCNT (R152). -/
def execIxcnt (d a b : BitVec 7) (s : State) : Out :=
  simple (reqDAB (.ixcnt d a b) d a b) s fun th => th.setS d (BitVec.ofNat 64 (onesIn (th.V a &&& th.V b) 512))

/-- IXDOT: the products of the values that both bitmaps mark are added into S(d) (R153). -/
def execIxdot (d a b : BitVec 7) (s : State) : Out :=
  let q : Req := { word := encodeNat (.ixdot d a b),
                   regs := [d.toNat, a.toNat, a.toNat + 1, b.toNat, b.toNat + 1],
                   reads := [d.toNat, a.toNat, a.toNat + 1, b.toNat, b.toNat + 1], writes := [d.toNat] }
  simple q s fun th =>
    let ba := th.S a
    let bb := th.S b
    let m := ba &&& bb
    let sum : Int := (List.range 64).foldl (fun acc p =>
      if m.getLsbD p then
        acc + signedOf (lane (th.V2 a) (onesIn ba p) 8) 8 * signedOf (lane (th.V2 b) (onesIn bb p) 8) 8
      else acc) 0
    th.setS d (th.S d + BitVec.ofInt 64 sum)

/-! ### Sorted candidate lists (R154, R155) -/

/-- The empty entry (R154). -/
def emptyEntry : Nat := 0xFFFFFFFFFF800000

/-- An entry precedes another by the first three tests of R154. -/
def precedes (x y : Nat) : Bool :=
  if x = emptyEntry then false
  else if y = emptyEntry then true
  else
    let sx := unpack fmtF32 (x % 2 ^ 32)
    let sy := unpack fmtF32 (y % 2 ^ 32)
    if numLt sy sx || (sy.isNan && !sx.isNan) then true
    else if numLt sx sy || (sx.isNan && !sy.isNan) then false
    else decide (x / 2 ^ 32 < y / 2 ^ 32)

/-- Insert before the first entry that the new one precedes: earlier positions stay first (R154). -/
def insertEntry (x : Nat) : List Nat → List Nat
  | [] => [x]
  | y :: rest => if precedes x y then x :: y :: rest else y :: insertEntry x rest

/-- The R154 order of a list. -/
def sortEntries (l : List Nat) : List Nat := l.foldl (fun acc x => insertEntry x acc) []

/-- The first `n` of the ordered entries, filled to 8 with empty entries. -/
def listOf (l : List Nat) (n : Nat) : Vec :=
  let t := (sortEntries l).take n
  ofLanes 64 (t ++ List.replicate (8 - t.length) emptyEntry)

def entriesOf (v : Vec) : List Nat := (List.range 8).map fun j => lane v j 64

/-- NV for signalling scores that are read (R155). -/
def scoreFlags (scores : List Nat) : Flg := flIf (scores.any fun x => (unpack fmtF32 (x % 2 ^ 32)).isSig) flNV

/-- VTOPK (R155). -/
def execVtopk (d a b : BitVec 7) (s : State) : Out :=
  simple (reqDAB (.vtopk d a b) d a b) s fun th =>
    let base := nbits (th.S b) 0 16
    let tok := nbits (th.S b) 16 16
    let k := nbits (th.S b) 32 3 + 1
    let cands := (th.picked (th.V a) 32).filterMap fun e =>
      let x := tok * 2 ^ 48 + (base + e.1) % 2 ^ 16 * 2 ^ 32 + e.2
      if (unpack fmtF32 e.2).isNan || x == emptyEntry then none else some x
    (th.setV d (listOf cands k)).orFlags (scoreFlags ((th.picked (th.V a) 32).map Prod.snd))

/-- VSORT (R155). -/
def execVsort (d a : BitVec 7) (s : State) : Out :=
  simple (reqDA (.vsort d a) d a) s fun th =>
    (th.setV d (listOf (entriesOf (th.V a)) 8)).orFlags (scoreFlags (entriesOf (th.V a)))

/-- VMRG (R155). -/
def execVmrg (d a b : BitVec 7) (s : State) : Out :=
  simple (reqDAB (.vmrg d a b) d a b) s fun th =>
    let xs := entriesOf (th.V a) ++ entriesOf (th.V b)
    (th.setV d (listOf xs 8)).orFlags (scoreFlags xs)

end Sys2Proof.Machine
end

