-- ==== Sys2Proof/Machine/Message.lean ====
section
/-! DEFINITION. Sys2Proof/Machine/Message.lean: mailboxes and message handlers (R268 to R270, R294 to R298, R416),
deposits on arrival (R64 to R66), and migration (R61, R271, R272, R299 to R302). -/

namespace Sys2Proof.Machine

/-! ### The mailbox (R268, R269) -/

/-- The mailbox that a thread reads: it stays at the home slot (R269). -/
def State.mailbox (s : State) (th : Thread) : List Msg := (s.homeThread th).mailbox

/-- Give the thread running in slot `t` another mailbox: its own, or its home's. -/
def setMailbox (s : State) (t : Nat) (th : Thread) (ms : List Msg) : State × Thread :=
  if th.home = t then (s, { th with mailbox := ms }) else (s.modThread th.home fun h => { h with mailbox := ms }, th)

/-- The header of a message (R268). (Log 27, DEDUCED.) -/
def headerOf (kind hidx core slot seq : Nat) : Dword :=
  BitVec.ofNat 64 (kind * 2 ^ 56 + hidx * 2 ^ 48 + core * 2 ^ 32 + slot * 2 ^ 24 + seq)

/-- An arrival at a thread's mailbox: it is appended, or an eighth unread message makes it an overflow, of which the
first header and the count of the others are kept (R269). -/
def Thread.deliver (th : Thread) (kind hidx core slot : Nat) (payload : Vec) : Thread :=
  let seq := (th.seq + 1) % 65536
  let h := headerOf kind hidx core slot seq
  if th.mailbox.length < 8 then { th with seq := seq, mailbox := th.mailbox ++ [{ header := h, payload := payload }] }
  else match th.overflow with
    | none => { th with seq := seq, overflow := some h }
    | some g => { th with seq := seq, overflow := some (setBits g 16 8 (Nat.min 255 (nbits g 16 8 + 1))) }

/-- Where the thread that a packet is for stands: live in its slot, or pre-empted with that home. -/
inductive Target where
  | nobody
  | live (t : Nat) (th : Thread)
  | away (key : Nat) (th : Thread)
  deriving Repr

/-- The thread of the sender's tenant in the slot that a packet names (R64, R269); a pre-empted context counts by the slot in
which it last ran, and of two the one of the packet's launch is meant. (Log 45, DEDUCED.) (Log 46, DEDUCED.) -/
def State.target (s : State) (p : Packet) : Target :=
  let t := p.core * 64 + p.slot
  let stored := s.saved.filter fun e => (if e.2.guest then e.2.ranIn else e.2.home) == t && e.2.tenant == p.tenant
  let kept : Target := match (stored.find? fun e => e.2.launch == p.launch).or stored.head? with
    | some e => .away e.1 e.2
    | none => .nobody
  if p.slot = 63 then .nobody
  else match mget s.threads t with
    | some th =>
      if th.tenant ≠ p.tenant then kept
      else if th.launch = p.launch then .live t th
      else match stored.find? fun e => e.2.launch == p.launch with
        | some e => .away e.1 e.2
        | none => .live t th
    | none => kept

/-- Change the thread that a packet is for. -/
def State.atTarget (s : State) (x : Target) (f : Thread → Thread) : State := match x with
  | .nobody => s
  | .live t th => s.setThread t (f th)
  | .away k th => { s with saved := mput s.saved k (f th) }

/-- The home, live or pre-empted, where a guest's mailbox is (R269). -/
def State.mailHome (s : State) (th : Thread) : Target :=
  match (s.saved.find? fun e => e.2.home == th.home && e.2.forme == th.forme && !e.2.guest), s.thread? th.home with
  | some e, _ => .away e.1 e.2
  | none, some h => .live th.home h
  | none, none => .nobody

/-- The target, or for a message to a guest slot the home where that thread's mailbox is. -/
def State.mailTarget (s : State) (p : Packet) : Target :=
  match s.target p with
  | .live t th => if th.guest then s.mailHome th else .live t th
  | .away k th => if th.guest then s.mailHome th else .away k th
  | .nobody => .nobody

/-- The identity of the thread of a target. -/
def Target.who : Target → Nat
  | .nobody => Machine.nobody
  | .live _ th | .away _ th => th.who

/-- An older packet of the same thread to the same target is under way: packets of one thread to one target arrive in the order in
which they were sent, wherever the thread has run (R134, R269, R66; log 89, DEDUCED). -/
def overtakes (ps : List Packet) (p : Packet) (same : Packet → Bool) : Bool := ps.any fun y => y.id < p.id && y.who == p.who && same y

/-- Two packets name the same slot. -/
def Packet.toSlot (p y : Packet) : Bool := y.core == p.core && y.slot == p.slot

/-- Two messages go to one mailbox, which the home slot and a guest slot of its thread both name (R269). -/
def State.sameMail (s : State) (p y : Packet) : Bool :=
  p.toSlot y || (match s.mailTarget p with
    | .nobody => false
    | x => (s.mailTarget y).who == x.who && y.tenant == p.tenant)

/-- A payload arrives at a mailbox: its place in the local store is written whole (R228, R269). -/
def State.deliverTo (s : State) (x : Target) (kind hidx core slot : Nat) (payload : Vec) : State :=
  let y := s.atTarget x fun th => th.deliver kind hidx core slot payload
  match x with
  | .live t th => if th.mailbox.length < 8 then y.mendLines (mailLine t th.mailbox.length) 1 else y
  | _ => y

/-- The oldest unread message lies in a line that holds an error (R169; log 11, DEDUCED). -/
def State.mailBad (s : State) (home : Nat) : Bool := s.badLine (mailLine home 0)

/-- The address in the local store's window that the error of an unread message is reported at (R169; log 92, DESIGN CHOICE). -/
def mailAddr (home : Nat) : Dword := BitVec.ofNat 64 (0xFF1 * 2 ^ 52 + 0x6000 + 512 * slotOf home)

/-- The oldest message is taken: the errors of the others move up with them (log 11, DEDUCED). -/
def State.shiftMail (s : State) (home : Nat) : State :=
  if s.power.bad.isEmpty then s
  else
    let lo := mailLine home 0
    { s with power := { s.power with bad := s.power.bad.filterMap fun e =>
        if e.1 < lo ∨ lo + 8 ≤ e.1 then some e else if e.1 = lo then none else some (e.1 - 1, e.2) } }

/-- MESSAGE_ARRIVAL (R269): whatever becomes of it, the message counts as received. -/
def execMessageArrival (id : Nat) (s : State) : Out :=
  match s.flight.msgs.find? fun p => p.id == id with
  | none => .next s
  | some p =>
    if overtakes s.flight.msgs p (s.sameMail p) then .next s
    else
      let x := s.mailTarget p
      let s := (s.modFlight fun f => { f with msgs := f.msgs.filter fun y => y.id != id }).countRecvd p.core x.who p.launch 1
      .next (s.deliverTo (s.mailTarget p) 0 p.k p.srcCore p.srcSlot p.payload)

/-- MAILBOX_OVERFLOW: the fault is taken at the thread's next boundary at home (R269). -/
def execMailboxOverflow (tid : Nat) (s : State) : Out :=
  match s.thread? tid with
  | none => .next s
  | some th =>
    match th.overflow with
    | none => .next s
    | some h =>
      if s.atBoundary tid th then .next (takeFault (s.setThread tid { th with overflow := none }) tid 0x0F 0 false h th.ctx.pc)
      else .next s

/-- The thread as its handler starts with a message (R270): a waiting `wfm` has completed (R112, R126), an `arwt` keeps its wait
(R364), and an attached member detaches (R416). -/
def Thread.enter (th : Thread) (m : Msg) (rest : List Msg) : Thread :=
  let done := th.wait == .wfm
  let x := if done then advance th.ctx false .seq else th.ctx
  let x := { (x.setReg 128 m.payload).setReg 129 (m.header.setWidth 512) with
             msgpc := x.pc, hnd := true, pc := th.ctx.msgv + BitVec.ofNat 64 (64 * nbits m.header 48 4),
             kept := (match th.wait with | .arwt e p => .arwt e p | _ => .none) }
  let th := if th.attached then th.detach else th
  { th with ctx := x, mailbox := rest, join := none, bar := none, cause := none, sent := if done then th.sent - 1 else th.sent, wait := .none }

/-- HANDLER_ENTRY (R270): an acquire at device scope; a payload that an error has lost is DATA_LOST at the boundary (R169). -/
def execHandlerEntry (tid : Nat) (s : State) : Out :=
  match s.thread? tid with
  | none => .next s
  | some th =>
    match th.mailbox with
    | [] => .next s
    | m :: rest =>
      if !s.enters tid th then .next s
      else if s.mailBad tid then .next (takeFault s tid 0x07 0 false (mailAddr tid) th.ctx.pc)
      else .next (((s.setThread tid (th.enter m rest)).acquire tid th 4).shiftMail tid)

/-- MASK_BOUND_EXPIRY: the section's count has reached zero, and MSKD clears (R296). -/
def execMaskBoundExpiry (tid : Nat) (s : State) : Out :=
  .next (s.modThread tid fun th =>
    if th.ctx.mskd ∧ th.ctx.rem = 0 then { th with ctx := { th.ctx with mskd := false } } else th)

/-- SEND (R294): a release at device scope, counted as sent at issue. -/
def execSend (h : BitVec 4) (a b : BitVec 7) (s : State) : Out :=
  let q := { reqAB (.send h a b) a b with commit := true, early := [.release 4, .edge (some a) false] }
  begin q s fun s t th =>
    match s.departs t th 4 (some (nbits (th.S a) 0 9)) with
    | some c => .next (hold s t c)
    | none =>
      let p := packetFrom s t th (nbits (th.S a) 0 9) (nbits (th.S a) 16 6) h.toNat (th.V b)
      let s := ((s.modFlight fun f => { f with msgs := f.msgs ++ [p] }).newId).countSent (coreOf t) th.who th.launch 1
      .next (finish s t th q .seq)

/-- RCV (R295): the oldest unread message, its payload and its header in a register pair; an acquire at device scope. -/
def execRcv (d : BitVec 7) (s : State) : Out :=
  let q : Req := { word := encodeNat (.rcv d), regs := [d.toNat, d.toNat + 1], writes := [d.toNat, d.toNat + 1], commit := true }
  begin q s fun s t th =>
    match s.mailbox th with
    | [] => .next (hold s t 9)
    | m :: rest =>
      if s.mailBad th.home then raise s t q 0x07 (mailAddr th.home)
      else
        let r := setMailbox s t ((th.setV d m.payload).setV2 d (m.header.setWidth 512)) rest
        .next (finish ((r.1.acquire t th 4).shiftMail th.home) t r.2 q .seq)

/-- PROBE (R298). -/
def execProbe (d : BitVec 7) (s : State) : Out :=
  let q := reqD (.probe d) d
  begin q s fun s t th =>
    let h : Dword := match s.mailbox th with
      | [] => BitVec.allOnes 64
      | m :: _ => m.header
    .next (finish s t (th.setS d h) q .seq)

/-- MSK (R296): a `msk` in a running section counts against its bound first. -/
def execMsk (n : BitVec 7) (s : State) : Out :=
  let q := { req0 (.msk n) with legal := maskBoundOk n }
  begin q s fun s t th =>
    let ran := match s.thread? t with | some y => y.ctx.mskd | none => false
    let set (on : Bool) (r : Nat) : Out := .next (finish s t (th.setCtx fun x => { x with mskd := on, rem := r }) q .seq)
    if !ran then (if n = 0 then .next (finish s t th q .seq) else set true n.toNat)
    else if n = 0 then set false 0
    else if n.toNat ≤ th.ctx.rem then set true n.toNat
    else raise s t q 0x11 (BitVec.ofNat 64 (n.toNat + th.ctx.rem * 2 ^ 8))

/-- RTI (R297): back to MSGPC, out of the handler and of any masked section; an interrupted `arwt` goes on waiting (R364). -/
def execRti (s : State) : Out :=
  let q := { req0 .rti with flow := true }
  begin q s fun s t th =>
    if !th.ctx.hnd then raise s t q 0x01 (BitVec.ofNat 64 q.word)
    else
      let th1 := { th.setCtx fun x => { x with hnd := false, mskd := false, rem := 0, kept := .none } with wait := th.ctx.kept }
      .next (finish s t th1 q (.to th.ctx.msgpc))

/-! ### Deposits (R64, R65) -/

/-- The payload of a refused deposit (R65). -/
def refusedPayload (p : Packet) (reason : Nat) : Vec :=
  BitVec.ofNat 512 (p.payload.toNat % 2 ^ 64 + p.k * 2 ^ 64 + reason * 2 ^ 72 + p.srcCore * 2 ^ 80 + p.srcSlot * 2 ^ 96)

/-- The register with the value of a deposit, if it is armed. -/
def Ctx.land (x : Ctx) (n : Nat) (v : Vec) : Ctx := if x.armed.getLsbD n then x.setReg n v else x

/-- A deposit that is not refused lands in the register, and in what a discard would go back to (R229). -/
def Thread.land (th : Thread) (n : Nat) (v : Vec) : Thread :=
  let up (e : Rob) : Rob := { e with load := e.load.map fun l => { l with snap := l.snap.land n v } }
  { th with ctx := th.ctx.land n v, rob := th.rob.map up }

/-- Why a deposit is refused (R64 steps 2 to 4); a register that migration still brings counts as present (log 17, DESIGN CHOICE). -/
def Thread.refuses (th : Thread) (n : Nat) : Option Nat :=
  if th.isAway then some 2
  else if th.limit ≤ n then some 1
  else if th.coming.any fun e => e.1 == n then some 0
  else if !th.committed.armed.getLsbD n then some 0
  else none

/-- A deposit reaches the register, in the file or in the save record (R64, R77). -/
def State.landAt (s : State) (x : Target) (n : Nat) (v : Vec) : State :=
  let s := s.atTarget x fun y => y.land n v
  match x with
  | .away k _ => match mget s.saved k with
    | some y => s.intoRecord y n
    | none => s
  | .live t _ => match s.thread? t with
    | some y => s.intoRecord y n
    | none => s
  | .nobody => s

/-- A deposit that is to land in a save record waits until that can be written. -/
def State.landWaits (s : State) (x : Target) (n : Nat) : Option State := match x with
  | .nobody => none
  | .live _ th | .away _ th => if (th.refuses n).isNone && th.stored n then s.recordWaits th else none

/-- Two deposits go to one thread, which the home slot and a guest slot may both name (R134). -/
def State.sameThread (s : State) (p y : Packet) : Bool :=
  p.toSlot y || (match s.target p with
    | .nobody => false
    | x => (s.target y).who == x.who && y.tenant == p.tenant)

/-- DEPOSIT_ARRIVAL (R64 to R66): it lands, or is dropped, or becomes a message of kind DEPOSIT_REFUSED. -/
def execDepositArrival (id : Nat) (s : State) : Out :=
  match s.flight.deposits.find? fun p => p.id == id with
  | none => .next s
  | some p =>
    if overtakes s.flight.deposits p (s.sameThread p) then .next s
    else
    let x := s.target p
    match s.landWaits x p.k with
    | some y => .next y
    | none =>
    let s := (s.modFlight fun f => { f with deposits := f.deposits.filter fun y => y.id != id }).countRecvd p.core x.who p.launch 1
    match x with
    | .nobody => .next s
    | .live _ th | .away _ th =>
      match th.refuses p.k with
      | none => .next (s.landAt x p.k p.payload)
      | some r =>
        let s := s.countFor p.core th.who th.launch th.tenant 0x32 1
        .next (s.deliverTo (s.mailTarget p) 1 0 p.srcCore p.srcSlot (refusedPayload p r))

/-! ### Migration (R61, R271, R272, R299 to R302) -/

/-- The state that a migrating thread carries, laid over `base` (R299): the masks and the control registers of R299; the first
registers are still to arrive (R61). (Log 47, DEDUCED.) -/
def Ctx.carry (x base : Ctx) (n : Nat) : Ctx :=
  { base with pc := x.pc, regs := base.regs.filter fun e => n ≤ e.1,
              armed := setBits base.armed 0 n (2 ^ n - 1), masks := x.masks, lnk := x.lnk, rnd := x.rnd, flg := x.flg, vmsk := x.vmsk,
              fmta := x.fmta, fmtb := x.fmtb, scla := x.scla, sclb := x.sclb, argp := x.argp,
              lpc0 := x.lpc0, lpe0 := x.lpe0, lps0 := x.lps0, lpc1 := x.lpc1, lpe1 := x.lpe1, lps1 := x.lps1, pick := x.pick }

/-- The registers that a migrating thread carries, as they arrive: each present, so that its arms are cancelled (R61, R299). -/
def Ctx.cargo (x : Ctx) (n : Nat) : List (Nat × Vec) := (List.range n).map fun k => (k, x.reg k)

/-- The next register that migration brings arrives, unless the thread has written that register meanwhile (R61, R63). -/
def Thread.receive (th : Thread) : Thread := match th.coming with
  | [] => th
  | e :: rest => { th.land e.1 e.2 with coming := rest }

/-- The next register that migration brings to the thread of a slot arrives, in the file or in the record (R61, R64, R77). -/
def State.receive (s : State) (t : Nat) : State :=
  match s.thread? t with
  | none => s
  | some th => match th.coming with
    | [] => s
    | e :: _ => (match if th.stored e.1 then s.recordWaits th else none with
      | some s => s
      | none => (s.setThread t th.receive).intoRecord th.receive e.1)

/-- Everything that migration still brings has arrived. -/
def Thread.receiveAll (th : Thread) : Nat → Thread
  | 0 => th
  | n + 1 => Thread.receiveAll th.receive n

/-- Guest slots that a core offers a tenant, and its refusal bit (R271). -/
def State.offered (s : State) (c tenant : Nat) : Nat := nbits (mgetD (s.core c).guestCfg tenant 0) 0 6
def State.refusesGuests (s : State) (c tenant : Nat) : Bool := (mgetD (s.core c).guestCfg tenant 0).getLsbD 8
/-- Guests of a tenant on a core. -/
def State.guests (s : State) (c tenant : Nat) : Nat :=
  (s.threads.filter fun e => coreOf e.1 == c && e.2.guest && e.2.tenant == tenant).length

/-- Why `mig` to a core is refused (R271). -/
def State.migRefused (s : State) (th : Thread) (c : Nat) : Option Nat :=
  if !s.holds c th.launch then some 0
  else if s.offered c th.tenant = 0 ∨ s.refusesGuests c th.tenant then some 1
  else if th.ctx.hnd then some 2
  else none

/-- A guest leaves its slot: the slot and its positions are free. -/
def State.leaveGuest (s : State) (t : Nat) : State :=
  let s := s.dropSlot (coreOf t) (slotOf t)
  { s with threads := mdel s.threads t }

/-- The thread leaves slot `t`: at home the slot is held for it, a guest slot is freed. -/
def State.depart (s : State) (t : Nat) (th : Thread) : State :=
  if th.guest then (s.leaveGuest t).modThread th.home fun h => { h with away := some th.home }
  else s.modThread t fun h => { h with away := some t, cause := some 9 }

/-- What a `mig` to a core waits for once it is not refused (R271, R299): registers still arriving, stores, the release, room. -/
def State.migHeld (s : State) (t : Nat) (th : Thread) (c : Nat) : Option Nat :=
  if th.stOut ≠ 0 then some 5
  else (s.departs t th 4 (some c)).or (if 16 ≤ (s.core c).migrants.length then some 9 else if th.coming ≠ [] then some 10 else none)

/-- MIG (R299, R300): an attached member detaches at it, whatever its target; a leader that multicasts it waits first until no member is
attached. (Log 26, DEDUCED.) -/
def execMig (a : BitVec 7) (s : State) : Out :=
  let q := { reqA (.mig a) a with commit := true }
  begin q s fun s t th =>
    let c := nbits (th.S a) 0 9
    if th.casts && !(s.attachedTo th).isEmpty then
      .next (hold s t (if c = coreOf t || (s.migRefused th c).isSome then 12 else (s.migHeld t th c).getD 12))
    else if c = coreOf t then .next (finish s t (if th.attached then th.detach else th) q .seq)
    else match s.migRefused th c with
    | some r => raise s t q 0x0E (BitVec.ofNat 64 (c + r * 2 ^ 16))
    | none =>
      match s.migHeld t th c with
      | some k => .next (hold s t k)
      | none =>
        let s := finish s t (if th.attached then th.detach else th) q .seq
        match s.thread? t with
        | none => .next s
        | some y =>
          let s := (s.countSent (coreOf t) th.who th.launch 1).depart t y
          .next (s.modCore c fun x => { x with migrants := x.migrants ++ [{ home := th.home, from_ := coreOf t, thread := y }] })

/-- The guest that a migrant becomes (R61, R272): its registers are on their way, into the record until their banks are claimed (R76, R77),
and what it does not carry is zero in the guest (log 17, DESIGN CHOICE). -/
def Migrant.guest (m : Migrant) (base wdog : Nat) : Thread :=
  let y := m.thread
  { Thread.blank with
    pl := y.pl, ctx := y.ctx.carry Ctx.zero y.carried, tenant := y.tenant, launch := y.launch, w := y.w, base := base, forme := y.forme,
    midx := y.midx, rank := y.rank, home := m.home, guest := true, task := y.task, recno := y.recno, stackBase := y.stackBase,
    det := y.det, wdog := wdog, fresh0 := false, fresh1 := false, coming := y.ctx.cargo y.carried, stopped := y.stopped, ending := y.ending,
    bkSkip := y.bkSkip }

/-- What admission of a migrant needs: a guest slot offered and free, a position, and room for its window (R272); and its home, which
a pre-emption may have taken meanwhile (log 20, DEDUCED); what its old core has seen is performed (R190). -/
def State.admits (s : State) (c : Nat) (m : Migrant) : Option (Nat × Nat) :=
  let y := m.thread
  if (s.thread? m.home).isSome && s.steady m.from_ && s.guests c y.tenant < s.offered c y.tenant && !(s.unowned c y.launch).isEmpty then
    match s.freeSlots c, lowestBase (s.windows c) y.carried with
    | slot :: _, some b => some (slot, b)
    | _, _ => none
  else none

/-- The oldest migrant that can be admitted, with its place in the queue: those of one launch in arrival order (R272). -/
def State.nextMigrant (s : State) (c : Nat) : List Migrant → List Nat → List Migrant → Option (List Migrant × Migrant × Nat × Nat)
  | _, _, [] => none
  | before, held, m :: rest =>
    if held.contains m.thread.launch then State.nextMigrant s c (before ++ [m]) held rest
    else match s.admits c m with
      | some (slot, b) => some (before ++ rest, m, slot, b)
      | none => State.nextMigrant s c (before ++ [m]) (m.thread.launch :: held) rest

/-- GUEST_ADMISSION (R272): an acquire; the migration counts as received. -/
def execGuestAdmission (core : Nat) (s : State) : Out :=
  match s.nextMigrant core [] [] (s.core core).migrants with
  | none => .next s
  | some (rest, m, slot, b) =>
    match s.recordWaits m.thread with
    | some y => .next y
    | none =>
    let t := core * 64 + slot
    let s := s.modCore core fun x => { x with migrants := rest, oldCtx := mdel x.oldCtx slot }
    let g := m.guest b (s.core core).wdog
    let s := (s.setThread t g).modThread m.home fun h => { h with away := some t }
    let s := ((s.takePositions core g.launch slot 1).countRecvd core g.who g.launch 1).count t g 0x33 1
    let s := if g.stopped then s.modCore core fun x => x.setStopped slot true else s
    .next ((s.acquire t g 4).writePresence g)

/-- MIGRET (R301): a guest goes home; at home it does nothing. -/
def execMigret (s : State) : Out :=
  let q := { req0 .migret with commit := true }
  begin q s fun s t th =>
    if !th.guest then .next (finish s t th q .seq)
    else if th.stOut ≠ 0 then .next (hold s t 5)
    else match s.departs t th 4 (some (coreOf th.home)) with
    | some k => .next (hold s t k)
    | none =>
      if th.coming ≠ [] then .next (hold s t 10)
      else
      let s := finish s t th q .seq
      match s.thread? t with
      | none => .next s
      | some y =>
        let s := (s.countSent (coreOf t) th.who th.launch 1).depart t y
        let r : Return := { id := s.sched.nextId, core := coreOf t, thread := y }
        .next (s.modFlight fun f => { f with returns := f.returns ++ [r] }).newId

/-- A returning context takes up its home slot (R301): a forme's leader is the leader again, any other member stays private
until a `join` (R300); its registers arrive one by one (R61), and a wait that a pre-emption has saved goes on (R364, R374). -/
def Thread.comeHome (h y : Thread) (wdog : Nat) : Thread :=
  { h with ctx := y.ctx.carry h.ctx h.carried, coming := y.ctx.cargo h.carried, away := none, cause := none, wdog := wdog, idle := 0,
           bkSkip := y.bkSkip, stopped := y.stopped, ending := y.ending, det := h.forme != 0 && h.midx != 0, wait := y.wait, bar := none }

/-- MIGRET_ARRIVAL: an acquire; the move counts as received (R272, R301). A context whose home is pre-empted waits (log 20,
DEDUCED), and so does one whose old core has seen what is still to be performed (R190). -/
def execMigretArrival (id : Nat) (s : State) : Out :=
  match s.flight.returns.find? fun r => r.id == id with
  | none => .next s
  | some r =>
    let home := r.thread.home
    match s.thread? home with
    | none => .next s
    | some h =>
      if !s.steady r.core then .next s
      else match s.recordWaits h with
      | some y => .next y
      | none =>
        let s := s.modFlight fun f => { f with returns := f.returns.filter fun y => y.id != id }
        let c := coreOf home
        let y := h.comeHome r.thread (s.core c).wdog
        let s := (s.setThread home y).countRecvd c h.who h.launch 1
        .next ((s.acquire home h 4).writePresence y)

/-- MIGST (R302). -/
def execMigst (d a : BitVec 7) (s : State) : Out :=
  let q := reqDA (.migst d a) d a
  begin q s fun s t th =>
    let c := nbits (th.S a) 0 9
    let queued := ((s.core c).migrants.filter fun m => m.thread.tenant == th.tenant).length
    let free := s.offered c th.tenant - s.guests c th.tenant
    .next (finish s t (th.setS d (BitVec.ofNat 64
      (queued + free * 2 ^ 8 + (if s.refusesGuests c th.tenant then 2 ^ 16 else 0) + (if s.holds c th.launch then 0 else 2 ^ 17)))) q .seq)

end Sys2Proof.Machine
end

