-- ==== Sys2Proof/Machine/Work.lean ====
section
/-! DEFINITION. Sys2Proof/Machine/Work.lean: launches, their placement and end, tasks, dependence counters and formes
(R13, R16, R28, R260 to R267, R278 to R280, R303 to R306). -/

namespace Sys2Proof.Machine

/-! ### Records (R260, R265) -/

/-- A launch as its record arrives. -/
def newLaunch (tenant lser : Nat) (r : BitVec 1024) : Launch :=
  { tenant := tenant, lser := lser, record := r, upcv := 0, textBase := 0, snapshot := [], nslots := 0, shared := false, lidx := 0,
    lsBase := [], spBase := [], accBase := [], savedAcc := [], savedLs := [], spilled := [], sent := [], recvd := [], prev := none, cores := [],
    preempted := false, ended := false, msgs := 0, status := 0, tend := 0 }

/-- The key of a launch. -/
def launchKey (tenant lser : Nat) : Nat := tenant * 2 ^ 32 + lser

def Launch.cls (l : Launch) : Nat := l.part 1 1
def Launch.gang (l : Launch) : Bool := nbits l.record 24 1 = 1
def Launch.pos (l : Launch) : Nat := l.part 6 1
def Launch.pcore (l : Launch) : Nat := l.part 36 1
/-- The core lies in a row of the launch's ROWS. -/
def Launch.inRows (l : Launch) (c : Nat) : Bool := coreOk c && nbits l.record (8 * 32 + rowOf c) 1 == 1
def Launch.rows (l : Launch) : List Nat := (List.range 512).filter l.inRows
/-- The cost of a launch (R262). -/
def Launch.cost (l : Launch) : Nat := l.pcore * l.rows.length

/-- The fields of a launch record lie in their ranges (R260, R261). -/
def Launch.fieldsOk (l : Launch) : Bool :=
  l.part 0 1 == 1 && l.cls ≤ 3 && within 1 63 (l.part 2 1) && l.part 3 1 < 8 && within 1 4096 (l.part 4 2) && within 1 8 l.pos &&
  within 1 16 (l.part 7 1) && l.part 24 8 % 64 == 0 && decide (l.part 24 8 < 2 ^ 52) && l.part 32 4 != 0 && within 1 62 l.pcore &&
  l.part 37 1 ≤ 24 && l.part 38 1 ≤ 128 && l.part 39 1 ≤ 64 && l.part 40 1 ≤ 8 && l.part 41 87 == 0

/-- A field of a task record. -/
def taskPart (r : Vec) (o n : Nat) : Nat := nbits r (8 * o) (8 * n)
def taskHome (r : Vec) : Nat := taskPart r 20 2

/-- A task record passes the checks of R265 for a launch. -/
def Launch.taskOk (l : Launch) (r : Vec) : Bool :=
  let f := taskPart r 16 1
  let t := taskPart r 17 1
  let w := taskPart r 18 1
  taskPart r 0 8 % 4 == 0 && within 1 16 f && within 1 62 t && within 8 128 w && w % 8 == 0 && t * w ≤ 2016 && taskPart r 19 1 ≤ 4 &&
  l.inRows (taskHome r) && taskPart r 22 2 == 0 && taskPart r 56 8 == 0 && t * l.pos ≤ 62 &&
  (List.range 4).all fun i => nbits r (8 * (24 + 8 * i) + 17) 47 == 0

/-- The root tasks of a launch, read from its tenant's memory; none if one is unreadable or fails R265. -/
def State.rootTasks (s : State) (key : Nat) (l : Launch) : Option (List Task) :=
  (List.range (l.part 7 1)).mapM fun i =>
    let a := l.part 24 8 + 64 * i
    (s.hwRead l.tenant a 64).bind fun bs =>
      let r : Vec := BitVec.ofNat 512 (ofBytes bs)
      if l.taskOk r then some { launch := key, addr := BitVec.ofNat 64 a, record := r, root := true } else none

/-- The reads of root tasks that the port has dropped are counted (R391). -/
def State.rootsSent (s : State) (l : Launch) : State :=
  (List.range (l.part 7 1)).foldl (fun s i => s.hwSent l.tenant (l.part 24 8 + 64 * i)) s

/-! ### The launch queues (R261, R262) -/

/-- A record is refused: its completion record carries the status, MSGS 0 and the time (R261, R280). -/
def State.refuse (s : State) (l : Launch) (status : Nat) : State :=
  let s := s.timed
  s.sendCompletion l.tenant (completion l (s.lostOf l.tenant) status 0 s.sched.time)

/-- LAUNCH (R261, R384): the lowest status that applies refuses the record; else it enters its queue. (Log 62, DEDUCED.) -/
def execLaunch (sess : Nat) (msg : BitVec 1152) (s : State) : Out :=
  let record := launchRecord msg
  let hdr := launchHeader msg
  if !s.commands sess then .next (s.later sess (.launch sess msg))
  else if kindOf hdr ≠ 1 then .next (s.reply sess (nbits record 16 8) (tagOf hdr) (kindOf hdr) 1)
  else
    let tenant := nbits record 16 8
    match s.tenant? tenant with
    | none => .next (s.refuse (newLaunch tenant 0 record) 1)
    | some x =>
      if !s.bound sess tenant then .next (s.refuse (newLaunch tenant 0 record) 1)
      else
        let l := newLaunch tenant x.lser record
        let s := s.modTenant tenant fun x => { x with lser := x.lser + 1 }
        let q := mgetD s.work.queues (l.cls * 64 + tenant) []
        if !hdrOk 1 128 hdr || !l.fieldsOk || (s.rootTasks 0 l).isNone then .next ((s.rootsSent l).refuse l 1)
        else if (s.imageOf l).isNone then .next (s.refuse l 2)
        else if 64 ≤ q.length then .next (s.refuse l 4)
        else .next (s.modWork fun w => { w with queues := mput w.queues (l.cls * 64 + tenant) (q ++ [(x.lser, record)]) })

/-- The tenant that a visit of a class reaches after another: ascending ids, cyclically (R262). -/
def State.nextTenant (s : State) (k after : Nat) : Option Nat :=
  let has (n : Nat) : Bool := !(mgetD s.work.queues (k * 64 + n) []).isEmpty
  ((List.range 64).map fun i => (after + 1 + i) % 64).find? has

/-- Visits of a class until a record is taken (R262). -/
def State.visit (s : State) (k : Nat) : Nat → State
  | 0 => s
  | fuel + 1 =>
    match s.nextTenant k (mgetD s.work.visited k 0) with
    | none => s
    | some n =>
      match mgetD s.work.queues (k * 64 + n) [] with
      | [] => s
      | (ser, r) :: rest =>
        let d := mgetD s.work.deficit (k * 64 + n) 0 + (match s.tenant? n with | some x => x.quantum | none => 1)
        let cost := (newLaunch n ser r).cost
        let s := s.modWork fun w => { w with visited := mput w.visited k n }
        if cost ≤ d then
          s.modWork fun w => { w with
            queues := mput w.queues (k * 64 + n) rest, taken := mput w.taken k (ser, r),
            deficit := mput w.deficit (k * 64 + n) (if rest.isEmpty then 0 else d - cost) }
        else State.visit (s.modWork fun w => { w with deficit := mput w.deficit (k * 64 + n) d }) k fuel

/-- LAUNCH_SELECT (R262): the highest class that holds a record gives the next launch, unless one of that class still waits
for its place (R263); no cost exceeds 31,744, so a visit takes one within that many rounds. -/
def execLaunchSelect (s : State) : Out :=
  if s.work.paused || s.host.phase != .running then .next s
  else match (List.range 4).find? fun k => s.work.queues.any fun e => e.1 / 64 == k && !e.2.isEmpty with
    | none => .next s
    | some k => if (mget s.work.taken k).isSome then .next s else .next (s.visit k 2000000)

/-! ### Grants (R13, R170, R171, R175, R245, R264) -/

/-- The lowest multiple of `step` where `n` units fit beside ranges within `limit`. (Log 80, DESIGN CHOICE.) -/
def lowestRange (taken : List (Nat × Nat)) (step n limit : Nat) : Option Nat :=
  ((List.range (limit / step + 1)).map (· * step)).find? fun b => b + n ≤ limit && taken.all fun r => b + n ≤ r.1 || r.1 + r.2 ≤ b

/-- Accumulators of a core that no launch has, lowest first (R175). -/
def State.freeAccs (s : State) (c : Nat) : List Nat :=
  (List.range 8).filter fun k => s.work.launches.all fun l => !(mgetD l.2.accBase c []).contains k

/-- The ranges that launches hold in a map of bases, with their sizes. -/
def State.ranges (s : State) (at_ : Nat) (base : Launch → Map Nat) (size : Launch → Nat) : List (Nat × Nat) :=
  s.work.launches.filterMap fun l => (mget (base l.2) at_).map fun b => (b, size l.2)

def Launch.lsBytes (l : Launch) : Nat := l.part 37 1 * 1024
def Launch.spBytes (l : Launch) : Nat := l.part 38 1 * 65536
def Launch.accs (l : Launch) : Nat := l.part 40 1

/-- The place of a cluster's 8 MiB in a tenant's spill area (R373). -/
def State.spillAt (s : State) (tenant k : Nat) : Nat := match s.tenant? tenant with
  | some x => x.spillb.toNat + 16384 * x.spilln + 8 * 2 ^ 20 * k
  | none => 0

/-- Where in a cluster's 8 MiB a launch's range goes: the lowest place beside those of the tenant's other launches (log 109, DESIGN
CHOICE). -/
def State.spillPlace (s : State) (l : Launch) (k : Nat) : Option Nat :=
  let taken := s.work.launches.filterMap fun e => if e.2.tenant = l.tenant then (mget e.2.spilled k).map fun o => (o, e.2.spBytes) else none
  lowestRange taken 65536 l.spBytes (8 * 2 ^ 20)

/-- A write to a launch's place in the spill area cannot be made now. -/
def State.spillWaits (s : State) (l : Launch) (k o : Nat) : Option State :=
  (List.range (l.spBytes / 4096)).findSome? fun i => s.hwHeld l.tenant (s.spillAt l.tenant k + o + 4096 * i)

/-- A pre-empted launch's scratchpad range goes to the spill area (R171). -/
def State.spill (s : State) (key : Nat) (l : Launch) (k b o : Nat) : State :=
  let bs := (List.range l.spBytes).map fun i => s.scratchByte k (b + i)
  (s.hwLines l.tenant (s.spillAt l.tenant k + o) (linesOf bs (l.spBytes / 64))).modLaunch key fun l =>
    { l with spBase := mdel l.spBase k, spilled := mput l.spilled k o }

/-- A free scratchpad range; ranges of launches that hold no core of the cluster are spilled one by one if need be (R171). -/
def State.scratchRange (s : State) (k n : Nat) : List (Nat × Launch) → Option (Nat × State)
  | [] => (lowestRange (s.ranges k Launch.spBase Launch.spBytes) 65536 n (8 * 2 ^ 20)).map fun b => (b, s)
  | (key, l) :: rest =>
    match lowestRange (s.ranges k Launch.spBase Launch.spBytes) 65536 n (8 * 2 ^ 20) with
    | some b => some (b, s)
    | none =>
      match mget l.spBase k with
      | some b => if l.cores.any fun c => clusterOf c == k then State.scratchRange s k n rest
                  else match (s.spillPlace l k).filter fun o => (s.spillWaits l k o).isNone with
                    | some o => State.scratchRange (s.spill key l k b o) k n rest
                    | none => State.scratchRange s k n rest
      | none => State.scratchRange s k n rest

/-- The launch has its scratchpad range in a cluster: granted and zeroed, or read back (R171). -/
def State.giveScratch (s : State) (key : Nat) (l : Launch) (k : Nat) : Option State :=
  if l.spBytes = 0 ∨ (mget l.spBase k).isSome then some s
  else (s.scratchRange k l.spBytes s.work.launches).bind fun r =>
    let s := ((r.2.mendLines (sramLine 0 k (r.1 / 64)) (l.spBytes / 64)).modCluster k fun x =>
      let z := zeroRange x.scratch x.clean r.1 l.spBytes
      { x with scratch := z.1, clean := z.2 }).modLaunch key fun l => { l with spBase := mput l.spBase k r.1 }
    match mget l.spilled k with
    | none => some s
    | some o =>
      let at_ (i : Nat) : Nat := s.spillAt l.tenant k + o + 64 * i
      let bs := (List.range (l.spBytes / 64)).flatMap fun i => (s.hwRead l.tenant (at_ i) 64).getD (List.replicate 64 0)
      let s := (List.range (l.spBytes / 64)).foldl (fun s i => s.hwSent l.tenant (at_ i)) s
      some ((s.putScratch k (place r.1 bs)).modLaunch key fun l => { l with spilled := mdel l.spilled k }).tick

/-- A tenant's supervisor slot on a core: reserved with its window in the highest free slot below 63 (R13, R62). -/
def State.giveSup (s : State) (c tenant : Nat) : Option State :=
  if (mget (s.core c).sups tenant).isSome then some s
  else match (s.freeSlots c).getLast?, lowestBase (s.windows c) 32 with
    | some slot, some b =>
      let u : Sup := { slot := slot, utsel := 0, queue := [], notice := false, run := none, resumed := [] }
      let th := { Thread.blank with pl := 1, tenant := tenant, base := b, home := c * 64 + slot }
      some ((s.modCore c fun x => { x with sups := mput x.sups tenant u, oldCtx := mdel x.oldCtx slot }).setThread (c * 64 + slot) th)
    | _, _ => none

/-- Positions of a core whose USED is clear, lowest first. -/
def Core.unused (x : Core) : List Nat := (List.range 64).filter fun p => !impUsed (x.impView p)

/-- The shares of the resident launches on a core stay within the command queues, with `n` positions more (R245). -/
def State.sharesFit (s : State) (c key n : Nat) : Bool :=
  let ps := s.work.launches.filterMap fun l =>
    if l.1 ≠ key ∧ l.2.cores.contains c then some ((s.core c).heldBy l.2.lidx).length else none
  ((ps.map fun p => (p + 1) / 2).sum + (n + 1) / 2 ≤ 32) && ((ps.map fun p => (p + 3) / 4).sum + (n + 3) / 4 ≤ 16)

/-- Where the errors are kept of what is saved of a launch's core: of its local store (7), of its accumulators (8) (R169). -/
def savedLine (kind key c line : Nat) : Nat := sramLine kind 0 ((key * 512 + c) * 512 + line)

/-- The local store range that a launch gets on a core, and the bytes that it holds: the one it has been taken from, at the same offsets, or the
lowest free one, zeroed (R170, R264; log 141, DESIGN CHOICE). -/
def State.storeRange (s : State) (l : Launch) (c : Nat) : Option (Nat × Option (List Byte)) :=
  let taken := s.ranges c Launch.lsBase Launch.lsBytes
  match mget l.savedLs c with
  | some (b, bs) => if taken.all fun r => b + l.lsBytes ≤ r.1 || r.1 + r.2 ≤ b then some (b, some bs) else none
  | none => (lowestRange taken 1024 l.lsBytes 24576).map fun b => (b, none)

/-- A launch gets a range of a core's local store: zeroed, and then with the bytes that were saved of it (R170). -/
def State.fillStore (s : State) (key c b n : Nat) (bs : Option (List Byte)) : State :=
  let s := (s.mendLines (sramLine 1 c (b / 64)) (n / 64)).modCore c fun x =>
    let z := zeroRange x.localStore x.clean b n
    { x with localStore := z.1, clean := z.2 }
  match bs with
  | some bs => ((place b bs).foldl (fun s w => s.putLocal c w.1 w.2) s).carryErrors (savedLine 7 key c 0) (sramLine 1 c (b / 64)) (n / 64)
  | none => s

/-- A launch gets accumulators of a core: zeroed, or with what was saved of them (R175). -/
def State.fillAccs (s : State) (key c : Nat) (a : List Nat) (saved : List (List (BitVec 32))) : State :=
  (a.zip (List.range a.length)).foldl (fun s e =>
    match saved[e.2]? with
    | some v => (s.modCore c fun x => { x with accs := mput x.accs e.1 v }).carryErrors (savedLine 8 key c (64 * e.2)) (sramLine 5 c (64 * e.1)) 64
    | none => (s.modCore c fun x => { x with accs := mdel x.accs e.1 }).mendLines (sramLine 5 c (64 * e.1)) 64) s

/-- Give a launch its positions and grants on a core, those that it does not hold yet (R264); where it starts on the core, the L1
instruction cache is empty (R160). -/
def State.giveCore (s : State) (key : Nat) (c : Nat) : Option State :=
  match s.launch? key with
  | none => none
  | some l =>
    let fresh := !l.cores.contains c
    let have_ := if fresh then [] else (s.core c).heldBy l.lidx
    let want := l.pcore - have_.length
    let ps := (s.core c).unused.take want
    if ps.length < want ∨ !s.sharesFit c key l.pcore then none
    else
      let put (x : Core) (p : Nat) : Core := x.setImp p (setBits (setBits (setBits (x.impView p) 14 2 2) 6 6 l.lidx) 0 6 0)
      let s := s.modCore c fun x => ps.foldl put (if fresh then { x with l1i := [] } else x)
      let ls := match mget l.lsBase c with
        | some b => some (b, none)
        | none => if l.lsBytes = 0 then some (0, none) else (s.storeRange l c).map fun r => (r.1, some r.2)
      let acc := match mget l.accBase c with
        | some b => some b
        | none => if (s.freeAccs c).length < l.accs then none else some ((s.freeAccs c).take l.accs)
      match ls, acc with
      | some (b, content), some a =>
        let s := match content with
          | some bs => s.fillStore key c b l.lsBytes bs
          | none => s
        let s := if (mget l.accBase c).isNone then s.fillAccs key c a ((mget l.savedAcc c).getD []) else s
        let s := s.modLaunch key fun l => { l with
          cores := if fresh then l.cores ++ [c] else l.cores, lsBase := mput l.lsBase c b, accBase := mput l.accBase c a,
          savedAcc := mdel l.savedAcc c, savedLs := mdel l.savedLs c, preempted := false }
        (s.giveSup c l.tenant).bind fun s => match s.launch? key with
          | some l => s.giveScratch key l (clusterOf c)
          | none => none
      | _, _ => none

/-- The lowest launch index that no other launch with a row in common has (R325). (Log 57, DEDUCED.) -/
def State.freeIdx (s : State) (key : Nat) (l : Launch) : Option Nat :=
  (List.range 63).find? fun i => s.work.launches.all fun x =>
    x.1 == key || x.2.lidx != i || x.2.part 32 4 &&& l.part 32 4 == 0

/-! ### Run lists (R266, R267) -/

/-- Append a task to its home's run list; a full list keeps it waiting (R267). -/
def State.enlist (s : State) (task : Task) : State :=
  s.modCore (taskHome task.record) fun x =>
    if x.runList.length < 512 && x.waitTasks.isEmpty then { x with runList := x.runList ++ [task] }
    else { x with waitTasks := x.waitTasks ++ [.task task] }

/-- What waits still stands: the thread of a `spawn` is still at it. -/
def State.standsAt (s : State) (w : RunWait) : Bool := match w with
  | .task _ => true
  | .spawn t pc => match s.thread? t with
    | some th => th.ctx.pc == pc && th.upcall.isNone && !th.stopped && !th.ending
    | none => false

/-- A list with room takes the tasks that it holds, up to the first `spawn`, whose thread takes its own place; a task that its
counter keeps leaves it (R266, R267). -/
def Core.refill (x : Core) (live : RunWait → Bool) : Nat → Core
  | 0 => x
  | n + 1 =>
    match x.waitTasks with
    | [] => x
    | .spawn t pc :: rest => if live (.spawn t pc) then x else Core.refill { x with waitTasks := rest } live n
    | .task k :: rest =>
      if 512 ≤ x.runList.length then x
      else
        let i := x.armed.find? fun e => e.2 == k && nbits (mgetD x.counters e.1 0) 52 12 == 0
        let y := { x with runList := x.runList ++ [k], waitTasks := rest }
        Core.refill (match i with
          | some e => { y with armed := mdel y.armed e.1, counters := mdel y.counters e.1 }
          | none => y) live n

/-- The run list of a core takes what waits for it. -/
def State.refill (s : State) (c : Nat) : State := s.modCore c fun x => x.refill s.standsAt x.waitTasks.length

/-- What core `c` must have for one member of a task (R267). -/
def State.memberFits (s : State) (key t w pos c : Nat) : Bool :=
  s.holds c key && t ≤ (s.freeSlots c).length && t * pos ≤ (s.unowned c key).length && (bases (s.windows c) w t).isSome

/-- Spans of `f` cores of the home row whose cores all meet a condition, by their first core: those that contain the home core come
first, and of each kind the leftmost (R267). -/
def spans (f home : Nat) (ok : Nat → Bool) : List Nat :=
  let fits := ((List.range (17 - f)).map (home / 16 * 16 + ·)).filter fun c => (List.range f).all fun m => ok (c + m)
  let near (c : Nat) : Bool := c ≤ home && home < c + f
  fits.filter near ++ fits.filter fun c => !near c

/-- The first core of the span that a task is formed on (R267). -/
def State.span (s : State) (key f t w pos home : Nat) : Option Nat := (spans f home (s.memberFits key t w pos)).head?

/-- Where the stack pools lie in HBM, below the dump region (R174; log 19, DESIGN CHOICE). -/
def stackStart : Nat := Config.stackPool % ((0x005F80000000 - 2 ^ 34) / 4096) * 4096

/-- The stacks of the threads, live and pre-empted: where each begins, and its bytes. -/
def State.stacks (s : State) : List (Nat × Nat) :=
  ((s.threads.map Prod.snd ++ s.saved.map Prod.snd).filter fun th => th.pl == 0).filterMap fun th =>
    (s.launchOf th).map fun l => (th.stackBase, l.part 39 1 * 4096)

/-- The lowest place of the pools where `n` bytes lie beside every stack (R174; log 19, DESIGN CHOICE). -/
def State.freeStack (s : State) (n : Nat) : Option Nat :=
  let taken := s.stacks
  ((stackStart :: taken.map fun r => r.1 + r.2).filter fun b => b + n ≤ 0x005F80000000 && taken.all fun r => b + n ≤ r.1 || r.1 + r.2 ≤ b).min?

/-- A thread of a task as it starts (R16, R60, R174). -/
def newThread (l : Launch) (key id : Nat) (task : Task) (home m j base recno stack wdog : Nat) : Thread :=
  { Thread.blank with
    ctx := { Ctx.zero with pc := BitVec.ofNat 64 (taskPart task.record 0 8), argp := BitVec.ofNat 64 (taskPart task.record 8 8) },
    tenant := l.tenant, launch := key, w := taskPart task.record 18 1, base := base, forme := id, midx := m, rank := j, home := home,
    task := task.addr, recno := recno, stackBase := stack, wdog := wdog }

/-- The members of a forme on one core start (R267): slots and windows lowest first, positions in ascending slot number. The start of
each is an acquire at device scope (R192). -/
def State.startMember (s : State) (l : Launch) (key id : Nat) (task : Task) (m c stack0 : Nat) (recs : List Nat) : State × List Nat :=
  let t := taskPart task.record 17 1
  let slots := (s.freeSlots c).take t
  let bs := (bases (s.windows c) (taskPart task.record 18 1) t).getD []
  let keyx := match s.tenant? l.tenant with | some x => x.keyx | none => 0
  let stack := l.part 39 1 * 64
  let one (a : State × List Nat) (j : Nat) : State × List Nat :=
    match slots[j]?, bs[j]?, recs[m * t + j]? with
    | some slot, some b, some r =>
      let h := c * 64 + slot
      let at_ := stack0 + (m * t + j) * (64 * stack)
      let th := newThread l key id task h m j b r at_ (a.1.core c).wdog
      let s := (a.1.setThread h th).acquire h th 4
      let s := (s.modCore c fun x => { x with oldCtx := mdel x.oldCtx slot }).takePositions c key slot l.pos
      let z := if stack = 0 then s.power.zeroing else s.power.zeroing ++ [(at_ / 64, stack, keyx)]
      ({ s with power := { s.power with zeroing := z } }, a.2 ++ [h])
    | _, _, _ => a
  (List.range t).foldl one (s, [])

/-- Form a task if its home row has room (R267); none if it must wait. -/
def State.form (s : State) (task : Task) : Option State :=
  match s.launch? task.launch with
  | none => none
  | some l =>
    let f := taskPart task.record 16 1
    let t := taskPart task.record 17 1
    match s.span task.launch f t (taskPart task.record 18 1) l.pos (taskHome task.record), (s.tenant? l.tenant).bind (Tenant.freeRecs · (f * t)),
        s.freeStack (f * t * (l.part 39 1 * 4096)) with
    | some c, some recs, some stack0 =>
      let id := s.sched.nextId + 1
      let s := s.newId.modTenant l.tenant fun x => { x with recs := x.recs ++ recs }
      let r := (List.range f).foldl (fun (a : State × List Nat) m =>
        let b := a.1.startMember l task.launch id task m (c + m) stack0 recs
        (b.1, a.2 ++ b.2)) (s, [])
      let fo : Forme := { launch := task.launch, task := task, f := f, t := t, tids := r.2, ended := [], tdone := false, preempted := false }
      some (r.1.modWork fun w => { w with formes := mput w.formes id fo })
    | _, _, _ => none

/-- FORME_CREATION (R267): the oldest task of a launch on a core's run list; while a quiesced checkpoint keeps the launches off the device,
nothing is formed (R395). -/
def execFormeCreation (core launch : Nat) (s : State) : Out :=
  match if s.host.quiesced then none else (s.core core).runList.find? fun k => k.launch == launch with
  | none => .next (s.refill core)
  | some k =>
    match s.form k with
    | none => .next (s.refill core)
    | some s => .next ((s.modCore core fun x => { x with runList := x.runList.erase k }).refill core)

/-! ### Giving a core back (R263, R326, R372) -/

/-- The launch has a thread, a supervisor's run or an engine command on the core. -/
def State.active (s : State) (key c : Nat) : Bool :=
  (s.threads.any fun e => coreOf e.1 == c && e.2.launch == key && e.2.pl == 0) ||
  ((s.core c).sups.any fun u => u.2.run == some key) ||
  ((s.core c).copyQ.any fun m => m.launch == key) || (s.core c).matQ.any fun m => m.launch == key

/-- A tenant without a launch on a core gives its supervisor slot back (R13). -/
def State.dropSup (s : State) (c tenant : Nat) : State :=
  if s.work.launches.any fun l => l.2.tenant == tenant && l.2.cores.contains c then s
  else match mget (s.core c).sups tenant with
    | none => s
    | some u =>
      let s := { s with threads := mdel s.threads (c * 64 + u.slot) }
      s.modCore c fun x => { x with sups := mdel x.sups tenant }

/-- The positions of a launch on a core are free: USED, THR and LIDX are clear, PB and SB stay (R326). -/
def Core.release (x : Core) (ps : List Nat) : Core :=
  ps.foldl (fun x p => x.setImp p (BitVec.ofNat 16 (nbits (x.impView p) 12 2 * 4096))) x

/-- The launch leaves a core: its positions are free, its accumulators are saved (R175, R326), and its local store range, which comes back at
the same offsets (R170, R263; log 141, DESIGN CHOICE). -/
def State.vacate (s : State) (key c : Nat) : State :=
  match s.launch? key with
  | none => s
  | some l =>
    let a := mgetD l.accBase c []
    let data := a.map fun k => mgetD (s.core c).accs k (List.replicate 1024 0)
    let b := mgetD l.lsBase c 0
    let store := (List.range l.lsBytes).map fun i => s.localByte c (b + i)
    let s := s.carryErrors (sramLine 1 c (b / 64)) (savedLine 7 key c 0) (l.lsBytes / 64)
    let s := (a.zip (List.range a.length)).foldl (fun s e => s.carryErrors (sramLine 5 c (64 * e.1)) (savedLine 8 key c (64 * e.2)) 64) s
    let s := s.modCore c fun x =>
      { x.release (x.heldBy l.lidx) with accs := a.foldl mdel x.accs }
    let s := s.modLaunch key fun l =>
      let cs := l.cores.filter (· != c)
      { l with cores := cs, accBase := mdel l.accBase c, savedAcc := if l.accs = 0 then l.savedAcc else mput l.savedAcc c data,
               lsBase := mdel l.lsBase c, savedLs := if l.lsBytes = 0 then l.savedLs else mput l.savedLs c (b, store), preempted := cs.isEmpty }
    s.dropSup c l.tenant

/-- The scratchpad ranges of a cluster that launches on its cores hold: those of the others can be spilled (R171). -/
def State.heldScratch (s : State) (k : Nat) : List (Nat × Nat) :=
  s.work.launches.filterMap fun l =>
    if l.2.cores.any fun c => clusterOf c == k then (mget l.2.spBase k).map fun b => (b, l.2.spBytes) else none

/-- A taken launch of a higher class asks for core `c` and does not find its place there (R263), or everything is to be
pre-empted (R395). -/
def State.wanted (s : State) (l : Launch) (c : Nat) : Bool :=
  s.host.quiesced || s.work.taken.any fun e =>
    let n := newLaunch 0 0 e.2.2
    e.1 < l.cls && n.inRows c && ((s.core c).unused.length < n.pcore || !s.sharesFit c 0 n.pcore ||
      (lowestRange (s.ranges c Launch.lsBase Launch.lsBytes) 1024 n.lsBytes 24576).isNone ||
      (s.freeAccs c).length < n.accs ||
      (lowestRange (s.heldScratch (clusterOf c)) 65536 n.spBytes (8 * 2 ^ 20)).isNone ||
      (s.freeSlots c).isEmpty)

/-- Launches leave the cores that are wanted of them and where nothing of theirs is active. -/
def State.vacateAll (s : State) : State :=
  s.work.launches.foldl (fun s e => e.2.cores.foldl (fun s c =>
    if s.wanted e.2 c && !s.active e.1 c then s.vacate e.1 c else s) s) s

/-- Launches get back the cores of their rows that they hold no more, or not with all their positions. -/
def State.regainAll (s : State) : State :=
  s.work.launches.foldl (fun s e => e.2.rows.foldl (fun s c =>
    match s.launch? e.1 with
    | some l => if l.ended || s.wanted l c || (l.cores.contains c && l.pcore ≤ ((s.core c).heldBy l.lidx).length) then s
                else (s.giveCore e.1 c).getD s
    | none => s) s) s

/-! ### Placement (R263, R264) -/

/-- The launch as it becomes resident: its snapshot with the errors of the margin that it copies, its UPCV, its image (R169, R185, R329,
R405). -/
def State.enterLaunch (s : State) (key idx : Nat) (l : Launch) : State :=
  let upcv : Dword := match s.tenant? l.tenant with | some x => x.upcvr | none => 0
  let l := match s.imageOf l with
    | none => { l with upcv := upcv, lidx := idx }
    | some i =>
      let shared := nbits l.record 26 1 == 1 && i.joined
      { l with upcv := upcv, lidx := idx, textBase := i.textBase, nslots := i.nslots, shared := shared,
               snapshot := if l.frozen then i.kept else if shared then mgetD s.tables.shared (l.part 8 8) [] else i.live }
  let owner := if l.frozen then 128 + l.tenant else if l.shared then 64 else l.tenant
  (s.modWork fun w => { w with launches := mput w.launches key l }).carryErrors
    (marginLine owner (l.part 8 8) 0) (sramLine 6 0 (key * 65536)) ((l.nslots + 3) / 4)

/-- Place a launch with its grants on every core of ROWS; none where something is lacking. -/
def State.placeLaunch (s : State) (key : Nat) (l : Launch) : Option State :=
  (s.freeIdx key l).bind fun i => l.rows.foldlM (fun s c => s.giveCore key c) (s.enterLaunch key i l)

/-- The threads of a launch, all created together, take their record numbers in ascending order of core, then of slot (R373). -/
def State.renumber (s : State) (key : Nat) : State :=
  let mine (e : Nat × Thread) : Bool := e.2.launch == key && e.2.pl == 0
  let recs := sortBy id ((s.threads.filter mine).map fun e => e.2.recno)
  let step (a : Map Thread × List Nat) (e : Nat × Thread) : Map Thread × List Nat :=
    match if mine e then a.2 else [] with
    | r :: rest => (a.1 ++ [(e.1, { e.2 with recno := r })], rest)
    | [] => (a.1 ++ [e], a.2)
  { s with threads := (s.threads.foldl step ([], recs)).1 }

/-- All root tasks of a GANG launch at once (R14, R263). -/
def State.formAll (s : State) (roots : List Task) : Option State := roots.foldlM State.form s

/-- The device with nothing on it, to ask whether a GANG launch can ever be formed (R263). -/
def State.emptied (s : State) : State :=
  { s with threads := s.threads.filter fun e => slotOf e.1 == 63, saved := [], cores := [], clusters := [],
           work := { s.work with launches := [], formes := [] },
           tables := { s.tables with tenants := s.tables.tenants.map fun x => (x.1, { x.2 with recs := [] }) } }

/-- Place the taken launch of a class if there is one and it fits; a GANG launch that can never be formed is refused. -/
def State.placeClass (s : State) (k : Nat) : Option State :=
  match mget s.work.taken k with
  | none => none
  | some (ser, r) =>
    let l := newLaunch (nbits r 16 8) ser r
    let key := launchKey l.tenant ser
    let drop (s : State) : State := s.modWork fun w => { w with taken := mdel w.taken k }
    match s.rootTasks key l with
    | none => some ((drop s).refuse l 1)
    | some roots =>
      if l.gang && ((s.emptied.placeLaunch key l).bind fun e => e.formAll roots).isNone then some ((drop s).refuse l 3)
      else (s.placeLaunch key l).bind fun p =>
        if l.gang then (p.formAll roots).map fun p => drop (p.renumber key) else some (drop (roots.foldl State.enlist p))

/-- The copies that pre-empted launches' places in the spill area wait for are queued (R171, R177). -/
def State.readySpills (s : State) : State :=
  s.work.launches.foldl (fun s e => e.2.spBase.foldl (fun s b =>
    if e.2.cores.any fun c => clusterOf c == b.1 then s
    else ((s.spillPlace e.2 b.1).bind fun o => s.spillWaits e.2 b.1 o).getD s) s) s

/-- PLACEMENT (R263, R264): the taken launches in class order; when none can be placed, launches that were pre-empted get
back what is free. -/
def execPlacement (s : State) : Out :=
  if s.host.phase != .running then .next s
  else
    let s := s.vacateAll
    if s.work.paused then .next s
    else match (List.range 4).findSome? fun k => s.placeClass k with
      | some s => .next s
      | none => .next (if s.work.taken.isEmpty then s else s.readySpills).regainAll

/-! ### Tasks (R266, R303 to R306) -/

/-- The 64 bytes of a task record as `spawn` reads them, at their home or from a peer (R265, R203). -/
def State.taskBytes (s : State) (loc : Loc) : List Byte × State := match loc with
  | .peer w off => (lineBytes (Config.peerBytes w off s.sched.fresh) 0 64, s.tick)
  | .mem pa key _ => (s.homeBytes pa 64 key, s)
  | _ => ([], s)

/-- SPAWN (R303): a release at device scope; the task is appended or its counter armed in the same step. (Log 28, DEDUCED.) -/
def execSpawn (d a b : BitVec 7) (s : State) : Out :=
  let q := { reqDAB (.spawn d a b) d a b with commit := true, early := [.release 4] }
  begin q s fun s t th =>
    let addr := th.S a
    if addr.toNat % 64 ≠ 0 then raise s t q 0x04 addr
    else if 4095 < (th.S b).toNat then raise s t q 0x06 (th.S b)
    else match s.launchOf th with
    | none => raise s t q 0x06 addr
    | some l =>
      if 2 ^ 52 ≤ addr.toNat then raise s t q 0x06 addr
      else match s.resolve t th addr.toNat 64 0 with
      | .fault code s => raise s t q code addr
      | .wait c s => .next (hold s t c)
      | .ok loc s =>
        if match loc with | .mem pa _ _ => s.zeroing (pa / 64) | _ => false then .next (hold s t 4)
        else if s.badLoc loc 64 then raise s t q 0x07 addr
        else if match loc with | .peer w off => !s.peerAllows w off 64 0 | _ => false then raise s t q 0x06 addr
        else match s.unanswered loc with
        | some y => .next (hold y t 4)
        | none =>
          let got := s.taskBytes loc
          let s := got.2
          let r : Vec := BitVec.ofNat 512 (ofBytes got.1)
          if !l.taskOk r then raise s t q 0x06 addr
          else match s.departs t th 4 (some (taskHome r)) with
          | some k => .next (hold s t k)
          | none =>
            let home := taskHome r
            let task : Task := { launch := th.launch, addr := addr, record := r, root := false }
            let x := s.core home
            if th.S b = 0 then
              if 512 ≤ x.runList.length ∨ x.waitTasks ≠ [] then
                let s := s.refill home
                let x := s.core home
                let me : RunWait := .spawn t th.ctx.pc
                if x.runList.length < 512 && (x.waitTasks.head?.getD me == me) then
                  let s := (s.modCore home fun x => { x with runList := x.runList ++ [task], waitTasks := x.waitTasks.drop 1 }).refill home
                  .next (finish s t (th.setS d (BitVec.ofNat 64 (2 ^ 63 + home))) q .seq)
                else if x.waitTasks.contains me then .next (hold s t 9)
                else .next (hold (s.modCore home fun x => { x with waitTasks := x.waitTasks ++ [me] }) t 9)
              else .next (finish (s.enlist task) t (th.setS d (BitVec.ofNat 64 (2 ^ 63 + home))) q .seq)
            else match (List.range 256).find? fun i => (mget x.counters i).isNone with
              | none => .next (hold s t 9)
              | some i =>
                let w : Dword := BitVec.ofNat 64 ((th.S b).toNat * 2 ^ 52 + addr.toNat % 2 ^ 52 + th.tenant)
                let s := s.modCore home fun x => { x with counters := mput x.counters i w, armed := mput x.armed i task }
                .next (finish s t (th.setS d (BitVec.ofNat 64 (i * 2 ^ 9 + home))) q .seq)

/-- DEC (R304): a release at device scope; the decrement counts as sent. -/
def execDec (a : BitVec 7) (s : State) : Out :=
  let q := { reqA (.dec a) a with commit := true, early := [.release 4] }
  begin q s fun s t th =>
    match s.departs t th 4 (some (nbits (th.S a) 0 9)) with
    | some c => .next (hold s t c)
    | none => .next (finish (s.sendDec th.who th.launch th.tenant (coreOf t) (nbits (th.S a) 0 9) (nbits (th.S a) 9 8)) t th q .seq)

/-- DECREMENT (R266): a counter of the sender's tenant goes down; at 0 its task joins the run list. -/
def execDecrement (id : Nat) (s : State) : Out :=
  match s.flight.decs.find? fun p => p.id == id with
  | none => .next s
  | some p =>
    let s := (s.modFlight fun f => { f with decs := f.decs.filter fun y => y.id != id }).countRecvd p.core nobody p.launch 1
    let x := s.core p.core
    match mget x.counters p.k, mget x.armed p.k with
    | some w, some task =>
      let n := nbits w 52 12
      if nbits w 0 6 ≠ p.tenant ∨ n = 0 then .next s
      else if 1 < n then .next (s.modCore p.core fun x => { x with counters := mput x.counters p.k (setBits w 52 12 (n - 1)) })
      else if x.runList.length < 512 && x.waitTasks.isEmpty then
        .next ((s.enlist task).modCore p.core fun x => { x with counters := mdel x.counters p.k, armed := mdel x.armed p.k })
      else .next ((s.enlist task).modCore p.core fun x => { x with counters := mput x.counters p.k (setBits w 52 12 0) })
    | _, _ => .next s

/-- TDONE (R305): a release at device scope, then the thread ends as `halt` ends it, and its task's decrements are due. -/
def execTdone (s : State) : Out :=
  begin { req0 .tdone with commit := true } s fun s t th =>
    match th.endHeld with
    | some c => .next (hold s t c)
    | none =>
      match s.releaseHeld th 4 with
      | some c => .next (hold s t c)
      | none => .next ((s.issuedBy t th).endThread t true)

/-- TSELF (R306). -/
def execTself (d : BitVec 7) (s : State) : Out :=
  let q := reqD (.tself d) d
  begin q s fun s t th => .next (finish s t (th.setS d th.task) q .seq)

/-! ### The end of a launch (R28, R107, R279, R280) -/

/-- A core is idle for a launch (R28). -/
def State.idleOn (s : State) (key c : Nat) (x : Core) : Bool :=
  !(x.runList.any fun k => k.launch == key) && !(x.waitTasks.any fun w => match w with | .task k => k.launch == key | .spawn _ _ => false) &&
  !(x.migrants.any fun m => m.thread.launch == key) && !(x.copyQ.any fun m => m.launch == key) &&
  !(x.matQ.any fun m => m.launch == key) && !(x.sups.any fun u => u.2.run == some key) &&
  !(s.threads.any fun e => coreOf e.1 == c && e.2.launch == key && e.2.pl == 0)

/-- Every core reports idle, and nothing of the launch is pre-empted. -/
def State.idleFor (s : State) (key : Nat) : Bool :=
  (s.cores.all fun e => s.idleOn key e.1 e.2) && !(s.threads.any fun e => e.2.launch == key && e.2.pl == 0) &&
  !(s.saved.any fun e => e.2.launch == key)

def sumOf (m : Map Nat) : Nat := m.foldl (fun n e => n + e.2) 0

/-- The ordered entries of a launch that are pending, with the buffers that hold them (R105). -/
def State.pendingOf (s : State) (key : Nat) : List (Nat × Ord) :=
  s.dies.flatMap fun d => (d.2.ordered.filter fun e => e.launch == key).map fun e => (d.1, e)

/-- What the launch unit frees at launch end: armed counters, routing batches, barriers, rings and event counters, and those pending
ordered entries whose records find room; the others are discarded as records are written (R72, R107, R248, R258, R274, R279, R328).
A record names the address of the entry's first contribution (log 95, DESIGN CHOICE). -/
def State.freeOf (s : State) (key : Nat) (l : Launch) : State :=
  let posted := (s.pendingOf key).take (match s.tenant? l.tenant with | some x => 16 - x.waiting.length | none => 2 ^ 20)
  let s := posted.foldl (fun s e => s.postFault l.tenant
    { kind := 0x11, die := 0xFF, status := 0, p0 := BitVec.ofNat 64 e.2.va,
      p1 := BitVec.ofNat 64 (e.2.slices.length + l.lser % 2 ^ 16 * 2 ^ 48), launch := key }) s
  let mine (w : Dword) : Bool := nbits w 56 6 == l.tenant && nbits w 40 16 == l.lser % 2 ^ 16 && w.getLsbD 63
  let freed (w : Dword) : Dword := if mine w then setBits w 63 1 0 else w
  let left (k : Nat) (e : Ord) : Bool := !posted.any fun p => p.1 == k && p.2 == e
  let die (k : Nat) (d : Die) : Die := { d with ordered := d.ordered.filter (left k), barriers := d.barriers.map fun e => (e.1, freed e.2) }
  let core (x : Core) : Core :=
    let gone := (x.armed.filter fun e => e.2.launch == key).map Prod.fst
    { x with armed := x.armed.filter fun e => e.2.launch != key, counters := x.counters.filter fun e => !gone.contains e.1,
             rings := x.rings.filter fun e => e.2.launch != key, evs := x.evs.filter fun e => e.2.owner != some key }
  let s := { s with dies := s.dies.map fun (e : Nat × Die) => (e.1, die e.1 e.2), cores := s.cores.map fun (e : Nat × Core) => (e.1, core e.2) }
  let s := s.modTables fun x => { x with dbars := x.dbars.map fun e => (e.1, freed e.2) }
  s.modWork fun w => { w with batches := w.batches.filter fun b => b.2.launch != key }

/-- Every margin record of a launch is applied (R184), and every core's dirty log is merged (R181). -/
def State.settle (s : State) (key : Nat) : State :=
  let run (o : Out) (s : State) : State := match o with | .next s => s | _ => s
  let s := (s.flight.margins.filter fun m => m.launch == key).foldl (fun s m => run (execMarginRecord m.id s) s) s
  (s.cores.map Prod.fst).foldl (fun s c => run (execDirtyLogMerge c s) s) s

/-- The launch is gone: its positions are withdrawn and its completion record is posted (R16, R280). -/
def State.complete (s : State) (key : Nat) (l : Launch) : State :=
  let s := l.cores.foldl (fun s c => s.vacate key c) s
  let s := s.modWork fun w => { w with launches := mdel w.launches key }
  let s := l.cores.foldl (fun s c => s.dropSup c l.tenant) s
  s.sendCompletion l.tenant (completion l (s.lostOf l.tenant) l.status l.msgs l.tend)

/-- The slots in which threads of a launch stand. -/
def State.slotsOf (s : State) (key : Nat) : List Nat := (s.threads.filter fun e => e.2.launch == key && e.2.pl == 0).map Prod.fst

/-- Everything of a launch that is at work leaves the device: its stores are performed, its threads, live and pre-empted, its tasks,
its engine commands and its supervisor runs are gone, and their record numbers are free (R366; log 90, DEDUCED). -/
def State.strip (s : State) (key : Nat) (l : Launch) : State :=
  let run (o : Out) (s : State) : State := match o with | .next s => s | _ => s
  let ts := s.slotsOf key
  let s := (s.flight.stores.filter fun x => x.launch == key).foldl (fun s x => run (execStoreAcknowledgement x.id s) s) s
  let gone := ((s.threads.map Prod.snd ++ s.saved.map Prod.snd).filter fun th => th.launch == key && th.pl == 0).map Thread.recno
  let ids := (s.cores.flatMap fun e => (e.2.matQ.filter fun m => m.launch == key).map fun m => (e.1, m.id))
  let core (c : Nat) (x : Core) : Core := { x with
    runList := x.runList.filter fun k => k.launch != key,
    waitTasks := x.waitTasks.filter fun w => match w with
      | .task k => k.launch != key
      | .spawn t _ => !ts.contains t,
    migrants := x.migrants.filter fun m => m.thread.launch != key,
    copyQ := x.copyQ.filter fun m => m.launch != key, matQ := x.matQ.filter fun m => m.launch != key,
    sups := x.sups.map fun e => (e.1, { e.2 with
      queue := e.2.queue.filter fun q => q.kind == 1 || !ts.contains (c * 64 + q.slot),
      run := if e.2.run = some key then none else e.2.run, resumed := e.2.resumed.filter fun k => !ts.contains (c * 64 + k) }) }
  let ops := ((s.threads ++ s.saved).filter fun e => e.2.launch == key && e.2.pl == 0).map (fun e => e.2.who) ++
    s.cores.flatMap fun e => (e.2.copyQ.filter fun m => m.launch == key).map fun m => 2 ^ 40 + cmdTag m.id
  let cluster (x : Cluster) : Cluster := { x with drains := x.drains.filter fun d => !ids.contains (d.core, d.id) }
  let die (x : Die) : Die := { x with migQ := x.migQ.map fun m => { m with waiters := m.waiters.filter fun t => !ts.contains t } }
  let s := { s with
    threads := s.threads.filter fun e => !ts.contains e.1, saved := s.saved.filter fun e => e.2.launch != key,
    cores := s.cores.map fun (e : Nat × Core) => (e.1, core e.1 e.2), clusters := s.clusters.map fun (e : Nat × Cluster) => (e.1, cluster e.2),
    dies := s.dies.map fun (e : Nat × Die) => (e.1, die e.2),
    flight := { s.flight with returns := s.flight.returns.filter fun r => r.thread.launch != key } }
  let s := s.modWork fun w => { w with formes := w.formes.filter fun f => f.2.launch != key }
  let s := ops.foldl State.forgetOp s
  s.modTenant l.tenant fun x => { x with recs := x.recs.filter fun r => !gone.contains r }

/-- Records of the launch still wait for a place in a queue (R258). -/
def State.notesWait (s : State) (key tenant : Nat) : Bool := match s.tenant? tenant with
  | some x => x.waiting.any fun n => n.launch == key
  | none => false

/-- The end of a launch waits: a record of its is not written yet, or not even posted (R258). -/
def State.endWaits (s : State) (key tenant : Nat) : Bool :=
  s.notesWait key tenant || !(s.pendingOf key).isEmpty || s.regions.any fun e => match e.2.found with
    | some (_, _, _, launch) => launch == key
    | none => false

/-- A launch ends with a status: its margins and dirty pages are settled, what it holds is freed, and it completes once its last
records are written (R184, R181, R258, R279, R280). -/
def State.finishLaunch (s : State) (key status msgs : Nat) : State :=
  let s := s.timed
  let s := (s.modLaunch key fun l => { l with ended := true, status := status, msgs := msgs, tend := s.sched.time }).settle key
  match s.launch? key with
  | none => s
  | some l =>
    let s := s.freeOf key l
    if s.endWaits key l.tenant then s else s.complete key l

/-- Every resident launch of a tenant ends with STATUS 5 (R366; log 90, DEDUCED). -/
def State.abortAll (s : State) (tenant : Nat) : State :=
  (s.work.launches.filter fun e => e.2.tenant == tenant && !e.2.ended).foldl (fun s e =>
    (s.strip e.1 e.2).finishLaunch e.1 5 (sumOf e.2.sent)) s

/-- TERMINATION_SWEEP (R28): the second of two sweeps that agree ends the launch; the completion record follows when its
last records are written (R258, R280). -/
def execTerminationSweep (launch : Nat) (s : State) : Out :=
  match s.launch? launch with
  | none => .next s
  | some l =>
    if l.ended then
      let s := s.freeOf launch l
      .next (if s.endWaits launch l.tenant then s else s.complete launch l)
    else
      let sums := (sumOf l.sent, sumOf l.recvd)
      if !s.idleFor launch || sums.1 != sums.2 then .next (s.modLaunch launch fun l => { l with prev := none })
      else if l.prev ≠ some sums then .next (s.modLaunch launch fun l => { l with prev := some sums })
      else .next (s.finishLaunch launch 0 sums.1)

end Sys2Proof.Machine
end

