-- ==== Sys2Proof/Machine/Preempt.lean ====
section
/-! DEFINITION. Sys2Proof/Machine/Preempt.lean: pre-emption and restore of formes (R25, R371 to R374). -/

namespace Sys2Proof.Machine

/-- The slots in which a forme's threads stand: where its guests run, and its home slots. Of a thread between cores the home alone
stands: its context waits where it is until the forme is back (log 20, DEDUCED). -/
def State.standing (s : State) (f : Forme) : List (Nat × Thread) :=
  (f.tids.filter fun h => !f.ended.contains h).flatMap fun h =>
    match s.thread? h with
    | none => []
    | some th => match (th.away.filter (· != h)).bind fun g => (s.thread? g).map fun y => (g, y) with
      | some e => [e, (h, th)]
      | none => [(h, th)]

/-- The thread stands at a word for something for which no pre-emption waits (R371): for the data of a load that have not come, whose
uncommitted instructions are discarded, at an instruction that waits, or because it faulted, was stopped, yields or runs a handler. -/
def State.stands (s : State) (th : Thread) : Bool :=
  th.upcall.isSome || th.stopped || th.ctx.hnd || (match th.wait with | .yield _ => true | _ => false) ||
  match th.cause with
  | some 4 => 0 < th.loads
  | some 5 => th.held.isSome || 0 < th.stores || (s.releaseHeld th 5).isSome || s.rowHeld (coreOf th.ranIn)
  | some 10 => th.ctx.armed != 0 || !th.coming.isEmpty
  | some c => 6 ≤ c && c ≤ 14
  | none => false

/-- A forme rank whose leader and members share words has executed them all, or waits at one (R25, R371; log 107, DEDUCED). -/
def State.inStep (s : State) (th : Thread) : Bool :=
  !(th.attached || !(s.attachedTo th).isEmpty) || (th.ribbon.isEmpty && th.sent == 0) || s.stands th

/-- Pre-emption need not wait for the thread (R371), and the release of R202 has nothing to wait for. -/
def State.mayTake (s : State) (th : Thread) : Bool :=
  (!th.ctx.mskd || th.inUpcall) && !th.reply && !th.faultFirst && th.stOut == 0 && (s.releaseHeld th 4).isNone && s.inStep th &&
  (match th.held with | some h => !h.applied | none => true)

/-- The formes that are pre-empted and restored together: the root tasks of a GANG launch, any other forme alone (R14, R25). -/
def State.unit (s : State) (id : Nat) (f : Forme) : List (Nat × Forme) :=
  match s.launch? f.launch with
  | some l => if l.gang && f.task.root then s.work.formes.filter fun e => e.2.launch == f.launch && e.2.task.root else [(id, f)]
  | none => [(id, f)]

/-- Pre-emption of a unit is due: its launch must give back a core on which one of its threads stands (R263, R371). -/
def State.due (s : State) (fs : List (Nat × Forme)) : Bool :=
  fs.any fun e => match s.launch? e.2.launch with
    | some l => (s.standing e.2).any fun x => s.wanted l (coreOf x.1)
    | none => false

/-- A leader issues nothing when pre-emption is due (R25), unless a masked section of the unit defers it; a word that its members
already have is executed first. -/
def State.yields (s : State) (th : Thread) : Bool :=
  th.forme != 0 && th.midx == 0 && th.sent == 0 && !(s.attachedTo th).isEmpty && !th.reply &&
  match mget s.work.formes th.forme with
  | none => false
  | some f =>
    let fs := s.unit th.forme f
    s.due fs && fs.all fun e => (s.standing e.2).all fun x => !x.2.ctx.mskd || x.2.inUpcall

/-- The thread as it is saved: uncommitted instructions are discarded, a held write is withdrawn (R229, R371). -/
def Thread.saved (th : Thread) (t : Nat) : Thread :=
  let y := match th.rob.findSome? fun e => e.load.map Load.snap with
    | some x => th.discard x
    | none => th
  let y := { y with held := none, cause := none, claim := none, bar := none, away := if th.guest then some t else th.away }
  { y.receiveAll y.coming.length with ctx := { (y.receiveAll y.coming.length).ctx with frame := [] } }

/-- A guest with what its thread has left at home: the shadow bank and the handler's registers (R299, R373). -/
def State.whole (s : State) (y : Thread) : Thread :=
  match if y.guest then s.half y else none with
  | some h => { y with ctx := { y.ctx with shadow := h.ctx.shadow, msgv := h.ctx.msgv, msgpc := h.ctx.msgpc } }
  | none => y

/-- A thread leaves its slot for its save record, and its positions are free (R372). Of a thread that is away the guest, which goes
first, writes the record for both. -/
def State.takeOut (s : State) (t : Nat) (th : Thread) : State :=
  let c := coreOf t
  let y := th.saved t
  let s := s.count t th 0x04 th.rob.length
  let s := (th.coming.filter fun e => y.stored e.1).foldl (fun s e => s.writeRecordReg y e.1) s
  let s := if y.isAway && (s.half y).isSome then s else s.writeRecord t (s.whole y)
  let s := s.modCore c fun x => x.release (x.positionsOf (slotOf t))
  let s := s.modSup c th.tenant fun u => u.forget (slotOf t)
  let drop (m : Mig) : Mig := { m with waiters := m.waiters.filter (· != t) }
  let s := { s with dies := s.dies.map fun (e : Nat × Die) => (e.1, { e.2 with migQ := e.2.migQ.map drop }) }
  { s with threads := mdel s.threads t, saved := mput s.saved y.key y }

/-- PRE_EMPTION (R25, R371, R372): the forme's launch must give back a core on which one of its threads stands; the unit goes
whole. -/
def execPreEmption (forme : Nat) (s : State) : Out :=
  match mget s.work.formes forme with
  | none => .next s
  | some f =>
    let fs := s.unit forme f
    if (fs.any fun e => e.2.preempted) || !s.due fs || !(fs.all fun e => (s.standing e.2).all fun x => s.mayTake x.2) then .next s
    else match s.recordsWait (fs.flatMap fun e => (s.standing e.2).map Prod.snd) with
    | some s => .next s
    | none => .next (fs.foldl (fun s e =>
      ((s.standing e.2).foldl (fun s x => s.takeOut x.1 x.2) s).modWork fun w =>
        { w with formes := mput w.formes e.1 { e.2 with preempted := true } }) s)

/-! ### Restore (R374) -/

/-- An upcall that was not resumed is delivered again (R374). -/
def State.redeliver (s : State) (t : Nat) (y : Thread) : State := match y.upcall with
  | some u => if u.resume then s else s.modSup (coreOf t) y.tenant fun x =>
      { x with queue := x.queue ++ [{ slot := slotOf t, kind := u.kind, code := u.code }] }
  | none => s

/-- The thread as it comes back (R374): its watchdog restarts, and an upcall that was not resumed is delivered again. -/
def State.bringBack (s : State) (t : Nat) (th : Thread) : State :=
  let c := coreOf t
  let y := { th with wdog := (s.core c).wdog, idle := 0, away := if th.guest then none else th.away }
  (((({ s with saved := mdel s.saved th.key }).setThread t y).mendLines (mailLine t 0) 8).acquire t y 4).redeliver t y

/-- A thread takes a slot with its window at `base` and `n` positions of its launch, if all are free. -/
def State.seat (s : State) (t base n : Nat) (th : Thread) : Option State :=
  let c := coreOf t
  let w := th.limit
  if s.slotFree c (slotOf t) th.forme && s.holds c th.launch && n ≤ (s.unowned c th.launch).length &&
      (s.windows c).all (fun r => base + w ≤ r.1 || r.1 + r.2 ≤ base) then
    some ((s.bringBack t { th with base := base }).takePositions c th.launch (slotOf t) n)
  else none

/-- The pre-empted home contexts of a forme, with their keys, in order of member and rank. -/
def State.stored (s : State) (id : Nat) (guest : Bool) : List Thread :=
  (s.saved.filter fun e => e.2.forme == id && e.2.guest == guest).map Prod.snd

/-- A forme's home threads back in their own slots. -/
def State.seatSame (s : State) (pos : Nat) (ths : List Thread) : Option State :=
  ths.foldlM (fun s th => s.seat th.home th.base pos th) s

/-- The threads of a forme get other home slots, all at once: their entries leave the old cores' files, and the commands of their engine
contexts, their peer writes and their contexts between cores follow them (R77, R188, R374). -/
def State.rehomeAll (s : State) (id : Nat) (new : Nat → Nat) : State :=
  let s := (s.saved.filter fun e => e.2.forme == id && !e.2.guest && new e.2.home != e.2.home).foldl (fun s e => s.evictAll e.1) s
  let moved (y : Thread) : Thread := if y.forme = id
    then { y with home := new y.home, away := if y.away = some y.home then some (new y.home) else y.away } else y
  let up (x : Core) : Core := { x with
    copyQ := x.copyQ.map fun m => if ofForme id m.who then { m with home := new m.home } else m,
    matQ := x.matQ.map fun m => if ofForme id m.who then { m with home := new m.home } else m,
    migrants := x.migrants.map fun m => if m.thread.forme = id then { m with home := new m.home, thread := moved m.thread } else m }
  { s with cores := s.cores.map fun (e : Nat × Core) => (e.1, up e.2),
           saved := s.saved.map fun e => (e.1, moved e.2),
           flight := { s.flight with
             returns := s.flight.returns.map fun r => { r with thread := moved r.thread },
             peers := s.flight.peers.map fun p => if ofForme id p.who && p.tid < nobody then { p with tid := new p.tid } else p } }

/-- A forme's threads in the slots of another span of its launch (R267, R374), each with its window at the base that it was given at
its creation (R59, R71). -/
def State.seatElsewhere (s : State) (id pos : Nat) (f : Forme) (c : Nat) : Option State :=
  let plan := (List.range f.f).flatMap fun m => ((s.freeSlots (c + m) id).take f.t).map fun x => (c + m) * 64 + x
  let pairs := f.tids.zip plan
  let new (h : Nat) : Nat := match pairs.find? fun p => p.1 == h with | some p => p.2 | none => h
  let s := s.modWork fun y => { y with formes := mput y.formes id { f with tids := f.tids.map new, ended := f.ended.map new } }
  let s := s.rehomeAll id new
  pairs.foldlM (fun s p =>
    match s.saved.find? fun e => e.2.home == p.2 && e.2.forme == id && !e.2.guest with
    | some e => s.seat p.2 e.2.base pos e.2
    | none => some s) s

/-- A core can take one member of a forme that comes back (R267, R374). -/
def State.memberReturns (s : State) (key id t pos c : Nat) : Bool :=
  s.holds c key && t ≤ (s.freeSlots c id).length && t * pos ≤ (s.unowned c key).length

/-- A forme comes back whole: onto the same slots if they are free, else onto the first span where its windows fit (R25, R374). -/
def State.seatForme (s : State) (l : Launch) (id : Nat) (f : Forme) : Option State :=
  match s.seatSame l.pos (s.stored id false) with
  | some s => some s
  | none => (spans f.f (taskHome f.task.record) (s.memberReturns f.launch id f.t l.pos)).findSome? fun c => s.seatElsewhere id l.pos f c

/-- Where a pre-empted guest can come back on its core, slot and base: where it was, or in the first free place (R374). -/
def State.guestSeats (s : State) (th : Thread) : List (Nat × Nat) :=
  let c := coreOf th.ranIn
  (th.ranIn, th.base) :: match s.freeSlots c th.forme, lowestBase (s.windows c) th.limit with
    | k :: _, some b => [(c * 64 + k, b)]
    | _, _ => []

/-- A pre-empted guest in its home slot, as if `migret` had run; an upcall and a masked section
that it is in, and a repeat frame, stay its own (R371, R374). -/
def Thread.backHome (h y : Thread) (wdog : Nat) : Thread :=
  let z := h.comeHome y wdog
  let trap (x : Ctx) : Ctx := if y.upcall.isSome then { x with trapc := y.ctx.trapc, trapv := y.ctx.trapv, trappc := y.ctx.trappc } else x
  let masked (x : Ctx) : Ctx := if y.ctx.mskd then { x with mskd := true, rem := y.ctx.rem } else x
  { z with upcall := y.upcall, uresm := y.uresm, ctx := masked (trap { z.ctx with rpts := y.ctx.rpts }) }

/-- A pre-empted guest comes back as a guest on its core if its launch holds positions there, else at home (R374); none while there is no
room for it. -/
def State.seatGuest (s : State) (th : Thread) : Option State :=
  if s.holds (coreOf th.ranIn) th.launch then
    (s.guestSeats th).findSome? fun p =>
      let s := if p = (th.ranIn, th.base) then s else s.evictAll th.key
      (s.seat p.1 p.2 1 ((mget s.saved th.key).getD th)).map fun s => s.modThread th.home fun h => { h with away := some p.1 }
  else
    let s := s.evictAll th.key
    let th := (mget s.saved th.key).getD th
    let s := { s with saved := mdel s.saved th.key }
    match s.thread? th.home with
    | some h =>
      let y := h.backHome th (s.core (coreOf th.home)).wdog
      some ((((s.setThread th.home y).redeliver th.home y).acquire th.home y 4).writePresence y)
    | none => some s

/-- RESTORE (R25, R374): the unit comes back whole, and with it its guests, once what its old cores have seen is performed (R190). -/
def execRestore (forme : Nat) (s : State) : Out :=
  match mget s.work.formes forme with
  | none => .next s
  | some f =>
    match s.launch? f.launch with
    | none => .next s
    | some l =>
      if !f.preempted || l.cores.any (fun c => s.wanted l c) then .next s
      else
        let fs := s.unit forme f
        match s.recordsWait ((s.saved.filter fun x => fs.any fun e => x.2.forme == e.1).map Prod.snd) with
        | some s => .next s
        | none =>
        let still := fs.any fun e => s.saved.any fun x => x.2.forme == e.1 && !s.steady (coreOf x.2.ranIn)
        match if still then none else fs.foldlM (fun s e => s.seatForme l e.1 e.2) s with
        | none => .next s
        | some y => match fs.foldlM (fun s e => (s.stored e.1 true).foldlM State.seatGuest s) y with
        | none => .next s
        | some s =>
          .next (fs.foldl (fun s e => s.modWork fun w => { w with formes := mmod w.formes e.1 fun f => { f with preempted := false } }) s)

end Sys2Proof.Machine
end

