-- ==== Sys2Proof/Machine/System.lean ====
section
/-! DEFINITION. Sys2Proof/Machine/System.lean: the machine level (R375 to R381): page tables, keys, row holds, positions,
stopped threads, breakpoints and the dump. -/

namespace Sys2Proof.Machine

/-- The word of a SYSP function (major 0x3F). -/
def syspWord (d a b : BitVec 7) (fn : Nat) : Nat := 0xFC000000 + d.toNat * 2 ^ 19 + a.toNat * 2 ^ 12 + b.toNat * 2 ^ 5 + fn

/-- Requirements of a SYSP function: machine level, and every earlier instruction committed (R56, R229). -/
def sysp (word : Nat) (regs reads writes : List Nat) : Req :=
  { word := word, level := 2, regs := regs, reads := reads, writes := writes, commit := true }

/-! ### PTSET (R377, R310 to R313) -/

/-- Physical addresses that a mapping of a tenant may name: populated, outside the dump region (R158, R388). -/
def State.populated (s : State) (tenant lo n : Nat) : Bool :=
  let hi := lo + n - 1
  (decide (hi < 0x005F80000000)) || (isLpddr lo && isLpddr hi) ||
  (match peerOf lo, peerOf hi with
   | some w, some v => w == v && (match mget s.host.windows w with | some x => x.tenant == tenant | none => false)
   | _, _ => false)

/-- The bytes that a valid entry names: a page, a block table, or the next level's table. -/
def entrySpan (level : Nat) (e : Dword) : Nat :=
  if pteLeaf e then (if pteBlock e then 2 ^ 18 else leafSize level e) else 4096

/-- The form of a `ptset` is refused (R377, R312). Reserved bits count in an entry with V set only (log 102, DESIGN CHOICE). -/
def State.ptForm (s : State) (pa level : Nat) (group : Bool) (e : Dword) : Bool :=
  let old := mgetD s.tables.ptes pa 0
  let groupLeaf := pteV e && pteLeaf e && pteGrp e && (level == 2 || level == 3)
  (group && pa % 128 != 0) || (!group && pteGrp e) || (group && pteV e && !groupLeaf) || (!group && pteGrp old && pteV old) ||
  (pteV e && !pteWf level (setBits e 59 1 0))

/-- The status of a `ptset` (R377). -/
def State.ptStatus (s : State) (tenant pa level : Nat) (group : Bool) (e : Dword) : Nat :=
  if s.ptForm pa level group e then 1
  else if !pteV e then 0
  else if pteLeaf e && !pteBlock e && !(match mget s.tables.keys (pteKey e) with | some k => k.tenant == tenant | none => false) then 2
  else if !s.populated tenant (ptePfn e) (entrySpan level e) then 3
  else 0

/-- The entry as it is written: D is the merges' and stays with a leaf (R310, R313). (Log 60, DEDUCED.) -/
def ptNew (old e : Dword) : Dword := setBits e 59 1 (if pteV e && pteLeaf e && pteD old then 1 else 0)

/-- PTSET (R377). -/
def execPtset (d a b : BitVec 7) (s : State) : Out :=
  let q := sysp (syspWord d a b 0) [d.toNat, a.toNat, b.toNat] [a.toNat, b.toNat] [d.toNat]
  begin q s fun s t th =>
    let v := th.S a
    let e := th.S b
    let pa := nbits v 3 43 * 8
    let tenant := nbits v 48 6
    let level := nbits v 56 2
    let group := v.getLsbD 62
    if nbits v 0 3 ≠ 0 ∨ nbits v 46 2 ≠ 0 ∨ nbits v 54 2 ≠ 0 ∨ nbits v 58 4 ≠ 0 then raise s t q 0x06 v
    else
      let st := s.ptStatus tenant pa level group e
      if st ≠ 0 then .next (finish s t (th.setS d (BitVec.ofNat 64 st)) q .seq)
      else
        let as := (List.range (if group then 16 else 1)).map fun i => pa + 8 * i
        let write (m : Map Dword) (k : Nat) : Map Dword := mput m k (ptNew (mgetD m k 0) e)
        let s := s.modTables fun x => { x with ptes := as.foldl write x.ptes }
        let zero := v.getLsbD 63 && pteV e && pteLeaf e && !pteBlock e
        let z := if zero then s.power.zeroing ++ [(ptePfn e / 64, leafSize level e / 64, pteKey e)] else s.power.zeroing
        .next (finish { s with power := { s.power with zeroing := z } } t (th.setS d 0) q .seq)

/-! ### KEYLD (R378) -/

/-- KEYLD (R378): in every case V(b) is zero afterwards. -/
def execKeyld (d a b : BitVec 7) (s : State) : Out :=
  let q := sysp (syspWord d a b 1) [d.toNat, a.toNat, b.toNat] [a.toNat, b.toNat] [d.toNat, b.toNat]
  begin q s fun s t th =>
    let v := th.S a
    let i := nbits v 0 10
    let tenant := nbits v 16 6
    let clear := v.getLsbD 63
    if nbits v 10 6 ≠ 0 ∨ nbits v 22 41 ≠ 0 then raise s t q 0x06 v
    else
      let st := if (mget s.tables.keys i).isSome && !clear then 1 else if i = 0 ∧ tenant ≠ 0 then 2 else 0
      let s := if st ≠ 0 then s
               else s.modTables fun x => { x with keys := if clear then mdel x.keys i else mput x.keys i { data := th.V b, tenant := tenant } }
      .next (finish s t ((th.setS d (BitVec.ofNat 64 st)).setV b 0) q .seq)

/-! ### SYSRET and DUMP (R375, R380, R381) -/

/-- SYSRET (R380): to MEPC, and the machine run ends; outside one it is illegal. -/
def execSysret (s : State) : Out :=
  let q := { sysp (syspWord 0 0 0 2) [] [] [] with flow := true }
  begin q s fun s t th =>
    let x := s.core (coreOf t)
    if !x.mrun then raise s t q 0x01 (BitVec.ofNat 64 q.word)
    else .next ((finish s t th q (.to (wordAligned x.mepc))).modCore (coreOf t) fun y => { y with mrun := false })

/-- DUMP (R381): a fatal error. -/
def execDump (s : State) : Out :=
  let q := sysp (syspWord 0 0 0 3) [] [] []
  begin q s fun s t th => .next (fatalError (finish s t th q .seq) (coreOf t) (slotOf t) (Config.dumpCause 0).toNat)

/-- FATAL_ERROR: an uncorrectable error in a system table or firmware memory (R381). -/
def execFatalError (core slot cause : Nat) (s : State) : Out :=
  .next (if coreOk core && s.host.phase == .running then fatalError s core slot cause else s)

/-! ### QSCE (R379) -/

/-- Copy or fabric requests of a row's cores that are in flight (R379). -/
def State.rowBusy (s : State) (r : Nat) : Bool :=
  (s.threads.any fun e => rowOf (coreOf e.1) == r && e.2.rob.any fun x => match x.load with
    | some l => x.store.isSome || (!l.landed && (match l.loc with | .mem _ _ _ => true | .peer w _ => !s.mute w | _ => false))
    | none => x.store.isSome) ||
  (s.flight.walks.any fun w => w.waiters.any fun t => rowOf (if t < 32768 then coreOf t else t - 32768) == r) ||
  (s.flight.peers.any fun x => rowOf x.core == r && x.tid != nobody && !s.mute x.window) ||
  ((s.flight.msgs ++ s.flight.deposits ++ s.flight.decs).any fun p => rowOf p.srcCore == r && rowOf p.core != r) ||
  (s.flight.returns.any fun x => rowOf x.core == r) ||
  (s.flight.stores.any fun x => rowOf x.core == r) ||
  s.cores.any fun e => rowOf e.1 == r && ((e.2.copyQ.any fun m => m.started) || e.2.matQ.any fun m => m.drained)

/-- QSCE (R379): a hold of a row, and its thread waits until nothing of the row is in flight; or the hold is lifted. -/
def execQsce (d a : BitVec 7) (s : State) : Out :=
  let q := sysp (syspWord d a 0 4) [d.toNat, a.toNat] [a.toNat] [d.toNat]
  begin q s fun s t th =>
    let v := th.S a
    let r := nbits v 0 2 * 8 + nbits v 4 3
    if nbits v 2 2 ≠ 0 ∨ nbits v 7 1 ≠ 0 ∨ nbits v 9 55 ≠ 0 then raise s t q 0x06 v
    else if v.getLsbD 8 then .next (finish (s.modRow r fun x => { x with held := false }) t (th.setS d 0) q .seq)
    else
      let s := s.modRow r fun x => { x with held := true }
      if s.rowBusy r then .next (hold s t 15) else .next (finish s t (th.setS d 0) q .seq)

/-! ### IMPW, TSTOP, TRESUME (R380) -/

/-- Live threads of a core keep at least one and at most eight positions (R18). -/
def State.positionsLegal (s : State) (c : Nat) : Bool :=
  s.threads.all fun e => coreOf e.1 != c || e.2.pl != 0 || within 1 8 (((s.core c).positionsOf (slotOf e.1)).length)

/-- IMPW (R380): a write that would break R18 leaves the position as it is (log 22, DESIGN CHOICE); one that would break R19 has PB cleared
(R326). -/
def execImpw (a b : BitVec 7) (s : State) : Out :=
  let q := sysp (syspWord 0 a b 5) [a.toNat, b.toNat] [a.toNat, b.toNat] []
  begin q s fun s t th =>
    let c := nbits (th.S a) 0 9
    let p := nbits (th.S a) 16 6
    if nbits (th.S a) 9 7 ≠ 0 ∨ nbits (th.S a) 22 42 ≠ 0 then raise s t q 0x06 (th.S a)
    else if nbits (th.S b) 16 48 ≠ 0 then raise s t q 0x06 (th.S b)
    else
      let old := (s.core c).impView p
      let s1 := s.modCore c fun x => x.setImp p (bits (th.S b) 0 16)
      let s2 := if s1.positionsLegal c then s1 else s
      .next (finish ((s2.keepPosition c (impSlot old)).keepPosition c (nbits (th.S b) 0 6)) t th q .seq)

/-- The slot where the thread of a named slot runs, if there is one (R380). -/
def State.runsFor (s : State) (c slot : Nat) : Option Nat :=
  if slot = 63 then none else match mget s.threads (c * 64 + slot) with
    | some th => some (th.away.getD (c * 64 + slot))
    | none => none

/-- Change a thread that is between two cores (R380). -/
def State.modMoving (s : State) (home : Nat) (f : Thread → Thread) : State :=
  let up (m : Migrant) : Migrant := if m.home = home then { m with thread := f m.thread } else m
  let back (r : Return) : Return := if r.thread.home = home then { r with thread := f r.thread } else r
  { s with cores := s.cores.map fun (e : Nat × Core) => (e.1, { e.2 with migrants := e.2.migrants.map up }),
           flight := { s.flight with returns := s.flight.returns.map back } }

/-- Change the thread that stands in a slot, or the thread of a home slot that is between two cores (R380). -/
def State.modRunning (s : State) (k : Nat) (f : Thread → Thread) : State :=
  match s.thread? k with
  | some th => if th.away = some k then s.modMoving k f else s.modThread k f
  | none => s

/-- The positions of a thread, at home and where it runs, are stopped or go on. -/
def State.stopSlots (s : State) (t : Nat) (on : Bool) : State :=
  match s.thread? t with
  | none => s
  | some th =>
    let s := s.modCore (coreOf t) fun x => x.setStopped (slotOf t) on
    if th.home = t then s else s.modCore (coreOf th.home) fun x => x.setStopped (slotOf th.home) on

/-- The thread stops at its boundary; its uncommitted instructions are discarded (R380, R229). The boundary of one that is held for a reply
comes after that reply: its instruction is completed first (R209, R211, R223, R331; log 139, DEDUCED). -/
def Thread.stop (th : Thread) (ending : Bool) : Thread :=
  if th.reply then { th with stopped := true, ending := th.ending || ending } else
  let y := match th.rob.findSome? fun e => e.load.map Load.snap with
    | some x => th.discard x
    | none => th
  { y with stopped := true, ending := y.ending || ending, cause := none, bar := none }

/-- A thread that is to end does so once its stores are acknowledged (R111, R365, R380). -/
def State.endNow (s : State) (t : Nat) : State :=
  match s.thread? t with
  | some th => if th.ending && th.stOut == 0 && th.rob.isEmpty && !th.reply then s.endThread t false else s
  | none => s

/-- TSTOP (R380): what the thread has not committed is discarded, and counts as that (R351). -/
def execTstop (a b : BitVec 7) (s : State) : Out :=
  let q := sysp (syspWord 0 a b 6) [a.toNat, b.toNat] [a.toNat, b.toNat] []
  begin q s fun s t th =>
    let v := th.S a
    if nbits v 9 7 ≠ 0 ∨ nbits v 22 42 ≠ 0 then raise s t q 0x06 v
    else if nbits (th.S b) 1 63 ≠ 0 then raise s t q 0x06 (th.S b)
    else
      let s := finish s t th q .seq
      match s.runsFor (nbits v 0 9) (nbits v 16 6) with
      | none => .next s
      | some k =>
        let s := match s.thread? k with | some y => s.count k y 0x04 y.rob.length | none => s
        .next (((s.stopSlots k true).modRunning k fun y => y.stop ((th.S b).getLsbD 0)).endNow k)

/-- TRESUME (R380, R376): the first instruction after it is not checked against breakpoints. -/
def execTresume (a : BitVec 7) (s : State) : Out :=
  let q := sysp (syspWord 0 a 0 7) [a.toNat] [a.toNat] []
  begin q s fun s t th =>
    let v := th.S a
    if nbits v 9 7 ≠ 0 ∨ nbits v 22 42 ≠ 0 then raise s t q 0x06 v
    else
      let s := finish s t th q .seq
      match s.runsFor (nbits v 0 9) (nbits v 16 6) with
      | none => .next s
      | some k =>
        .next ((s.stopSlots k false).modRunning k fun y => { y with stopped := y.ending, bkSkip := true, wdog := (s.core (coreOf k)).wdog, idle := 0 })

/-! ### Machine entries and breakpoints (R375, R376) -/

/-- A pre-empted thread that has faulted is to end: it does so when it is back (R366, R374). -/
def State.endSaved (s : State) (who : Nat) : State :=
  { s with saved := s.saved.map fun (e : Nat × Thread) =>
      if e.2.who = who ∧ (e.2.guest ∨ e.2.away = none) then (e.1, { e.2 with ending := true }) else e }

/-- What firmware makes of a machine entry (R366; log 90, DEDUCED): a fault of a user thread ends that thread, a fault of a
supervisor slot ends every resident launch of its tenant with STATUS 5; a breakpoint is the debugger's. The thread may have been
pre-empted meanwhile, or stand in another slot. -/
def State.firmware (s : State) (w : Dword) (who : Nat) : State :=
  if w.getLsbD 23 then s
  else match s.threads.find? fun e => e.2.who == who && (e.2.guest || e.2.away.isNone) with
  | some (t, th) => if th.pl = 0 then (s.setThread t { th with ending := true }).endNow t else s.abortAll th.tenant
  | none => s.endSaved who

/-- MACHINE_ENTRY: the machine slot starts a run for the oldest entry (R375). (Log 49, DEDUCED.) -/
def execMachineEntry (core : Nat) (s : State) : Out :=
  let x := s.core core
  match x.mq with
  | [] => .next s
  | w :: rest =>
    if x.mrun || !coreOk core then .next s
    else match s.thread? (core * 64 + 63) with
      | none => .next s
      | some th =>
        let s := s.modCore core fun x => { x with mq := rest, mrun := true, mcause := w.1, mepc := th.ctx.pc }
        let y := { th with ctx := { th.ctx with pc := wordAligned (Config.machineVector s.host.image) }, cause := none }
        .next ((s.setThread (core * 64 + 63) y).firmware w.1 w.2)

/-- The breakpoint that an instruction at the thread's pc matches (R376). -/
def State.breakpointAt (s : State) (t : Nat) (th : Thread) : Option Nat :=
  if th.bkSkip || th.reply then none
  else (List.range 4).find? fun n =>
    let b := mgetD (s.core (coreOf t)).bkpc n 0
    b.getLsbD 0 && nbits b 2 62 == nbits th.ctx.pc 2 62 && (mgetD (s.core (coreOf t)).bkmsk n 0).getLsbD (slotOf t)

/-- The instruction at the thread's pc is an `ext` pair (R365): the next word of an attached member, or the word that is fetched. -/
def State.atPair (s : State) (t : Nat) (th : Thread) : Bool :=
  if th.ctx.framed then false
  else match if th.attached then th.ribbon.head? else none with
  | some r => isExt r.w0
  | none => match s.fetch t th th.ctx.pc with
    | .word w _ => isExt w
    | _ => false

/-- BREAKPOINT: the thread stops before the instruction, and a machine entry says so (R376); in a machine slot it is a fatal error (R381). -/
def execBreakpoint (tid : Nat) (s : State) : Out :=
  match s.thread? tid with
  | none => .next s
  | some th =>
    match s.breakpointAt tid th with
    | none => .next s
    | some n =>
      if th.stopped || th.upcall.isSome || th.away.isSome || !th.rob.isEmpty then .next s
      else
        let fdet := th.attached
        let y := if fdet then th.detach else th
        let trapc : Dword := BitVec.ofNat 64 (0x21 + th.pl * 2 ^ 16 + (if s.atPair tid th then 2 ^ 18 else 0) + (if fdet then 2 ^ 19 else 0))
        let y := { y with ctx := { y.ctx with trapc := trapc, trapv := 0, trappc := y.ctx.pc }, stopped := true, cause := none }
        let s := if s.sched.issue && s.sched.cur == tid then s.wasted tid th else s
        let s := { s with sched := { s.sched with issue := false } }
        if th.pl = 2 then .next (fatalError (s.setThread tid { y with stopped := false }) (coreOf tid) (slotOf tid) 0x21)
        else
        let s := (s.setThread tid y).stopSlots tid true
        .next (machineEntry s (coreOf tid) (mcauseOf tid th 0x21 (n + 4)) th.who)

end Sys2Proof.Machine
end

