-- ==== Sys2Proof/Machine/Upcall.lean ====
section
/-! DEFINITION. Sys2Proof/Machine/Upcall.lean: supervisor runs, the resume actions (R365, R368 to R370, R415), the watchdog
(R354) and the end of a `yield` (R111). -/

namespace Sys2Proof.Machine

/-! ### Supervisor runs (R368, R415) -/

/-- The lowest slot of a core whose thread of the tenant is in the upcall state (R368). (Log 33, DEDUCED.) -/
def State.lowestUpcall (s : State) (c tenant : Nat) : Option Nat :=
  (List.range 63).find? fun k => match s.thread? (c * 64 + k) with
    | some th => th.tenant == tenant && th.pl == 0 && th.inUpcall
    | none => false

/-- The entry word that a run finds in S(v0) (R368). -/
def SupEntry.word (e : SupEntry) : Dword :=
  BitVec.ofNat 64 ((if e.kind = 1 then 0 else e.slot) + e.kind * 2 ^ 12 + (if e.kind = 1 then 0 else e.code) * 2 ^ 16)

/-- The supervisor slot's state as a run starts for entry `e`, for launch `l` whose thread stands in slot `k` (R368). -/
def Sup.start (u : Sup) (e : SupEntry) (l : Nat) : Sup :=
  { u with queue := u.queue.tail, notice := u.notice && e.kind != 1, run := some l, resumed := [],
           utsel := if e.kind = 1 then u.utsel else e.slot }

/-- The supervisor slot's thread as a run starts: its registers stay but for v0 and the pc (R368). Of a
UPCV that is no word address, bits 1:0 are not used (log 105, DESIGN CHOICE). -/
def Thread.startRun (x : Thread) (e : SupEntry) (l wdog : Nat) (upcv : Dword) : Thread :=
  { x with ctx := { x.ctx.setReg 0 (e.word.setWidth 512) with pc := wordAligned (upcv + BitVec.ofNat 64 (64 * e.kind)) },
           launch := l, cause := none, wdog := wdog, idle := 0 }

/-- UPCALL_RUN: the oldest entry is served; an acquire at device scope (R368). A notice that finds no thread in the upcall
state is dropped, and so is the entry of a thread that is not in it. -/
def execUpcallRun (core tenant : Nat) (s : State) : Out :=
  match mget (s.core core).sups tenant with
  | none => .next s
  | some u =>
    match u.queue with
    | [] => .next s
    | e :: rest =>
      if u.run.isSome then .next s
      else
        let from_ := if e.kind = 1 then s.lowestUpcall core tenant else some e.slot
        match from_.bind fun k => s.thread? (core * 64 + k), s.thread? (core * 64 + u.slot) with
        | some th, some x =>
          if !th.inUpcall then .next (s.modSup core tenant fun u => { u with queue := rest, notice := u.notice && e.kind != 1 }) else
          let upcv : Dword := match s.launchOf th with | some l => l.upcv | none => 0
          let s := s.modSup core tenant fun u => u.start e th.launch
          let s := s.setThread (core * 64 + u.slot) (x.startRun e th.launch (s.core core).wdog upcv)
          .next (s.acquire (core * 64 + u.slot) x 4)
        | _, _ => .next (s.modSup core tenant fun u => { u with queue := rest, notice := u.notice && e.kind != 1 })

/-! ### Resuming (R365, R369) -/

/-- What a resumed thread does (R365). -/
inductive Resume where
  | again
  | goOn
  | stay
  | finish
  deriving DecidableEq, Repr

/-- The resume action of a fault code (R365): `stay` is the continue of a boundary fault. -/
def resumeOf (code : Nat) : Resume :=
  if code = 0x05 ∨ (0x0A ≤ code ∧ code ≤ 0x0C) then .again
  else if code = 0x08 ∨ code = 0x0E ∨ code = 0x20 ∨ code = 0x21 then .goOn
  else if code = 0x0F then .stay
  else .finish

/-- The thread as it goes on after its faulting instruction, which counts as completed (R365, R126). -/
def Thread.goOn (th : Thread) : Thread :=
  let th := th.counted
  { th with ctx := advance th.ctx (nbits th.ctx.trapc 18 1 == 1) .seq, upcall := none, cause := none,
            sent := if th.casts then th.sent - 1 else th.sent }

/-- The thread of a slot takes its resume action (R365): it is resumed, and the run that resumed it has ended (R369). -/
def State.resume (s : State) (t : Nat) : State :=
  match s.thread? t with
  | none => s
  | some th =>
    match resumeOf (nbits th.ctx.trapc 0 8) with
    | .again | .stay => s.setThread t { th with upcall := none, cause := none, ctx := { th.ctx with pc := th.ctx.trappc } }
    | .goOn => s.setThread t th.goOn
    | .finish => (s.setThread t { th with upcall := none, cause := none, ending := true }).endNow t

/-- The thread has been resumed and has not acted on it. -/
def State.toResume (s : State) (t : Nat) (th : Thread) : Bool :=
  match th.upcall with
  | some u => u.resume && !s.resumedInRun (coreOf t) th.tenant (slotOf t)
  | none => false

/-! ### The watchdog and `yield` (R354, R111) -/

/-- The watchdog of a slot runs (R354): of a supervisor or machine slot, during its runs. (Log 34, DEDUCED.) -/
def State.watched (s : State) (t : Nat) (th : Thread) : Bool :=
  th.wdog != 0 && th.away.isNone && th.upcall.isNone && !th.stopped && !th.ending &&
  (match th.held with | some h => !h.applied | none => true) && s.inRun t th

/-- The watchdog of a slot has run out: it has run since its last restart for at least a cycle of each of WDOG's microseconds (R354; log
63, DESIGN CHOICE). -/
def State.runOut (s : State) (t : Nat) (th : Thread) : Bool := s.watched t th && decide (th.wdog ≤ th.idle)

/-- The thread with its waiting instruction abandoned, as if it had not issued (R354). -/
def Thread.abandon (th : Thread) : Thread :=
  { th with held := none, wait := .none, join := none, bar := none, reply := false }

/-- A thread no longer waits for a block window (R179). -/
def State.unwait (s : State) (t : Nat) : State :=
  let drop (m : Mig) : Mig := { m with waiters := m.waiters.filter (· != t) }
  { s with dies := s.dies.map fun (e : Nat × Die) => (e.1, { e.2 with migQ := e.2.migQ.map drop }) }

/-- The watchdog's fault is taken before the next instruction (R354). -/
def State.bark (s : State) (t : Nat) (th : Thread) (cause : Nat) : State :=
  takeFault (((s.unwait t).forgetOp th.who).setThread t th.abandon) t 0x12 0 false (BitVec.ofNat 64 cause) th.ctx.pc

/-- WATCHDOG: the thread takes the fault at its next instruction, with the cause that held it (R354): once what it has issued has
committed (R229; log 34, DEDUCED). -/
def execWatchdog (tid : Nat) (s : State) : Out :=
  match s.thread? tid with
  | none => .next s
  | some th =>
    if !s.runOut tid th || th.expired.isSome then .next s
    else if th.rob.isEmpty then .next (s.bark tid th (th.cause.getD 15))
    else .next (s.setThread tid { th with expired := some (th.cause.getD 15) })

/-- YIELD_EXPIRY: the 64 cycles are over (R111). -/
def execYieldExpiry (tid : Nat) (s : State) : Out :=
  .next (s.modThread tid fun th => match th.wait with
    | .yield 0 => { th with wait := .none }
    | _ => th)

end Sys2Proof.Machine
end

