-- ==== Sys2Proof/Machine/Barrel.lean ====
section
/-! DEFINITION. Sys2Proof/Machine/Barrel.lean: a core's cycle (R17, R19, R349, R352, R392), power bubbles (R326), and the words
that R55 reserves. -/

namespace Sys2Proof.Machine

/-- The core's clock is stopped or its power is off (R74, CORECLK). -/
def Core.halted (x : Core) : Bool := nbits x.coreclk 0 3 == 4 || x.coreclk.getLsbD 8

/-! ### The pass over position 0 (R326, R392, R393) -/

/-- The positions as they stand from this pass on (R326). -/
def Core.applyImp (x : Core) : Core :=
  { x with imp := x.impNext.foldl (fun m e => mputD m e.1 e.2 0) x.imp, impNext := [] }

/-- The core holds no live thread, no resident register bank and no queued migrant, so that it may be stopped (R10). -/
def State.vacant (s : State) (c : Nat) : Bool :=
  !(s.threads.any fun e => coreOf e.1 == c && slotOf e.1 != 63) && (s.core c).migrants.isEmpty &&
  !(s.saved.any fun e => coreOf e.2.ranIn == c && (e.2.res0 || e.2.res1))

/-- What was written to CORECLK takes effect (R392); a stop, or the power switch, once the core is vacant (R10).
(Log 71, DEDUCED.) -/
def State.applyClk (s : State) (c : Nat) : State :=
  match (s.core c).clkNext with
  | none => s
  | some v =>
    let y := { s.core c with coreclk := v, clkNext := none }
    if y.halted && !s.vacant c then s else s.modCore c fun _ => y

/-- A clock hop of the core's row takes effect, unless a droop freezes it (R392, R393); the crossing of the two clocks counts
as one hold of each of the row's cores (source 0x50). (Log 66, DEDUCED.) -/
def State.applyHop (s : State) (c : Nat) : State :=
  match (s.row (rowOf c)).hop with
  | none => s
  | some k =>
    if (s.row (rowOf c)).frozen then s
    else
      let s := s.modRow (rowOf c) fun r => { r with clock := k, hop := none }
      (List.range 16).foldl (fun s j => s.countEvery (rowOf c * 16 + j) 0x50) s

/-- The core passes over position 0: a pass ends, but in its first cycle, and what waited for it takes effect. -/
def State.passZero (s : State) (c : Nat) (first : Bool) : State :=
  ((((if first then s else s.passEnds c)).modCore c Core.applyImp).applyClk c).applyHop c

/-! ### What every cycle counts (R131, R350 to R352) -/

/-- A cycle of the clock passes for a pending pick record (R131). -/
def Ctx.cycle (x : Ctx) : Ctx := match x.pick with
  | some p => { x with pick := some { p with cycles := p.cycles + 1 } }
  | none => x

/-- A cycle of the clock passes for a thread: its pick record, its `yield`, and its watchdog if that runs (R131, R111, R354). -/
def Thread.cycle (th : Thread) (on : Bool) : Thread :=
  let up (e : Rob) : Rob := { e with load := e.load.map fun l => { l with snap := l.snap.cycle } }
  { th with ctx := th.ctx.cycle, rob := th.rob.map up, idle := if on then th.idle + 1 else th.idle, wait := match th.wait with
      | .yield (n + 1) => .yield n
      | w => w }

/-- A thread of a core has something that a cycle changes. -/
def Thread.ticks (th : Thread) : Bool :=
  th.away.isNone && (th.ctx.pick.isSome || (match th.wait with | .yield _ => true | _ => false) ||
    th.rob.any fun e => match e.load with | some l => l.snap.pick.isSome | none => false)

def State.cycleThreads (s : State) (c : Nat) : State :=
  { s with threads := s.threads.map fun (e : Nat × Thread) =>
      if coreOf e.1 = c ∧ (e.2.ticks ∨ e.2.wdog ≠ 0) then (e.1, e.2.cycle (s.watched e.1 e.2)) else e }

/-- Source 0x01: a cycle while the counter's scope has a live thread on the core (R351). -/
def State.countCycle (s : State) (c : Nat) : State :=
  let live (ev : Ev) : Bool := s.threads.any fun e => coreOf e.1 == c && ev.counts e.2.who e.2.launch e.2.tenant 1
  s.modCore c fun x => { x with evs := x.evs.map fun (e : Nat × Ev) => if live e.2 then (e.1, { e.2 with cnt := e.2.cnt + 1 }) else e }

/-- The state of the work slot that a copy command takes, by R352: what it waits for once it has started, or before. (Log 67, DEDUCED.) -/
def State.slotState (s : State) (c : Nat) (m : CopyCmd) : Nat :=
  if m.started then
    if m.moved then 2
    else if (s.copyTurn c m.id).isNone then 7
    else if !s.copyPublished c m then 4
    else match s.moveCopy c m with
      | .wait why _ => why
      | _ => 0
  else if s.startsAfter m then 7
  else if s.mayStart c m then 0
  else match m.ringFirst with
    | some (_, push) => if push then 3 else 4
    | none => 2

/-- The commands that the copy engine's eight work slots hold: those at work, then the others that have started, then the oldest (R352; log 67,
DEDUCED). -/
def State.workSlots (s : State) (c : Nat) : List CopyCmd :=
  let q := (s.core c).copyQ
  let kind (m : CopyCmd) : Nat := if s.atWork c m then 0 else if m.started then 1 else 2
  ((List.range 3).flatMap fun k => q.filter fun m => kind m == k).take 8

/-- The copy engine's eight work slots are counted, each by its state (R352); a wait for a full ordered-reduction buffer counts as
cause 6 as well (R106). -/
def State.countCopy (s : State) (c : Nat) : State :=
  (s.workSlots c).foldl (fun s m =>
    let k := s.slotState c m
    let s := s.countFor c m.who m.launch m.tenant (0x40 + k) 1
    if k = 5 then s.countFor c m.who m.launch m.tenant 0x16 1 else s) s

/-- A drain's next contribution waits for a full ordered-reduction buffer (R106). -/
def State.drainFull (s : State) (c : Nat) (m : MatCmd) : Bool := match s.drainData c m.id with
  | some data => !m.moved && !s.drainBehind m && (match s.moveDrain c m data with
    | (.wait 5 _, k, _) => k == m.sent
    | _ => false)
  | none => false

/-- The drains of a core that wait for a full ordered-reduction buffer count as cause 6 (R106). -/
def State.countDrains (s : State) (c : Nat) : State :=
  (s.core c).matQ.foldl (fun y m => if s.drainFull c m then y.countFor c m.who m.launch m.tenant 0x16 1 else y) s

/-- The matrix commands queued on the cores of a cluster, with their cores. -/
def State.clusterMats (s : State) (k : Nat) : List (Nat × MatCmd) :=
  (List.range 8).flatMap fun j => ((s.core (k * 8 + j)).matQ).map fun m => (k * 8 + j, m)

/-- The condition in which a queued matrix command waits, by R352: for a slot, 3, for a drain buffer, 4, or for credit, 5. -/
def State.unitWait (s : State) (c : Nat) (m : MatCmd) : Option Nat :=
  if !s.atArbiter m then none
  else if m.op = 12 && (s.drainFails m).isNone && !s.drainFree (clusterOf c) then some 4
  else if m.op ≠ 12 && (s.tileFails c m).isNone && (s.claimSlots c m m.rings).isNone then some 3
  else if mgetD (s.cluster (clusterOf c)).credit c 0 = 0 then some 5 else none

/-- A cycle in one of the states 3 to 5 counts once for a launch, on every core of the cluster that is its (R352). -/
def State.countWait (s : State) (k : Nat) (m : MatCmd) (w : Nat) : State :=
  (List.range 8).foldl (fun s j =>
    if s.holds (k * 8 + j) m.launch then s.countFor (k * 8 + j) m.who m.launch m.tenant (0x48 + w) 1 else s) s

/-- A cycle of the matrix unit of a cluster is counted in the one state it is in (R352): a drain copy, else the tile operation that it
serves, else the lowest state in which a command waits, once for each launch that has one, or for every scope if nothing is queued.
(Log 67, DEDUCED.) -/
def State.countMatrix (s : State) (k : Nat) : State :=
  match (s.cluster k).copied with
  | u :: rest => (s.modCluster k fun x => { x with copied := rest }).countFor u.1 u.2.1 u.2.2.1 u.2.2.2 0x4A 1
  | [] =>
    let all := s.clusterMats k
    match all.find? fun e => e.2.tile && e.2.granted != e.2.retired with
    | some e => s.countFor e.1 e.2.who e.2.launch e.2.tenant (if e.2.sparseA || e.2.sparseB then 0x49 else 0x48) 1
    | none =>
      if all.isEmpty then (List.range 8).foldl (fun s j => s.countEvery (k * 8 + j) 0x4E) s
      else
        let waits := all.filterMap fun e => (s.unitWait e.1 e.2).map fun w => (w, e.2)
        match (waits.map Prod.fst).min? with
        | none => s
        | some w => ((waits.filter fun e => e.1 == w).foldl (fun (acc : State × List Nat) e =>
            if acc.2.contains e.2.launch then acc else (acc.1.countWait k e.2 w, acc.2 ++ [e.2.launch])) (s, [])).1

/-- What a cycle of the core counts. -/
def State.countAll (s : State) (c : Nat) : State :=
  if (s.core c).evs.isEmpty then s else ((s.countCycle c).countCopy c).countDrains c

/-! ### The position (R17, R349) -/

/-- A BUBBLE entry: a power bubble if USED is clear or PB set, else a stopped one (R17); it goes to the thread or the launch of
the position (R349). -/
def State.bubble (s : State) (c : Nat) (e : BitVec 16) : State :=
  let cause := if !impUsed e || e.getLsbD 13 then 1 else 2
  if !impUsed e then s
  else if impThr e then
    match s.thread? (c * 64 + impSlot e) with
    | some th => s.count (c * 64 + impSlot e) th (0x10 + cause) 1
    | none => s
  else match s.launchAt c (impLidx e) with
    | some l => s.countFor c nobody l (match s.launch? l with | some x => x.tenant | none => 64) (0x10 + cause) 1
    | none => s

/-- The thread that the position names, or the first one of the backfill search, has the turn (R17). -/
def State.atPosition (s : State) (c : Nat) : State :=
  let e := (s.core c).entry
  if impBubble e then s.bubble c e
  else
    let t := c * 64 + (if impThr e then s.issuer c (impSlot e) else 0)
    let s := { s with sched := { s.sched with cur := t, issue := true, tried := 0 } }
    let ours := impThr e || (match s.thread? t with | some th => s.launchAt c (impLidx e) == some th.launch | none => false)
    if ours && s.mayTry t then s else s.fillOn

/-- At the end of a sampling period the position that the core visits is sampled (R357). -/
def State.takeSample (s : State) (c : Nat) : State :=
  let x := s.sample c
  if (s.core c).cyc.toNat % 2 ^ (s.die (dieOf c)).sampleExp = 0 then s.modCore c fun y => { y with sampleDue := some x } else s

/-- One cycle of a core's clock: the table advances, and the position is visited. -/
def State.cycle (s : State) (c : Nat) : State :=
  let s := s.fileSample c
  let p := ((s.core c).pos + 1) % 64
  let first := (s.core c).cyc == 0
  let s := s.modCore c fun x => { x with pos := p, cyc := x.cyc + 1 }
  let s := if p = 0 then s.passZero c first else s
  (((s.cycleThreads c).countAll c).takeSample c).atPosition c

/-- The row clock's cycle, counted for a cluster's matrix unit with the cycle of the cluster's first core, whether or not that core is
stopped (R352; log 67, DEDUCED). -/
def State.rowCycle (s : State) (c : Nat) : State := if c % 8 = 0 then s.countMatrix (clusterOf c) else s

/-- BARREL_ISSUE: a cycle of a core (R17). A halted core has none; the next value of CORECLK takes effect at once. -/
def execBarrelIssue (core : Nat) (s : State) : Out :=
  if !coreOk core || s.sched.issue || s.host.phase != .running then .next s
  else
    let s := { s with sched := { s.sched with turn := (core + 1) % 512 } }.rowCycle core
    .next (if (s.core core).halted then s.applyClk core else s.cycle core)

/-- POWER_BUBBLE: the power controller sets or clears PB; every live thread keeps a position (R19, R326). -/
def execPowerBubble (core p : Nat) (set : Bool) (s : State) : Out :=
  if !coreOk core || 64 ≤ p then .next s
  else
    let e := (s.core core).impView p
    .next ((s.modCore core fun x => x.setImp p (setBits e 13 1 (if set then 1 else 0))).keepPosition core (impSlot e))

/-! ### Reserved words (R55) -/

/-- RESERVED_WORD: the thread whose turn it is meets a reserved word, or a pair with one (R55, R50). A word that is not reserved
is no such event. -/
def execReservedWord (x : Option (BitVec 26)) (w : BitVec 32) (s : State) : Out :=
  if (reservedBy w).isNone then .next s
  else match x with
    | none => begin { word := w.toNat, legal := false } s fun s _ _ => .next s
    | some x => badPair x w s

end Sys2Proof.Machine
end

