-- ==== Sys2Proof/Machine/Cipher.lean ====
section
/-! DEFINITION. Sys2Proof/Machine/Cipher.lean: AES-256 in XTS mode, in which every off-chip line is stored (R167): the cipher by its
standard definition, bytes as numbers below 256. -/

namespace Sys2Proof.Machine

/-! ### The field of 256 elements -/

/-- A byte times x, modulo x^8 + x^4 + x^3 + x + 1. -/
def gfDouble (a : Nat) : Nat := if a < 128 then 2 * a else (2 * a) ^^^ 0x11B

/-- The product of two bytes, by the low `n` bits of the second. -/
def gfMul : Nat → Nat → Nat → Nat
  | 0, _, _ => 0
  | n + 1, a, b => (if b % 2 = 1 then a else 0) ^^^ gfMul n (gfDouble a) (b / 2)

/-- The inverse of a byte, its power 254; 0 for 0. -/
def gfInverse (a : Nat) : Nat :=
  ((List.range 7).foldl (fun (p : Nat × Nat) _ =>
    let sq := gfMul 8 p.2 p.2
    (gfMul 8 p.1 sq, sq)) (1, a)).1

/-- A byte turned left by `n` bits. -/
def turnLeft (a n : Nat) : Nat := a * 2 ^ n % 256 + a / 2 ^ (8 - n)

/-- The substitution of a byte: its inverse, then an affine map. -/
def subByte (a : Nat) : Nat :=
  let x := gfInverse a
  x ^^^ turnLeft x 1 ^^^ turnLeft x 2 ^^^ turnLeft x 3 ^^^ turnLeft x 4 ^^^ 0x63

/-! ### AES-256 -/

def xorBytes (a b : List Nat) : List Nat := List.zipWith (· ^^^ ·) a b

/-- Round constant `k`, from 1. -/
def roundConst (k : Nat) : Nat := (List.range (k - 1)).foldl (fun x _ => gfDouble x) 1

/-- Word `i` of the key schedule from the words before it. -/
def nextWord (ws : List (List Nat)) (i : Nat) : List Nat :=
  let last := ws.getD (i - 1) []
  let t := if i % 8 = 0 then xorBytes ((last.drop 1 ++ last.take 1).map subByte) [roundConst (i / 8), 0, 0, 0]
           else if i % 8 = 4 then last.map subByte else last
  xorBytes (ws.getD (i - 8) []) t

/-- The fifteen round keys of a 32-byte key, 16 bytes each. -/
def roundKeys (key : List Nat) : List (List Nat) :=
  let first := (List.range 8).map fun i => (key.drop (4 * i)).take 4
  let ws := (List.range 52).foldl (fun ws i => ws ++ [nextWord ws (i + 8)]) first
  (List.range 15).map fun r => ((ws.drop (4 * r)).take 4).flatten

/-- Row `r` of the block turns left by `r` columns. -/
def shiftRows (b : List Nat) : List Nat :=
  (List.range 16).map fun i => b.getD ((4 * (i / 4 + i % 4) + i % 4) % 16) 0

/-- One column times the matrix of 2, 3, 1, 1. -/
def mixColumn (c : List Nat) : List Nat :=
  (List.range 4).map fun r =>
    gfMul 8 (c.getD r 0) 2 ^^^ gfMul 8 (c.getD ((r + 1) % 4) 0) 3 ^^^ c.getD ((r + 2) % 4) 0 ^^^ c.getD ((r + 3) % 4) 0

def mixColumns (b : List Nat) : List Nat := ((List.range 4).map fun k => mixColumn ((b.drop (4 * k)).take 4)).flatten

/-- The rounds after the first key: all but the last mix the columns. -/
def aesRounds : List (List Nat) → List Nat → List Nat
  | [], b => b
  | [k], b => xorBytes (shiftRows (b.map subByte)) k
  | k :: l :: rest, b => aesRounds (l :: rest) (xorBytes (mixColumns (shiftRows (b.map subByte))) k)

/-- A 16-byte block under a key schedule. -/
def aesBlock (keys : List (List Nat)) (b : List Nat) : List Nat := match keys with
  | [] => b
  | k :: rest => aesRounds rest (xorBytes b k)

/-! ### XTS (R167) -/

/-- The tweak of the next block: the 128-bit number times x, modulo x^128 + x^7 + x^2 + x + 1. -/
def nextTweak (t : Nat) : Nat := if t < 2 ^ 127 then 2 * t else (2 * t) ^^^ (2 ^ 128 + 0x87)

/-- The bytes of a number, lowest first. -/
def numBytes (v n : Nat) : List Nat := (List.range n).map fun i => v / 2 ^ (8 * i) % 256

/-- The 16-byte blocks of a data unit in order, each with its tweak. -/
def xtsBlocks (keys : List (List Nat)) : Nat → List (List Nat) → List Nat
  | _, [] => []
  | t, b :: rest => xorBytes (aesBlock keys (xorBytes b (numBytes t 16))) (numBytes t 16) ++ xtsBlocks keys (nextTweak t) rest

/-- A line as it is stored, from its plain bytes: the low half of the key material is the data key, the high half the tweak key (R378),
and the tweak is the line's address bits 45:6 (R167). -/
def cipherLine (key : Vec) (line : Nat) (plain : List Byte) : Vec :=
  let keys := roundKeys (numBytes key.toNat 32)
  let tweak := aesBlock (roundKeys (numBytes (key.toNat / 2 ^ 256) 32)) (numBytes (line % 2 ^ 40) 16)
  let t := (List.range 16).foldl (fun n i => n + tweak.getD i 0 * 2 ^ (8 * i)) 0
  let bytes := plain.map BitVec.toNat
  let out := xtsBlocks keys t ((List.range 4).map fun i => (bytes.drop (16 * i)).take 16)
  BitVec.ofNat 512 ((List.range 64).foldl (fun n i => n + out.getD i 0 * 2 ^ (8 * i)) 0)

end Sys2Proof.Machine
end

