-- ==== Sys2Proof/Machine/Digest.lean ====
section
/-! DEFINITION. Sys2Proof/Machine/Digest.lean: SHA-512, with which the device digests its firmware image and its device record (R389,
R390). R389 names the function and gives no text of it: it is the published one (log 143, PRESUMED). -/

namespace Sys2Proof.Machine

/-! ### The constants: the leading 64 bits of the fractions of the cube roots of the first 80 primes, and of the square roots of the
first 8 -/

def shaK0 : List Dword :=
  [0x428a2f98d728ae22, 0x7137449123ef65cd, 0xb5c0fbcfec4d3b2f, 0xe9b5dba58189dbbc,
   0x3956c25bf348b538, 0x59f111f1b605d019, 0x923f82a4af194f9b, 0xab1c5ed5da6d8118,
   0xd807aa98a3030242, 0x12835b0145706fbe, 0x243185be4ee4b28c, 0x550c7dc3d5ffb4e2,
   0x72be5d74f27b896f, 0x80deb1fe3b1696b1, 0x9bdc06a725c71235, 0xc19bf174cf692694,
   0xe49b69c19ef14ad2, 0xefbe4786384f25e3, 0x0fc19dc68b8cd5b5, 0x240ca1cc77ac9c65]
def shaK1 : List Dword :=
  [0x2de92c6f592b0275, 0x4a7484aa6ea6e483, 0x5cb0a9dcbd41fbd4, 0x76f988da831153b5,
   0x983e5152ee66dfab, 0xa831c66d2db43210, 0xb00327c898fb213f, 0xbf597fc7beef0ee4,
   0xc6e00bf33da88fc2, 0xd5a79147930aa725, 0x06ca6351e003826f, 0x142929670a0e6e70,
   0x27b70a8546d22ffc, 0x2e1b21385c26c926, 0x4d2c6dfc5ac42aed, 0x53380d139d95b3df,
   0x650a73548baf63de, 0x766a0abb3c77b2a8, 0x81c2c92e47edaee6, 0x92722c851482353b]
def shaK2 : List Dword :=
  [0xa2bfe8a14cf10364, 0xa81a664bbc423001, 0xc24b8b70d0f89791, 0xc76c51a30654be30,
   0xd192e819d6ef5218, 0xd69906245565a910, 0xf40e35855771202a, 0x106aa07032bbd1b8,
   0x19a4c116b8d2d0c8, 0x1e376c085141ab53, 0x2748774cdf8eeb99, 0x34b0bcb5e19b48a8,
   0x391c0cb3c5c95a63, 0x4ed8aa4ae3418acb, 0x5b9cca4f7763e373, 0x682e6ff3d6b2b8a3,
   0x748f82ee5defb2fc, 0x78a5636f43172f60, 0x84c87814a1f0ab72, 0x8cc702081a6439ec]
def shaK3 : List Dword :=
  [0x90befffa23631e28, 0xa4506cebde82bde9, 0xbef9a3f7b2c67915, 0xc67178f2e372532b,
   0xca273eceea26619c, 0xd186b8c721c0c207, 0xeada7dd6cde0eb1e, 0xf57d4f7fee6ed178,
   0x06f067aa72176fba, 0x0a637dc5a2c898a6, 0x113f9804bef90dae, 0x1b710b35131c471b,
   0x28db77f523047d84, 0x32caab7b40c72493, 0x3c9ebe0a15c9bebc, 0x431d67c49c100d4c,
   0x4cc5d4becb3e42b6, 0x597f299cfc657e2a, 0x5fcb6fab3ad6faec, 0x6c44198c4a475817]
def shaStart : List Dword :=
  [0x6a09e667f3bcc908, 0xbb67ae8584caa73b, 0x3c6ef372fe94f82b, 0xa54ff53a5f1d36f1,
   0x510e527fade682d1, 0x9b05688c2b3e6c1f, 0x1f83d9abfb41bd6b, 0x5be0cd19137e2179]

/-! ### One block of 128 bytes -/

/-- Rotate right. -/
def ror (x : Dword) (k : Nat) : Dword := x.rotateRight k

/-- The next words of a message schedule, newest first, from the 16 before them. -/
def shaSchedule : Nat → List Dword → List Dword
  | 0, ws => ws
  | n + 1, ws =>
    let at_ (k : Nat) : Dword := ws.getD k 0
    let s0 := ror (at_ 14) 1 ^^^ ror (at_ 14) 8 ^^^ (at_ 14 >>> 7)
    let s1 := ror (at_ 1) 19 ^^^ ror (at_ 1) 61 ^^^ (at_ 1 >>> 6)
    shaSchedule n ((at_ 15 + s0 + at_ 6 + s1) :: ws)

/-- One round: the eight working words, with the round's constant and word of the schedule. -/
def shaRound (v : List Dword) (kw : Dword × Dword) : List Dword :=
  match v with
  | [a, b, c, d, e, f, g, h] =>
    let t1 := h + (ror e 14 ^^^ ror e 18 ^^^ ror e 41) + ((e &&& f) ^^^ (~~~e &&& g)) + kw.1 + kw.2
    let t2 := (ror a 28 ^^^ ror a 34 ^^^ ror a 39) + ((a &&& b) ^^^ (a &&& c) ^^^ (b &&& c))
    [t1 + t2, a, b, c, d + t1, e, f, g]
  | v => v

/-- The state after a block, whose 16 words are given newest first. -/
def shaBlock (h : List Dword) (words : List Dword) : List Dword :=
  let ws := (shaSchedule 64 words).reverse
  List.zipWith (· + ·) h (((shaK0 ++ shaK1 ++ shaK2 ++ shaK3).zip ws).foldl shaRound h)

/-! ### A message -/

/-- A word of a message, most significant byte first. -/
def wordOf (bs : List Byte) : Dword := BitVec.ofNat 64 (bs.foldl (fun n b => n * 256 + b.toNat) 0)

/-- The message with its padding: a one bit, zeros up to a whole number of blocks, and its length in bits in 16 bytes. -/
def shaPadded (m : List Byte) : List Byte :=
  let len := 8 * m.length
  m ++ 0x80 :: List.replicate ((239 - m.length % 128) % 128) 0 ++ (List.range 16).map fun i => BitVec.ofNat 8 (len / 2 ^ (8 * (15 - i)))

/-- The 16 words of block `i`, newest first. -/
def shaWords (m : List Byte) (i : Nat) : List Dword :=
  ((List.range 16).map fun j => wordOf ((m.drop (128 * i + 8 * j)).take 8)).reverse

/-- SHA-512 of a message, its first byte the most significant. -/
def sha512 (m : List Byte) : BitVec 512 :=
  let p := shaPadded m
  let h := (List.range (p.length / 128)).foldl (fun h i => shaBlock h (shaWords p i)) shaStart
  BitVec.ofNat 512 (h.foldl (fun n w => n * 2 ^ 64 + w.toNat) 0)

/-- The bytes of a stored image or record, which a number stands for: its bytes below its leading one, the lowest first (log 143, PRESUMED). -/
def storedBytes (n : Nat) : List Byte := (List.range (Nat.log2 n / 8)).map fun i => BitVec.ofNat 8 (n / 2 ^ (8 * i))

end Sys2Proof.Machine
end

