-- ==== Sys2Proof/Machine/Loader.lean ====
section
/-! DEFINITION. Sys2Proof/Machine/Loader.lean: what the loader and the host runtime leave of an image on the device (R40 to R42, R323,
R324, R405), and their own accesses to a live margin (R182). The host runtime is software outside the device, so that no step runs
these: they stand for a load from outside (log 4, DESIGN CHOICE). -/

namespace Sys2Proof.Machine

/-- `n` bytes of a file at offset `o`, as a number. -/
def filePart (f : List Byte) (o n : Nat) : Nat := ofBytes ((f.drop o).take n)

/-- A section-table entry (R40). -/
structure Section where
  ty : Nat
  off : Nat
  size : Nat
  va : Nat
  deriving DecidableEq, Repr

/-- The sections of a file. -/
def sectionsOf (f : List Byte) : List Section :=
  (List.range (filePart f 6 2)).map fun i =>
    let a := filePart f 16 8 + 32 * i
    { ty := filePart f a 1, off := filePart f (a + 8) 8, size := filePart f (a + 16) 8, va := filePart f (a + 24) 8 }

/-- The section of a type. -/
def sectionOf (f : List Byte) (ty : Nat) : Option Section := (sectionsOf f).find? fun x => x.ty == ty

/-- Two sections share a virtual address; the colophon has none (R40, R42). An empty section strictly inside another counts as sharing one
(log 117, DESIGN CHOICE). -/
def sectionsMeet : List Section → Bool
  | [] => false
  | x :: rest => (x.ty != 6 && rest.any fun y => y.ty != 6 && decide (x.va < y.va + y.size) && decide (y.va < x.va + x.size)) || sectionsMeet rest

/-- A section that is mapped at run time: `.text`, `.rodata`, `.data`, `.bss` (R41). -/
def Section.mapped (x : Section) : Bool := 1 ≤ x.ty && x.ty ≤ 4

/-- The mapped sections are aligned to pages and lie in the address space (R41). One that is not is not loaded (log 129, DESIGN CHOICE). -/
def aligned (xs : List Section) : Bool := xs.all fun x => !x.mapped || (x.va % 4096 == 0 && decide (x.va + x.size ≤ 2 ^ 52))

/-- The header and the sections pass the checks of R42. An image without a margin section needs NSLOTS 0; of two sections of one type the
first is meant (log 129, DESIGN CHOICE). -/
def headerOk (f : List Byte) : Bool :=
  filePart f 0 4 == 0x4D525246 && filePart f 4 2 == 1 && filePart f 6 2 == 6 && !sectionsMeet (sectionsOf f) && aligned (sectionsOf f) &&
    (match sectionOf f 5 with | some m => m.size == 16 * filePart f 24 4 | none => filePart f 24 4 == 0)

/-- A directory entry of the colophon: type, count, offset (R323). -/
structure DirEntry where
  ty : Nat
  count : Nat
  off : Nat
  deriving DecidableEq, Repr

/-- The entries of a directory before the one of type 0; none if the directory overruns the colophon (R323). -/
def directory (c : List Byte) : Nat → Nat → Option (List DirEntry)
  | 0, _ => none
  | fuel + 1, o =>
    if c.length < o + 16 then none
    else if filePart c o 4 = 0 then some []
    else (directory c fuel (o + 16)).map fun rest => { ty := filePart c o 4, count := filePart c (o + 4) 4, off := filePart c (o + 8) 8 } :: rest

/-- Bytes of what a directory entry names: the site map with its header, 16-byte procedure ranges, 64-byte templates (R323). -/
def DirEntry.bytes (e : DirEntry) : Nat := match e.ty with
  | 1 => 16 + 4 * e.count
  | 2 => 16 * e.count
  | _ => 64 * e.count

/-- The KIND and WOFF of the entries of a site map at an offset (R323). -/
def siteEntries (c : List Byte) (o n : Nat) : List (Nat × Nat) :=
  (List.range n).map fun i =>
    let w := filePart c (o + 16 + 4 * i) 4
    (w / 2 ^ 30, w % 2 ^ 30)

/-- WOFF strictly increases (R323). -/
def inOrder : List (Nat × Nat) → Bool
  | x :: y :: rest => decide (x.2 < y.2) && inOrder (y :: rest)
  | _ => true

/-- The site map of a colophon; none where the loader refuses the image: a directory or what it names overruns the colophon, the map is out
of order, or NTIED exceeds NSLOTS (R323). -/
def siteMap (c : List Byte) (nslots : Nat) : Option (List (Nat × Nat)) :=
  match directory c (c.length / 16 + 1) 0 with
  | none => none
  | some dir =>
    if dir.any fun e => decide (c.length < e.off + e.bytes) then none
    else match dir.find? fun e => e.ty == 1 with
    | none => some []
    | some e =>
      let n := filePart c e.off 4
      let map := siteEntries c e.off n
      if nslots < n ∨ c.length < e.off + 16 + 4 * n ∨ !inOrder map then none else some map

/-- The slots of a file's margin (R41, R182). -/
def fileSlots (f : List Byte) : Map (BitVec 128) := match sectionOf f 5 with
  | some m => (List.range (m.size / 16)).map fun k => (k, BitVec.ofNat 128 (filePart f (m.off + 16 * k) 16))
  | none => []

/-- SHARED is set in a slot (R182, R405). -/
def markShared (m : Map (BitVec 128)) : Map (BitVec 128) := m.map fun e => (e.1, setBits e.2 9 1 1)

/-- The image that a file makes for a tenant; none if it is refused (R42, R323). What R40 reserves is not looked at (log 130, DESIGN
CHOICE). -/
def imageOfFile (f : List Byte) (tenant : Nat) (mayShare : Bool) : Option Image :=
  if !headerOk f then none
  else
    let n := filePart f 24 4
    let colophon := match sectionOf f 6 with | some c => (f.drop c.off).take c.size | none => List.replicate 16 0
    let shareable := filePart f 28 4 % 2 == 1
    (siteMap colophon n).map fun map =>
      { tenant := tenant, imageId := BitVec.ofNat 64 (filePart f 8 8), shareable := shareable, nslots := n,
        textBase := BitVec.ofNat 64 (match sectionOf f 1 with | some x => x.va | none => 0), sites := map,
        live := fileSlots f, kept := fileSlots f, joined := shareable && mayShare }

/-- The access that a section allows at run time: bits R, W and X of its pages' entries (R41, R310). -/
def Section.perm (x : Section) : Nat := match x.ty with
  | 1 => 5
  | 2 => 1
  | _ => 3

/-- A page of 4 KiB is mapped, from the table of a level on; what tables its walk lacks are made of the next frames. None where an entry stands
in the way, or no frame is left. -/
def mapPage (va : Nat) (leaf : Dword) : Nat → Nat → Nat → Map Dword × List Nat → Option (Map Dword × List Nat)
  | 0, _, _, _ => none
  | fuel + 1, level, base, (m, frames) =>
    let a := base + 8 * walkIndex va level
    let e := mgetD m a 0
    if level = 3 then (if pteV e then none else some (mput m a leaf, frames))
    else if pteV e then (if pteLeaf e then none else mapPage va leaf fuel (level + 1) (ptePfn e) (m, frames))
    else match frames with
    | [] => none
    | p :: rest => mapPage va leaf fuel (level + 1) p (mput m a (BitVec.ofNat 64 (2 ^ 63 + p)), rest)

/-- Bytes go to memory from outside, line by line. -/
def State.placeBytesAt (s : State) (key pa : Nat) (bs : List Byte) : State :=
  (List.range ((bs.length + 63) / 64)).foldl (fun s i => s.performWrite nobody 4 key (place (pa + 64 * i) ((bs.drop (64 * i)).take 64))) s

/-- One page of a section is loaded into the next frame and mapped with the section's access: its bytes, or of `.bss` zeros (R41, R166). -/
def loadPage (f : List Byte) (root key : Nat) (x : Section) (j : Nat) (a : State × List Nat) : Option (State × List Nat) :=
  match a.2 with
  | [] => none
  | p :: rest =>
    let leaf : Dword := BitVec.ofNat 64 (2 ^ 63 + 2 ^ 62 + key * 2 ^ 46 + p + x.perm)
    (mapPage (x.va + 4096 * j) leaf 4 0 root (a.1.tables.ptes, rest)).map fun r =>
      let s := a.1.modTables fun y => { y with ptes := r.1 }
      let s := if x.ty = 4 then { s with power := { s.power with zeroing := s.power.zeroing ++ [(p / 64, 64, key)] } }
        else s.placeBytesAt key p ((f.drop (x.off + 4096 * j)).take (Nat.min 4096 (x.size - 4096 * j)))
      (s, r.2)

/-- Every mapped section is loaded, page by page. -/
def loadSections (f : List Byte) (root key : Nat) (a : State × List Nat) : Option (State × List Nat) :=
  ((sectionsOf f).filter Section.mapped).foldlM (fun a x =>
    (List.range ((x.size + 4095) / 4096)).foldlM (fun a j => loadPage f root key x j a) a) a

/-- The margins of a loaded image are new: no line of them holds an error (R169). -/
def State.freshMargins (s : State) (i : Image) (shared : Bool) : State :=
  let n := (i.nslots + 3) / 4
  let id := i.imageId.toNat
  let s := (s.mendLines (marginLine i.tenant id 0) n).mendLines (marginLine (128 + i.tenant) id 0) n
  if shared then s.mendLines (marginLine 64 id 0) n else s

/-- The image is loaded for a tenant (R41): its sections into frames that the loader has chosen and mapped for the tenant, its private margin
and the kept copy; the first tenant that joins the shared margin creates it (R405). None where the image is refused, the frames do not suffice or
an address is mapped. (Log 4, DESIGN CHOICE.) -/
def State.loadImage (s : State) (tenant : Nat) (f : List Byte) (frames : List Nat) : Option State :=
  match s.tenant? tenant with
  | none => none
  | some x => (imageOfFile f tenant x.mayShare).bind fun i => (loadSections f x.ptroot x.keyx (s, frames)).map fun r =>
    let others := s.tables.images.filter fun y => !(y.tenant == tenant && y.imageId == i.imageId)
    let fresh := i.joined && (mget s.tables.shared i.imageId.toNat).isNone
    (r.1.freshMargins i fresh).modTables fun y => { y with
      images := others ++ [i], shared := if fresh then mput y.shared i.imageId.toNat (markShared i.live) else y.shared }

/-- The image is unloaded for a tenant; with the last tenant that joined it the shared margin goes (R405). -/
def State.unloadImage (s : State) (tenant : Nat) (image : Dword) : State :=
  let left := s.tables.images.filter fun y => !(y.tenant == tenant && y.imageId == image)
  s.modTables fun y => { y with images := left, shared := if left.any fun i => i.joined && i.imageId == image then y.shared else mdel y.shared image.toNat }

/-- A launch of the image is resident that records into the margin: a tenant's own, or the shared one (R406). -/
def State.inUse (s : State) (tenant : Option Nat) (image : Dword) : Bool :=
  s.work.launches.any fun e => e.2.part 8 8 == image.toNat && (match tenant with
    | some n => e.2.tenant == n
    | none => s.tables.images.any fun i => i.joined && i.imageId == image && i.tenant == e.2.tenant)

/-- The loader and the host runtime write a slot of a live margin: a tenant's own, or the shared one, whose slots keep SHARED (R182, R405). -/
def State.writeMargin (s : State) (tenant : Option Nat) (image : Dword) (k : Nat) (v : BitVec 128) : State :=
  let s := s.mend (marginLine (tenant.getD 64) image.toNat (k / 4)) ((List.range 16).map fun j => 16 * (k % 4) + j)
  match tenant with
  | some n =>
    let up (i : Image) : Image := if i.tenant = n ∧ i.imageId = image then { i with live := mput i.live k v } else i
    s.modTables fun y => { y with images := y.images.map up }
  | none => s.modTables fun y => { y with shared := mmod y.shared image.toNat fun m => mput m k (setBits v 9 1 1) }

/-- A slot as a readback copies it, while no launch uses the margin; SHARED is cleared in a copy of the shared one (R406). -/
def State.readMargin (s : State) (tenant : Option Nat) (image : Dword) (k : Nat) : Option (BitVec 128) :=
  if s.inUse tenant image then none
  else match tenant with
  | some n => (s.tables.images.find? fun i => i.tenant == n && i.imageId == image).map fun i => mgetD i.live k 0
  | none => (mget s.tables.shared image.toNat).map fun m => setBits (mgetD m k 0) 9 1 0

/-- The slots of a margin in memory: four to a line, from its base, under the key of its tenant (R167, R182). -/
def marginLines (base n : Nat) (m : Map (BitVec 128)) : List (Nat × List Byte) :=
  (List.range ((n + 3) / 4)).map fun i => (base / 64 + i, (List.range 4).flatMap fun j => bytesOf (mgetD m (4 * i + j) 0).toNat 16)

/-- The lines of every margin and snapshot, each with its key index (R167, R182, R185). A shared margin has the key of the first tenant that
joined it (log 7, DESIGN CHOICE). -/
def State.allMargins (s : State) : List (Nat × Nat × List Byte) :=
  let key (n : Nat) : Nat := match s.tenant? n with | some x => x.keyx | none => 0
  let with_ (k : Nat) (ls : List (Nat × List Byte)) : List (Nat × Nat × List Byte) := ls.map fun e => (e.1, k, e.2)
  let margp (n : Nat) : Dword := match s.tenant? n with | some x => x.margp | none => 0
  (s.tables.images.flatMap fun i =>
    with_ (key i.tenant) (marginLines (marginAddr (margp i.tenant) i.imageId) i.nslots i.live)) ++
  (s.tables.shared.flatMap fun e => match s.tables.images.find? fun i => i.joined && i.imageId.toNat == e.1 with
    | some i => with_ (key i.tenant) (marginLines (marginAddr 0 i.imageId) i.nslots e.2)
    | none => []) ++
  s.work.launches.flatMap fun e => with_ (key e.2.tenant) (marginLines (snapLine e.1) e.2.nslots e.2.snapshot)

end Sys2Proof.Machine
end

