-- ==== Sys2Proof/Machine/Outside.lean ====
section
/-! DEFINITION. Sys2Proof/Machine/Outside.lean: what the host, peers and firmware do to the device over the network: commands,
sessions, exports, peer windows, the tenant table, attestation and the checkpoint (R329, R382 to R388, R390, R395). -/

namespace Sys2Proof.Machine

/-! ### Commands (R384) -/

/-- HOSTNOTE: a record in the tenant's fault notification queue, from the I/O die (R259, R384). -/
def execHostnote (sess : Nat) (hdr : BitVec 128) (body : BitVec 192) (s : State) : Out :=
  let tenant := nbits body 0 8
  if !s.commands sess then .next (s.later sess (.hostnote sess hdr body))
  else if !hdrOk 4 24 hdr ∨ nbits body 16 48 ≠ 0 then .next (s.reply sess tenant (tagOf hdr) (kindOf hdr) 1)
  else if !s.bound sess tenant then .next (s.reply sess tenant (tagOf hdr) 4 2)
  else if !s.faultRoom tenant then .next (s.later sess (.hostnote sess hdr body))
  else
    let n : Note := { kind := 0x10, die := 0xFF, status := nbits body 8 8, p0 := bits body 64 64, p1 := bits body 128 64, launch := 0 }
    .next ((s.postFault tenant n).reply sess tenant (tagOf hdr) 4 0)

/-- A block of a tier that holds memory outside the dump region (R158, R384). -/
def blockIn (tier b : Nat) : Bool :=
  let pa := b * 65536
  if tier = 0 then isHbm pa && !isDump pa else isLpddr pa

/-- The block lies on a free list, or is about to return to one. -/
def State.onList (s : State) (b : Nat) : Bool :=
  (s.tables.free.any fun e => e.2.blocks.contains (b * 65536)) || s.tables.returning.any fun e => e.2 == b * 65536

/-- Two entries of a list are equal. -/
def repeats : List Nat → Bool
  | [] => false
  | x :: rest => rest.contains x || repeats rest

/-- The blocks of a BLOCKS_ADD may be added (R384). -/
def State.addable (s : State) (tenant die tier : Nat) (bs : List Nat) : Bool :=
  !repeats bs && (bs.all fun b => blockIn tier b && s.blkCount (b * 65536) == 0 && !s.onList b) &&
  decide ((s.freeList (freeKey die tenant tier)).length + bs.length ≤ 2 ^ 22)

/-- One block is zeroed under the tenant's key, gets its recorded die, and is pushed onto that die's list (R256, R384). -/
def State.addBlock (s : State) (tenant die b : Nat) : State :=
  let key := match s.tenant? tenant with | some x => x.keyx | none => 0
  let s := { s with power := { s.power with zeroing := s.power.zeroing ++ [(b * 1024, 1024, key)] } }
  (s.modTables fun x => { x with bdie := mput x.bdie b die }).returnBlock tenant (b * 65536)

/-- BLOCKS_ADD (R384): every block is checked before any is added. -/
def execBlocksAdd (sess : Nat) (hdr : BitVec 128) (head : BitVec 64) (blocks : List (BitVec 32)) (s : State) : Out :=
  let tenant := nbits head 0 8
  let die := nbits head 8 8
  let tier := nbits head 16 8
  let bs := blocks.map BitVec.toNat
  if !s.commands sess then .next (s.later sess (.blocksAdd sess hdr head blocks))
  else if !hdrOk 5 (8 + 4 * blocks.length) hdr ∨ 3 < die ∨ 1 < tier ∨ nbits head 24 8 ≠ 0 ∨ nbits head 32 32 ≠ bs.length then .next (s.reply sess tenant (tagOf hdr) (kindOf hdr) 1)
  else if !s.bound sess tenant then .next (s.reply sess tenant (tagOf hdr) 5 2)
  else if !s.addable tenant die tier bs then .next (s.reply sess tenant (tagOf hdr) 5 3)
  else .next ((bs.foldl (fun s b => s.addBlock tenant die b) s).reply sess tenant (tagOf hdr) 5 0)

/-! ### Sessions (R382, R383, R389) -/

/-- The delivery modes of an endpoint (R383): 0 command, 1 completion, 2 export, 3 management. -/
def endpointModes (endpoint : Nat) : List Delivery := match endpoint with
  | 0 => [.rod]
  | 1 => [.rud]
  | 2 => [.rud, .rudi]
  | 3 => [.rod]
  | _ => []

/-- The offer holds what its endpoint needs and nothing that the device does not support: one of its 16 ports, 8 lanes, the AI Full
profile, the endpoint's delivery modes, no mode beside the four of R382, and transport security (R382, R383; log 113, DEDUCED). -/
def offerOk (o : Offer) (endpoint : Nat) : Bool :=
  decide (o.port < 16) && o.lanes == 8 && o.aiFull && o.secured && !(endpointModes endpoint).isEmpty &&
    (endpointModes endpoint).all o.modes.contains && !o.modes.contains .other

/-- SESSION_SETUP: bound to one address and, but for management, to tenants; refused for anything not supported (R382). In
recovery only the management endpoint of port 0 is live (R389). -/
def execSessionSetup (sess remote endpoint : Nat) (tenants : List Nat) (offer : Offer) (s : State) : Out :=
  let up := s.host.phase == .running || (s.host.phase == .recovery && endpoint == 3 && offer.port == 0)
  if !up then .next s
  else if !offerOk offer endpoint || tenants.any (fun n => !tenantOk n) then
    .next (s.modHost fun h => { h with refusedSessions := h.refusedSessions + 1 })
  else .next (s.modHost fun h => { h with
    sessions := mput h.sessions sess
      { remote := remote, endpoint := endpoint, tenants := if endpoint = 3 then [] else tenants, port := offer.port } })

/-! ### Management (R329, R387, R388, R390) -/

/-- EXPORT: an export is set up, with a key of its tenant (R327), or revoked (R387). -/
def execExportCfg (x : Nat) (valid : Bool) (remote tenant base units : Nat) (perm : BitVec 3) (key : Nat) (s : State) : Out :=
  if !s.managed || 256 ≤ x then .next s
  else if !valid then .next (s.modHost fun h => { h with exports := mdel h.exports x })
  else if (match mget s.tables.keys key with | some k => k.tenant != tenant | none => true) || base % 65536 != 0 then .next s
  else .next (s.modHost fun h => { h with
    exports := mput h.exports x { remote := remote, tenant := tenant, base := base, units := units, perm := perm, key := key } })

/-- PEER_WINDOW: a window becomes VALID for a tenant, or no longer (R388). -/
def execPeerWindow (p : Nat) (valid : Bool) (tenant dest : Nat) (remote : RemoteExport) (s : State) : Out :=
  if !s.managed || 16 ≤ p then .next s
  else if !valid then .next (s.modHost fun h => { h with windows := mdel h.windows p })
  else .next (s.modHost fun h => { h with windows := mput h.windows p { tenant := tenant, dest := dest, remote := remote.number, units := remote.units, perm := remote.perm } })

/-- The tenant has a launch that is placed (R329). -/
def State.hasLaunch (s : State) (tenant : Nat) : Bool := s.work.launches.any fun e => e.2.tenant == tenant

/-- A tenant-table entry as it is read from 64 bytes, with the tenant's registers: SPILLB from the entry, the others at reset
for a new tenant (R74, R329). (Log 75, DEDUCED.) -/
def Tenant.set (old : Option Tenant) (entry : Vec) : Tenant :=
  let x := old.getD { entry := entry, spillb := 0, fnqb := 0, tnqb := 0, bbwin := 100, accthr := 256, flwm := 0, lser := 0,
                      tq := { seq := 0, dropped := 0 }, fq := { seq := 0, dropped := 0 }, waiting := [], tierWait := [], lost := 0, recs := [] }
  { x with entry := entry, spillb := bits entry 320 64 }

/-- A barrier entry is released if it is the tenant's (R328). -/
def freeBarriers (tenant : Nat) (m : Map Dword) : Map Dword := m.filter fun e => !(e.2.getLsbD 63 && nbits e.2 56 6 == tenant)

/-- Removing a tenant closes its regions and frees its shape records, barriers and free lists (R329). -/
def State.removeTenant (s : State) (tenant : Nat) (x : Tenant) : State :=
  let s := s.modTables fun y => { y with
    shapes := y.shapes.filter fun e => e.1 < x.shtb || x.shtb + 262144 ≤ e.1,
    dbars := freeBarriers tenant y.dbars,
    free := y.free.filter fun e => e.1 / 8 != tenant,
    returning := y.returning.filter fun e => e.1 != tenant,
    tenants := mdel y.tenants tenant }
  { s with dies := s.dies.map fun (e : Nat × Die) => (e.1, { e.2 with barriers := freeBarriers tenant e.2.barriers }),
           regions := s.regions.map fun (e : Nat × Region) => if e.2.tenant = tenant then (e.1, { e.2 with closing := true }) else e }

/-- TENANT_TABLE_CHANGE: only while the tenant has no resident launch, and with a key of the tenant's (R327, R329); an entry
that is not VALID removes the tenant; a tenant that is created finds every shape record at STATE 0 and GEN 1 (R333). Its reserved fields are kept and not looked at (log 101, DESIGN CHOICE). -/
def execTenantTableChange (tenant : Nat) (entry : BitVec 512) (s : State) : Out :=
  if !s.managed || !tenantOk tenant || s.hasLaunch tenant then .next s
  else if nbits entry 272 1 = 0 then
    .next (match s.tenant? tenant with
      | some x => s.removeTenant tenant x
      | none => s)
  else if (match mget s.tables.keys (nbits entry 256 16) with | some k => k.tenant != tenant | none => true) then .next s
  else
    let new := Tenant.set (s.tenant? tenant) entry
    let fresh (e : Nat × Vec) : Bool := (s.tenant? tenant).isSome || decide (e.1 < new.shtb) || decide (new.shtb + 262144 ≤ e.1)
    .next (s.modTables fun y => { y with tenants := mput y.tenants tenant new, shapes := y.shapes.filter fresh })

/-- ATTESTATION_REPORT: the SHA-512 digests of the running firmware and of the device record, the host's nonce, TIME and the serial, signed
under the identity key (R390; log 8, DESIGN CHOICE). -/
def execAttestationReport (nonce : BitVec 256) (s : State) : Out :=
  if !s.managed then .next s
  else
    let digests : BitVec 1024 := sha512 (storedBytes s.host.record.stored) ++ sha512 (storedBytes s.host.image)
    let s := s.timed
    let time : Dword := BitVec.ofNat 64 s.sched.time
    .next (s.post s.manager (.report digests nonce time Config.serial (Config.signature s.host.record.key digests nonce time Config.serial)))

/-! ### Accesses through exports (R387, R203, R386) -/

/-- The permission bit that an operation needs: 0 read, 1 write, 2 an atomic (R387). -/
def exportNeeds (op : Nat) : Nat := Nat.min op 2

/-- The size of an access: an atomic's is its own, aligned (R237). -/
def exportSize (op off size : Nat) : Bool :=
  op < 2 || (op ≤ 11 && (size == 4 || size == 8) && off % size == 0) || (op == 12 && size == 4 && off % 4 == 0) ||
  (op == 13 && size == 2 && off % 2 == 0)

/-- The export lets the access through (R387, R168). -/
def Export.allows (e : Export) (remote off op size : Nat) : Bool :=
  e.remote == remote && decide (off + size ≤ e.units * 65536) && e.perm.getLsbD (exportNeeds op) && exportSize op off size

/-- A session of the export endpoint binds the remote address and the tenant (R383). -/
def State.exportBound (s : State) (remote tenant : Nat) : Bool :=
  s.host.sessions.any fun e => e.2.endpoint == 2 && e.2.remote == remote && e.2.tenants.contains tenant

/-- Where a byte of a block lies whose migration has remapped it while its old block is not given back: in the new block (R179; log 15,
DESIGN CHOICE). -/
def State.movedTo (s : State) (pa : Nat) : Nat :=
  match s.dies.findSome? fun d => d.2.migQ.find? fun m => m.state == .release && !m.cow && m.oldBlk / 65536 == pa / 65536 with
  | some m => m.newBlk + pa % 65536
  | none => pa

/-- EXPORT_ACCESS: a read (0), a write (1) or an atomic (2 plus its operation, R237) of at most a line, performed at its home, or
refused; a write is answered once the RDC invalidations that it causes have completed (R203). The operand and the comparand of an atomic are the low two doublewords. (Log 74, DEDUCED.) -/
def execExportAccess (x remote off op size : Nat) (data : BitVec 512) (s : State) : Out :=
  if s.host.phase != .running || size = 0 || 64 < off % 64 + size then .next s
  else match mget s.host.exports x with
  | none => .next (s.post remote (.access remote false 0))
  | some e =>
    let pa := s.movedTo (e.base + off)
    let there := isHbm pa || isLpddr pa
    if !s.exportBound remote e.tenant || !e.allows remote off op size || !s.keyValid e.key || !there || (op != 1 && s.badAt pa size) then
      .next (s.post remote (.access remote false 0))
    else if s.zeroing (pa / 64) then
      .next (s.modHost fun h => { h with waiting := h.waiting ++ [(none, .exportAccess x remote off op size data)] })
    else
      let old : Vec := BitVec.ofNat 512 (ofBytes (s.homeBytes pa size e.key))
      let s := s.homeTraffic e.tenant pa
      let s := if op = 0 then s
        else if op = 1 then s.performWrite nobody 4 e.key (place pa (bytesOf data.toNat size))
        else (s.homeAtomic nobody 4 e.key pa (op - 2) size (nbits data 0 64) (nbits data 64 64)).2
      let s := if op = 0 then s else s.engInvals nobody
      .next (s.post remote (.access remote true old))

/-! ### The checkpoint (R395) -/

/-- CHECKPOINT: in the quiesced mode the launch unit stops and every launch is pre-empted; in the live mode the lines are
written back at once (R395). -/
def execCheckpoint (tag : BitVec 64) (live : Bool) (targets : List Nat) (s : State) : Out :=
  if !s.managed || s.host.ckpt.isSome || targets.isEmpty || 16 < targets.length || !targets.all s.egress then .next s
  else
    let s := s.modHost fun h => { h with ckpt := some { tag := tag, live := live, targets := targets }, quiesced := h.quiesced || !live }
    .next (if live then s.writeBackAll else s.modWork fun w => { w with paused := true })

/-- No thread of a launch is on a core, and a launch holds only the cores on which commands of its engines still run (R395, R372). -/
def State.quiet (s : State) : Bool :=
  (s.work.formes.all fun e => e.2.preempted) && s.work.launches.all fun e => e.2.cores.all fun c => s.active e.1 c

/-- The line of memory as the channels hold it, in ciphertext (R395). -/
def State.storedLine (s : State) (line : Nat) : Vec :=
  let dirty := match homeDie (line * 64) with | some d => (s.die d).l2dirty.contains line | none => false
  let m := if dirty then s.chan else s.mem
  let key := mgetD m.tags line (mgetD s.mem.tags line 0)
  cipherLine key line (m.bytes key (line * 64) 64)

/-- Every line that holds something, with its ciphertext: what has been written, and the margins (R167, R395). -/
def State.storedLines (s : State) : Map Vec :=
  let own := (s.mem.tags.filter fun e => !isDump (e.1 * 64)).map fun e => (e.1, s.storedLine e.1)
  s.allMargins.foldl (fun m e => mput m e.1 (cipherLine (s.keyData e.2.1) e.1 e.2.2)) own

/-- The lines from `lo` to before `hi` that a rising list leaves out, as first line and count. -/
def gaps (lo hi : Nat) : List Nat → List (Nat × Nat)
  | [] => if lo < hi then [(lo, hi - lo)] else []
  | x :: rest =>
    if x < lo ∨ hi ≤ x then gaps lo hi rest else (if lo < x then [(lo, x - lo)] else []) ++ gaps (x + 1) hi rest

/-- Every populated line outside the dump region goes to one of the targets with its physical address, in ciphertext as the channels hold
it; what the lines that nothing has written hold is open (R158, R395). (Log 72, DESIGN CHOICE.) -/
def State.ckptLines (s : State) (targets : List Nat) : List Posted :=
  let lines := s.storedLines
  let target (line : Nat) : Nat := targets.getD (line % targets.length) 0
  let bare := gaps 0 (0x005F80000000 / 64) (lines.map Prod.fst) ++ gaps (0x100000000000 / 64) (0x120000000000 / 64) (lines.map Prod.fst)
  (lines.map fun e => .line (target e.1) (e.1 * 64) e.2) ++ bare.map fun g => .blank (target g.1) (g.1 * 64) g.2

/-- CHECKPOINT_REPLY: the last target has acknowledged the last line; each line was read before (R395). A quiesced checkpoint
waits for the pre-emptions. The code that names the command in the reply is open. -/
def execCheckpointReply (s : State) : Out :=
  match s.host.ckpt with
  | none => .next s
  | some k =>
    if !k.live && !s.quiet then .next s
    else
      let s := if k.live then s else s.writeBackAll
      let kind := (Config.freeWord s.sched.fresh).toNat % 2 ^ 16
      let s := (s.ckptLines k.targets).foldl (fun s p => s.post (match p with | .line d _ _ => d | .blank d _ _ => d | _ => 0) p) s.tick
      let sess := match s.host.sessions.find? fun e => e.2.endpoint == 3 with | some e => e.1 | none => 0
      .next ((s.modHost fun h => { h with ckpt := none }).reply sess nobody k.tag kind 0)

/-- CHECKPOINT_RESUME: the launches that a quiesced checkpoint left pre-empted may be restored (R395, R374). -/
def execCheckpointResume (s : State) : Out :=
  if !s.managed || s.host.ckpt.isSome then .next s
  else .next ((s.modHost fun h => { h with quiesced := false }).modWork fun w => { w with paused := false })

end Sys2Proof.Machine
end

