-- ==== Sys2Proof/Machine/Power.lean ====
section
/-! DEFINITION. Sys2Proof/Machine/Power.lean: power, boot and reset (R186, R381, R389), the bounds of R391, clocks, voltages and
sensors (R392 to R394). -/

namespace Sys2Proof.Machine

/-! ### Power-on, reset, recovery (R186, R381, R389) -/

/-- The voltage of a clock step in the device record's table (R392). -/
def voltOf (r : DeviceRecord) (step : Nat) : Nat := r.volts.getD step 0

/-- Every row at its lowest step, under a device record (R389, R392; log 2, DESIGN CHOICE). -/
def startRows (r : DeviceRecord) : Map Row :=
  if voltOf r 0 = 0 then [] else (List.range 32).map fun k => (k, { Row.reset with volt := voltOf r 0 })

/-- The machine as reset leaves it, in a phase, with the image and the record that it runs on: what the boot flash holds, the model's own
bookkeeping and what has already been sent to the host stay. (Log 73, DEDUCED.) -/
def State.restart (s : State) (p : Phase) (image : Nat) (record : DeviceRecord) : State :=
  let r := State.reset
  { r with sched := { r.sched with agenda := s.sched.agenda, fresh := s.sched.fresh, nextId := s.sched.nextId },
           power := { r.power with rows := startRows record },
           host := { r.host with phase := p, image := image, record := record, flash := s.host.flash, posted := s.host.posted } }

/-- POWER_ON: the boot verifies the firmware image and the device record that the boot flash holds, and starts, or stays in recovery (R389).
The first power-on says what the flash holds (log 111, DESIGN CHOICE). -/
def execPowerOn (image : Nat) (imageOk : Bool) (record : DeviceRecord) (recordOk : Bool) (s : State) : Out :=
  if s.host.phase != .off then .next s
  else
    let held := s.host.flash.getD (image, record)
    .next ((s.restart (if imageOk && recordOk then .running else .recovery) held.1 held.2).modHost fun h => { h with flash := some held })

/-- POWER_OFF: all that the device and its memories hold is gone, the dump region too (R186); the boot flash keeps its images. -/
def execPowerOff (s : State) : Out := .next (s.restart .off s.host.image s.host.record)

/-- RECOVERY_IMAGE: in recovery, the management endpoint of port 0 takes a new image and record into the boot flash, both signed (R389). -/
def execRecoveryImage (image : Signed Nat) (record : Signed DeviceRecord) (s : State) : Out :=
  let reached := s.host.sessions.any fun e => e.2.endpoint == 3 && e.2.port == 0
  if s.host.phase != .recovery || !reached || !image.verifies || !record.verifies then .next s
  else .next (s.modHost fun h => { h with flash := some (image.item, record.item) })

/-- DEVICE_RESET: the host restarts the device after a dump, and the dump region keeps its contents (R186, R381). -/
def execDeviceReset (s : State) : Out :=
  if s.host.phase != .dumped then .next s
  else .next { s.restart .running s.host.image s.host.record with mem := s.mem.keep true }

/-! ### Sensors (R394) -/

/-- The row of a die by its number in the device (R9). -/
def rowNo (die row : Nat) : Nat := die * 8 + row
def rowOk (die row : Nat) : Bool := dieOk die && row < 8

/-- A sensor of a row; at reset it is trusted and has not been read (log 114, DESIGN CHOICE). -/
def Sensor.reset : Sensor := { value := none, changed := 0, bad := none }
def Row.sensor (x : Row) (i : Nat) : Sensor := mgetD x.sensors i Sensor.reset
def Row.untrusted (x : Row) (i : Nat) : Bool := (x.sensor i).bad.isSome
def Row.setSensor (x : Row) (i : Nat) (f : Sensor → Sensor) : Row := { x with sensors := mput x.sensors i (f (x.sensor i)) }

/-- The neighbours of temperature sensor `i` of a row (R394): that sensor of the rows beside it, or at an end of the die its row's other
one. -/
def State.neighbours (s : State) (r i : Nat) : List Sensor :=
  [if r % 8 = 0 then (s.row r).sensor (1 - i) else (s.row (r - 1)).sensor i,
   if r % 8 = 7 then (s.row r).sensor (1 - i) else (s.row (r + 1)).sensor i]

/-- Two readings are more than 15 degrees apart. -/
def apart (v : Int) (x : Sensor) : Bool := match x.value with
  | some w => decide (15 < v - w) || decide (15 < w - v)
  | none => false

/-- One second, in units of TIME. -/
def second : Nat := 1000000000

/-- A condition holds for which a sensor is untrusted (R394): a temperature sensor is stuck while both neighbours have changed, out of range, or
far from both; a current sensor has been shown to be so and not otherwise since (log 114, DESIGN CHOICE). -/
def State.doubtful (s : State) (r i : Nat) : Bool :=
  let x := (s.row r).sensor i
  let ns := s.neighbours r i
  match x.value with
  | none => x.stands
  | some v => x.stands || (i < 2 && ((decide (x.changed + second ≤ s.sched.time) && ns.all fun n => decide (x.changed < n.changed)) ||
      decide (v < -20) || decide (150 < v) || ns.all fun n => apart v n))

/-- A sensor is looked at: untrusted while a condition holds, and until a second has passed without one (R394). -/
def State.judge (s : State) (r i : Nat) : State :=
  let bad := s.doubtful r i
  s.modRow r fun x => x.setSensor i fun y =>
    if bad then { y with bad := some s.sched.time }
    else match y.bad with
      | some at_ => if at_ + second ≤ s.sched.time then { y with bad := none } else y
      | none => y

/-- Every sensor of a die is looked at. -/
def State.judgeDie (s : State) (die : Nat) : State :=
  (List.range 8).foldl (fun s k => ((s.judge (rowNo die k) 0).judge (rowNo die k) 1).judge (rowNo die k) 2) s

/-- A reading of a sensor arrives, with whether a condition for it stands that only its event shows. What has stood until now is looked at
first, and what the reading changes then. -/
def State.read (s : State) (die r : Nat) (x : SensorReading) (stands : Bool) : State :=
  let s := s.timed.judgeDie die
  (s.modRow r fun y => y.setSensor x.sensor fun z =>
    if z.value = some x.value then { z with stands := stands }
    else { z with value := some x.value, changed := s.sched.time, stands := stands }).judgeDie die

/-- The hottest of some readings. -/
def hottest (xs : List Int) : Option Int := xs.foldl (fun m x => match m with
  | some y => some (max x y)
  | none => some x) none

/-- The temperature of a row (R394): of its trusted sensors, and for each other one of the trusted neighbours plus 10 degrees, the hottest. -/
def State.rowTemp (s : State) (r : Nat) : Option Int :=
  let of_ (i : Nat) : List Int :=
    if (s.row r).untrusted i then
      (hottest ((s.neighbours r i).filterMap fun n => if n.bad.isNone then n.value else none)).toList.map (· + 10)
    else ((s.row r).sensor i).value.toList
  hottest (of_ 0 ++ of_ 1)

/-! ### The bounds of R391 and R394 -/

/-- The row must run at its lowest step: the power ceiling, or sensors that are untrusted (R391, R394). -/
def State.lowest (s : State) (r : Nat) : Bool :=
  let x := s.row r
  s.power.forced || x.untrusted 2 || (x.untrusted 0 && x.untrusted 1)

/-- A row that must run at its lowest step hops its clock there; its voltage follows (R392). -/
def State.lower (s : State) (r : Nat) : State :=
  if s.lowest r && ((s.row r).clock != 0 || (s.row r).hop.isSome) then s.modRow r fun x => { x with hop := some 0 } else s

/-- POWER_CEILING: every row goes to its lowest step (R391). -/
def execPowerCeiling (s : State) : Out :=
  let s := { s with power := { s.power with forced := true } }
  .next ((List.range 32).foldl State.lower s)

/-- POWER_CEILING_LIFTED (R391). -/
def execPowerCeilingLifted (s : State) : Out := .next { s with power := { s.power with forced := false } }

/-- A row reads the trip limit of the device record (R391, R394). -/
def State.tooHot (s : State) (r : Nat) : Bool := match s.rowTemp r with
  | some v => decide (s.host.record.trip ≤ v)
  | none => false

/-- THERMAL_TRIP: a trusted row reading at the trip limit; the clocks stop and the dump is made (R391, R381). Which core and
slot the dump's header names is open. -/
def execThermalTrip (die row : Nat) (s : State) : Out :=
  if !rowOk die row || s.host.phase != .running || !s.tooHot (rowNo die row) then .next s
  else
    let v := (Config.freeWord s.sched.fresh).toNat
    .next (fatalError s.tick (rowNo die row * 16 + v % 16) (v / 16 % 64) (Config.dumpCause 1).toNat)

/-- SENSOR_UNTRUSTED: a reading with which a temperature sensor becomes untrusted if a condition of R394 holds; the current sensor is
untrusted by the event, since no condition is stated for it (log 114, DESIGN CHOICE). -/
def execSensorUntrusted (die row : Nat) (x : SensorReading) (s : State) : Out :=
  if !rowOk die row || 2 < x.sensor then .next s
  else
    let s := s.read die (rowNo die row) x (x.sensor = 2)
    .next ((List.range 8).foldl (fun s k => s.lower (rowNo die k)) s)

/-- SENSOR_TRUSTED: a reading; a sensor whose last condition lies a second back is trusted again, and a current sensor's condition ends with
the first such reading (R394; log 114, DESIGN CHOICE). -/
def execSensorTrusted (die row : Nat) (x : SensorReading) (s : State) : Out :=
  if !rowOk die row || 2 < x.sensor then .next s
  else
    let s := s.read die (rowNo die row) x false
    .next ((List.range 8).foldl (fun s k => s.lower (rowNo die k)) s)

/-! ### Voltage and clock (R392, R393) -/

/-- A clock or voltage step: 0.6 to 3.3 GHz in steps of 50 MHz (R392). -/
def stepOk (k : Nat) : Bool := k ≤ 54

/-- The voltage that a step of the record's table gives, for a row's clock and the clock that it hops to (R392). -/
def State.needs (s : State) (x : Row) : Nat :=
  Nat.max (voltOf s.host.record x.clock) (voltOf s.host.record (x.hop.getD x.clock))

/-- A row's voltage may go to that of a step: it is never below what the clock needs, and a row that must run at its lowest step goes nowhere
else (R391, R392, R394). -/
def State.mayStep (s : State) (r step : Nat) : Bool :=
  stepOk step && s.needs (s.row r) ≤ voltOf s.host.record step && (!s.lowest r || step == 0)

/-- VOLTAGE_STEP: the row is held, and once none of its requests is in flight the voltage changes and the hold ends (R392, R379). -/
def execVoltageStep (die row step : Nat) (s : State) : Out :=
  let r := rowNo die row
  if !rowOk die row || !s.mayStep r step then .next s
  else if s.rowBusy r then .next (s.modRow r fun x => { x with held := true, wanted := some step })
  else .next (s.modRow r fun x => { x with volt := voltOf s.host.record step, held := false, wanted := none })

/-- The voltage step that a row goes to by itself: the one for which it is held, or the lowest of a row that must run there and whose clock
does (R391, R392, R394). -/
def State.nextStep (s : State) (r : Nat) : Option Nat :=
  let x := s.row r
  if s.lowest r && x.clock == 0 && x.hop.isNone && (x.volt != voltOf s.host.record 0 || x.held) then some 0 else x.wanted

/-- A row's voltage changes once it can; a step that the row may not go to any more is given up, and the hold with it (R379, R392). -/
def State.voltWork (s : State) : List (State → Out) :=
  (List.range 32).filterMap fun r => (s.nextStep r).map fun k =>
    if s.mayStep r k then execVoltageStep (r / 8) (r % 8) k
    else fun s => .next (s.modRow r fun x => { x with held := false, wanted := none })

/-- What the power controller does by itself: a row too hot trips, and the lowest voltages are reached (R391, R392). -/
def State.powerWork (s : State) : List (State → Out) :=
  ((List.range 32).filterMap fun r => if s.tooHot r then some (execThermalTrip (r / 8) (r % 8)) else none) ++ s.voltWork

/-- CLOCK_HOP: the hop takes effect at the next pass of the row's cores over position 0 (R392). -/
def execClockHop (die row step : Nat) (s : State) : Out :=
  let r := rowNo die row
  if !rowOk die row || !stepOk step || (s.row r).volt < voltOf s.host.record step || (s.lowest r && step != 0) then .next s
  else .next (s.modRow r fun x => { x with hop := some step })

/-- DROOP: a hop freezes on the slower clock, and completes once the droop clears (R393). -/
def execDroop (die row : Nat) (fires : Bool) (s : State) : Out :=
  let r := rowNo die row
  let x := s.row r
  if !rowOk die row then .next s
  else match x.hop with
  | none => .next s
  | some k =>
    if fires && !x.frozen then
      let s := s.modRow r fun x => { x with frozen := true, clock := Nat.min x.clock k }
      .next ((List.range 16).foldl (fun s j => s.countEvery (r * 16 + j) 0x51) s)
    else .next (s.modRow r fun x => { x with frozen := fires })

end Sys2Proof.Machine
end

