-- ==== Sys2Proof/Machine/Route.lean ====
section
/-! DEFINITION. Sys2Proof/Machine/Route.lean: routing batches (R273 to R277) and their instructions (R307, R308). -/

namespace Sys2Proof.Machine

/-! ### The configuration (R273) and the status word (R277) -/

def cfgK (c : BitVec 128) : Nat := nbits c 8 4
def cfgN (c : BitVec 128) : Nat := nbits c 16 13
def cfgE (c : BitVec 128) : Nat := nbits c 32 11
def cfgC (c : BitVec 128) : Nat := nbits c 48 13
def cfgX (c : BitVec 128) : Nat := nbits c 64 16
def cfgHbase (c : BitVec 128) : Nat := nbits c 80 9
def cfgTph (c : BitVec 128) : Nat := nbits c 96 13

/-- A configuration that R273 accepts. -/
def cfgOk (c : BitVec 128) : Bool :=
  within 1 8 (cfgK c) && within 1 4096 (cfgN c) && within 1 1024 (cfgE c) && within 1 4096 (cfgC c) && within 1 65535 (cfgX c) &&
  within 1 4096 (cfgTph c) && cfgHbase c + (cfgN c - 1) / cfgTph c ≤ 511 &&
  nbits c 3 5 == 0 && nbits c 12 4 == 0 && nbits c 29 3 == 0 && nbits c 43 5 == 0 && nbits c 61 3 == 0 && nbits c 89 7 == 0 &&
  nbits c 109 19 == 0

def stNobatch : Dword := 0x400
def stBadcfg : Dword := 0x200
def stBusy : Dword := 0x100
def stBadentry : Nat := 0x80
def stLate : Nat := 0x40
def stRefused : Nat := 0x20
def stDegen : Nat := 0x10

/-- An empty route entry (R277). -/
def emptyRoute : Dword := BitVec.allOnes 64

/-- The batch that a launch reaches: a free one, or another launch's, is none (R274). -/
def State.batchOf (s : State) (b launch : Nat) : Option Batch :=
  match mget s.work.batches b with
  | some x => if x.launch = launch ∧ x.state ≠ 0 then some x else none
  | none => none

def State.setBatch (s : State) (b : Nat) (x : Batch) : State := s.modWork fun w => { w with batches := mput w.batches b x }

/-! ### Contributions (R275) -/

/-- Keep an entry of a token: one for each expert, the one that precedes, and the first K in the order of R154. -/
def keep (k : Nat) (kept : List Nat) (e : Nat) : List Nat :=
  match kept.find? fun x => x / 2 ^ 32 == e / 2 ^ 32 with
  | some x => if precedes e x then (insertEntry e (kept.erase x)).take k else kept
  | none => (insertEntry e kept).take k

/-- Merge one contribution into a batch; whether an entry lay out of range. (Log 29, DEDUCED.) -/
def Batch.merge (x : Batch) (es : List Nat) : Batch × Bool :=
  es.foldl (fun (a : Batch × Bool) e =>
    let tok := e / 2 ^ 48
    if e = emptyEntry ∨ (unpack fmtF32 (e % 2 ^ 32)).isNan then a
    else if cfgN x.cfg ≤ tok ∨ cfgE x.cfg ≤ e / 2 ^ 32 % 2 ^ 16 then (a.1, true)
    else
      let old := (mgetD a.1.kept tok []).map BitVec.toNat
      ({ a.1 with kept := mput a.1.kept tok ((keep (cfgK x.cfg) old e).map (BitVec.ofNat 64)) }, a.2)) (x, false)

/-! ### Admission (R276) -/

/-- The score of a kept entry. -/
def entryScore (e : Dword) : Num := unpack fmtF32 (e.toNat % 2 ^ 32)
def entryExpert (e : Dword) : Nat := nbits e 32 16

/-- Insert a token by its score, larger first; on a tie the lower token, which came first, stays first. -/
def insertScore (x : Nat × Num) : List (Nat × Num) → List (Nat × Num)
  | [] => [x]
  | y :: rest => if numLt y.2 x.2 then x :: y :: rest else y :: insertScore x rest

/-- The tokens an expert admits, in ascending order: their slots are their places in this list. -/
def admitted (x : Batch) (e : Nat) : List Nat :=
  let cands := x.kept.filterMap fun t => (t.2.find? fun y => entryExpert y == e).map fun y => (t.1, entryScore y)
  let ranked := (cands.foldl (fun acc c => insertScore c acc) []).take (cfgC x.cfg)
  (cands.map Prod.fst).filter fun t => ranked.any fun r => r.1 == t

/-- A score that is a positive, normal, finite f32 (R276). -/
def positiveNormal (b : Nat) : Bool := b / 2 ^ 31 == 0 && within 1 254 (b / 2 ^ 23 % 256)

/-- Weights of a token's admitted scores, and DEGEN (R276). -/
def weights (ss : List Nat) : List Nat × Bool :=
  match ss with
  | [] => ([], false)
  | s0 :: rest =>
    let sum := rest.foldl (fun acc x => (fpAdd fmtF32 0 (unpack fmtF32 acc) (unpack fmtF32 x)).1) s0
    if positiveNormal sum then (ss.map fun x => (fpDiv fmtF32 0 (unpack fmtF32 x) (unpack fmtF32 sum)).1, false)
    else (ss.map fun _ => (fpDiv fmtF32 0 (dyadic 1 0) (dyadic ss.length 0)).1, true)

/-- The result of a token: its route entries in the order of R154, and its status (R277). -/
def routeResult (adm : Map (List Nat)) (tok : Nat) (kept : List Dword) : List Dword × Nat :=
  let got := kept.filterMap fun y => ((mgetD adm (entryExpert y) []).idxOf? tok).map fun slot => (y, slot)
  let w := weights (got.map fun g => g.1.toNat % 2 ^ 32)
  let es := (got.zip w.1).map fun g => BitVec.ofNat 64 (g.1.2 * 2 ^ 48 + entryExpert g.1.1 * 2 ^ 32 + g.2)
  (es, got.length + (if got.length < kept.length then stRefused else 0) + (if w.2 then stDegen else 0))

/-- ROUTING_ADMISSION (R276): a closed batch is admitted. -/
def execRoutingAdmission (b : Nat) (s : State) : Out :=
  match mget s.work.batches b with
  | none => .next s
  | some x =>
    if x.state ≠ 2 then .next s
    else
      let experts := ((x.kept.flatMap fun t => t.2.map entryExpert).foldl (fun (m : Map (List Nat)) e => mput m e []) [])
      let adm := experts.map fun (e : Nat × List Nat) => (e.1, admitted x e.1)
      .next (s.setBatch b { x with state := 3, result := x.kept.map fun t => (t.1, routeResult adm t.1 t.2) })

/-! ### The instructions (R307, R308) -/

/-- RTOPEN. -/
def execRtopen (d a : BitVec 7) (s : State) : Out :=
  let q := { reqDA (.rtopen d a) d a with commit := true }
  begin q s fun s t th =>
    if s.edge (coreOf t) none then .next (hold s t 14)
    else
    let cfg : BitVec 128 := (th.V a).setWidth 128
    let b := nbits cfg 0 3
    let done (s : State) (st : Dword) : Out := .next (finish s t (th.setS d st) q .seq)
    let x : Batch := { state := 1, launch := th.launch, cfg := cfg, reached := 0, counted := 0, kept := [], result := [] }
    if !cfgOk cfg then done s stBadcfg
    else match mget s.work.batches b with
    | none => done (s.setBatch b x) 0
    | some y =>
      if y.state = 0 then done (s.setBatch b x) 0
      else if y.launch ≠ th.launch then done s stNobatch
      else if y.state = 3 then done (s.setBatch b x) 0
      else done s stBusy

/-- RTSUB (R275): the X-th contribution closes the batch. -/
def execRtsub (d a b : BitVec 7) (s : State) : Out :=
  let q := { reqDAB (.rtsub d a b) d a b with commit := true }
  begin q s fun s t th =>
    if s.edge (coreOf t) none then .next (hold s t 14)
    else
    let n := nbits (th.S b) 0 3
    match s.batchOf n th.launch with
    | none => .next (finish s t (th.setS d stNobatch) q .seq)
    | some x =>
      let y := { x with reached := Nat.min 65535 (x.reached + 1) }
      if x.state ≠ 1 then .next (finish (s.setBatch n y) t (th.setS d (BitVec.ofNat 64 stLate)) q .seq)
      else
        let r := y.merge (entriesOf (th.V a))
        let z := { r.1 with counted := x.counted + 1, state := if cfgX x.cfg ≤ x.counted + 1 then 2 else 1 }
        .next (finish (s.setBatch n z) t (th.setS d (if r.2 then BitVec.ofNat 64 stBadentry else 0)) q .seq)

/-- RTCLOSE. -/
def execRtclose (d a : BitVec 7) (s : State) : Out :=
  let q := { reqDA (.rtclose d a) d a with commit := true }
  begin q s fun s t th =>
    if s.edge (coreOf t) none then .next (hold s t 14)
    else
    let n := nbits (th.S a) 0 3
    match s.batchOf n th.launch with
    | none => .next (finish s t (th.setS d stNobatch) q .seq)
    | some x => .next (finish (s.setBatch n (if x.state = 1 then { x with state := 2 } else x)) t (th.setS d 0) q .seq)

/-- RTGET (R308): it waits until the batch is ADMITTED. (Log 30, DEDUCED.) -/
def execRtget (d a b : BitVec 7) (s : State) : Out :=
  let q : Req := { word := encodeNat (.rtget d a b), regs := [d.toNat, a.toNat, b.toNat, d.toNat + 1], reads := [a.toNat, b.toNat],
                   writes := [d.toNat, d.toNat + 1], commit := true }
  begin q s fun s t th =>
    if s.edge (coreOf t) none then .next (hold s t 14)
    else
    let tok := nbits (th.S a) 0 16
    let give (es : List Dword) (st : Nat) : Out :=
      let v := ofLanes 64 ((es ++ List.replicate (8 - es.length) emptyRoute).map BitVec.toNat)
      .next (finish s t ((th.setV d v).setV2 d (BitVec.ofNat 512 st)) q .seq)
    match s.batchOf (nbits (th.S b) 0 3) th.launch with
    | none => give [] stNobatch.toNat
    | some x =>
      if x.state ≠ 3 then .next (hold s t 14)
      else if cfgN x.cfg ≤ tok then give [] stBadentry
      else
        let r := mgetD x.result tok ([], 0)
        give r.1 r.2

/-- RTSTAT. -/
def execRtstat (d a : BitVec 7) (s : State) : Out :=
  let q := { reqDA (.rtstat d a) d a with commit := true }
  begin q s fun s t th =>
    if s.edge (coreOf t) none then .next (hold s t 14)
    else
    let v : Dword := match s.batchOf (nbits (th.S a) 0 3) th.launch with
      | none => stNobatch
      | some x => BitVec.ofNat 64 (x.state + x.reached * 2 ^ 16)
    .next (finish s t (th.setS d v) q .seq)

end Sys2Proof.Machine
end

