-- ==== Sys2Proof/Machine/Table.lean ====
section
/-! DEFINITION. Sys2Proof/Machine/Table.lean: the table changes of major 0x3E (R331 to R344). -/

namespace Sys2Proof.Machine

/-- A table function (R331): its level, a release at device scope before it and an acquire at device scope after its reply;
the table unit applies it in the step in which it issues, and a thread that waits for the reply is neither taken nor interrupted. `f` answers the state and the thread, or a fault, or a wait. -/
inductive Tbl where
  | done (s : State) (th : Thread)
  | fault (code : Nat) (v : Dword)
  | wait (cause : Nat) (s : State)

def tbl (q : Req) (s : State) (f : State → Nat → Thread → Tbl) : Out :=
  begin { q with commit := true, early := [.release 4, .edge none false] } s fun s t th =>
    match s.departs t th 4 none with
    | some c => .next (hold s t c)
    | none =>
      match f s t th with
      | .fault code v => raise s t q code v
      | .wait c s => .next (holdReply s t c)
      | .done s th => .next (finish (s.acquire t th 4) t th q .seq)

/-! ### Shape records (R333 to R335) -/

/-- The byte offset of the first field of a shape record that breaks R333. (Log 61, DEDUCED.) -/
def shapeFault (r : Vec) : Option Nat :=
  let ty := shapeType r
  let rank := shapeRank r
  let size := typeBytes ty
  let typed := ty ≤ 11
  let extBad (d : Nat) : Bool :=
    let e := shapeExt r d
    e == 0 || decide (2 ^ 24 < e) || (decide (rank ≤ d) && e != 1)
  let strideBad (d : Nat) : Bool := (typed && shapeStride r d % size != 0) || (decide (rank ≤ d) && shapeStride r d != 0)
  if typed && shapeBase r % size != 0 then some 0
  else if !typed then some 8
  else if rank = 0 ∨ 4 < rank then some 9
  else if nbits r 104 24 ≠ 0 then some 13
  else match (List.range 4).find? extBad with
    | some d => some (16 + 4 * d)
    | none => ((List.range 4).find? strideBad).map fun d => 32 + 8 * d

/-- A shape record that nothing has defined: STATE 0 and GEN 1 (R333). -/
def freshShape : Vec := BitVec.ofNat 512 (2 ^ 80)

def State.shapeAt (s : State) (a : Nat) : Vec := mgetD s.tables.shapes a freshShape
def State.setShape (s : State) (a : Nat) (r : Vec) : State := s.modTables fun x => { x with shapes := mput x.shapes a r }

/-- SHDEF (R333). -/
def execShdef (a b : BitVec 7) (s : State) : Out :=
  tbl { word := encodeNat (.shdef a b), regs := [a.toNat, b.toNat], reads := [b.toNat], writes := [a.toNat] } s fun s _ th =>
    match shapeFault (th.V b) with
    | some o => .fault 0x06 (BitVec.ofNat 64 o)
    | none =>
      match s.tenant? th.tenant with
      | none => .done s (th.setS a 0)
      | some x =>
        match (List.range 4096).find? fun k => nbits (s.shapeAt (x.shtb + 64 * k)) 96 8 == 0 with
        | none => .done s (th.setS a 0)
        | some k =>
          let gen := nbits (s.shapeAt (x.shtb + 64 * k)) 80 12
          .done (s.setShape (x.shtb + 64 * k) (setBits (setBits (th.V b) 80 16 gen) 96 8 1)) (th.setS a (BitVec.ofNat 64 (gen * 2 ^ 20 + k)))

/-- The record that a handle of a thread matches, and its address (R322). -/
def State.handle (s : State) (th : Thread) (v : Dword) : Option (Nat × Vec) :=
  match s.tenant? th.tenant with
  | none => none
  | some x => (s.shapeRec th.tenant (v.toNat % 2 ^ 32)).map fun r => (x.shtb + 64 * (v.toNat % 2 ^ 20), r)

/-- SHRET (R334, R322). -/
def execShret (b : BitVec 7) (s : State) : Out :=
  tbl { word := encodeNat (.shret b), regs := [b.toNat], reads := [b.toNat] } s fun s _ th =>
    match s.handle th (th.S b) with
    | none => .fault 0x09 (th.S b)
    | some (p, r) =>
      let gen := if nbits r 80 12 = 4095 then 1 else nbits r 80 12 + 1
      .done (s.setShape p (setBits (setBits r 80 16 gen) 96 8 0)) th

/-- SHGET (R335). -/
def execShget (a b : BitVec 7) (s : State) : Out :=
  tbl { word := encodeNat (.shget a b), regs := [a.toNat, b.toNat], reads := [b.toNat], writes := [a.toNat] } s fun s _ th =>
    match s.handle th (th.S b) with
    | none => .fault 0x09 (th.S b)
    | some (_, r) => .done s (th.setV a r)

/-! ### Block entries (R336 to R341) -/

/-- The block entry that an address names for a tenant (R336). -/
def State.entryOf (s : State) (tenant : Nat) (v : Dword) : Option Nat :=
  if 2 ^ 52 ≤ v.toNat then none
  else match s.walk tenant v.toNat with
    | .leaf e _ _ => if pteBlock e then some (ptePfn e + 16 * field v.toNat 16 14) else none
    | .fault _ => none

/-- A key index that the tenant may use: valid and its own (R327). -/
def State.ownsKey (s : State) (tenant k : Nat) : Bool := match mget s.tables.keys k with
  | some x => x.tenant == tenant
  | none => false

/-- A block entry from its fields (R315). -/
def blkMake (tier cow key b : Nat) : BitVec 128 :=
  BitVec.ofNat 128 (2 ^ 127 + tier * 2 ^ 126 + cow * 2 ^ 125 + key * 2 ^ 90 + b)

/-- BLKMAP (R337). -/
def execBlkmap (a b c : BitVec 7) (s : State) : Out :=
  tbl { word := encodeNat (.blkmap a b c), level := 1, regs := [a.toNat, b.toNat, c.toNat], reads := [b.toNat, c.toNat], writes := [a.toNat] } s
    fun s _ th =>
      let ctl := th.S c
      let key := nbits ctl 0 10
      if nbits ctl 14 50 ≠ 0 ∨ !s.ownsKey th.tenant key then .fault 0x06 ctl
      else match s.entryOf th.tenant (th.S b) with
      | none => .fault 0x06 (th.S b)
      | some e =>
        if blkWb (s.blk e) then .wait 15 s
        else if blkValid (s.blk e) then .done s (th.setS a 2)
        else match s.popBlock (nbits ctl 12 2) th.tenant (nbits ctl 10 1) with
        | none => .done s (th.setS a 1)
        | some (p, s) =>
          let s := (s.setCount p 1).setBlk e (blkMake (nbits ctl 10 1) 0 key p)
          let s := if ctl.getLsbD 11 then { s with power := { s.power with zeroing := s.power.zeroing ++ [(p / 64, 1024, key)] } } else s
          .done s (th.setS a 0)

/-- BLKREF (R338). -/
def execBlkref (a b c : BitVec 7) (s : State) : Out :=
  tbl { word := encodeNat (.blkref a b c), level := 1, regs := [a.toNat, b.toNat, c.toNat], reads := [b.toNat, c.toNat], writes := [a.toNat] } s
    fun s _ th =>
      match s.entryOf th.tenant (th.S b), s.entryOf th.tenant (th.S c) with
      | none, _ => .fault 0x06 (th.S b)
      | _, none => .fault 0x06 (th.S c)
      | some ed, some es =>
        let x := s.blk es
        if blkWb (s.blk ed) ∨ blkWb x then .wait 15 s
        else if !blkValid x then .done s (th.setS a 5)
        else if blkValid (s.blk ed) then .done s (th.setS a 2)
        else if s.blkCount (blkBase x) = 65535 then .done s (th.setS a 3)
        else
          let s := (s.setCount (blkBase x) (s.blkCount (blkBase x) + 1)).setBlk es (setBits x 125 1 1)
          .done (s.setBlk ed (blkMake (blkTier x) 1 (blkKey x) (blkBase x))) (th.setS a 0)

/-- BLKFREE (R339): a block whose count reaches 0 joins its list once every earlier access has completed. -/
def execBlkfree (a b : BitVec 7) (s : State) : Out :=
  tbl { word := encodeNat (.blkfree a b), level := 1, regs := [a.toNat, b.toNat], reads := [b.toNat], writes := [a.toNat] } s fun s _ th =>
    match s.entryOf th.tenant (th.S b) with
    | none => .fault 0x06 (th.S b)
    | some e =>
      let x := s.blk e
      let p := blkBase x
      let n := s.blkCount p
      let full := 2 ^ 22 ≤ (s.freeList (freeKey (mgetD s.tables.bdie (p / 65536) 0) th.tenant (if isHbm p then 0 else 1))).length
      if blkWb x then .wait 15 s
      else if !blkValid x then .done s (th.setS a 5)
      else if n = 1 && full then .done s (th.setS a 4)
      else
        let s := (s.setBlk e (setBits x 127 1 0)).setCount p (n - 1)
        let s := if 1 < n then s
                 else if s.blockInUse p then s.modTables fun y => { y with returning := y.returning ++ [(th.tenant, p)] }
                 else s.returnBlock th.tenant p
        .done s (th.setS a 0)

/-- BLKMIG (R340): the entry joins the migration queue of the die where the thread runs. -/
def execBlkmig (a b c : BitVec 7) (s : State) : Out :=
  tbl { word := encodeNat (.blkmig a b c), regs := [a.toNat, b.toNat, c.toNat], reads := [b.toNat, c.toNat], writes := [a.toNat] } s
    fun s t th =>
      let ctl := th.S c
      let die := dieOf (coreOf t)
      if nbits ctl 35 29 ≠ 0 then .fault 0x06 ctl
      else match s.entryOf th.tenant (th.S b) with
      | none => .fault 0x06 (th.S b)
      | some e =>
        let x := s.blk e
        if blkWb x then .wait 15 s
        else if !blkValid x then .done s (th.setS a 5)
        else if 1 < s.blkCount (blkBase x) then .done s (th.setS a 6)
        else if 64 ≤ (s.die die).migQ.length then .wait 6 s
        else
          let m : Mig := { id := s.sched.nextId, cow := false, entry := e, va := (th.S b).toNat, tenant := th.tenant,
                           die := nbits ctl 32 2, tier := nbits ctl 34 1, tag := nbits ctl 0 32, state := .queued, newBlk := 0, oldBlk := 0,
                           waiters := [] }
          .done (s.newId.modDie die fun y => { y with migQ := y.migQ ++ [m] }) (th.setS a 0)

/-- BLKST (R341): it does not wait for WB. -/
def execBlkst (a b : BitVec 7) (s : State) : Out :=
  tbl { word := encodeNat (.blkst a b), regs := [a.toNat, b.toNat], reads := [b.toNat], writes := [a.toNat] } s fun s t th =>
    match s.entryOf th.tenant (th.S b) with
    | none => .fault 0x06 (th.S b)
    | some e =>
      let x := s.blk e
      let n (tier : Nat) : Nat := (s.freeList (freeKey (dieOf (coreOf t)) th.tenant tier)).length
      let shown := setBits x 64 16 (if blkValid x then s.blkCount (blkBase x) else 0)
      .done s (th.setV a (BitVec.ofNat 512 (shown.toNat + n 0 * 2 ^ 128 + n 1 * 2 ^ 160)))

/-! ### Translation (R342) -/

/-- A cached translation of the tenant that lies in the page named, or any of the tenant. -/
def Tlb.named (x : Tlb) (tenant va size : Nat) (all : Bool) : Bool :=
  x.tenant == tenant && (all || (x.base < va - va % size + size && va - va % size < x.base + x.size))

/-- A page's size by its code (R180). -/
def pageSize (code : Nat) : Nat := [2 ^ 12, 2 ^ 16, 2 ^ 21, 2 ^ 25, 2 ^ 30].getD code (2 ^ 12)

/-- Accesses of a tenant that were translated and have not been performed, in a page that is named or in a larger one around it, which is
1 GiB at most: loads, stores and writes that a block window holds,
peer accesses, contributions to ordered entries (R342). A launch's key names its tenant, also when it is gone, and the machine slot's
launch 0 is of tenant 0. -/
def State.accessesOut (s : State) (tenant va size : Nat) (all : Bool) : Bool :=
  let near (a : Nat) : Bool := all || (va - va % size ≤ a && a < va - va % size + size)
  let ours (l : Nat) : Bool := l / 2 ^ 32 == tenant
  let out (r : Rob) : Bool := r.store.isSome || (match r.load with | some l => !l.landed && near l.ea | none => false)
  (s.threads.any fun e => e.2.tenant == tenant && (e.2.rob.any out || (match e.2.held with | some h => near h.va | none => false))) ||
  (s.flight.stores.any fun x => ours x.launch) || (s.flight.peers.any fun p => ours p.launch) ||
  s.dies.any fun d => d.2.ordered.any fun e => ours e.launch && near e.va

/-- TLBINV (R342): removes, then waits until every access translated through a removed entry has been performed; HARVEST merges
the dirty logs. -/
def execTlbinv (b c : BitVec 7) (s : State) : Out :=
  tbl { word := encodeNat (.tlbinv b c), level := 1, regs := [b.toNat, c.toNat], reads := [b.toNat, c.toNat] } s fun s _ th =>
    let ctl := th.S c
    let va := (th.S b).toNat
    let size := pageSize (nbits ctl 0 3)
    let all := ctl.getLsbD 8
    if nbits ctl 10 54 ≠ 0 ∨ nbits ctl 3 5 ≠ 0 ∨ 5 ≤ nbits ctl 0 3 then .fault 0x06 ctl
    else
      let keepT (x : Tlb) : Bool := !x.named th.tenant va size all
      let s := { s with
        cores := s.cores.map fun (e : Nat × Core) => (e.1, { e.2 with tlb := e.2.tlb.filter keepT }),
        clusters := s.clusters.map fun (e : Nat × Cluster) => (e.1, { e.2 with l2tlb := e.2.l2tlb.filter keepT }) }
      if s.accessesOut th.tenant va (Nat.max size (pageSize 4)) all then .wait 15 s
      else if ctl.getLsbD 9 then .done ((s.cores.map Prod.fst).foldl (fun s k => s.mergeDirty k) s) th
      else .done s th

/-! ### Positions and barriers (R343, R344) -/

/-- What stands against an `impset` of position `p` (R343). -/
def State.impsetBad (s : State) (t : Nat) (th : Thread) (p slot : Nat) (free : Bool) : Bool :=
  let c := coreOf t
  let x := s.core c
  let e := x.impView p
  let owner := impSlot e
  let mine := match s.launchOf th with
    | some l => impUsed e && impLidx e == l.lidx && l.cores.contains c
    | none => false
  let takes := match s.thread? (c * 64 + slot) with
    | some y => y.launch == th.launch && y.pl == 0 && (x.positionsOf slot).length < 8
    | none => false
  !mine || (!free && !takes) || (impThr e && x.positionsOf owner == [p] && (free || owner != slot))

/-- IMPSET (R343, R326). -/
def execImpset (b c : BitVec 7) (s : State) : Out :=
  tbl { word := encodeNat (.impset b c), regs := [b.toNat, c.toNat], reads := [b.toNat, c.toNat] } s fun s t th =>
    let p := nbits (th.S b) 0 6
    let slot := nbits (th.S c) 0 6
    let free := (th.S c).getLsbD 8
    if nbits (th.S b) 6 58 ≠ 0 then .fault 0x06 (th.S b)
    else if nbits (th.S c) 6 2 ≠ 0 ∨ nbits (th.S c) 9 55 ≠ 0 then .fault 0x06 (th.S c)
    else if s.impsetBad t th p slot free then .fault 0x06 (th.S b ||| (th.S c <<< 8))
    else
      let k := coreOf t
      let e := (s.core k).impView p
      let e1 := if free then setBits (setBits e 14 1 0) 0 6 0 else setBits (setBits e 14 1 1) 0 6 slot
      let s := (s.modCore k fun x => x.setImp p e1).keepPosition k (impSlot e)
      .done (if free then s else s.keepPosition k slot) th

/-- A barrier entry: of a die, or a device barrier (R328). -/
def State.barrier (s : State) (die i : Nat) : Dword :=
  if i < 32 then mgetD (s.die die).barriers i 0 else mgetD s.tables.dbars i 0
def State.setBarrier (s : State) (die i : Nat) (w : Dword) : State :=
  if i < 32 then s.modDie die fun x => { x with barriers := mputD x.barriers i w 0 }
  else s.modTables fun x => { x with dbars := mputD x.dbars i w 0 }

/-- TID and LSER of a thread's launch as a barrier keeps them. -/
def State.barOwner (s : State) (th : Thread) : Nat :=
  th.tenant * 2 ^ 56 + (match s.launchOf th with | some l => l.lser % 2 ^ 16 | none => 0) * 2 ^ 40

/-- A barrier entry is VALID for the thread's launch. -/
def State.barMine (s : State) (th : Thread) (w : Dword) : Bool :=
  w.getLsbD 63 && nbits w 56 6 * 2 ^ 56 + nbits w 40 16 * 2 ^ 40 == s.barOwner th

/-- A barrier is released: threads whose `await` it holds will find it so, but those whose episode has completed go on (R364). The await
of a thread that was taken off its slot, stopped or interrupted holds nothing: it is evaluated afresh (R359). -/
def State.releaseBar (s : State) (die i : Nat) : State :=
  let done (e : Nat) : Bool := nbits (s.barrier die i) 0 8 != e
  let mark (t : Nat) (th : Thread) : Thread :=
    match th.bar with
    | some b => if b.id = i ∧ b.freed = none ∧ (32 ≤ i ∨ dieOf (coreOf t) = die) then { th with bar := some { b with freed := some (done b.episode) } } else th
    | none => th
  { s with threads := s.threads.map fun e => (e.1, mark e.1 e.2) }

/-- BCFG (R344). -/
def execBcfg (a b c : BitVec 7) (s : State) : Out :=
  tbl { word := encodeNat (.bcfg a b c), regs := [a.toNat, b.toNat, c.toNat], reads := [b.toNat, c.toNat], writes := [a.toNat] } s
    fun s t th =>
      let i := (th.S b).toNat
      let ctl := th.S c
      let die := dieOf (coreOf t)
      let release := ctl.getLsbD 63
      let w := s.barrier die i
      if 39 < i then .fault 0x06 (th.S b)
      else if nbits ctl 16 47 ≠ 0 ∨ (!release && !within 1 32768 (nbits ctl 0 16)) then .fault 0x06 ctl
      else if !release then
        if w.getLsbD 63 then .done s (th.setS a 2)
        else .done (s.setBarrier die i (BitVec.ofNat 64 (2 ^ 63 + s.barOwner th + nbits ctl 0 16 * 2 ^ 24))) (th.setS a 0)
      else if !s.barMine th w then .fault 0x10 (BitVec.ofNat 64 i)
      else if nbits w 8 16 ≠ 0 then .done s (th.setS a 8)
      else .done ((s.setBarrier die i (setBits w 63 1 0)).releaseBar die i) (th.setS a 0)

end Sys2Proof.Machine
end

