-- ==== Sys2Proof/Machine/Wait.lean ====
section
/-! DEFINITION. Sys2Proof/Machine/Wait.lean: waits, timelines and barriers (R359 to R364). -/

namespace Sys2Proof.Machine

/-- WAIT (R360); a store that has not committed is outstanding too. (Log 59, DEDUCED.) -/
def execWait (l st c m : BitVec 4) (s : State) : Out :=
  let q := req0 (.wait l st c m)
  begin q s fun s t th =>
    let h := s.homeThread th
    let ok (n : BitVec 4) (k : Nat) : Bool := n == 15 || k ≤ n.toNat
    if !ok l th.loads then .next (hold s t 4)
    else if !ok st th.stores then .next (hold s t 5)
    else if !ok c h.cpOut || !ok m h.mxOut then .next (hold s t 7)
    else .next (finish s t th q .seq)

/-! ### Timelines (R361 to R363) -/

/-- The context that S(a) names: its home slot and its engine (R361). -/
def contextOf (th : Thread) (v : Dword) : Option (Nat × Bool) :=
  let matrix := v.getLsbD 0
  if nbits v 32 31 ≠ 0 ∨ nbits v 17 15 ≠ 0 ∨ nbits v 1 1 ≠ 0 then none
  else if v.getLsbD 63 then (if nbits v 2 15 = 0 then some (th.home, matrix) else none)
  else some ((nbits v 15 2 * 128 + nbits v 8 7) * 64 + nbits v 2 6, matrix)

/-- Commands of an ended thread's context are outstanding: they stand in the queue of some core (R361). -/
def State.outstanding (s : State) (launch home : Nat) (matrix : Bool) : Bool :=
  s.cores.any fun e =>
    if matrix then e.2.matQ.any fun m => m.home == home && m.launch == launch else e.2.copyQ.any fun m => m.home == home && m.launch == launch

/-- The context of a home slot belongs to the thread's launch (R361, R415): a live thread's, a pre-empted one's, or an ended one's
with commands outstanding; an ended one's that the thread already waits on stays in place. A supervisor slot's is its own only.
(Log 58, DEDUCED.) -/
def State.ownsContext (s : State) (t : Nat) (th : Thread) (home : Nat) (matrix waits : Bool) : Bool :=
  match s.thread? home with
  | some y => y.launch == th.launch && (y.pl == 0 || home == t)
  | none => match (s.savedAt home).bind (mget s.saved) with
    | some y => y.launch == th.launch
    | none => match mget (s.core (coreOf home)).oldCtx (slotOf home) with
      | some o => o.launch == th.launch && (s.outstanding th.launch home matrix || (waits && th.cause == some 7))
      | none => false

/-- Run a timeline instruction on the context that S(a) names; `waits` for one that may be waiting on it already. -/
def timeline (q : Req) (a : BitVec 7) (waits : Bool) (s : State) (k : State → Nat → Thread → Nat → Bool → Out) : Out :=
  begin q s fun s t th =>
    match contextOf th (th.S a) with
    | none => raise s t q 0x06 (th.S a)
    | some (home, matrix) => if s.ownsContext t th home matrix waits then k s t th home matrix else raise s t q 0x06 (th.S a)

/-- The number up to which the thread's uncommitted `tlwait`s have merged the flags of a context (R98, R229). -/
def Thread.mergedTo (th : Thread) (matrix : Bool) : Nat := th.rob.foldl (fun m e => match e.merge with
  | some (x, n) => if x == matrix then Nat.max m n else m
  | none => m) 0

/-- The flags of the commands above `lo` and up to `n` (R98). -/
def Eng.flagsTo (e : Eng) (lo n : Nat) : Flg :=
  (e.flags.filter fun f => lo < f.1 && f.1 ≤ n).foldl (fun acc f => acc ||| BitVec.ofNat 5 f.2) 0

/-- TLWAIT (R362): the flags that it merges leave the context when it commits (R229). -/
def execTlwait (a b : BitVec 7) (s : State) : Out :=
  let q := reqAB (.tlwait a b) a b
  timeline q a true s fun s t th home matrix =>
    let n := (th.S b).toNat
    let e := s.ctxOf home matrix
    let own := home == th.home
    let fails := match e.failed with | some (f, _) => decide (f ≤ n) | none => false
    if fails then
      let v := match e.failed with | some (f, c) => f % 2 ^ 48 + c * 2 ^ 48 | none => 0
      raise (if own && th.rob.isEmpty then s.modCtx home matrix Eng.reset else s) t q 0x08 (BitVec.ofNat 64 v)
    else if e.cnt < n then .next (hold s t 7)
    else if own then
      .next (finish (s.acquire t th 4) t (th.orFlags (e.flagsTo (th.mergedTo matrix) n)) q .seq { Rob.none with merge := some (matrix, n) })
    else .next (finish (s.acquire t th 4) t th q .seq)

/-- TLREAD (R363). -/
def execTlread (d a : BitVec 7) (s : State) : Out :=
  let q := reqDA (.tlread d a) d a
  timeline q a false s fun s t th home matrix => .next (finish s t (th.setS d (BitVec.ofNat 64 (s.ctxOf home matrix).cnt)) q .seq)

/-- TLNEXT (R363). -/
def execTlnext (d a : BitVec 7) (s : State) : Out :=
  let q := reqDA (.tlnext d a) d a
  timeline q a false s fun s t th home matrix => .next (finish s t (th.setS d (BitVec.ofNat 64 ((s.ctxOf home matrix).issued + 1))) q .seq)

/-! ### Barriers (R328, R364) -/

/-- The scope of a barrier: die or device (R199). -/
def barScope (i : Nat) : Nat := if i < 32 then 3 else 4
def barEpisode (w : Dword) : Nat := nbits w 0 8

/-- One more arrival; the one that reaches PARTIES completes the episode (R328). -/
def barArrive (w : Dword) : Dword :=
  if nbits w 8 16 + 1 = nbits w 24 16 then setBits (setBits w 8 16 0) 0 8 (barEpisode w + 1) else setBits w 8 16 (nbits w 8 16 + 1)

/-- What the release of a barrier's entry has found of the thread's wait there (R364). -/
def Thread.barOver (th : Thread) (i : Nat) : Option Bool := match th.bar with
  | some b => if b.id = i then b.freed else none
  | none => none

/-- Why an `await` at a barrier cannot go on: 0 not valid for the launch, 1 released while it waited (R364). -/
def State.barFault (s : State) (t : Nat) (th : Thread) (i : Nat) : Option Nat :=
  match th.barOver i with
  | some done => if done then none else some 1
  | none => if s.barMine th (s.barrier (dieOf (coreOf t)) i) then none else some 0

/-- The episode that an `await` awaits is still in progress (R364). -/
def State.barHolds (s : State) (t : Nat) (th : Thread) (i e : Nat) : Bool :=
  (th.barOver i).isNone && barEpisode (s.barrier (dieOf (coreOf t)) i) == e

/-- The await part: it goes on when the episode has moved (R364); `done` completes the instruction. -/
def awaitAt (q : Req) (s : State) (t : Nat) (th : Thread) (i e : Nat) (done : State → Thread → State) : Out :=
  match s.barFault t th i with
  | some r => raise (s.modThread t fun y => { y with wait := .none }) t q 0x10 (BitVec.ofNat 64 (i + r * 2 ^ 8))
  | none =>
    if s.barHolds t th i e then .next (hold (s.modThread t fun y => { y with bar := some { id := i, episode := e, freed := none } }) t 8)
    else .next (done (s.acquire t th (barScope i)) { th with wait := .none })

/-- ARRIVE (R364). -/
def execArrive (d i : BitVec 7) (s : State) : Out :=
  let q := { reqD (.arrive d i) d with legal := barrierOk i, commit := true }
  begin q s fun s t th =>
    let die := dieOf (coreOf t)
    let w := s.barrier die i.toNat
    if !s.barMine th w then raise s t q 0x10 (BitVec.ofNat 64 i.toNat)
    else match s.departs t th (barScope i.toNat) none with
    | some c => .next (hold s t c)
    | none => .next (finish (s.setBarrier die i.toNat (barArrive w)) t (th.setS d (BitVec.ofNat 64 (barEpisode w))) q .seq)

/-- AWAIT (R364). -/
def execAwait (a i : BitVec 7) (s : State) : Out :=
  let q := { reqA (.await a i) a with legal := barrierOk i, commit := true }
  begin q s fun s t th => awaitAt q s t th i.toNat (nbits (th.S a) 0 8) fun s th => finish s t th q .seq

/-- The episode of the `arwt` at the thread's pc, if the thread is in its await part (R364). (Log 77, DEDUCED.) -/
def Thread.awaits (th : Thread) : Option Nat := match th.wait with
  | .arwt e p => if p = th.ctx.pc then some e else none
  | _ => none

/-- The thread of an `arwt` that has arrived: S(d) holds the episode, and the await part holds the thread (R364). -/
def Thread.arrived (th : Thread) (d : BitVec 7) (i ep wdog : Nat) : Thread :=
  { th.setS d (BitVec.ofNat 64 ep) with
    wait := .arwt ep th.ctx.pc, wdog := wdog, idle := 0, uresm := false, cause := some 8,
    bar := some { id := i, episode := ep, freed := none } }

/-- ARWT (R364): its arrival issues once, and its cycle is the thread's (R349); then its await part holds the thread with the episode
it joined. A part that is over takes no cycle: the thread goes on with its next instruction. -/
def execArwt (d i : BitVec 7) (s : State) : Out :=
  let q := { reqD (.arwt d i) d with legal := barrierOk i, commit := true }
  begin q s fun s t th =>
    match th.awaits with
    | some e => awaitAt q s t th i.toNat e fun s th => complete s t th q .seq
    | none =>
      let die := dieOf (coreOf t)
      let w := s.barrier die i.toNat
      if !s.barMine th w then raise s t q 0x10 (BitVec.ofNat 64 i.toNat)
      else match s.departs t th (barScope i.toNat) none with
      | some c => .next (hold s t c)
      | none =>
        let s := s.setBarrier die i.toNat (barArrive w)
        let ep := barEpisode w
        if barEpisode (barArrive w) = ep then
          .next ((s.issuedBy t th).modThread t fun y => y.arrived d i.toNat ep (s.core (coreOf t)).wdog)
        else .next (finish (s.acquire t th (barScope i.toNat)) t (th.setS d (BitVec.ofNat 64 ep)) q .seq)

/-- BSTAT (R364). -/
def execBstat (d i : BitVec 7) (s : State) : Out :=
  let q := { reqD (.bstat d i) d with legal := barrierOk i, commit := true }
  begin q s fun s t th =>
    let w := s.barrier (dieOf (coreOf t)) i.toNat
    .next (finish s t (th.setS d (if s.barMine th w then w else 0)) q .seq)

end Sys2Proof.Machine
end

