-- ==== Sys2Proof/Machine/Dispatch.lean ====
section
/-! DEFINITION. Sys2Proof/Machine/Dispatch.lean: every row of the opcode table with its meaning, one arm each. -/

namespace Sys2Proof.Machine

/-- What an instruction or an event does to the device. -/
def exec (i : Instr) (s : State) : Host.Outcome State Fault Refusal :=
  match i with
  | .trap c => Sys2Proof.Machine.execTrap c s
  | .add d a b => Sys2Proof.Machine.execAdd d a b s
  | .sub d a b => Sys2Proof.Machine.execSub d a b s
  | .mul d a b => Sys2Proof.Machine.execMul d a b s
  | .mulh d a b => Sys2Proof.Machine.execMulh d a b s
  | .mulhn d a b => Sys2Proof.Machine.execMulhn d a b s
  | .div d a b => Sys2Proof.Machine.execDiv d a b s
  | .divn d a b => Sys2Proof.Machine.execDivn d a b s
  | .rem d a b => Sys2Proof.Machine.execRem d a b s
  | .remn d a b => Sys2Proof.Machine.execRemn d a b s
  | .and d a b => Sys2Proof.Machine.execAnd d a b s
  | .or d a b => Sys2Proof.Machine.execOr d a b s
  | .xor d a b => Sys2Proof.Machine.execXor d a b s
  | .andn d a b => Sys2Proof.Machine.execAndn d a b s
  | .shl d a b => Sys2Proof.Machine.execShl d a b s
  | .shr d a b => Sys2Proof.Machine.execShr d a b s
  | .sra d a b => Sys2Proof.Machine.execSra d a b s
  | .rotr d a b => Sys2Proof.Machine.execRotr d a b s
  | .min d a b => Sys2Proof.Machine.execMin d a b s
  | .max d a b => Sys2Proof.Machine.execMax d a b s
  | .minn d a b => Sys2Proof.Machine.execMinn d a b s
  | .maxn d a b => Sys2Proof.Machine.execMaxn d a b s
  | .cmpeq d a b => Sys2Proof.Machine.execCmpeq d a b s
  | .cmplt d a b => Sys2Proof.Machine.execCmplt d a b s
  | .cmpltn d a b => Sys2Proof.Machine.execCmpltn d a b s
  | .clz d a => Sys2Proof.Machine.execClz d a s
  | .ctz d a => Sys2Proof.Machine.execCtz d a s
  | .popc d a => Sys2Proof.Machine.execPopc d a s
  | .sext d a w => Sys2Proof.Machine.execSext d a w s
  | .zext d a w => Sys2Proof.Machine.execZext d a w s
  | .addi d a imm => Sys2Proof.Machine.execAddi d a imm s
  | .andi d a imm => Sys2Proof.Machine.execAndi d a imm s
  | .ori d a imm => Sys2Proof.Machine.execOri d a imm s
  | .xori d a imm => Sys2Proof.Machine.execXori d a imm s
  | .shli d a n => Sys2Proof.Machine.execShli d a n s
  | .shri d a n => Sys2Proof.Machine.execShri d a n s
  | .srai d a n => Sys2Proof.Machine.execSrai d a n s
  | .roti d a n => Sys2Proof.Machine.execRoti d a n s
  | .seqi d a imm => Sys2Proof.Machine.execSeqi d a imm s
  | .slti d a imm => Sys2Proof.Machine.execSlti d a imm s
  | .sltni d a imm => Sys2Proof.Machine.execSltni d a imm s
  | .movi d imm => Sys2Proof.Machine.execMovi d imm s
  | .movk d q v => Sys2Proof.Machine.execMovk d q v s
  | .sel d a b k => Sys2Proof.Machine.execSel d a b k s
  | .kcmp d a b c => Sys2Proof.Machine.execKcmp d a b c s
  | .kand d a b => Sys2Proof.Machine.execKand d a b s
  | .kor d a b => Sys2Proof.Machine.execKor d a b s
  | .kxor d a b => Sys2Proof.Machine.execKxor d a b s
  | .kandn d a b => Sys2Proof.Machine.execKandn d a b s
  | .knot d a => Sys2Proof.Machine.execKnot d a s
  | .kmov d a => Sys2Proof.Machine.execKmov d a s
  | .vtok d a => Sys2Proof.Machine.execVtok d a s
  | .ktov d a => Sys2Proof.Machine.execKtov d a s
  | .kpopc d a => Sys2Proof.Machine.execKpopc d a s
  | .vmask d a w => Sys2Proof.Machine.execVmask d a w s
  | .kfirst d a => Sys2Proof.Machine.execKfirst d a s
  | .ctlr d n => Sys2Proof.Machine.execCtlr d n s
  | .ctlw a n => Sys2Proof.Machine.execCtlw a n s
  | .ctls a n => Sys2Proof.Machine.execCtls a n s
  | .ctlc a n => Sys2Proof.Machine.execCtlc a n s
  | .ext imm w => Sys2Proof.Machine.execExt imm w s
  | .bt k d => Sys2Proof.Machine.execBt k d s
  | .bf k d => Sys2Proof.Machine.execBf k d s
  | .jmp d => Sys2Proof.Machine.execJmp d s
  | .call d => Sys2Proof.Machine.execCall d s
  | .jr a => Sys2Proof.Machine.execJr a s
  | .callr a => Sys2Proof.Machine.execCallr a s
  | .loopi l c e => Sys2Proof.Machine.execLoopi l c e s
  | .loop l a e => Sys2Proof.Machine.execLoop l a e s
  | .rpt n r d a b => Sys2Proof.Machine.execRpt n r d a b s
  | .join imm => Sys2Proof.Machine.execJoin imm s
  | .fstat d => Sys2Proof.Machine.execFstat d s
  | .fidx d => Sys2Proof.Machine.execFidx d s
  | .pick d n st => Sys2Proof.Machine.execPick d n st s
  | .mread d f st => Sys2Proof.Machine.execMread d f st s
  | .mnote st => Sys2Proof.Machine.execMnote st s
  | .wait l st c m => Sys2Proof.Machine.execWait l st c m s
  | .tlwait a b => Sys2Proof.Machine.execTlwait a b s
  | .tlread d a => Sys2Proof.Machine.execTlread d a s
  | .tlnext d a => Sys2Proof.Machine.execTlnext d a s
  | .arrive d imm => Sys2Proof.Machine.execArrive d imm s
  | .await a imm => Sys2Proof.Machine.execAwait a imm s
  | .arwt d imm => Sys2Proof.Machine.execArwt d imm s
  | .bstat d imm => Sys2Proof.Machine.execBstat d imm s
  | .send h a b => Sys2Proof.Machine.execSend h a b s
  | .rcv d => Sys2Proof.Machine.execRcv d s
  | .msk n => Sys2Proof.Machine.execMsk n s
  | .dep d a b => Sys2Proof.Machine.execDep d a b s
  | .arm d => Sys2Proof.Machine.execArm d s
  | .probe d => Sys2Proof.Machine.execProbe d s
  | .mig a => Sys2Proof.Machine.execMig a s
  | .migst d a => Sys2Proof.Machine.execMigst d a s
  | .spawn d a b => Sys2Proof.Machine.execSpawn d a b s
  | .dec a => Sys2Proof.Machine.execDec a s
  | .tself d => Sys2Proof.Machine.execTself d s
  | .rtopen d a => Sys2Proof.Machine.execRtopen d a s
  | .rtsub d a b => Sys2Proof.Machine.execRtsub d a b s
  | .rtclose d a => Sys2Proof.Machine.execRtclose d a s
  | .rtget d a b => Sys2Proof.Machine.execRtget d a b s
  | .rtstat d a => Sys2Proof.Machine.execRtstat d a s
  | .vadd d a b w => Sys2Proof.Machine.execVadd d a b w s
  | .vsub d a b w => Sys2Proof.Machine.execVsub d a b w s
  | .vmul d a b w => Sys2Proof.Machine.execVmul d a b w s
  | .vmac d a b w => Sys2Proof.Machine.execVmac d a b w s
  | .vmin d a b w => Sys2Proof.Machine.execVmin d a b w s
  | .vmax d a b w => Sys2Proof.Machine.execVmax d a b w s
  | .vminn d a b w => Sys2Proof.Machine.execVminn d a b w s
  | .vmaxn d a b w => Sys2Proof.Machine.execVmaxn d a b w s
  | .vand d a b w => Sys2Proof.Machine.execVand d a b w s
  | .vor d a b w => Sys2Proof.Machine.execVor d a b w s
  | .vxor d a b w => Sys2Proof.Machine.execVxor d a b w s
  | .vandn d a b w => Sys2Proof.Machine.execVandn d a b w s
  | .vshl d a b w => Sys2Proof.Machine.execVshl d a b w s
  | .vshr d a b w => Sys2Proof.Machine.execVshr d a b w s
  | .vsra d a b w => Sys2Proof.Machine.execVsra d a b w s
  | .vpopc d a w => Sys2Proof.Machine.execVpopc d a w s
  | .vceq d a b w => Sys2Proof.Machine.execVceq d a b w s
  | .vcne d a b w => Sys2Proof.Machine.execVcne d a b w s
  | .vclt d a b w => Sys2Proof.Machine.execVclt d a b w s
  | .vcge d a b w => Sys2Proof.Machine.execVcge d a b w s
  | .vcltn d a b w => Sys2Proof.Machine.execVcltn d a b w s
  | .vcgen d a b w => Sys2Proof.Machine.execVcgen d a b w s
  | .vfadd d a b f => Sys2Proof.Machine.execVfadd d a b f s
  | .vfsub d a b f => Sys2Proof.Machine.execVfsub d a b f s
  | .vfmul d a b f => Sys2Proof.Machine.execVfmul d a b f s
  | .vfma d a b f => Sys2Proof.Machine.execVfma d a b f s
  | .vfmin d a b f => Sys2Proof.Machine.execVfmin d a b f s
  | .vfmax d a b f => Sys2Proof.Machine.execVfmax d a b f s
  | .vfdiv d a b f => Sys2Proof.Machine.execVfdiv d a b f s
  | .vfsqrt d a f => Sys2Proof.Machine.execVfsqrt d a f s
  | .vfrcp d a f => Sys2Proof.Machine.execVfrcp d a f s
  | .vfrsq d a f => Sys2Proof.Machine.execVfrsq d a f s
  | .vfexp2 d a f => Sys2Proof.Machine.execVfexp2 d a f s
  | .vflog2 d a f => Sys2Proof.Machine.execVflog2 d a f s
  | .vfabs d a f => Sys2Proof.Machine.execVfabs d a f s
  | .vfneg d a f => Sys2Proof.Machine.execVfneg d a f s
  | .vfclt d a b f => Sys2Proof.Machine.execVfclt d a b f s
  | .vfceq d a b f => Sys2Proof.Machine.execVfceq d a b f s
  | .cvtBf16F32 d a st r => Sys2Proof.Machine.execCvtBf16F32 d a st r s
  | .cvtF16F32 d a st r => Sys2Proof.Machine.execCvtF16F32 d a st r s
  | .cvtF32Bf16 d a st r => Sys2Proof.Machine.execCvtF32Bf16 d a st r s
  | .cvtF32F16 d a st r => Sys2Proof.Machine.execCvtF32F16 d a st r s
  | .cvtE4m3F32 d a st r => Sys2Proof.Machine.execCvtE4m3F32 d a st r s
  | .cvtE5m2F32 d a st r => Sys2Proof.Machine.execCvtE5m2F32 d a st r s
  | .cvtF32E4m3 d a st r => Sys2Proof.Machine.execCvtF32E4m3 d a st r s
  | .cvtF32E5m2 d a st r => Sys2Proof.Machine.execCvtF32E5m2 d a st r s
  | .cvtI32F32 d a st r => Sys2Proof.Machine.execCvtI32F32 d a st r s
  | .cvtF32I32 d a st r => Sys2Proof.Machine.execCvtF32I32 d a st r s
  | .cvtI8I32 d a st r => Sys2Proof.Machine.execCvtI8I32 d a st r s
  | .cvtI32I8 d a st r => Sys2Proof.Machine.execCvtI32I8 d a st r s
  | .q4pack d a st r t => Sys2Proof.Machine.execQ4pack d a st r t s
  | .q4unpk d a st r => Sys2Proof.Machine.execQ4unpk d a st r s
  | .vrsum d a t => Sys2Proof.Machine.execVrsum d a t s
  | .vrmax d a t => Sys2Proof.Machine.execVrmax d a t s
  | .vrmin d a t => Sys2Proof.Machine.execVrmin d a t s
  | .vrarg d a t => Sys2Proof.Machine.execVrarg d a t s
  | .vrdot d a b t => Sys2Proof.Machine.execVrdot d a b t s
  | .vsplat d a w => Sys2Proof.Machine.execVsplat d a w s
  | .vshuf d a b w => Sys2Proof.Machine.execVshuf d a b w s
  | .vslup d a b w => Sys2Proof.Machine.execVslup d a b w s
  | .vsldn d a b w => Sys2Proof.Machine.execVsldn d a b w s
  | .vcomp d a w => Sys2Proof.Machine.execVcomp d a w s
  | .vexpd d a w => Sys2Proof.Machine.execVexpd d a w s
  | .vzip d a b w => Sys2Proof.Machine.execVzip d a b w s
  | .vunzip d a b w => Sys2Proof.Machine.execVunzip d a b w s
  | .ixdot d a b => Sys2Proof.Machine.execIxdot d a b s
  | .bmpfx d a => Sys2Proof.Machine.execBmpfx d a s
  | .ixcnt d a b => Sys2Proof.Machine.execIxcnt d a b s
  | .vtopk d a b => Sys2Proof.Machine.execVtopk d a b s
  | .vsort d a => Sys2Proof.Machine.execVsort d a s
  | .vmrg d a b => Sys2Proof.Machine.execVmrg d a b s
  | .ld d a st imm => Sys2Proof.Machine.execLd d a st imm s
  | .st d a st imm => Sys2Proof.Machine.execSt d a st imm s
  | .vld d a imm => Sys2Proof.Machine.execVld d a imm s
  | .vst d a imm => Sys2Proof.Machine.execVst d a imm s
  | .ldx d a b st x => Sys2Proof.Machine.execLdx d a b st x s
  | .stx d a b st x => Sys2Proof.Machine.execStx d a b st x s
  | .atomSwap d a b w => Sys2Proof.Machine.execAtomSwap d a b w s
  | .atomAdd d a b w => Sys2Proof.Machine.execAtomAdd d a b w s
  | .atomAnd d a b w => Sys2Proof.Machine.execAtomAnd d a b w s
  | .atomOr d a b w => Sys2Proof.Machine.execAtomOr d a b w s
  | .atomXor d a b w => Sys2Proof.Machine.execAtomXor d a b w s
  | .atomMin d a b w => Sys2Proof.Machine.execAtomMin d a b w s
  | .atomMax d a b w => Sys2Proof.Machine.execAtomMax d a b w s
  | .atomMinn d a b w => Sys2Proof.Machine.execAtomMinn d a b w s
  | .atomMaxn d a b w => Sys2Proof.Machine.execAtomMaxn d a b w s
  | .atomCas d a b w => Sys2Proof.Machine.execAtomCas d a b w s
  | .atomFaddF32 d a b => Sys2Proof.Machine.execAtomFaddF32 d a b s
  | .atomFaddBf16 d a b => Sys2Proof.Machine.execAtomFaddBf16 d a b s
  | .atomoSwap d a b w => Sys2Proof.Machine.execAtomoSwap d a b w s
  | .atomoAdd d a b w => Sys2Proof.Machine.execAtomoAdd d a b w s
  | .atomoAnd d a b w => Sys2Proof.Machine.execAtomoAnd d a b w s
  | .atomoOr d a b w => Sys2Proof.Machine.execAtomoOr d a b w s
  | .atomoXor d a b w => Sys2Proof.Machine.execAtomoXor d a b w s
  | .atomoMin d a b w => Sys2Proof.Machine.execAtomoMin d a b w s
  | .atomoMax d a b w => Sys2Proof.Machine.execAtomoMax d a b w s
  | .atomoMinn d a b w => Sys2Proof.Machine.execAtomoMinn d a b w s
  | .atomoMaxn d a b w => Sys2Proof.Machine.execAtomoMaxn d a b w s
  | .atomoCas d a b w => Sys2Proof.Machine.execAtomoCas d a b w s
  | .atomoFaddF32 d a b => Sys2Proof.Machine.execAtomoFaddF32 d a b s
  | .atomoFaddBf16 d a b => Sys2Proof.Machine.execAtomoFaddBf16 d a b s
  | .lda d a st c imm => Sys2Proof.Machine.execLda d a st c imm s
  | .stl d a st c imm => Sys2Proof.Machine.execStl d a st c imm s
  | .fenceAcq c => Sys2Proof.Machine.execFenceAcq c s
  | .fenceRel c => Sys2Proof.Machine.execFenceRel c s
  | .fenceFull c => Sys2Proof.Machine.execFenceFull c s
  | .fenceWb c => Sys2Proof.Machine.execFenceWb c s
  | .sld d a g => Sys2Proof.Machine.execSld d a g s
  | .sst d a g => Sys2Proof.Machine.execSst d a g s
  | .sadd d a g => Sys2Proof.Machine.execSadd d a g s
  | .scan d a n g => Sys2Proof.Machine.execScan d a n g s
  | .scnt d g => Sys2Proof.Machine.execScnt d g s
  | .pref a imm => Sys2Proof.Machine.execPref a imm s
  | .prefl2 a imm => Sys2Proof.Machine.execPrefl2 a imm s
  | .l1inv a imm => Sys2Proof.Machine.execL1inv a imm s
  | .zline a imm => Sys2Proof.Machine.execZline a imm s
  | .cpld a b => Sys2Proof.Machine.execCpld a b s
  | .cpst a b => Sys2Proof.Machine.execCpst a b s
  | .cpadd a b c => Sys2Proof.Machine.execCpadd a b c s
  | .cpgat a b c => Sys2Proof.Machine.execCpgat a b c s
  | .cpsca a b c => Sys2Proof.Machine.execCpsca a b c s
  | .kvld a b => Sys2Proof.Machine.execKvld a b s
  | .dens a b c => Sys2Proof.Machine.execDens a b c s
  | .cpfill a b => Sys2Proof.Machine.execCpfill a b s
  | .cpcopy a b c => Sys2Proof.Machine.execCpcopy a b c s
  | .mma a b c => Sys2Proof.Machine.execMma a b c s
  | .smma a b c => Sys2Proof.Machine.execSmma a b c s
  | .mzero a => Sys2Proof.Machine.execMzero a s
  | .mdrain a c => Sys2Proof.Machine.execMdrain a c s
  | .rcfg a b => Sys2Proof.Machine.execRcfg a b s
  | .rpush a b c => Sys2Proof.Machine.execRpush a b c s
  | .rpop a b c => Sys2Proof.Machine.execRpop a b c s
  | .shdef a b => Sys2Proof.Machine.execShdef a b s
  | .shret b => Sys2Proof.Machine.execShret b s
  | .shget a b => Sys2Proof.Machine.execShget a b s
  | .blkmap a b c => Sys2Proof.Machine.execBlkmap a b c s
  | .blkref a b c => Sys2Proof.Machine.execBlkref a b c s
  | .blkfree a b => Sys2Proof.Machine.execBlkfree a b s
  | .blkmig a b c => Sys2Proof.Machine.execBlkmig a b c s
  | .blkst a b => Sys2Proof.Machine.execBlkst a b s
  | .tlbinv b c => Sys2Proof.Machine.execTlbinv b c s
  | .impset b c => Sys2Proof.Machine.execImpset b c s
  | .bcfg a b c => Sys2Proof.Machine.execBcfg a b c s
  | .ptset d a b => Sys2Proof.Machine.execPtset d a b s
  | .keyld d a b => Sys2Proof.Machine.execKeyld d a b s
  | .qsce d a => Sys2Proof.Machine.execQsce d a s
  | .impw a b => Sys2Proof.Machine.execImpw a b s
  | .tstop a b => Sys2Proof.Machine.execTstop a b s
  | .tresume a => Sys2Proof.Machine.execTresume a s
  | .nop => Sys2Proof.Machine.execNop s
  | .halt => Sys2Proof.Machine.execHalt s
  | .brk => Sys2Proof.Machine.execBrk s
  | .yield => Sys2Proof.Machine.execYield s
  | .wfm => Sys2Proof.Machine.execWfm s
  | .ret => Sys2Proof.Machine.execRet s
  | .detach => Sys2Proof.Machine.execDetach s
  | .rti => Sys2Proof.Machine.execRti s
  | .migret => Sys2Proof.Machine.execMigret s
  | .tdone => Sys2Proof.Machine.execTdone s
  | .sysret => Sys2Proof.Machine.execSysret s
  | .dump => Sys2Proof.Machine.execDump s
  | .uresmWrite sup => Sys2Proof.Machine.execUresmWrite sup s
  | .coreclkWrite core v => Sys2Proof.Machine.execCoreclkWrite core v s
  | .evselWrite tid n v => Sys2Proof.Machine.execEvselWrite tid n v s
  | .wdogWrite core v => Sys2Proof.Machine.execWdogWrite core v s
  | .lpcWrite tid lvl v => Sys2Proof.Machine.execLpcWrite tid lvl v s
  | .launch sess msg => Sys2Proof.Machine.execLaunch sess msg s
  | .regionOpen sess hdr body => Sys2Proof.Machine.execRegionOpen sess hdr body s
  | .regionClose sess hdr body => Sys2Proof.Machine.execRegionClose sess hdr body s
  | .regionCloseEffect g => Sys2Proof.Machine.execRegionCloseEffect g s
  | .hostnote sess hdr body => Sys2Proof.Machine.execHostnote sess hdr body s
  | .blocksAdd sess hdr head blocks => Sys2Proof.Machine.execBlocksAdd sess hdr head blocks s
  | .checkpoint tag live targets => Sys2Proof.Machine.execCheckpoint tag live targets s
  | .checkpointReply => Sys2Proof.Machine.execCheckpointReply s
  | .attestationReport nonce => Sys2Proof.Machine.execAttestationReport nonce s
  | .exportCfg x valid remote tenant base units perm key => Sys2Proof.Machine.execExportCfg x valid remote tenant base units perm key s
  | .peerWindow p valid tenant dest remote => Sys2Proof.Machine.execPeerWindow p valid tenant dest remote s
  | .tenantTableChange tenant entry => Sys2Proof.Machine.execTenantTableChange tenant entry s
  | .proofingClear die tenant => Sys2Proof.Machine.execProofingClear die tenant s
  | .exportAccess x remote off op size data => Sys2Proof.Machine.execExportAccess x remote off op size data s
  | .peerPlacement id => Sys2Proof.Machine.execPeerPlacement id s
  | .powerOn image imageOk record recordOk => Sys2Proof.Machine.execPowerOn image imageOk record recordOk s
  | .deviceReset => Sys2Proof.Machine.execDeviceReset s
  | .powerCeiling => Sys2Proof.Machine.execPowerCeiling s
  | .thermalTrip die row => Sys2Proof.Machine.execThermalTrip die row s
  | .sensorUntrusted die row sensor => Sys2Proof.Machine.execSensorUntrusted die row sensor s
  | .sensorTrusted die row sensor => Sys2Proof.Machine.execSensorTrusted die row sensor s
  | .voltageStep die row step => Sys2Proof.Machine.execVoltageStep die row step s
  | .clockHop die row step => Sys2Proof.Machine.execClockHop die row step s
  | .droop die row fires => Sys2Proof.Machine.execDroop die row fires s
  | .powerBubble core p set => Sys2Proof.Machine.execPowerBubble core p set s
  | .launchSelect => Sys2Proof.Machine.execLaunchSelect s
  | .placement => Sys2Proof.Machine.execPlacement s
  | .formeCreation core launch => Sys2Proof.Machine.execFormeCreation core launch s
  | .terminationSweep launch => Sys2Proof.Machine.execTerminationSweep launch s
  | .preEmption forme => Sys2Proof.Machine.execPreEmption forme s
  | .restore forme => Sys2Proof.Machine.execRestore forme s
  | .bankClaim tid second => Sys2Proof.Machine.execBankClaim tid second s
  | .messageArrival id => Sys2Proof.Machine.execMessageArrival id s
  | .mailboxOverflow tid => Sys2Proof.Machine.execMailboxOverflow tid s
  | .handlerEntry tid => Sys2Proof.Machine.execHandlerEntry tid s
  | .depositArrival id => Sys2Proof.Machine.execDepositArrival id s
  | .decrement id => Sys2Proof.Machine.execDecrement id s
  | .guestAdmission core => Sys2Proof.Machine.execGuestAdmission core s
  | .copyCommandStart core => Sys2Proof.Machine.execCopyCommandStart core s
  | .copyCommandComplete core id => Sys2Proof.Machine.execCopyCommandComplete core id s
  | .engineFailed core id cause => Sys2Proof.Machine.execEngineFailed core id cause s
  | .tileGrant cluster => Sys2Proof.Machine.execTileGrant cluster s
  | .tileRetirement core id => Sys2Proof.Machine.execTileRetirement core id s
  | .drainTurn core id => Sys2Proof.Machine.execDrainTurn core id s
  | .drainComplete core id => Sys2Proof.Machine.execDrainComplete core id s
  | .orderedEntryCompletion die launch addr => Sys2Proof.Machine.execOrderedEntryCompletion die launch addr s
  | .take die => Sys2Proof.Machine.execTake die s
  | .remap die id => Sys2Proof.Machine.execRemap die id s
  | .release die id => Sys2Proof.Machine.execRelease die id s
  | .blockReturn block => Sys2Proof.Machine.execBlockReturn block s
  | .blockBusy tid => Sys2Proof.Machine.execBlockBusy tid s
  | .notificationRecord tenant => Sys2Proof.Machine.execNotificationRecord tenant s
  | .routingAdmission b => Sys2Proof.Machine.execRoutingAdmission b s
  | .regionPoint core id => Sys2Proof.Machine.execRegionPoint core id s
  | .loadDataReturn tid id => Sys2Proof.Machine.execLoadDataReturn tid id s
  | .storeAcknowledgement id => Sys2Proof.Machine.execStoreAcknowledgement id s
  | .invalidationComplete id => Sys2Proof.Machine.execInvalidationComplete id s
  | .dirtyLogMerge core => Sys2Proof.Machine.execDirtyLogMerge core s
  | .marginRecord id => Sys2Proof.Machine.execMarginRecord id s
  | .upcallRun core tenant => Sys2Proof.Machine.execUpcallRun core tenant s
  | .machineEntry core => Sys2Proof.Machine.execMachineEntry core s
  | .breakpoint tid => Sys2Proof.Machine.execBreakpoint tid s
  | .fatalError core slot cause => Sys2Proof.Machine.execFatalError core slot cause s
  | .watchdog tid => Sys2Proof.Machine.execWatchdog tid s
  | .yieldExpiry tid => Sys2Proof.Machine.execYieldExpiry tid s
  | .maskBoundExpiry tid => Sys2Proof.Machine.execMaskBoundExpiry tid s
  | .stateChangePass core => Sys2Proof.Machine.execStateChangePass core s
  | .logDrain core => Sys2Proof.Machine.execLogDrain core s
  | .proofingSample core => Sys2Proof.Machine.execProofingSample core s
  | .barrelIssue core => Sys2Proof.Machine.execBarrelIssue core s
  | .reservedWord x w => Sys2Proof.Machine.execReservedWord x w s
  | .translationWalk id => Sys2Proof.Machine.execTranslationWalk id s
  | .rdcInvalidation die line => Sys2Proof.Machine.execRdcInvalidation die line s
  | .frameZeroed line => Sys2Proof.Machine.execFrameZeroed line s
  | .migretArrival id => Sys2Proof.Machine.execMigretArrival id s
  | .uncorrectableError line => Sys2Proof.Machine.execUncorrectableError line s
  | .powerCeilingLifted => Sys2Proof.Machine.execPowerCeilingLifted s
  | .powerOff => Sys2Proof.Machine.execPowerOff s
  | .recoveryImage image record => Sys2Proof.Machine.execRecoveryImage image record s
  | .sessionSetup sess remote endpoint tenants offer => Sys2Proof.Machine.execSessionSetup sess remote endpoint tenants offer s
  | .checkpointResume => Sys2Proof.Machine.execCheckpointResume s
  | .dieEventCounterWrite die n sel v => Sys2Proof.Machine.execDieEventCounterWrite die n sel v s
  | .proofingSettings n shift => Sys2Proof.Machine.execProofingSettings n shift s

end Sys2Proof.Machine
end

