-- ==== Sys2Proof/Machine/Select.lean ====
section
/-! DEFINITION. Sys2Proof/Machine/Select.lean: what happens next (log 1, DESIGN CHOICE): an event of the environment, the instruction of the thread
whose turn it is, something that the device completes by itself, or a core's next cycle. -/

namespace Sys2Proof.Machine

/-! ### The instruction of the thread whose turn it is (R17, R20, R43, R127, R376) -/

/-- The functions of major 0x3F that have operands, from the fields of their word (R377 to R380). -/
def runHigh (w : Word) (s : State) : Out :=
  let d := bits w 19 7
  let a := bits w 12 7
  let b := bits w 5 7
  match nbits w 0 5 with
  | 0 => execPtset d a b s
  | 1 => execKeyld d a b s
  | 4 => execQsce d a s
  | 5 => execImpw a b s
  | 6 => execTstop a b s
  | _ => execTresume a s

/-- Run a word, and for an `ext` its partner: the decoded instruction's meaning, or what R55 says of a reserved word. -/
def runWord (w partner : Word) (s : State) : Out :=
  if isExt w then execExt (bits w 0 26) partner s
  else if (reservedBy w).isSome then execReservedWord none w s
  else if isHigh w.toNat then runHigh w s
  else match decodeMain w with
    | .ok i => exec i s
    | .error _ => execReservedWord none w s

/-- The fetch of an instruction faults (R43); of a pair's second word, at the `ext` (R50). -/
def fetchFault (s : State) (t : Nat) (th : Thread) (code : Nat) (pair : Bool) (a : Dword) : Out :=
  .next (if th.rob = [] then takeFault s t code 0 pair a th.ctx.pc else hold s t 4)

/-- The word at the pc; in a frame, stepped for its replay (R127). -/
def Thread.wordAt (th : Thread) (w : Word) : Word :=
  if th.ctx.framed then BitVec.ofNat 32 (stepWord th.ctx.rpts w.toNat (nbits th.ctx.rpts 4 6)) else w

/-- A replay runs the next captured word; after a restore the words are fetched again, from PC − 4 × POS on (R127, R128); a fetch
that is refused is reported at the replay that is next (log 127, DESIGN CHOICE). -/
def frameRun (s : State) (t : Nat) (th : Thread) : Out :=
  let pos := nbits th.ctx.rpts 0 4
  match th.ctx.frame[pos]? with
  | some w => runWord (th.wordAt w) 0 s
  | none => match s.fetchFrame t th (th.ctx.pc - BitVec.ofNat 64 (4 * pos)) (nbits th.ctx.rpts 16 4 + 1) with
    | .fault code a y => fetchFault (if th.rob = [] then y else s) t th code false a
    | .wait s => .next (hold s t 15)
    | .words ws s => .next (s.modThread t fun y => { y with ctx := { y.ctx with frame := ws } })

/-- Fetch the next instruction and run it; an `ext` needs its second word before anything else is said of the pair (log 128, DESIGN
CHOICE). -/
def fetchRun (s : State) (t : Nat) (th : Thread) : Out :=
  match s.fetch t th th.ctx.pc with
  | .fault code y => fetchFault (if th.rob = [] then y else s) t th code false th.ctx.pc
  | .wait s => .next (hold s t 15)
  | .word w s =>
    if isExt w then
      match s.fetch t th (th.ctx.pc + 4) with
      | .fault code y => fetchFault (if th.rob = [] then y else s) t th code true (th.ctx.pc + 4)
      | .wait s => .next (hold s t 15)
      | .word v s => runWord w v s
    else runWord w 0 s

/-- An attached member runs the next word of its buffer, or goes on privately if that is not its own next instruction (R20,
R22); without a word it waits, which counts as drift (R24). -/
def ribbonRun (s : State) (t : Nat) (th : Thread) : Out :=
  match th.ribbon with
  | [] => .next (hold s t 11)
  | w :: _ =>
    if w.pc ≠ th.ctx.pc then .next (s.setThread t th.detach)
    else runWord w.w0 w.w1 (s.setThread t { th with lead := some (w.next, w.taken) })

/-- What a step of a held instruction has changed outside its thread: regions, migrations, walks, requests to peers. -/
def State.sameUnits (s y : State) : Bool :=
  y.regions == s.regions && y.host == s.host && y.flight.walks == s.flight.walks &&
    (y.dies.map fun d => (d.1, d.2.migQ)) == s.dies.map fun d => (d.1, d.2.migQ)

/-- A stopped thread that is held for a reply goes on with that instruction alone, though none of its positions issues, and stops when the
reply has come (R209, R211, R380; log 139, DEDUCED). -/
def State.replyStep (t : Nat) (s : State) : Out :=
  match s.thread? t with
  | none => .next s
  | some th =>
    if !th.stopped || !th.reply then .next s
    else
      let x := { th with stopped := false }
      let u := { s with sched := { s.sched with cur := t, issue := false } }.setThread t x
      match if x.ctx.framed then frameRun u t x else if x.attached then ribbonRun u t x else fetchRun u t x with
      | .next y =>
        let z := { y with sched := { y.sched with cur := s.sched.cur, issue := s.sched.issue } }
        match y.thread? t with
        | some w =>
          if w.reply then .next (if s.sameUnits y then s else z.setThread t th)
          else .next ((z.setThread t (w.stop th.ending)).endNow t)
        | none => .next z
      | o => o

/-- A peer has refused a store of the thread: the fault is taken once its earlier instructions have committed (R387; log 115, DESIGN
CHOICE). -/
def State.peerFault (s : State) (t : Nat) (th : Thread) : State :=
  if th.rob ≠ [] then hold s t 4
  else takeFault (s.setThread t { th with refused := none }) t 0x06 0 false (th.refused.getD 0) th.ctx.pc

/-- The turn of the thread of `cur`: what its boundary holds comes first, a fault before a message (R367), then its next
instruction. -/
def takeTurn (s : State) : Out :=
  let t := s.sched.cur
  match s.thread? t with
  | none => .next s.fillOn
  | some th =>
    if !s.mayTry t then .next s.fillOn
    else if th.ending then .next (hold s t 5)
    else if s.toResume t th then .next (s.resume t)
    else if th.expired.isSome then .next (if th.rob.isEmpty then s.bark t th (th.expired.getD 15) else hold s t 4)
    else if th.refused.isSome then .next (s.peerFault t th)
    else if th.overflow.isSome && s.atBoundary t th then execMailboxOverflow t s
    else if s.yields th then .next (hold s t 15)
    else if s.enters t th then execHandlerEntry t s
    else if (s.breakpointAt t th).isSome then (if th.rob.isEmpty then execBreakpoint t s else .next (hold s t 4))
    else if th.ctx.framed then frameRun s t th
    else if th.attached then ribbonRun s t th
    else fetchRun s t th

/-! ### What the device completes by itself -/

/-- The first of several changes that changes anything. (Log 82, DESIGN CHOICE.) -/
def firstChange (s : State) : List (State → Out) → Option State
  | [] => none
  | f :: rest => match f s with
    | .next y => if y = s then firstChange s rest else some y
    | _ => firstChange s rest

/-- Memory and translation on their way (R162, R165, R166, R203, R229). -/
def State.memoryWork (s : State) : List (State → Out) :=
  (s.power.zeroing.take 1).map (fun z => execFrameZeroed z.1) ++
  s.flight.walks.map (fun w => execTranslationWalk w.id) ++
  (s.threads.flatMap fun e => e.2.rob.filterMap fun r => match r.load with
    | some l => if l.landed then none else some (execLoadDataReturn e.1 l.id)
    | none => none) ++
  s.flight.stores.map (fun x => execStoreAcknowledgement x.id) ++
  (s.flight.invals.flatMap fun x => x.dies.map fun d => execRdcInvalidation d x.line) ++
  s.flight.invals.map (fun x => execInvalidationComplete x.id) ++
  s.flight.peers.map (fun x => execPeerPlacement x.id) ++
  s.flight.margins.map (fun x => execMarginRecord x.id)

/-- Messages, deposits, decrements and returning threads (R64, R266, R269, R301): of deposits that arrive together that of the
lower core comes first (R66). -/
def State.messageWork (s : State) : List (State → Out) :=
  s.flight.msgs.map (fun p => execMessageArrival p.id) ++
  (sortBy Packet.srcCore s.flight.deposits).map (fun p => execDepositArrival p.id) ++
  s.flight.decs.map (fun p => execDecrement p.id) ++ s.flight.returns.map (fun r => execMigretArrival r.id)

/-- A thread's own: the end of a `yield`, of a masked section and of the thread, the registers that migration brings, and its banks
(R61, R76, R111, R296). -/
def State.threadWork (s : State) : List (State → Out) :=
  s.threads.flatMap fun e =>
    (match e.2.wait with | .yield 0 => [execYieldExpiry e.1] | _ => []) ++
    (if e.2.ctx.mskd && e.2.ctx.rem == 0 then [execMaskBoundExpiry e.1] else []) ++
    (if e.2.stopped && e.2.reply then [State.replyStep e.1] else []) ++
    (if e.2.ending then [fun s => .next (s.endNow e.1)] else []) ++
    (if e.2.coming.isEmpty then [] else [fun s => .next (s.receive e.1)]) ++
    (match e.2.claim with | some b => [execBankClaim e.1 b] | none => [])

/-- The engines of the cores (R201, R221, R246, R251, R252, R254). -/
def State.engineWork (s : State) : List (State → Out) :=
  (s.cores.flatMap fun e =>
    (if e.2.copyQ.isEmpty then [] else
      execCopyCommandStart e.1 :: e.2.copyQ.flatMap fun m => [execRegionPoint e.1 m.id, execCopyCommandComplete e.1 m.id]) ++
    (if e.2.matQ.isEmpty then [] else
      execTileGrant (clusterOf e.1) :: e.2.matQ.flatMap fun m =>
        [execTileRetirement e.1 m.id, execDrainTurn e.1 m.id, execDrainComplete e.1 m.id])) ++
  (s.clusters.flatMap fun e => if e.2.credit.isEmpty then [] else [execTileGrant e.1]) ++
  s.dies.flatMap fun e => e.2.ordered.map fun o => execOrderedEntryCompletion e.1 o.launch o.pa

/-- The block engines, regions and notification queues (R209, R255, R256, R258). -/
def State.tableWork (s : State) : List (State → Out) :=
  (s.dies.flatMap fun e => e.2.migQ.flatMap fun m => [execTake e.1, execRemap e.1 m.id, execRelease e.1 m.id]) ++
  s.tables.returning.map (fun x => execBlockReturn x.2) ++
  (s.tables.tenants.flatMap fun e => if e.2.waiting.isEmpty && e.2.tierWait.isEmpty then [] else [execNotificationRecord e.1]) ++
  (s.regions.flatMap fun e => (if e.2.closing then [execRegionCloseEffect e.1] else []) ++
    (match e.2.found with | some (o, _) => if o = nobody then [fun s => .next (s.reportLost e.2.tenant)] else [] | none => [])) ++
  s.cores.flatMap fun e => if 256 ≤ e.2.logged then [execDirtyLogMerge e.1] else []

/-- The supervisor and machine slots, guests, and what observes the cores (R272, R355, R357, R368, R375). -/
def State.coreWork (s : State) : List (State → Out) :=
  s.cores.flatMap fun e =>
    (if e.2.mq.isEmpty then [] else [execMachineEntry e.1]) ++ e.2.sups.map (fun u => execUpcallRun e.1 u.1) ++
    (if e.2.migrants.isEmpty then [] else [execGuestAdmission e.1]) ++
    (if e.2.passDue.isSome then [execStateChangePass e.1] else []) ++ (if e.2.sampleDue.isSome then [execProofingSample e.1] else [])

/-- The launch unit, the schedulers and the routing roots (R28, R262 to R264, R267, R276, R371, R374). -/
def State.launchWork (s : State) : List (State → Out) :=
  [execLaunchSelect, execPlacement] ++ (s.work.formes.map fun e => execPreEmption e.1) ++
  (s.work.formes.flatMap fun e => if e.2.preempted then [execRestore e.1] else []) ++
  (s.cores.flatMap fun e => (if e.2.waitTasks.isEmpty then [] else [execFormeCreation e.1 0]) ++
    e.2.runList.map fun k => execFormeCreation e.1 k.launch) ++
  (s.work.batches.flatMap fun e => if e.2.state = 2 then [execRoutingAdmission e.1] else []) ++
  s.work.launches.map fun e => execTerminationSweep e.1

/-- The next thing that the device completes by itself, if anything is under way (log 1, DESIGN CHOICE).
(Log 63, DESIGN CHOICE.) -/
def State.selfStep (s : State) : Option State :=
  firstChange s (s.memoryWork ++ s.messageWork ++ s.threadWork ++ s.coreWork ++ s.engineWork ++ s.tableWork ++ s.launchWork ++ s.powerWork)

/-! ### One step -/

/-- A row of the table that has no encoding and can befall the device: anything but an instruction and the reserved word. -/
def isEvent (i : Instr) : Bool :=
  encodeNat i == 0 && i != .nop && (match i with | .reservedWord _ _ => false | _ => true)

/-- The events that can befall the device in a phase: a device that runs takes all of them; one that is off only the power, one in
recovery its new images and sessions, one that has made a dump only the reset, one that is about to nothing (R381, R389). -/
def Phase.takes (p : Phase) (i : Instr) : Bool :=
  match p, i with
  | .running, _ => true
  | .off, .powerOn _ _ _ _ => true
  | .recovery, .recoveryImage _ _ => true
  | .recovery, .sessionSetup _ _ _ _ _ => true
  | .recovery, .powerOff => true
  | .dumped, .deviceReset => true
  | .dumped, .powerOff => true
  | .stopping _ _ _, .powerOff => true
  | _, _ => false

/-- A command that waits is tried again. -/
def Command.take (c : Command) (s : State) : Out :=
  match c with
  | .hostnote sess hdr body => execHostnote sess hdr body s
  | .regionOpen sess hdr body => execRegionOpen sess hdr body s
  | .regionClose sess hdr body => execRegionClose sess hdr body s
  | .launch sess msg => execLaunch sess msg s
  | .blocksAdd sess hdr head blocks => execBlocksAdd sess hdr head blocks s
  | .exportAccess x remote off op size data => execExportAccess x remote off op size data s

/-- What waits is taken up again, in its order; what cannot take effect yet waits on (R258, R384; log 84, DEDUCED). -/
def State.again (s : State) : State :=
  s.host.waiting.foldl (fun s c => match c.2.take s with | .next y => y | _ => s) (s.modHost fun h => { h with waiting := [] })

/-- What drains after a fatal error: lines that are being zeroed, stores, invalidations, messages, peer writes, margin records (R381). No load
returns to a core whose clock stands. -/
def State.drainWork (s : State) : List (State → Out) :=
  (s.power.zeroing.take 1).map (fun z => execFrameZeroed z.1) ++
  s.flight.stores.map (fun x => execStoreAcknowledgement x.id) ++
  (s.flight.invals.flatMap fun x => x.dies.map fun d => execRdcInvalidation d x.line) ++
  s.flight.invals.map (fun x => execInvalidationComplete x.id) ++
  s.flight.peers.map (fun x => execPeerPlacement x.id) ++
  s.flight.margins.map (fun x => execMarginRecord x.id) ++ s.messageWork

/-- After a fatal error: the routers drain, and then the dump is made (R381). -/
def State.stopStep (s : State) (core slot cause : Nat) : State := (firstChange s s.drainWork).getD (s.dump core slot cause)

/-- One step without an event of the environment. -/
def stepAlone (s : State) : Out :=
  match s.host.phase with
  | .stopping core slot cause => .next (s.stopStep core slot cause)
  | _ =>
  if s.host.phase != .running then .next s
  else if s.sched.issue then takeTurn s
  else match s.selfStep with
    | some y => .next y
    | none => execBarrelIssue s.sched.turn s.again

/-- One step (log 1, DESIGN CHOICE): the events of the environment come in their order, and then the device goes on. -/
def stepOnce (s : State) : Out :=
  match s.sched.agenda with
  | i :: rest =>
    let s := { s with sched := { s.sched with agenda := rest } }
    if isEvent i && s.host.phase.takes i then exec i s else .next s
  | [] => stepAlone s

end Sys2Proof.Machine
end

