-- ==== Sys2Proof/Machine/Setup.lean ====
section
/-! DEFINITION. Sys2Proof/Machine/Setup.lean: the load of a program that comes from outside the device (log 4, DESIGN CHOICE): one thread of one
launch of tenant 1, in slot 0 of core 0, stands before one instruction and has the turn. -/

namespace Sys2Proof.Machine

/-- Where the instruction lies, as a virtual and as a physical address. -/
def setupPc : Nat := 0x10000
/-- The page tables of the set-up: the root, and a table for each further level. -/
def setupTable (level : Nat) : Nat := 0x1000000 + 0x10000 * level
/-- The page of the instruction: readable, writable, executable, under key 1 (R310). -/
def setupPte : Dword := BitVec.ofNat 64 (2 ^ 63 + 2 ^ 62 + 2 ^ 59 + 2 ^ 46 + setupPc + 7)
/-- The launch record (R260): one slice, one position, grants of each kind, eight accumulators. -/
def setupRecord : BitVec 1024 :=
  BitVec.ofNat 1024 (1 + 2 ^ 16 + 2 ^ 32 + 2 ^ 48 + 2 ^ 56 + 2 ^ 256 + 2 ^ 288 + 2 ^ 296 + 2 ^ 304 + 2 ^ 312 + 8 * 2 ^ 320)
/-- The tenant-table entry (R329): its page tables, key 1, VALID, room for save records. -/
def setupEntry : Vec := BitVec.ofNat 512 (setupTable 0 + 0x4000000 * 2 ^ 64 + 2 ^ 256 + 2 ^ 272 + 2 ^ 288 + 16 * 2 ^ 384)
/-- Where the stack of the thread lies in HBM (log 4, DESIGN CHOICE). -/
def setupStack : Nat := 0x2000000
def setupLaunch : Launch :=
  { newLaunch 1 0 setupRecord with nslots := 16, cores := [0], lsBase := [(0, 0)], spBase := [(0, 65536)], accBase := [(0, [0, 1, 2, 3, 4, 5, 6, 7])] }
/-- The privilege at which a word of the major runs: machine for 0x3F, supervisor for 0x3E, else user (R51). -/
def setupLevel (w : Word) : Nat := if nbits w 26 6 = 0x3F then 2 else if nbits w 26 6 = 0x3E then 1 else 0
def setupThread (pl : Nat) : Thread :=
  { Thread.blank with
    ctx := { Ctx.zero with pc := BitVec.ofNat 64 setupPc }, pl := pl, tenant := 1, launch := launchKey 1 0, w := 128, forme := 1,
    stackBase := setupStack, res0 := true, res1 := true, fresh0 := false, fresh1 := false, bkSkip := true }
/-- The line of the instruction, whose `n` bytes are those of `w`, the rest zero. -/
def setupLine (n w : Nat) : List Byte := bytesOf (w % 2 ^ (8 * n)) 64

/-- The core's side: the position at which it stands, the cached page and line, and for a supervisor or machine word its run. -/
def Core.setup (x : Core) (pl : Nat) (line : Vec) : Core :=
  { x with
    pos := 0, imp := mput x.imp 0 0xC000,
    tlb := { tenant := 1, base := setupPc, size := 4096, pte := setupPte, dirty := true } :: x.tlb,
    l1i := mput x.l1i (cacheTag setupPc 1) line,
    sups := if pl = 1 then mput x.sups 1 { slot := 0, utsel := 0, queue := [], notice := false, run := some (launchKey 1 0), resumed := [] } else x.sups,
    mrun := x.mrun || pl == 2 }

/-- The tenant with the entry of the set-up. -/
def Tenant.forSetup (old : Option Tenant) : Tenant :=
  { entry := setupEntry, spillb := 0, fnqb := 0, tnqb := 0, bbwin := 100, accthr := 256, flwm := 0,
    lser := match old with | some x => x.lser + 1 | none => 1, tq := { seq := 0, dropped := 0 }, fq := { seq := 0, dropped := 0 },
    waiting := [], tierWait := [], lost := 0, recs := [0] }

/-- The tables' side: tenant, key, and the page tables that map the page. -/
def Tables.setup (x : Tables) : Tables :=
  let link (m : Map Dword) (k : Nat) : Map Dword := mput m (setupTable k) (BitVec.ofNat 64 (2 ^ 63 + setupTable (k + 1)))
  { x with
    tenants := mput x.tenants 1 (Tenant.forSetup (mget x.tenants 1)),
    keys := mput x.keys 1 { data := match mget x.keys 1 with | some k => k.data | none => 0, tenant := 1 },
    ptes := mput ((List.range 3).foldl link x.ptes) (setupTable 3 + 8 * 16) setupPte }

/-- The device with an instruction of `n` bits whose bits are `w` where the thread of slot 0 of core 0 issues next. -/
def State.setup (s : State) (n w : Nat) : State :=
  let line := setupLine (n / 8) w
  let pl := setupLevel (BitVec.ofNat 32 w)
  let task : Task := { launch := launchKey 1 0, addr := 0, record := 0, root := true }
  let s := s.modTables Tables.setup
  let s := s.modCore 0 fun x => x.setup pl (BitVec.ofNat 512 (ofBytes line))
  let s := s.setThread 0 (setupThread pl)
  let s := s.modWork fun y => { y with
    launches := mput y.launches (launchKey 1 0) setupLaunch,
    formes := mput y.formes 1 { launch := launchKey 1 0, task := task, f := 1, t := 1, tids := [0], ended := [], tdone := false, preempted := false } }
  let s := s.modHost fun h => { h with phase := .running }
  { s with
    mem := s.mem.puts (s.keyData 1) (place setupPc line),
    sched := { s.sched with cur := 0, issue := true, agenda := [], nextId := s.sched.nextId + 1 } }

end Sys2Proof.Machine
end

