-- ==== Sys2Proof/Machine/Step.lean ====
section
/-! DEFINITION. Sys2Proof/Machine/Step.lean: one step of the device, and the state in which it meets a given instruction first. -/

namespace Sys2Proof.Machine

/-- One step (log 1, DESIGN CHOICE). -/
def step (s : State) : Host.Outcome State Fault Refusal := stepOnce s

/-- `s` with an instruction of `nbits` bits whose bits are `w` as the next thing that happens (log 4, DESIGN CHOICE). -/
def State.withFetchWord (s : State) (nbits w : Nat) : State := s.setup nbits w

end Sys2Proof.Machine
end

