-- ==== Sys2Proof/Laws/Maps.lean ====
section
/-! SUPPORT. Sys2Proof/Laws/Maps.lean: what reading a map gives after a change, and that changes keep its keys rising. -/

namespace Sys2Proof.Machine

variable {α : Type}

theorem mget_mput_self (m : Map α) (k : Nat) (v : α) : mget (mput m k v) k = some v := by
  induction m with
  | nil => simp [mput, mget]
  | cons e rest ih =>
    obtain ⟨j, u⟩ := e
    simp only [mput]
    split
    · simp [mget]
    · split <;> simp_all [mget]

theorem mget_mput_ne (m : Map α) {j k : Nat} (v : α) (h : j ≠ k) : mget (mput m k v) j = mget m j := by
  induction m with
  | nil => simp [mput, mget, h]
  | cons e rest ih =>
    obtain ⟨i, u⟩ := e
    simp only [mput]
    split
    · simp [mget, h]
    · split
      · subst k; simp [mget, h]
      · simp [mget, ih]

/-- A read after a write: the value written, or what was there. -/
theorem mget_mput (m : Map α) (j k : Nat) (v : α) : mget (mput m k v) j = if j = k then some v else mget m j := by
  split
  · subst j; exact mget_mput_self m k v
  · exact mget_mput_ne m v ‹_›

@[simp] theorem mgetD_mput_self (m : Map α) (k : Nat) (v d : α) : mgetD (mput m k v) k d = v := by
  simp [mgetD, mget_mput_self]

theorem mgetD_mput_ne (m : Map α) {j k : Nat} (v d : α) (h : j ≠ k) : mgetD (mput m k v) j d = mgetD m j d := by
  simp [mgetD, mget_mput_ne m v h]

theorem mget_mdel (m : Map α) (j k : Nat) : mget (mdel m k) j = if j = k then none else mget m j := by
  induction m with
  | nil => simp [mdel, mget]
  | cons e rest ih =>
    obtain ⟨i, u⟩ := e
    simp only [mdel, List.filter_cons] at ih ⊢
    by_cases hik : i = k
    · subst hik
      simp only [bne_self_eq_false, Bool.false_eq_true, if_false]
      rw [ih]
      by_cases hj : j = i
      · simp [hj]
      · simp [mget, hj]
    · have : (i != k) = true := by simp [hik]
      simp only [this, if_true, mget]
      rw [ih]
      by_cases hji : j = i
      · subst hji; simp [hik]
      · simp [hji]

theorem mget_mmod (m : Map α) (j k : Nat) (f : α → α) :
    mget (mmod m k f) j = if j = k then (mget m k).map f else mget m j := by
  induction m with
  | nil => simp [mmod, mget]
  | cons e rest ih =>
    obtain ⟨i, u⟩ := e
    simp only [mmod, List.map_cons] at ih ⊢
    by_cases hi : i = k
    · subst hi
      by_cases hj : j = i
      · subst hj; simp [mget]
      · simp only [if_true, mget, hj, if_false, ih]
    · by_cases hj : j = i
      · subst hj; simp [mget, hi]
      · by_cases hjk : j = k
        · subst hjk; simp only [hi, if_false, mget, hj, ih, if_true]
        · simp only [hi, if_false, mget, hj, ih, hjk]

/-- A read after a write of a map in which an absent entry stands for `d`. -/
theorem mgetD_mputD [DecidableEq α] (m : Map α) (j k : Nat) (v d : α) :
    mgetD (mputD m k v d) j d = if j = k then v else mgetD m j d := by
  unfold mputD
  by_cases hv : v = d
  · subst hv
    simp only [if_true, mgetD, mget_mdel]
    split <;> simp
  · simp only [hv, if_false, mgetD, mget_mput]
    split <;> simp

/-- Every key of the map lies above `k`. -/
def keysAbove (k : Nat) (m : Map α) : Prop := ∀ e ∈ m, k < e.1

theorem keysAbove_cons {k : Nat} {e : Nat × α} {m : Map α} : keysAbove k (e :: m) ↔ k < e.1 ∧ keysAbove k m := List.forall_mem_cons

theorem keysAbove.mono {j k : Nat} {m : Map α} (h : keysAbove k m) (hj : j ≤ k) : keysAbove j m := fun e he => by
  have := h e he
  omega

theorem rising_cons {j : Nat} {u : α} {m : Map α} : rising ((j, u) :: m) = true ↔ keysAbove j m ∧ rising m = true := by
  induction m generalizing j u with
  | nil => simp [rising, keysAbove]
  | cons e rest ih =>
    simp only [rising, Bool.and_eq_true, decide_eq_true_eq, keysAbove_cons, and_assoc]
    exact ⟨fun h => ⟨h.1, (ih.mp h.2).1.mono (Nat.le_of_lt h.1), h.2⟩, fun h => ⟨h.1, h.2.2⟩⟩

theorem keysAbove_mput {j k : Nat} {m : Map α} {v : α} (h : keysAbove j m) (hk : j < k) : keysAbove j (mput m k v) := by
  induction m with
  | nil => simp [mput, keysAbove, hk]
  | cons e rest ih =>
    rw [keysAbove_cons] at h
    simp only [mput]
    split_ifs <;> simp [keysAbove_cons, hk, h, ih h.2]

/-- Setting an entry keeps the keys rising. -/
theorem rising_mput {m : Map α} (k : Nat) (v : α) (h : rising m = true) : rising (mput m k v) = true := by
  induction m with
  | nil => simp [mput, rising]
  | cons e rest ih =>
    obtain ⟨i, u⟩ := e
    have hr := rising_cons.mp h
    simp only [mput]
    split_ifs with h1 h2
    · exact rising_cons.mpr ⟨keysAbove_cons.mpr ⟨h1, hr.1.mono (Nat.le_of_lt h1)⟩, h⟩
    · exact h2 ▸ rising_cons.mpr hr
    · exact rising_cons.mpr ⟨keysAbove_mput hr.1 (by omega), ih hr.2⟩

/-- Removing entries keeps the keys rising. -/
theorem rising_filter {m : Map α} (p : Nat × α → Bool) (h : rising m = true) : rising (m.filter p) = true := by
  induction m with
  | nil => simp [rising]
  | cons e rest ih =>
    obtain ⟨i, u⟩ := e
    obtain ⟨ha, hr⟩ := rising_cons.mp h
    rw [List.filter_cons]
    split
    · exact rising_cons.mpr ⟨fun x hx => ha x (List.mem_filter.mp hx).1, ih hr⟩
    · exact ih hr

/-- Changing values keeps the keys rising. -/
theorem rising_map {β : Type} {m : Map α} (f : Nat × α → Nat × β) (hf : ∀ e, (f e).1 = e.1) (h : rising m = true) :
    rising (m.map f) = true := by
  induction m with
  | nil => simp [rising]
  | cons e rest ih =>
    obtain ⟨i, u⟩ := e
    obtain ⟨ha, hr⟩ := rising_cons.mp h
    have hfe : f (i, u) = (i, (f (i, u)).2) := Prod.ext (hf (i, u)) rfl
    rw [List.map_cons, hfe]
    refine rising_cons.mpr ⟨fun x hx => ?_, ih hr⟩
    obtain ⟨y, hy, rfl⟩ := List.mem_map.mp hx
    rw [hf y]; exact ha y hy

theorem rising_mdel {m : Map α} (k : Nat) (h : rising m = true) : rising (mdel m k) = true := rising_filter _ h

end Sys2Proof.Machine
end

