-- ==== Sys2Proof/Laws/Memory.lean ====
section
/-! SUPPORT. Sys2Proof/Laws/Memory.lean: every operation on memory keeps its canonical form: addresses strictly rising (log 5). -/

namespace Sys2Proof.Machine

theorem Memory.wf_iff (m : Memory) : m.wf = true ↔ rising m.cells = true ∧ rising m.tags = true := by
  simp [Memory.wf]

theorem Memory.empty_wf : Memory.empty.wf = true := rfl

theorem Memory.retag_wf {m : Memory} (key : Vec) (line : Nat) (h : m.wf = true) : (m.retag key line).wf = true := by
  rw [Memory.wf_iff] at h ⊢
  unfold Memory.retag
  split
  · split
    · exact h
    · refine ⟨rising_map _ (fun e => ?_) h.1, rising_mput _ _ h.2⟩
      split <;> rfl
  · exact ⟨h.1, rising_mput _ _ h.2⟩

theorem Memory.put_wf {m : Memory} (key : Vec) (a : Nat) (b : Byte) (h : m.wf = true) : (m.put key a b).wf = true := by
  have h := Memory.retag_wf key (a / 64) h
  rw [Memory.wf_iff] at h ⊢
  exact ⟨rising_mput _ _ h.1, h.2⟩

theorem Memory.puts_wf {m : Memory} (key : Vec) (ws : List (Nat × Byte)) (h : m.wf = true) : (m.puts key ws).wf = true := by
  unfold Memory.puts
  induction ws generalizing m with
  | nil => exact h
  | cons w rest ih => exact ih (Memory.put_wf key w.1 w.2 h)

theorem rising_foldl_mput {α : Type} (es : Map α) {m : Map α} (h : rising m = true) :
    rising (es.foldl (fun cs e => mput cs e.1 e.2) m) = true := by
  induction es generalizing m with
  | nil => exact h
  | cons e rest ih => exact ih (rising_mput _ _ h)

theorem Memory.copyLine_wf {dst src : Memory} (line : Nat) (h : dst.wf = true) : (dst.copyLine src line).wf = true := by
  rw [Memory.wf_iff] at h ⊢
  refine ⟨rising_foldl_mput _ (rising_filter _ h.1), ?_⟩
  unfold Memory.copyLine
  dsimp only
  split
  · exact rising_mput _ _ (rising_mdel _ h.2)
  · exact rising_mdel _ h.2

theorem Memory.keep_wf {m : Memory} (dump : Bool) (h : m.wf = true) : (m.keep dump).wf = true := by
  rw [Memory.wf_iff] at h ⊢
  exact ⟨rising_filter _ h.1, rising_filter _ h.2⟩

/-- Both memories, at the homes and at the channels, have their canonical form. -/
def State.memWf (s : State) : Prop := s.mem.wf = true ∧ s.chan.wf = true

theorem State.reset_memWf : State.reset.memWf := ⟨rfl, rfl⟩

/-- What a change of a die leaves of the memories. -/
theorem State.modDie_memWf {s : State} (d : Nat) (f : Die → Die) (h : s.memWf) : (s.modDie d f).memWf := h

theorem State.countDie_memWf {s : State} (d src n : Nat) (h : s.memWf) : (s.countDie d src n).memWf := by
  unfold State.countDie
  dsimp only
  split
  · exact h
  · exact h

theorem State.mend_memWf {s : State} (line : Nat) (offs : List Nat) (h : s.memWf) : (s.mend line offs).memWf := by
  unfold State.mend
  split <;> exact h

theorem State.dirtyLine_memWf {s : State} (line : Nat) (h : s.memWf) : (s.dirtyLine line).memWf := by
  unfold State.dirtyLine
  split
  · split
    · exact h
    · exact ⟨h.1, Memory.copyLine_wf line h.2⟩
  · exact h

theorem State.writeBack_memWf {s : State} (line : Nat) (h : s.memWf) : (s.writeBack line).memWf := by
  unfold State.writeBack
  split
  · refine State.countDie_memWf _ _ _ (State.modDie_memWf _ _ ⟨h.1, ?_⟩)
    have := (Memory.wf_iff _).mp h.2
    exact (Memory.wf_iff _).mpr ⟨rising_filter _ this.1, rising_mdel _ this.2⟩
  · exact h

theorem State.homeWrite_memWf {s : State} (key : Nat) (ws : List (Nat × Byte)) (h : s.memWf) : (s.homeWrite key ws).memWf := by
  unfold State.homeWrite
  cases ws with
  | nil => exact h
  | cons w rest =>
    have hd := State.dirtyLine_memWf (w.1 / 64) h
    exact State.mend_memWf _ _ ⟨Memory.puts_wf _ _ hd.1, hd.2⟩

theorem State.invalidates_memWf {s : State} (c : Bool) (f : Flight → Flight) (h : s.memWf) :
    (if c then s else (s.modFlight f).newId).memWf := by
  split <;> exact ⟨h.1, h.2⟩

/-- A write that is performed at its home keeps the form. -/
theorem State.performWrite_memWf {s : State} (tid d key : Nat) (ws : List (Nat × Byte)) (h : s.memWf) :
    (s.performWrite tid d key ws).memWf := by
  unfold State.performWrite
  cases ws with
  | nil => exact h
  | cons w rest =>
    have hw := State.homeWrite_memWf key (w :: rest) h
    have hd := State.modDie_memWf d (fun x => { x with rdc := mmod x.rdc (cacheTag w.1 key) (patch · (w :: rest)) })
      (State.mend_memWf (sramLine 3 d (w.1 / 64)) ((w :: rest).map Prod.fst) hw)
    exact State.invalidates_memWf _ _ hd

theorem State.writeBytes_memWf {s : State} (d key pa va : Nat) (bs : List Byte) (h : s.memWf) : (s.writeBytes d key pa va bs).memWf := by
  unfold State.writeBytes
  split
  · exact h
  · exact State.performWrite_memWf _ _ _ _ h

theorem State.placeBytesAt_memWf {s : State} (key pa : Nat) (bs : List Byte) (h : s.memWf) : (s.placeBytesAt key pa bs).memWf := by
  unfold State.placeBytesAt
  generalize List.range _ = l
  induction l generalizing s with
  | nil => exact h
  | cons i l ih => exact ih (State.performWrite_memWf _ _ _ _ h)

theorem State.sendCompletion_memWf {s : State} (n : Nat) (r : BitVec 256) (h : s.memWf) : (s.sendCompletion n r).memWf := by
  unfold State.sendCompletion State.post
  split <;> exact h

theorem State.modHost_memWf {s : State} (f : HostIf → HostIf) (h : s.memWf) : (s.modHost f).memWf := h

/-- A dump keeps the form, whatever it writes. -/
theorem State.dump_memWf {s : State} (core slot cause : Nat) (h : s.memWf) : (s.dump core slot cause).memWf := by
  have fold (l : List (Nat × Launch)) (u : State) (hu : u.memWf) :
      (l.foldl (fun s x => s.sendCompletion x.2.tenant (completion x.2 (s.lostOf x.2.tenant) 5 x.2.msgs s.sched.time)) u).memWf := by
    induction l generalizing u with
    | nil => exact hu
    | cons x l ih => exact ih _ (State.sendCompletion_memWf _ _ hu)
  rw [State.dump]
  generalize s.timed.dumpBytes core slot cause = bs
  have ht : s.timed.memWf := h
  apply State.modHost_memWf
  apply fold
  exact ⟨Memory.puts_wf _ _ (Memory.keep_wf _ ht.1), rfl⟩

end Sys2Proof.Machine
end

