-- ==== Sys2Proof/Safety.lean ====
section
/-! DEFINITION. Sys2Proof/Safety.lean: the terms in which claims speak of the machine: when an instruction may execute, what its
completion leaves unchanged, and which runs are safe. -/

namespace Sys2Proof.Machine

/-- The thread `th` in slot `t` has the turn, and an instruction with the requirements `q` may execute: it is legal (R55), the mode
allows it (R56), the window reaches its registers (R60), no attached member is DRIFT words behind (R20, R416), and its registers
are present, their banks resident and nothing that it waits for pending (R17, R63, R76, R229, R230). -/
structure MayExecute (q : Req) (s : State) (t : Nat) (th : Thread) : Prop where
  turn : s.sched.cur = t
  live : s.thread? t = some th
  legal : q.legal = true
  drift : s.paced th = false
  level : q.level ≤ th.pl
  window : th.badReg q.regs = none
  free : th.heldBy q = none

/-- Where an instruction starts that may execute: the words that a leader sends are sent (R20). -/
def State.begun (s : State) (t : Nat) (th : Thread) (q : Req) : State := s.sendAhead t th q

/-- The thread of such an instruction: a masked section has counted it (R296). -/
def State.runner (s : State) (t : Nat) (th : Thread) (q : Req) : Thread := (((s.begun t th q).thread? t).getD th).counted

/-- A core but for its event counters, the sample of the cycle, and the mark that an instruction has issued in the pass. -/
def Core.still (x : Core) : Core := { x with evs := [], issued := false, sampleDue := none }

/-- What is in flight but for records on their way to margin slots. -/
def Flight.still (f : Flight) : Flight := { f with margins := [] }

/-- Nothing of the device differs but the thread of slot `t`, the event counters, the words that a leader has sent ahead, and
the records on their way to margin slots. -/
structure Untouched (s s' : State) (t : Nat) : Prop where
  mem : s'.mem = s.mem
  chan : s'.chan = s.chan
  tables : s'.tables = s.tables
  saved : s'.saved = s.saved
  clusters : s'.clusters = s.clusters
  dies : s'.dies = s.dies
  regions : s'.regions = s.regions
  work : s'.work = s.work
  host : s'.host = s.host
  power : s'.power = s.power
  flight : s'.flight.still = s.flight.still
  cores : ∀ c, (s'.core c).still = (s.core c).still
  others : ∀ u, u ≠ t → (s'.thread? u).map Thread.ctx = (s.thread? u).map Thread.ctx

/-- The instruction completes: the machine goes on, the thread's context is `x`, and all else is as in `e`. -/
def Ends (i : Instr) (s : State) (t : Nat) (x : Ctx) (e : State) : Prop :=
  ∃ s', exec i s = .next s' ∧ (s'.thread? t).map Thread.ctx = some x ∧ Untouched e s' t

/-- The instruction completes with the context `x`, the thread that goes on is one of which `P` holds, and all else is as in `e`. -/
def EndsAs (i : Instr) (s : State) (t : Nat) (x : Ctx) (e : State) (P : Thread → Prop) : Prop :=
  ∃ s' y, exec i s = .next s' ∧ s'.thread? t = some y ∧ y.ctx = x ∧ P y ∧ Untouched e s' t

/-- The instruction completes, and nothing but its thread's context differs. -/
def Completes (i : Instr) (s : State) (t : Nat) (x : Ctx) : Prop := Ends i s t x s

/-- An instruction that only computes: whenever it may execute, it completes with `f` applied to its thread, and the thread goes
on at `nx` (R126, R296). -/
def Computes (q : Req) (i : Instr) (f : Thread → Thread) (nx : Thread → Next := fun _ => .seq) : Prop :=
  ∀ s t th, MayExecute q s t th → Completes i s t (advance (f th.counted).ctx q.pair (nx th.counted))

/-- The thread waits under cause `c` in the state `e`: nothing of it changes but the cause, and nothing else of the device does
(R17, R349). -/
def Waits (i : Instr) (s : State) (t c : Nat) (e : State) : Prop :=
  ∃ s', exec i s = .next s' ∧ s'.thread? t = (e.thread? t).map (fun x => { x with cause := some c }) ∧ Untouched e s' t

/-- A site whose record goes to the margin unit (R184): with room for the record the instruction completes as one that only computes
does, and without it waits under cause 15. -/
def Records (q : Req) (i : Instr) (f : Thread → Thread) (nx : Thread → Next := fun _ => .seq) : Prop :=
  ∀ s t th, MayExecute q s t th → let u := s.begun t th q; let v := s.runner t th q;
    (u.siteFull (coreOf t) v (v.PC q) = false → Completes i s t (advance (f v).ctx q.pair (nx v))) ∧
    (u.siteFull (coreOf t) v (v.PC q) = true → Waits i s t 15 u)

/-- The instruction raises the fault `code` with TRAPV `v`: the thread takes it at its pc once its earlier instructions have
committed, and waits for them before (R110, R229). -/
def Faults (i : Instr) (s : State) (q : Req) (u : State) (t : Nat) (th : Thread) (code : Nat) (v : Dword) (tcode : Nat := 0) : Prop :=
  exec i s = .next (if th.rob = [] then takeFault u t code tcode q.pair v th.ctx.pc else hold u t 4)

/-! ### Results of one shape -/

/-- S(d) becomes `f` of S(a) and S(b) (R113). -/
def Scalar3 (i : BitVec 7 → BitVec 7 → BitVec 7 → Instr) (f : Dword → Dword → Dword) : Prop :=
  ∀ d a b, Computes (reqDAB (i d a b) d a b) (i d a b) fun th => th.setS d (f (th.S a) (th.S b))

/-- S(d) becomes `f` of S(a) (R113 to R116). -/
def Scalar2 (i : BitVec 7 → BitVec 7 → Instr) (f : Dword → Dword) : Prop :=
  ∀ d a, Computes (reqDA (i d a) d a) (i d a) fun th => th.setS d (f (th.S a))

/-- Active lanes of V(d) become `f` of the lanes of V(a) and V(b), at the lane width; the others stay (R135, R137). -/
def Lanes3 (i : BitVec 7 → BitVec 7 → BitVec 7 → BitVec 2 → Instr) (f : Nat → Nat → Nat → Nat) : Prop :=
  ∀ d a b w, Computes (reqDAB (i d a b w) d a b) (i d a b w) fun th =>
    th.setV d (th.lanes (laneWidth w) d fun j => f (laneWidth w) (lane (th.V a) j (laneWidth w)) (lane (th.V b) j (laneWidth w)))

/-- The bits of active lanes of K(d) become the relation of the lanes of V(a) and V(b) (R141). -/
def Compares (i : BitVec 3 → BitVec 7 → BitVec 7 → BitVec 2 → Instr) (f : Nat → Nat → Nat → Bool) : Prop :=
  ∀ d a b w, Computes (reqAB (i d a b w) a b) (i d a b w) fun th =>
    th.setK d (th.laneMask (laneWidth w) (th.K d) fun j => f (laneWidth w) (lane (th.V a) j (laneWidth w)) (lane (th.V b) j (laneWidth w)))

/-- Number `j` of a register's lanes, in a format. -/
def Thread.num (th : Thread) (m : Fmt) (n : BitVec 7) (j : Nat) : Num := unpack m (lane (th.V n) j m.width)

/-- Active lanes of V(d) become a floating-point result, and the union of their flags joins FLG (R97, R142). -/
def Floats3 (i : BitVec 7 → BitVec 7 → BitVec 7 → BitVec 2 → Instr) (op : Fmt → Nat → Num → Num → Nat × Flg) : Prop :=
  ∀ d a b f, Computes { reqDAB (i d a b f) d a b with legal := fmtOk f } (i d a b f) fun th =>
    th.setLanes d (laneFmt f).width fun j => op (laneFmt f) th.rnd (th.num (laneFmt f) a j) (th.num (laneFmt f) b j)

/-- The same for one source (R142, R143). -/
def Floats2 (i : BitVec 7 → BitVec 7 → BitVec 2 → Instr) (op : Fmt → Nat → Num → Nat × Flg) : Prop :=
  ∀ d a f, Computes { reqDA (i d a f) d a with legal := fmtOk f } (i d a f) fun th =>
    th.setLanes d (laneFmt f).width fun j => op (laneFmt f) th.rnd (th.num (laneFmt f) a j)

/-- Active lanes of V(d), `wd` bits wide, become the conversion of the lanes of V(a), `ws` bits wide, in the instruction's rounding
mode; lanes without a source become 0 (R145). -/
def Converts (i : BitVec 7 → BitVec 7 → BitVec 1 → BitVec 3 → Instr) (ws wd : Nat) (f : BitVec 1 → Nat → Nat → Nat × Flg) : Prop :=
  ∀ d a z r, Computes { reqDA (i d a z r) d a with legal := roundOk r } (i d a z r) fun th =>
    th.setLanes d wd fun j => if j < 512 / ws then f z (th.modeOf r) (lane (th.V a) j ws) else (0, 0)

/-- Active lanes of V(d) become the lanes that a permute picks (R150). -/
def Permutes3 (i : BitVec 7 → BitVec 7 → BitVec 7 → BitVec 2 → Instr) (f : Nat → Vec → Vec → Nat → Nat) : Prop :=
  ∀ d a b w, Computes (reqDAB (i d a b w) d a b) (i d a b w) fun th =>
    th.setV d (th.lanes (laneWidth w) d fun j => f (laneWidth w) (th.V a) (th.V b) j)

/-! ### Accesses and engine commands of one shape -/

/-- A load of code `sz` at `ea` (R233, R235, R236, R240). Aligned, and with its location found, no earlier store of the thread to
the line on its way, and room in the margin unit for its record (R184), it is sent: it completes with an entry that waits for the data, and memory and everything else stay as the search
for the location left them. Not aligned, it is an ALIGNMENT fault with its address. -/
def LoadIssues (i : Instr) (q : Req) (d : BitVec 7) (sz : Nat) (ea : Thread → Dword) (scope : Option Nat) : Prop :=
  ∀ s t th, let req : Req := { q with access := true }; MayExecute req s t th →
    let u := s.begun t th req; let v := s.runner t th req;
    (∀ loc w, (ea v).toNat % loadBytes sz = 0 → u.resolve t v (ea v).toNat (loadBytes sz) 0 = .ok loc w → w.storePending v loc = false →
      w.siteFull (coreOf t) v (v.PC q) = false →
      EndsAs i s t (advance v.ctx q.pair .seq) w fun y => ∃ e l, y.rob = v.rob ++ [e] ∧ e.load = some l ∧ l.reg = v.regId d.toNat ∧
        l.sz = sz ∧ l.loc = loc ∧ l.ea = (ea v).toNat ∧ l.landed = false ∧ l.scope = scope) ∧
    ((ea v).toNat % loadBytes sz ≠ 0 → Faults i s q u t v 0x04 (ea v))

/-- Every line of which memory lists a byte has the key material that it was written under. -/
def Memory.tagged (m : Memory) : Prop := ∀ a, (mget m.cells a).isSome = true → (mget m.tags (a / 64)).isSome = true

/-- The offset in its memory at which a location lies. -/
def Loc.offset : Loc → Nat
  | .mem pa _ _ => pa
  | .scratch _ off => off
  | .localStore _ off _ => off
  | .peer _ off => off

/-- The request of a store: its bytes at their offsets. -/
def storeOf (loc : Loc) (va : Nat) (bytes : List (Nat × Byte)) : StoreReq :=
  { loc := loc, writes := bytes.map fun b => (loc.offset + b.1, b.2), va := va }

/-- A store of `n` bytes at `ea` with the bytes `bytes` (R234, R235, R236, R240, R243). Aligned where it must be, with its location
found and with room for it: outside the block window it goes on its way to its memory when it commits, and memory has not changed
yet; in the block window it is performed at once, or waits under cause 5 (an access that
reaches the tenant's threshold also posts a record, R318). One that a remap has applied completes (R179). Not aligned, it is an
ALIGNMENT fault. -/
def StoreIssues (i : Instr) (q : Req) (align n : Nat) (ea : Thread → Dword) (bytes : Thread → List (Nat × Byte)) (scope : Option Nat) : Prop :=
  ∀ s t th, let req : Req := { q with access := true, commit := q.commit || scope.isSome }; MayExecute req s t th →
    let u := s.begun t th req; let v := s.runner t th req;
    ((ea v).toNat % align = 0 → (scope.bind fun c => u.releaseHeld v c) = none → v.heldApplied = true →
      Completes i s t (advance v.ctx q.pair .seq)) ∧
    (∀ loc w, (ea v).toNat % align = 0 → (scope.bind fun c => u.releaseHeld v c) = none → v.heldApplied = false →
      u.queuedWrite t = false → v.stores < 255 →
      u.resolve t v ((ea v).toNat - (ea v).toNat % n) n 1 = .ok loc w →
      (loc.inBlock = none → ∃ s' y, exec i s = .next s' ∧ s'.thread? t = some y ∧ y.ctx = advance v.ctx q.pair .seq ∧ s'.mem = w.mem ∧
        (v.rob = [] → y.stOut = v.stOut + 1 ∧
          ∃ f, s'.flight.stores = w.flight.stores ++ [f] ∧ f.req = storeOf loc (ea v).toNat (bytes v) ∧ f.tid = v.home ∧ f.core = coreOf t) ∧
        (v.rob ≠ [] → s'.flight.stores = w.flight.stores ∧ ∃ e, y.rob = v.rob ++ [e] ∧ e.store = some (storeOf loc (ea v).toNat (bytes v)))) ∧
      (∀ pa key b x, loc = .mem pa key (some b) → v.rob = [] → w.zeroing (pa / 64) = false → w.lineBusy (coreOf t) v.home loc = false →
        w.blockWrite (dieOf (coreOf t)) b (ea v).toNat v.tenant t = .inPlace x →
        blkAcc (x.blk b) + 1 < (match x.tenant? v.tenant with | some y => y.accthr | none => 256) →
        ∃ s', exec i s = .next s' ∧ (s'.thread? t).map Thread.ctx = some (advance v.ctx q.pair .seq) ∧
          s'.mem = x.mem.puts (x.keyData key) (storeOf loc (ea v).toNat (bytes v)).writes) ∧
      (∀ pa key b, loc = .mem pa key (some b) → v.rob = [] → w.zeroing (pa / 64) = false → w.lineBusy (coreOf t) v.home loc = false →
        w.blockWrite (dieOf (coreOf t)) b (ea v).toNat v.tenant t = .full →
        ∃ s' y, exec i s = .next s' ∧ s'.thread? t = some y ∧ y.cause = some 5 ∧ y.ctx = th.ctx ∧ s'.mem = w.mem ∧
          y.held.map Held.req = some (storeOf loc (ea v).toNat (bytes v)))) ∧
    ((ea v).toNat % align ≠ 0 → Faults i s q u t v 0x04 (ea v))

/-- An atomic of operation code `op` on `n` bytes at S(a) (R237 to R239, R197): at its memory it replaces the old value by the new one,
and the old value, zero-extended, is its result; of one that a remap has applied (R179) the result is the value that the remap kept.
Not aligned, it is an ALIGNMENT fault. -/
def AtomicPerforms (i : Instr) (q : Req) (op n : Nat) (ordered : Bool) (d a b : BitVec 7) : Prop :=
  ∀ s t th, let req : Req := { q with access := true, commit := true }; MayExecute req s t th →
    let u := s.begun t th req; let v := s.runner t th req;
    (∀ h, v.held = some h → h.applied = true →
      ∃ s', exec i s = .next s' ∧ s'.mem = s.mem ∧
        (s'.thread? t).map Thread.ctx = some (advance (v.setS d (zextTo h.old.toNat (8 * n))).ctx q.pair .seq)) ∧
    (∀ loc w, v.heldApplied = false → u.queuedWrite t = false → (v.S a).toNat % n = 0 → (ordered = true → u.releaseHeld v 4 = none) →
      u.resolve t v (v.S a).toNat n 2 = .ok loc w → w.storePending v loc = false → w.seenStore (coreOf t) loc = false →
      (∀ pa key, loc = .mem pa key none → w.zeroing (pa / 64) = false → w.badAt pa n = false →
        ∃ s', exec i s = .next s' ∧
          (s'.thread? t).map Thread.ctx = some (advance (v.setS d (zextTo (ofBytes (w.homeBytes pa n key)) (8 * n))).ctx q.pair .seq) ∧
          s'.mem = w.mem.puts (w.keyData key)
            (place pa (bytesOf (atomNew op n (ofBytes (w.homeBytes pa n key)) (v.S b).toNat (v.S d).toNat) n))) ∧
      (∀ k off, loc = .scratch k off → w.badLoc loc n = false →
        ∃ s', exec i s = .next s' ∧ s'.mem = w.mem ∧
          (s'.thread? t).map Thread.ctx =
            some (advance (v.setS d (zextTo (ofBytes ((List.range n).map fun j => w.scratchByte k (off + j))) (8 * n))).ctx q.pair .seq) ∧
          (s'.cluster k).scratch = (place off (bytesOf (atomNew op n (ofBytes ((List.range n).map fun j => w.scratchByte k (off + j)))
            (v.S b).toNat (v.S d).toNat) n)).foldl (fun m x => mput m x.1 x.2) (w.cluster k).scratch) ∧
      (∀ k off m, loc = .localStore k off m → w.badLoc loc n = false →
        ∃ s', exec i s = .next s' ∧ s'.mem = w.mem ∧
          (s'.thread? t).map Thread.ctx =
            some (advance (v.setS d (zextTo (ofBytes ((List.range n).map fun j => w.localByte k (off + j))) (8 * n))).ctx q.pair .seq) ∧
          (s'.core k).localStore = (((place off (bytesOf (atomNew op n (ofBytes ((List.range n).map fun j => w.localByte k (off + j)))
            (v.S b).toNat (v.S d).toNat) n)).foldl (fun z x => z.putLocal k x.1 x.2) w).core k).localStore) ∧
      (∀ k off, loc = .peer k off → w.mute k = false → w.peerAllows k off n 2 = true →
        ∃ s', exec i s = .next s' ∧ s'.mem = w.mem ∧
          (s'.thread? t).map Thread.ctx =
            some (advance (v.setS d (zextTo ((Config.peerBytes k off w.sched.fresh).toNat % 2 ^ (8 * n)) (8 * n))).ctx q.pair .seq)) ∧
      (∀ pa key e x, loc = .mem pa key (some e) → w.zeroing (pa / 64) = false →
        w.blockWrite (dieOf (coreOf t)) e (v.S a).toNat v.tenant t = .inPlace x → x.badAt pa n = false →
        blkAcc (x.blk e) + 1 < (match x.tenant? v.tenant with | some y => y.accthr | none => 256) →
        ∃ s', exec i s = .next s' ∧
          (s'.thread? t).map Thread.ctx = some (advance (v.setS d (zextTo (ofBytes (x.homeBytes pa n key)) (8 * n))).ctx q.pair .seq) ∧
          s'.mem = x.mem.puts (x.keyData key)
            (place pa (bytesOf (atomNew op n (ofBytes (x.homeBytes pa n key)) (v.S b).toNat (v.S d).toNat) n)))) ∧
    (v.heldApplied = false → u.queuedWrite t = false → (v.S a).toNat % n ≠ 0 → Faults i s q u t v 0x04 (v.S a))

/-- A command of the copy engine is issued (R281): with the release done, a free entry of the launch's share and its operands as they
must be, it takes the next number of its context and joins the queue of the core; after a failure of the context it takes a number and
is discarded (R247); an operand that is not as it must be faults. -/
def CopyIssues (i : Instr) (q : Req) (op : Nat) (a b c : Thread → Vec) (check : State → Thread → Refusal281) : Prop :=
  ∀ s t th, let req : Req := { q with access := true, commit := true }; MayExecute req s t th →
    let u := s.begun t th req; let v := s.runner t th req; u.releaseHeld v 3 = none →
    u.queueRoom (coreOf t) v.launch false = true → (u.homeThread v).cpOut < 255 →
    (check u v = none → (u.ctxOf v.home false).failed = none →
      ∃ s' m, exec i s = .next s' ∧ (s'.thread? t).map Thread.ctx = some (advance v.ctx q.pair .seq) ∧ s'.mem = s.mem ∧
        (s'.core (coreOf t)).copyQ = (u.core (coreOf t)).copyQ ++ [m] ∧ m.op = op ∧ m.a = a v ∧ m.b = b v ∧ m.c = c v ∧ m.home = v.home ∧
        m.launch = v.launch ∧ m.n = (u.ctxOf v.home false).issued + 1 ∧ m.started = false) ∧
    (check u v = none → (u.ctxOf v.home false).failed ≠ none →
      ∃ s', exec i s = .next s' ∧ (s'.thread? t).map Thread.ctx = some (advance v.ctx q.pair .seq) ∧ s'.mem = s.mem ∧
        (s'.core (coreOf t)).copyQ = (u.core (coreOf t)).copyQ) ∧
    (∀ code tv, check u v = some (code, tv) → Faults i s q u t v code tv)

/-- A command of the matrix unit is issued (R281), as one of the copy engine is; `tiles` are the tile operations that it counts. -/
def MatrixIssues (i : Instr) (q : Req) (op : Nat) (a b c : Thread → Vec) (tiles : Thread → Nat) (check : State → Thread → Refusal281) : Prop :=
  ∀ s t th, let req : Req := { q with access := true, commit := true }; MayExecute req s t th →
    let u := s.begun t th req; let v := s.runner t th req; u.releaseHeld v 3 = none →
    u.queueRoom (coreOf t) v.launch true = true → (u.homeThread v).mxOut + tiles v ≤ 511 →
    (check u v = none → (u.ctxOf v.home true).failed = none →
      ∃ s' m, exec i s = .next s' ∧ (s'.thread? t).map Thread.ctx = some (advance v.ctx q.pair .seq) ∧ s'.mem = s.mem ∧
        (s'.core (coreOf t)).matQ = (u.core (coreOf t)).matQ ++ [m] ∧ m.op = op ∧ m.a = a v ∧ m.b = b v ∧ m.c = c v ∧ m.home = v.home ∧
        m.launch = v.launch ∧ m.n = (u.ctxOf v.home true).issued + 1 ∧ m.fmta = v.ctx.fmta ∧ m.fmtb = v.ctx.fmtb ∧ m.retired = 0) ∧
    (∀ code tv, check u v = some (code, tv) → Faults i s q u t v code tv)

/-- A region instruction (R207, R242): of a region that the tenant has open, with a coordinate in bounds and its plan carried out, it
completes with the plan's result; without a node or block that it needs it faults with REGION_EMPTY; a coordinate out of bounds, or a
region that is not the tenant's, faults. -/
def RegionPerforms (i : Instr) (q : Req) (g : BitVec 4) (cursor : Bool) (coord : Option (BitVec 7))
    (plan : State → Region → Thread → Nat → Except RegErr Plan) (result : Region → Plan → Thread → Thread) : Prop :=
  ∀ s t th, let req : Req := { q with access := true, commit := true }; MayExecute req s t th →
    let u := s.begun t th req; let v := s.runner t th req;
    u.edge (coreOf t) none = false → u.resumeBreak g.toNat v.who = none →
    (∀ r0 p w, u.regionFor v.tenant g.toNat = .ok r0 → let r := r0.mine v.who;
      (coord.bind fun a => regCheck g.toNat r ((v.V a).toNat % 2 ^ 128) cursor) = none →
      u.regApply g.toNat r v.who v.launch (plan u r v (match coord with | some a => (v.V a).toNat % 2 ^ 128 | none => 0)) = .done p w →
      (p.short = none → Ends i s t (advance (result r p v).ctx q.pair .seq) (w.countDie r.die 0x0C v.tenant)) ∧
      (∀ need x, p.short = some need → w.thread? t = some x → Faults i s q w t x 0x0A (regTrapv g.toNat 0 need))) ∧
    (∀ tv, u.regionFor v.tenant g.toNat = .error tv → Faults i s q (u.dropOp g.toNat v.who) t v 0x06 tv) ∧
    (∀ r tv, u.regionFor v.tenant g.toNat = .ok r →
      (coord.bind fun a => regCheck g.toNat r ((v.V a).toNat % 2 ^ 128) cursor) = some tv → Faults i s q u t v 0x06 tv)

/-! ### What an event leaves alone -/

/-- Nothing differs but core `c`. -/
def OnlyCore (s s' : State) (c : Nat) : Prop :=
  s' = { s with cores := s'.cores } ∧ ∀ d, d ≠ c → s'.core d = s.core d

/-- Nothing differs but die `d`. -/
def OnlyDie (s s' : State) (d : Nat) : Prop :=
  s' = { s with dies := s'.dies } ∧ ∀ e, e ≠ d → s'.die e = s.die e

/-- Nothing differs but the voltage row `r`. -/
def OnlyRow (s s' : State) (r : Nat) : Prop :=
  s' = { s with power := { s.power with rows := s'.power.rows } } ∧ ∀ e, e ≠ r → s'.row e = s.row e

/-- Nothing differs but the thread of slot `t`. -/
def OnlyThread (s s' : State) (t : Nat) : Prop :=
  s' = { s with threads := s'.threads } ∧ ∀ u, u ≠ t → s'.thread? u = s.thread? u

/-- Nothing differs but the device's side of the network: sessions, exports, windows, what has been sent. -/
def OnlyHost (s s' : State) : Prop := s' = { s with host := s'.host }

/-- Nothing differs but the tables of the I/O die. -/
def OnlyTables (s s' : State) : Prop := s' = { s with tables := s'.tables }

/-- Nothing differs but the launch unit, the schedulers and the routing roots. -/
def OnlyWork (s s' : State) : Prop := s' = { s with work := s'.work }

/-- Nothing differs but what is in flight. -/
def OnlyFlight (s s' : State) : Prop := s' = { s with flight := s'.flight }

/-- The fault code, TRAPV and TRAPPC that a thread's context holds after it has taken a fault (R73, R365). -/
def Ctx.tookFault (x : Ctx) (code : Nat) (v pc : Dword) : Prop :=
  nbits x.trapc 0 8 = code ∧ x.trapv = v ∧ x.trappc = pc

/-- States that a run from `s` reaches. -/
inductive Reaches (s : State) : State → Prop where
  | refl : Reaches s s
  | step {a b : State} : Reaches s a → step a = .next b → Reaches s b

/-- A run is safe if it never stops: no state that it reaches ends in a fault or a refusal. -/
def SafeFrom (s : State) : Prop := ∀ a, Reaches s a → ∃ b, step a = .next b

end Sys2Proof.Machine
end

