-- ==== Sys2Proof/Certificates/Slice0/Obligations.lean ====
section
/-! DEFINITION. Sys2Proof/Certificates/Slice0/Obligations.lean: the statements for the provers. -/

open Sys2Proof Sys2Proof.Machine

/-! ### Results of the instructions that only compute -/

/-- R113: the integer operations complete with their results in S(d), zero-extended to the register, and no flag. -/
def Obligations.IntegerResults : Prop :=
  encodeNat (.add 1 1 2) = 0x04081040 ∧
  Scalar3 .add (fun x y => x + y) ∧ Scalar3 .sub (fun x y => x - y) ∧ Scalar3 .mul (fun x y => x * y) ∧
  Scalar3 .mulh (fun x y => BitVec.ofInt 64 (x.toInt * y.toInt / 2 ^ 64)) ∧
  Scalar3 .mulhn (fun x y => BitVec.ofNat 64 (x.toNat * y.toNat / 2 ^ 64)) ∧
  Scalar3 .div (fun x y => if y = 0 then BitVec.allOnes 64 else BitVec.ofInt 64 (x.toInt.tdiv y.toInt)) ∧
  Scalar3 .divn (fun x y => if y = 0 then BitVec.allOnes 64 else BitVec.ofNat 64 (x.toNat / y.toNat)) ∧
  Scalar3 .rem (fun x y => if y = 0 then x else BitVec.ofInt 64 (x.toInt.tmod y.toInt)) ∧
  Scalar3 .remn (fun x y => if y = 0 then x else BitVec.ofNat 64 (x.toNat % y.toNat)) ∧
  Scalar3 .and (fun x y => x &&& y) ∧ Scalar3 .or (fun x y => x ||| y) ∧ Scalar3 .xor (fun x y => x ^^^ y) ∧
  Scalar3 .andn (fun x y => x &&& ~~~y) ∧
  Scalar3 .shl (fun x y => x <<< (y.toNat % 64)) ∧ Scalar3 .shr (fun x y => x >>> (y.toNat % 64)) ∧
  Scalar3 .sra (fun x y => x.sshiftRight (y.toNat % 64)) ∧ Scalar3 .rotr (fun x y => x.rotateRight (y.toNat % 64)) ∧
  Scalar3 .min (fun x y => if x.toInt ≤ y.toInt then x else y) ∧ Scalar3 .max (fun x y => if x.toInt ≤ y.toInt then y else x) ∧
  Scalar3 .minn (fun x y => if x.toNat ≤ y.toNat then x else y) ∧ Scalar3 .maxn (fun x y => if x.toNat ≤ y.toNat then y else x) ∧
  Scalar3 .cmpeq (fun x y => if x = y then 1 else 0) ∧ Scalar3 .cmplt (fun x y => if x.toInt < y.toInt then 1 else 0) ∧
  Scalar3 .cmpltn (fun x y => if x.toNat < y.toNat then 1 else 0) ∧
  Scalar2 .clz (fun x => BitVec.ofNat 64 (leadingZeros x 64)) ∧ Scalar2 .ctz (fun x => BitVec.ofNat 64 (lowestFrom x 0 64)) ∧
  Scalar2 .popc (fun x => BitVec.ofNat 64 (onesIn x 64)) ∧
  (∀ d a w, Computes { reqDA (.sext d a w) d a with legal := decide (w.toNat ≤ 2) } (.sext d a w) fun th =>
    th.setS d (sextTo (th.S a).toNat (8 * 2 ^ w.toNat))) ∧
  (∀ d a w, Computes { reqDA (.zext d a w) d a with legal := decide (w.toNat ≤ 2) } (.zext d a w) fun th =>
    th.setS d (zextTo (th.S a).toNat (8 * 2 ^ w.toNat)))

/-- R114 to R118: operations with an immediate, and the moves. -/
def Obligations.ImmediateResults : Prop :=
  (∀ i : BitVec 12, Scalar2 (.addi · · i) (fun x => x + i.signExtend 64) ∧ Scalar2 (.andi · · i) (fun x => x &&& i.signExtend 64) ∧
    Scalar2 (.ori · · i) (fun x => x ||| i.setWidth 64) ∧ Scalar2 (.xori · · i) (fun x => x ^^^ i.setWidth 64)) ∧
  (∀ n : BitVec 6, Scalar2 (.shli · · n) (fun x => x <<< n.toNat) ∧ Scalar2 (.shri · · n) (fun x => x >>> n.toNat) ∧
    Scalar2 (.srai · · n) (fun x => x.sshiftRight n.toNat) ∧ Scalar2 (.roti · · n) (fun x => x.rotateRight n.toNat)) ∧
  (∀ i : BitVec 10, Scalar2 (.seqi · · i) (fun x => if x = i.signExtend 64 then 1 else 0) ∧
    Scalar2 (.slti · · i) (fun x => if x.toInt < (i.signExtend 64).toInt then 1 else 0) ∧
    Scalar2 (.sltni · · i) (fun x => if x.toNat < i.toNat then 1 else 0)) ∧
  (∀ d i, Computes (reqD (.movi d i) d) (.movi d i) fun th => th.setS d (i.signExtend 64)) ∧
  (∀ d k v, Computes { reqD (.movk d k v) d with reads := [d.toNat] } (.movk d k v) fun th =>
    th.setS d (setBits (th.S d) (16 * k.toNat) 16 v.toNat)) ∧
  ∀ d a b k, Computes (reqDAB (.sel d a b k) d a b) (.sel d a b k) fun th => th.setV d (if th.cond k then th.V a else th.V b)

/-- R119, R120: compares into a mask, mask logic, and moves between masks and registers; a write of k0 has no effect (R67). -/
def Obligations.MaskResults : Prop :=
  (∀ d a b c, Computes { reqAB (.kcmp d a b c) a b with legal := condOk c } (.kcmp d a b c) fun th =>
    th.setK d (if kcmpRel c (th.S a) (th.S b) then BitVec.allOnes 128 else 0)) ∧
  (∀ d a b, Computes (req0 (.kand d a b)) (.kand d a b) fun th => th.setK d (th.K a &&& th.K b)) ∧
  (∀ d a b, Computes (req0 (.kor d a b)) (.kor d a b) fun th => th.setK d (th.K a ||| th.K b)) ∧
  (∀ d a b, Computes (req0 (.kxor d a b)) (.kxor d a b) fun th => th.setK d (th.K a ^^^ th.K b)) ∧
  (∀ d a b, Computes (req0 (.kandn d a b)) (.kandn d a b) fun th => th.setK d (th.K a &&& ~~~th.K b)) ∧
  (∀ d a, Computes (req0 (.knot d a)) (.knot d a) fun th => th.setK d (~~~th.K a)) ∧
  (∀ d a, Computes (req0 (.kmov d a)) (.kmov d a) fun th => th.setK d (th.K a)) ∧
  (∀ d a, Computes (req0 (.kfirst d a)) (.kfirst d a) fun th => th.setK d (th.K a &&& -th.K a)) ∧
  (∀ d a, Computes (reqA (.vtok d a) a) (.vtok d a) fun th => th.setK d ((th.V a).setWidth 128)) ∧
  (∀ d a, Computes (reqD (.ktov d a) d) (.ktov d a) fun th => th.setV d ((th.K a).setWidth 512)) ∧
  (∀ d a, Computes (reqD (.kpopc d a) d) (.kpopc d a) fun th => th.setS d (BitVec.ofNat 64 (onesIn (th.K a) 128))) ∧
  (∀ d a w, Computes (reqA (.vmask d a w) a) (.vmask d a w) fun th =>
    th.setK d (prefixMask (Nat.min (th.S a).toNat (512 / laneWidth w)) (laneWidth w))) ∧
  ∀ (th : Thread) v n, (th.setK 0 v).K n = th.K n

/-- R139 to R141: integer and logic lanes, and compares of lanes into a mask. -/
def Obligations.LaneResults : Prop :=
  Lanes3 .vadd (fun _ x y => x + y) ∧ Lanes3 .vsub (fun n x y => x + (2 ^ n - y)) ∧ Lanes3 .vmul (fun _ x y => x * y) ∧
  Lanes3 .vmin (fun n x y => if signedOf x n ≤ signedOf y n then x else y) ∧
  Lanes3 .vmax (fun n x y => if signedOf x n ≤ signedOf y n then y else x) ∧
  Lanes3 .vminn (fun _ x y => Nat.min x y) ∧ Lanes3 .vmaxn (fun _ x y => Nat.max x y) ∧
  Lanes3 .vand (fun _ x y => x &&& y) ∧ Lanes3 .vor (fun _ x y => x ||| y) ∧ Lanes3 .vxor (fun _ x y => x ^^^ y) ∧
  Lanes3 .vandn (fun n x y => x &&& (2 ^ n - 1 - y)) ∧ Lanes3 .vshl (fun n x y => x * 2 ^ (y % n)) ∧
  Lanes3 .vshr (fun n x y => x / 2 ^ (y % n)) ∧ Lanes3 .vsra (fun n x y => wrap (signedOf x n / 2 ^ (y % n)) n) ∧
  (∀ d a b w, Computes (reqXAB (.vmac d a b w) d a b) (.vmac d a b w) fun th =>
    th.setV d (th.lanes (laneWidth w) d fun j =>
      lane (th.V d) j (laneWidth w) + lane (th.V a) j (laneWidth w) * lane (th.V b) j (laneWidth w))) ∧
  (∀ d a w, Computes (reqDA (.vpopc d a w) d a) (.vpopc d a w) fun th =>
    th.setV d (th.lanes (laneWidth w) d fun j => onesIn (BitVec.ofNat 64 (lane (th.V a) j (laneWidth w))) 64)) ∧
  Compares .vceq (fun _ x y => x == y) ∧ Compares .vcne (fun _ x y => x != y) ∧
  Compares .vclt (fun n x y => decide (signedOf x n < signedOf y n)) ∧ Compares .vcge (fun n x y => decide (signedOf y n ≤ signedOf x n)) ∧
  Compares .vcltn (fun _ x y => decide (x < y)) ∧ Compares .vcgen (fun _ x y => decide (y ≤ x))

/-- R90 to R92, R142 to R144: floating-point lanes. -/
def Obligations.FloatResults : Prop :=
  Floats3 .vfadd fpAdd ∧ Floats3 .vfsub fpSub ∧ Floats3 .vfmul fpMul ∧ Floats3 .vfdiv fpDiv ∧
  (∀ d a b f, Computes { reqXAB (.vfma d a b f) d a b with legal := fmtOk f } (.vfma d a b f) fun th =>
    th.setLanes d (laneFmt f).width fun j =>
      fpFma (laneFmt f) th.rnd (th.num (laneFmt f) a j) (th.num (laneFmt f) b j) (th.num (laneFmt f) d j)) ∧
  (∀ d a b f, Computes { reqDAB (.vfmin d a b f) d a b with legal := fmtOk f } (.vfmin d a b f) fun th =>
    th.setLanes d (laneFmt f).width fun j =>
      fpMinMax (laneFmt f) false (lane (th.V a) j (laneFmt f).width) (lane (th.V b) j (laneFmt f).width)) ∧
  (∀ d a b f, Computes { reqDAB (.vfmax d a b f) d a b with legal := fmtOk f } (.vfmax d a b f) fun th =>
    th.setLanes d (laneFmt f).width fun j =>
      fpMinMax (laneFmt f) true (lane (th.V a) j (laneFmt f).width) (lane (th.V b) j (laneFmt f).width)) ∧
  Floats2 .vfsqrt fpSqrt ∧ Floats2 .vfrcp fpRcp ∧ Floats2 .vfrsq fpRsq ∧ Floats2 .vfexp2 fpExp2 ∧ Floats2 .vflog2 fpLog2 ∧
  (∀ d a f, Computes { reqDA (.vfabs d a f) d a with legal := fmtOk f } (.vfabs d a f) fun th =>
    th.setLanes d (laneFmt f).width fun j => fpSign (laneFmt f) true (lane (th.V a) j (laneFmt f).width)) ∧
  (∀ d a f, Computes { reqDA (.vfneg d a f) d a with legal := fmtOk f } (.vfneg d a f) fun th =>
    th.setLanes d (laneFmt f).width fun j => fpSign (laneFmt f) false (lane (th.V a) j (laneFmt f).width)) ∧
  (∀ d a b f, Computes { reqAB (.vfclt d a b f) a b with legal := fmtOk f } (.vfclt d a b f) fun th =>
    (th.setK d (th.laneMask (laneFmt f).width (th.K d) fun j => numLt (th.num (laneFmt f) a j) (th.num (laneFmt f) b j))).orFlags
      (th.laneFlags (laneFmt f).width fun j => flIf ((th.num (laneFmt f) a j).isSig || (th.num (laneFmt f) b j).isSig) flNV)) ∧
  ∀ d a b f, Computes { reqAB (.vfceq d a b f) a b with legal := fmtOk f } (.vfceq d a b f) fun th =>
    (th.setK d (th.laneMask (laneFmt f).width (th.K d) fun j => numEq (th.num (laneFmt f) a j) (th.num (laneFmt f) b j))).orFlags
      (th.laneFlags (laneFmt f).width fun j => flIf ((th.num (laneFmt f) a j).isSig || (th.num (laneFmt f) b j).isSig) flNV)

/-- R93 to R96, R145 to R147: conversions between number formats, and blocks of four-bit numbers. -/
def Obligations.ConversionResults : Prop :=
  Converts .cvtBf16F32 32 16 (fun z m x => fpConvert fmtF32 fmtBf16 m (z == 1) x) ∧ Converts .cvtF16F32 32 16 (fun z m x => fpConvert fmtF32 fmtF16 m (z == 1) x) ∧
  Converts .cvtF32Bf16 16 32 (fun _ m x => fpConvert fmtBf16 fmtF32 m false x) ∧ Converts .cvtF32F16 16 32 (fun _ m x => fpConvert fmtF16 fmtF32 m false x) ∧
  Converts .cvtE4m3F32 32 8 (fun z m x => fpConvert fmtF32 fmtE4m3 m (z == 1) x) ∧ Converts .cvtE5m2F32 32 8 (fun z m x => fpConvert fmtF32 fmtE5m2 m (z == 1) x) ∧
  Converts .cvtF32E4m3 8 32 (fun _ m x => fpConvert fmtE4m3 fmtF32 m false x) ∧ Converts .cvtF32E5m2 8 32 (fun _ m x => fpConvert fmtE5m2 fmtF32 m false x) ∧
  Converts .cvtI32F32 32 32 (fun _ m x => f32ToI32 m x) ∧ Converts .cvtF32I32 32 32 (fun _ m x => i32ToF32 m x) ∧
  Converts .cvtI8I32 32 8 (fun z _ x => (if z = 1 then wrap (max (-128) (min 127 (signedOf x 32))) 8 else x % 256, 0)) ∧
  Converts .cvtI32I8 8 32 (fun _ _ x => (wrap (signedOf x 8) 32, 0)) ∧
  (∀ d a z r k, Computes { word := encodeNat (.q4pack d a z r k), regs := [d.toNat, a.toNat, a.toNat + 1], reads := [a.toNat, a.toNat + 1], writes := [d.toNat], legal := roundOk r } (.q4pack d a z r k) fun th =>
    let e := q4enc (((List.range 16).map fun j => unpack fmtF32 (lane (th.V a) j 32)) ++ (List.range 16).map fun j => unpack fmtF32 (lane (th.V2 a) j 32)) k.toNat (th.modeOf r) (z == 1)
    (th.setV d (ofLanes 4 (e.1 ++ [e.2.1 % 16, e.2.1 / 16]))).orFlags e.2.2) ∧
  ∀ d a z r, Computes { word := encodeNat (.q4unpk d a z r), regs := [d.toNat, d.toNat + 1, a.toNat], reads := [a.toNat], writes := [d.toNat, d.toNat + 1], legal := roundOk r } (.q4unpk d a z r) fun th =>
    (th.setV d (ofLanes 32 ((List.range 16).map fun j => q4ToF32 (lane (th.V a) 16 8) (lane (th.V a) j 4)))).setV2 d
      (ofLanes 32 ((List.range 16).map fun j => q4ToF32 (lane (th.V a) 16 8) (lane (th.V a) (j + 16) 4)))

/-- R100, R148, R149: reductions of the active lanes, in the order of the tree. -/
def Obligations.ReductionResults : Prop :=
  (∀ d a, Computes (reqDA (.vrsum d a 0) d a) (.vrsum d a 0) fun th =>
    th.setS d (sextTo (((th.picked (th.V a) 32).map Prod.snd).foldl (· + ·) 0) 32)) ∧
  (∀ d a k, k ≠ 0 → Computes (reqDA (.vrsum d a k) d a) (.vrsum d a k) fun th =>
    (th.setS d (BitVec.ofNat 64 (th.sumLanes (redWidth k) fun j => (redNum k (lane (th.V a) j (redWidth k)), 0)).1)).orFlags
      (th.sumLanes (redWidth k) fun j => (redNum k (lane (th.V a) j (redWidth k)), 0)).2) ∧
  (∀ d a b, Computes (reqDAB (.vrdot d a b 0) d a b) (.vrdot d a b 0) fun th =>
    th.setS d (sextTo ((((List.range 16).filter fun j => th.active j 32).map fun j =>
      lane (th.V a) j 32 * lane (th.V b) j 32 % 2 ^ 32).foldl (· + ·) 0) 32)) ∧
  (∀ d a b k, k ≠ 0 → Computes (reqDAB (.vrdot d a b k) d a b) (.vrdot d a b k) fun th =>
    let r := th.sumLanes (redWidth k) fun j =>
      let z := fpMul fmtF32 th.rnd (redNum k (lane (th.V a) j (redWidth k))) (redNum k (lane (th.V b) j (redWidth k)))
      (unpack fmtF32 z.1, z.2)
    (th.setS d (BitVec.ofNat 64 r.1)).orFlags r.2) ∧
  (∀ d a k, Computes (reqDA (.vrmax d a k) d a) (.vrmax d a k) fun th =>
    (th.setS d (redScalar k (th.extreme (th.V a) k true).1)).orFlags (th.extreme (th.V a) k true).2) ∧
  (∀ d a k, Computes (reqDA (.vrmin d a k) d a) (.vrmin d a k) fun th =>
    (th.setS d (redScalar k (th.extreme (th.V a) k false).1)).orFlags (th.extreme (th.V a) k false).2) ∧
  ∀ d a k, Computes (reqDA (.vrarg d a k) d a) (.vrarg d a k) fun th =>
    let m := (th.extreme (th.V a) k true).1
    let xs := th.picked (th.V a) (redWidth k)
    let at_ := match xs with
      | [] => 0xFFFF
      | y :: _ =>
        if k ≠ 0 && xs.all (fun x => (redNum k x.2).isNan) then y.1
        else ((xs.find? fun x => (if k = 0 then x.2 else widenBits k x.2) == m).getD y).1
    (th.setS d (BitVec.ofNat 64 (m + at_ * 2 ^ 32))).orFlags (th.extreme (th.V a) k true).2

/-- R150 to R155: permutes, bitmap intersection, and the sorted candidate lists. -/
def Obligations.PermuteResults : Prop :=
  Permutes3 .vshuf (fun n a b j => lane a (lane b j n % (512 / n)) n) ∧
  Permutes3 .vslup (fun n a b j =>
    if Nat.min ((b.setWidth 64 : Dword).toNat) (512 / n) ≤ j then lane a (j - Nat.min ((b.setWidth 64 : Dword).toNat) (512 / n)) n else 0) ∧
  Permutes3 .vsldn (fun n a b j =>
    if j + Nat.min ((b.setWidth 64 : Dword).toNat) (512 / n) < 512 / n then lane a (j + Nat.min ((b.setWidth 64 : Dword).toNat) (512 / n)) n else 0) ∧
  Permutes3 .vzip (fun n a b j => if j % 2 = 0 then lane a (j / 2) n else lane b (j / 2) n) ∧
  Permutes3 .vunzip (fun n a b j => if 2 * j < 512 / n then lane a (2 * j) n else lane b (2 * j - 512 / n) n) ∧
  (∀ d a w, Computes (reqDA (.vsplat d a w) d a) (.vsplat d a w) fun th =>
    th.setV d (th.lanes (laneWidth w) d fun _ => lane (th.V a) 0 (laneWidth w))) ∧
  (∀ d a w, Computes (reqDA (.vcomp d a w) d a) (.vcomp d a w) fun th =>
    th.setV d (ofLanes (laneWidth w) ((th.picked (th.V a) (laneWidth w)).map Prod.snd))) ∧
  (∀ d a w, Computes (reqDA (.vexpd d a w) d a) (.vexpd d a w) fun th =>
    th.setV d (th.lanes (laneWidth w) d fun j => lane (th.V a) (th.rankBelow j (laneWidth w)) (laneWidth w))) ∧
  (∀ d a, Computes (reqDA (.bmpfx d a) d a) (.bmpfx d a) fun th => th.setV d (th.lanes 16 d fun j => onesIn (th.V a) (16 * j))) ∧
  (∀ d a b, Computes (reqDAB (.ixcnt d a b) d a b) (.ixcnt d a b) fun th => th.setS d (BitVec.ofNat 64 (onesIn (th.V a &&& th.V b) 512))) ∧
  (∀ d a b, Computes { word := encodeNat (.ixdot d a b), regs := [d.toNat, a.toNat, a.toNat + 1, b.toNat, b.toNat + 1], reads := [d.toNat, a.toNat, a.toNat + 1, b.toNat, b.toNat + 1], writes := [d.toNat] } (.ixdot d a b) fun th =>
    th.setS d (th.S d + BitVec.ofInt 64 ((List.range 64).foldl (fun acc p =>
      if (th.S a &&& th.S b).getLsbD p then
        acc + signedOf (lane (th.V2 a) (onesIn (th.S a) p) 8) 8 * signedOf (lane (th.V2 b) (onesIn (th.S b) p) 8) 8
      else acc) 0))) ∧
  (∀ d a b, Computes (reqDAB (.vtopk d a b) d a b) (.vtopk d a b) fun th =>
    let cands := (th.picked (th.V a) 32).filterMap fun e =>
      let x := nbits (th.S b) 16 16 * 2 ^ 48 + (nbits (th.S b) 0 16 + e.1) % 2 ^ 16 * 2 ^ 32 + e.2
      if (unpack fmtF32 e.2).isNan || x == emptyEntry then none else some x
    (th.setV d (listOf cands (nbits (th.S b) 32 3 + 1))).orFlags (scoreFlags ((th.picked (th.V a) 32).map Prod.snd))) ∧
  (∀ d a, Computes (reqDA (.vsort d a) d a) (.vsort d a) fun th =>
    (th.setV d (listOf (entriesOf (th.V a)) 8)).orFlags (scoreFlags (entriesOf (th.V a)))) ∧
  ∀ d a b, Computes (reqDAB (.vmrg d a b) d a b) (.vmrg d a b) fun th =>
    (th.setV d (listOf (entriesOf (th.V a) ++ entriesOf (th.V b)) 8)).orFlags (scoreFlags (entriesOf (th.V a) ++ entriesOf (th.V b)))
/-! ### Control flow, loops and frames -/

/-- R111, R122 to R124, R184: `nop`, branches, jumps and calls; a branch whose record finds no room in the margin unit waits under cause
15; a register target that is not aligned to a word faults at the jump. -/
def Obligations.FlowResults : Prop :=
  Computes (req0 .nop) .nop id ∧
  (∀ k d, Records { req0 (.bt k d) with flow := true } (.bt k d) id fun th =>
    if th.cond k then .to (th.ctx.pc + d.signExtend 64 <<< 2) else .seq) ∧
  (∀ k d, Records { req0 (.bf k d) with flow := true, legal := k != 0 } (.bf k d) id fun th =>
    if th.cond k then .seq else .to (th.ctx.pc + d.signExtend 64 <<< 2)) ∧
  (∀ d, Computes { req0 (.jmp d) with flow := true } (.jmp d) id fun th => .to (th.ctx.pc + d.signExtend 64 <<< 2)) ∧
  (∀ d, Computes { req0 (.call d) with flow := true } (.call d) (fun th => th.setCtx fun x => { x with lnk := th.ctx.pc + 4 })
    fun th => .to (th.ctx.pc + d.signExtend 64 <<< 2)) ∧
  Computes { req0 .ret with flow := true } .ret id (fun th => .to th.ctx.lnk) ∧
  (∀ a s t th, let req : Req := { reqA (.jr a) a with flow := true }; MayExecute req s t th →
    let v := s.runner t th req; nbits (v.S a) 0 2 = 0 →
    Completes (.jr a) s t { v.ctx with pc := v.S a }) ∧
  (∀ a s t th, let req : Req := { reqA (.callr a) a with flow := true }; MayExecute req s t th →
    let v := s.runner t th req; nbits (v.S a) 0 2 = 0 →
    Completes (.callr a) s t { v.ctx with pc := v.S a, lnk := v.ctx.pc + 4 }) ∧
  (∀ a s t th, let req : Req := { reqA (.jr a) a with flow := true }; MayExecute req s t th →
    let u := s.begun t th req; let v := s.runner t th req; nbits (v.S a) 0 2 ≠ 0 →
    Faults (.jr a) s { reqA (.jr a) a with flow := true } u t v 0x04 (v.S a)) ∧
  ∀ a s t th, let req : Req := { reqA (.callr a) a with flow := true }; MayExecute req s t th →
    let u := s.begun t th req; let v := s.runner t th req; nbits (v.S a) 0 2 ≠ 0 →
    Faults (.callr a) s { reqA (.callr a) a with flow := true } u t v 0x04 (v.S a)

/-- R125, R184: a loop with a count starts at the next instruction; with count zero it is skipped, and its level becomes inactive; one
whose record finds no room in the margin unit waits under cause 15. -/
def Obligations.LoopResults : Prop :=
  (∀ l c e, c ≠ 0 → Records { req0 (.loopi l c e) with flow := true, legal := e != 0 } (.loopi l c e) fun v =>
    v.setCtx fun x => x.startLoop (l == 1) (c.setWidth 64) (v.ctx.pc + 4) (v.ctx.pc + e.setWidth 64 <<< 2)) ∧
  (∀ l e, Records { req0 (.loopi l 0 e) with flow := true, legal := e != 0 } (.loopi l 0 e)
    (fun v => v.setCtx fun x => x.skipLoop (l == 1)) fun v => .to (v.ctx.pc + e.setWidth 64 <<< 2 + 4)) ∧
  (∀ l a e, Records { reqA (.loop l a e) a with flow := true, legal := e != 0 } (.loop l a e)
    (fun v => if v.S a = 0 then v.setCtx fun x => x.skipLoop (l == 1)
      else v.setCtx fun x => x.startLoop (l == 1) (v.S a) (v.ctx.pc + 4) (v.ctx.pc + e.setWidth 64 <<< 2))
    fun v => if v.S a = 0 then .to (v.ctx.pc + e.setWidth 64 <<< 2 + 4) else .seq) ∧
  ∀ (x : Ctx) n p q, (x.startLoop false n p q).lpc0 = n ∧ (x.startLoop false n p q).lps0 = p ∧ (x.startLoop false n p q).lpe0 = q ∧
    (x.startLoop true n p q).lpc1 = n ∧ (x.startLoop true n p q).lps1 = p ∧ (x.startLoop true n p q).lpe1 = q ∧
    (x.skipLoop false).lpc0 = 0 ∧ (x.skipLoop true).lpc1 = 0

/-- R126: at the last word of the inner level its count falls by one and the body runs again while it is not zero; then the outer
level is tested; a level that is not active or does not end here has no effect. -/
def Obligations.LoopEnds : Prop :=
  ∀ (x : Ctx) (p : Dword),
    (x.lpc0 ≠ 0 → p = x.lpe0 → x.lpc0 ≠ 1 → endTest x p = { x with lpc0 := x.lpc0 - 1, pc := x.lps0 }) ∧
    (x.lpc0 = 1 → p = x.lpe0 → (x.lpc1 = 0 ∨ p ≠ x.lpe1) → endTest x p = { x with lpc0 := 0, pc := p + 4 }) ∧
    (x.lpc0 = 1 → p = x.lpe0 → x.lpc1 ≠ 0 → p = x.lpe1 → x.lpc1 ≠ 1 → endTest x p = { x with lpc0 := 0, lpc1 := x.lpc1 - 1, pc := x.lps1 }) ∧
    (x.lpc0 = 1 → p = x.lpe0 → x.lpc1 = 1 → p = x.lpe1 → endTest x p = { x with lpc0 := 0, lpc1 := 0, pc := p + 4 }) ∧
    ((x.lpc0 = 0 ∨ p ≠ x.lpe0) → x.lpc1 ≠ 0 → p = x.lpe1 → x.lpc1 ≠ 1 → endTest x p = { x with lpc1 := x.lpc1 - 1, pc := x.lps1 }) ∧
    ((x.lpc0 = 0 ∨ p ≠ x.lpe0) → x.lpc1 = 1 → p = x.lpe1 → endTest x p = { x with lpc1 := 0, pc := p + 4 }) ∧
    ((x.lpc0 = 0 ∨ p ≠ x.lpe0) → (x.lpc1 = 0 ∨ p ≠ x.lpe1) → endTest x p = { x with pc := p + 4 })

/-- The contents of RPTS that `rpt` sets (R73, R127). -/
def Sys2Proof.Machine.rptsOf (n : BitVec 4) (r : BitVec 6) (d a b : BitVec 4) : Dword :=
  BitVec.ofNat 64 (2 ^ 15 + n.toNat * 2 ^ 16 + r.toNat * 2 ^ 20 + d.toNat * 2 ^ 26 + a.toNat * 2 ^ 30 + b.toNat * 2 ^ 34)

/-- R127: `rpt` whose words are all good starts its frame at the next word; a captured word that may not be captured faults with
that word, an `ext` among them at its own address with its pair (R50; log 138, DEDUCED), and one whose registers reach past the window
faults with the register. The frame keeps the words that it captured. A replay goes
on to the next captured word, then to the next replay at the first word; the last one ends the frame. The model's choices: the order of the
checks at capture and which word TRAPV names (log 24, 99), when RPTS is cleared (log 41), and which loop levels split a frame (log 98). -/
def Obligations.FrameResults : Prop :=
  (∀ x : Ctx, x.framed = true →
     (nbits x.rpts 0 4 < nbits x.rpts 16 4 →
       (frameNext x).pc = x.pc + 4 ∧ nbits (frameNext x).rpts 0 4 = nbits x.rpts 0 4 + 1 ∧ (frameNext x).framed = true) ∧
     (¬ nbits x.rpts 0 4 < nbits x.rpts 16 4 → nbits x.rpts 4 6 < nbits x.rpts 20 6 →
       (frameNext x).pc = x.pc - BitVec.ofNat 64 (4 * nbits x.rpts 0 4) ∧ nbits (frameNext x).rpts 0 4 = 0 ∧
       nbits (frameNext x).rpts 4 6 = nbits x.rpts 4 6 + 1 ∧ (frameNext x).framed = true) ∧
     (¬ nbits x.rpts 0 4 < nbits x.rpts 16 4 → ¬ nbits x.rpts 4 6 < nbits x.rpts 20 6 →
       (frameNext x).framed = false ∧ frameNext x = endTest { x with rpts := 0, frame := [] } x.pc)) ∧
  ∀ n r d a b s t th, let req : Req := { req0 (.rpt n r d a b) with flow := true }; MayExecute req s t th →
    let u := s.begun t th req; let v := s.runner t th req;
    ∀ ws w, u.fetchFrame t v (v.ctx.pc + 4) (n.toNat + 1) = .words ws w →
      ((∀ x ∈ ws, capturedCheck v (rptsOf n r d a b) x = .good) → frameSplits v.ctx (v.ctx.pc + 4) ws.length = false →
        Ends (.rpt n r d a b) s t { v.ctx with rpts := rptsOf n r d a b, frame := ws, pc := v.ctx.pc + 4 } w) ∧
      (∀ i x, ws.findIdx? (fun z => capturedCheck v (rptsOf n r d a b) z == .illegal) = some i → isExt (ws.getD i 0) = true →
        let at_ := v.ctx.pc + BitVec.ofNat 64 (4 * (i + 1));
        ∀ y, (ws[i + 1]? = some x ∧ y = w) ∨ (ws[i + 1]? = none ∧ w.fetch t v (at_ + 4) = .word x y) →
        exec (.rpt n r d a b) s = .next (if v.rob = [] then takeFault y t 0x01 0 true (ws.getD i 0 ++ x : Dword) at_ else hold y t 4)) ∧
      (∀ x y, ws.find? (fun z => capturedCheck v (rptsOf n r d a b) z == .illegal) = some x → isExt x = false → w.thread? t = some y →
        Faults (.rpt n r d a b) s { req0 (.rpt n r d a b) with flow := true } w t y 0x01 (x.setWidth 64)) ∧
      (∀ m y, (∀ x ∈ ws, capturedCheck v (rptsOf n r d a b) x ≠ .illegal) → frameSplits v.ctx (v.ctx.pc + 4) ws.length = false →
        ws.findSome? (fun z => match capturedCheck v (rptsOf n r d a b) z with | .window m => some m | _ => none) = some m →
        w.thread? t = some y →
        Faults (.rpt n r d a b) s { req0 (.rpt n r d a b) with flow := true } w t y 0x03 (BitVec.ofNat 64 m))

/-- R111, R112, R22: `yield` leaves the thread not ready for 64 cycles; `wfm` goes on when a message is unread, and waits under
cause 9 while none is; one that has waited and whose message is to enter the handler waits under cause 4 for that; `detach` detaches an attached member and has no effect on any other thread. -/
def Obligations.ThreadPauses : Prop :=
  (∀ s t th, let req : Req := req0 .yield; MayExecute req s t th →
    let v := s.runner t th req; EndsAs .yield s t (advance v.ctx false .seq) s fun y => y.wait = .yield 64) ∧
  (∀ s t th, let req : Req := req0 .wfm; MayExecute req s t th →
    let u := s.begun t th req; let v := s.runner t th req; (u.homeThread v).mailbox ≠ [] →
    let comes : Prop := v.wait = .wfm ∧ ∃ y, u.thread? t = some y ∧ u.enters t { y with rob := [] } = true
    (¬ comes → EndsAs .wfm s t (advance v.ctx false .seq) s fun y => y.wait = .none) ∧
    (comes → Waits .wfm s t 4 u)) ∧
  (∀ s t th, let req : Req := req0 .wfm; MayExecute req s t th →
    let u := s.begun t th req; let v := s.runner t th req; (u.homeThread v).mailbox = [] → Waits .wfm s t 9 (u.modThread t fun y => { y with wait := .wfm })) ∧
  (∀ s t th, let req : Req := { req0 .detach with commit := true }; MayExecute req s t th →
    let v := s.runner t th req; v.attached = true →
    EndsAs .detach s t (advance v.ctx false .seq) s fun y => y.det = true ∧ y.ribbon = []) ∧
  ∀ s t th, let req : Req := { req0 .detach with commit := true }; MayExecute req s t th →
    let v := s.runner t th req; v.attached = false →
    EndsAs .detach s t (advance v.ctx false .seq) s fun y => y.det = th.det

/-- R111: `trap` and `brk` are faults 0x20, with the trap code in TCODE, and 0x21; both with TRAPV 0. -/
def Obligations.TrapEntries : Prop :=
  (∀ c s t th, let req : Req := req0 (.trap c); MayExecute req s t th →
    let u := s.begun t th req; let v := s.runner t th req; Faults (.trap c) s (req0 (.trap c)) u t v 0x20 0 c.toNat) ∧
  ∀ s t th, let req : Req := req0 .brk; MayExecute req s t th →
    let u := s.begun t th req; let v := s.runner t th req; Faults .brk s (req0 .brk) u t v 0x21 0

/-- R111, R112, R16, R305: `halt` and `tdone` wait for the thread's outstanding loads and stores (causes 4 and 5), and `tdone` for a
release at device scope; then the thread ends: its slot and its home slot hold no thread any more, and nothing of memory differs. In a
supervisor slot both end the run (R368), and in the machine slot its run (log 42, DEDUCED). -/
def Obligations.ThreadEnds : Prop :=
  (∀ i s t th, i = .halt ∨ i = .tdone → s.sched.cur = t → s.thread? t = some th → s.paced th = false → th.rob ≠ [] →
    Waits i s t 4 (s.begun t th { req0 i with commit := true })) ∧
  (∀ i s t th, i = .halt ∨ i = .tdone → let req : Req := { req0 i with commit := true }; MayExecute req s t th →
    let u := s.begun t th req; let v := s.runner t th req; th.stOut = 0 → th.pl = 2 → (i = .tdone → u.releaseHeld v 4 = none) →
    ∃ s', exec i s = .next s' ∧ (s'.core (coreOf t)).mrun = false ∧ s'.mem = s.mem) ∧
  (∀ s t th x, let req : Req := { req0 .tdone with commit := true }; MayExecute req s t th →
    let u := s.begun t th req; let v := s.runner t th req; th.stOut = 0 → th.pl = 1 → u.releaseHeld v 4 = none →
    mget (s.core (coreOf t)).sups th.tenant = some x →
    ∃ s' y, exec .tdone s = .next s' ∧ mget (s'.core (coreOf t)).sups th.tenant = some y ∧ y.run = none ∧ s'.mem = s.mem) ∧
  (∀ s t th, let req : Req := { req0 .tdone with commit := true }; MayExecute req s t th →
    let u := s.begun t th req; th.stOut ≠ 0 → Waits .tdone s t 5 u) ∧
  (∀ s t th, let req : Req := { req0 .halt with commit := true }; MayExecute req s t th →
    th.stOut = 0 → th.pl = 0 →
    ∃ s', exec .halt s = .next s' ∧ mget s'.threads t = none ∧ mget s'.threads th.home = none ∧ s'.mem = s.mem ∧ s'.saved = s.saved) ∧
  (∀ s t th, let req : Req := { req0 .halt with commit := true }; MayExecute req s t th →
    let u := s.begun t th req; th.stOut ≠ 0 → Waits .halt s t 5 u) ∧
  (∀ s t th x, let req : Req := { req0 .halt with commit := true }; MayExecute req s t th →
    th.stOut = 0 → th.pl = 1 → mget (s.core (coreOf t)).sups th.tenant = some x →
    ∃ s' y, exec .halt s = .next s' ∧ mget (s'.core (coreOf t)).sups th.tenant = some y ∧ y.run = none ∧ s'.mem = s.mem) ∧
  (∀ s t th, let req : Req := { req0 .tdone with commit := true }; MayExecute req s t th →
    let u := s.begun t th req; let v := s.runner t th req; th.stOut = 0 → th.pl = 0 → u.releaseHeld v 4 = none →
    ∃ s', exec .tdone s = .next s' ∧ mget s'.threads t = none ∧ mget s'.threads th.home = none ∧ s'.mem = s.mem ∧ s'.saved = s.saved) ∧
  ∀ s t th, let req : Req := { req0 .tdone with commit := true }; MayExecute req s t th →
    let u := s.begun t th req; let v := s.runner t th req; th.stOut = 0 → u.releaseHeld v 4 = some 5 → Waits .tdone s t 5 u

/-- R23, R129: `join` of the leader waits under cause 12 for every detached member of its rank, and then all of them are attached again;
that of a detached member waits likewise until its leader reaches a `join`, faults where the leader's names another id, and has no effect
where the leader has ended; in a forme of width 1 and on a guest or an attached member it has no effect, nor in a thread of no forme, as a
supervisor's (log 137, DESIGN CHOICE). -/
def Obligations.JoinResults : Prop :=
  (∀ i s t th, let req : Req := { req0 (.join i) with commit := true }; MayExecute req s t th →
    let u := s.begun t th req; let v := s.runner t th req;
    (v.guest = true ∨ (match mget u.work.formes v.forme with | some f => f.f | none => 1) = 1) → Completes (.join i) s t (advance v.ctx false .seq)) ∧
  (∀ i s t th f, let req : Req := { req0 (.join i) with commit := true }; MayExecute req s t th →
    let u := s.begun t th req; let v := s.runner t th req; mget u.work.formes v.forme = some f → f.f ≠ 1 → v.guest = false → v.midx ≠ 0 →
    v.det = false → Completes (.join i) s t (advance v.ctx false .seq)) ∧
  (∀ i s t th f, let req : Req := { req0 (.join i) with commit := true }; MayExecute req s t th →
    let u := s.begun t th req; let v := s.runner t th req; mget u.work.formes v.forme = some f → f.f ≠ 1 → v.guest = false → v.midx = 0 →
    (u.detachedFrom v).all (fun h => u.joinsAt i.toNat h) = true →
    ∃ s', exec (.join i) s = .next s' ∧ (s'.thread? t).map Thread.ctx = some (advance v.ctx false .seq) ∧
      ∀ h ∈ u.detachedFrom v, h ≠ t → ∃ m, s'.thread? h = some m ∧ m.det = false ∧ m.join = none ∧ m.ctx.pc = (advance v.ctx false .seq).pc) ∧
  (∀ i s t th f, let req : Req := { req0 (.join i) with commit := true }; MayExecute req s t th →
    let u := s.begun t th req; let v := s.runner t th req; mget u.work.formes v.forme = some f → f.f ≠ 1 → v.guest = false → v.midx ≠ 0 →
    v.det = true →
      (u.leaderOf v = none → Completes (.join i) s t (advance v.ctx false .seq)) ∧
      (∀ h, u.leaderOf v = some h → ((u.thread? h).bind Thread.join = none ∨ (u.thread? h).bind Thread.join = some i.toNat) →
        Waits (.join i) s t 12 (u.modThread t fun y => { y with join := some i.toNat })) ∧
      (∀ h j, u.leaderOf v = some h → (u.thread? h).bind Thread.join = some j → j ≠ i.toNat →
        Faults (.join i) s req (u.modThread t fun y => { y with join := none }) t v 0x0D (BitVec.ofNat 64 (i.toNat + j * 2 ^ 8)))) ∧
  ∀ i s t th f, let req : Req := { req0 (.join i) with commit := true }; MayExecute req s t th →
    let u := s.begun t th req; let v := s.runner t th req; mget u.work.formes v.forme = some f → f.f ≠ 1 → v.guest = false → v.midx = 0 →
    (u.detachedFrom v).all (fun h => u.joinsAt i.toNat h) = false →
    Waits (.join i) s t 12 (u.modThread t fun y => { y with join := some i.toNat })

/-! ### Control registers, margins, timelines and barriers -/

/-- R121, R129: `ctlr` completes with the register's value as the thread reads it; TIME is device time now, and it moves on; `fidx` counts
the thread within its task, and gives 0 to a thread of no forme (log 119, DESIGN CHOICE). -/
def Obligations.ControlReads : Prop :=
  (∀ d n s t th, let req : Req := { reqD (.ctlr d n) d with legal := ctlAssigned n.toNat, level := ctlRead n.toNat }; MayExecute req s t th →
    let u := s.begun t th req; let v := s.runner t th req;
    n.toNat ≠ 0x101 → Completes (.ctlr d n) s t (advance (v.setS d (readCtl u t v n.toNat)).ctx false .seq)) ∧
  (∀ d s t th, let req : Req := { reqD (.ctlr d 0x101) d with legal := true, level := 0 }; MayExecute req s t th →
    let u := s.begun t th req; let v := s.runner t th req;
    ∃ s', exec (.ctlr d 0x101) s = .next s' ∧ u.sched.time ≤ s'.sched.time ∧ Untouched s s' t ∧
      (s'.thread? t).map Thread.ctx = some (advance (v.setS d (BitVec.ofNat 64 s'.sched.time)).ctx false .seq)) ∧
  (∀ d s t th, let req : Req := reqD (.fstat d) d; MayExecute req s t th →
    let u := s.begun t th req; let v := s.runner t th req;
    Completes (.fstat d) s t (advance (v.setS d (readCtl u t v 0x005)).ctx false .seq)) ∧
  ∀ d s t th, let req : Req := reqD (.fidx d) d; MayExecute req s t th →
    let u := s.begun t th req; let v := s.runner t th req;
    Completes (.fidx d) s t (advance (v.setS d (BitVec.ofNat 64
      (v.midx * (match mget u.work.formes v.forme with | some f => f.t | none => 0) + v.rank))).ctx false .seq)

/-- R69, R70, R121: `ctlw`, `ctls` and `ctlc` of a register of the thread's own context change that register only; of a register
without a write level they have no effect; of a shared register they change what it stands for. -/
def Obligations.ControlWrites : Prop :=
  (∀ (i : BitVec 7 → BitVec 10 → Instr) (kind : Nat), (i = .ctlw ∧ kind = 1) ∨ (i = .ctls ∧ kind = 2) ∨ (i = .ctlc ∧ kind = 3) →
    ∀ a n s t th, let req : Req := { reqA (i a n) a with legal := ctlAssigned n.toNat, level := ctlWrite n.toNat, flow := true, commit := !ctlOwn n.toNat && !ctlReadOnly n.toNat }; MayExecute req s t th →
    let u := s.begun t th req; let v := s.runner t th req;
      (ctlOwn n.toNat = true → Completes (i a n) s t (advance (v.ctx.writeCtl n.toNat kind (v.S a)) false .seq)) ∧
      (ctlOwn n.toNat = false → ctlReadOnly n.toNat = true → Completes (i a n) s t (advance v.ctx false .seq)) ∧
      (ctlOwn n.toNat = false → ctlReadOnly n.toNat = false →
        Ends (i a n) s t (advance v.ctx false .seq) (writeShared u t v n.toNat kind (v.S a))))

/-- R69, R73: a register of the context reads back as written, in its writable fields, with the value that the
kind of write gives them; no other register of the context changes. -/
def Obligations.ControlRegistersReadBack : Prop :=
  ∀ (x : Ctx) (n kind : Nat) (v : Dword), ctlOwn n = true →
    (n ≠ 0x018 → n ≠ 0x019 → (x.writeCtl n kind v).ctl n = ctlNew kind (ctlFields n) (x.ctl n) v) ∧
    (∀ m, m ≠ n → (x.writeCtl n kind v).ctl m = x.ctl m) ∧
    (x.writeCtl n kind v).regs = x.regs ∧ (x.writeCtl n kind v).masks = x.masks ∧ (x.writeCtl n kind v).armed = x.armed ∧
    (x.writeCtl 0x008 1 v).argp = v ∧ (x.writeCtl 0x008 2 v).argp = x.argp ||| v

/-- R130 to R132, R169: `mread` reads a field of the snapshot's slot, `pick` chooses a variant and starts its record with no cycles counted, and `mnote`
completes the record of its slot: the slot, the variant and the cycles / 256, at most 65,535, leave for the live margin when it commits,
except in a FROZEN launch; a slot past the last one faults with its number, and one with an uncorrectable error with its address. -/
def Obligations.MarginResults : Prop :=
  (∀ d f k s t th, let req : Req := { reqD (.mread d f k) d with legal := marginFieldOk f }; MayExecute req s t th →
    let u := s.begun t th req; let v := s.runner t th req;
    (k.toNat < u.nslots v → u.snapBad v k.toNat = false → Completes (.mread d f k) s t (advance (v.setS d (marginField (u.snapSlot v k.toNat) f.toNat)).ctx false .seq)) ∧
    (u.nslots v ≤ k.toNat →
      Faults (.mread d f k) s { reqD (.mread d f k) d with legal := marginFieldOk f } u t v 0x06 (BitVec.ofNat 64 k.toNat)) ∧
    (k.toNat < u.nslots v → u.snapBad v k.toNat = true → Faults (.mread d f k) s req u t v 0x07 (snapAddr v k.toNat))) ∧
  (∀ d n k s t th, let req : Req := { reqD (.pick d n k) d with legal := variantOk n }; MayExecute req s t th →
    let u := s.begun t th req; let v := s.runner t th req;
    (k.toNat < u.nslots v → u.snapBad v k.toNat = false → (slotKind (u.snapSlot v k.toNat) = 0 ∨ slotKind (u.snapSlot v k.toNat) = 4) →
      Completes (.pick d n k) s t (advance { (v.setS d (BitVec.ofNat 64 (pickChoice (u.snapSlot v k.toNat) (n.toNat + 1)))).ctx with
        pick := some { slot := k.toNat, variant := pickChoice (u.snapSlot v k.toNat) (n.toNat + 1), cycles := 0 } } false .seq)) ∧
    (k.toNat < u.nslots v → u.snapBad v k.toNat = false → slotKind (u.snapSlot v k.toNat) ≠ 0 → slotKind (u.snapSlot v k.toNat) ≠ 4 →
      Completes (.pick d n k) s t (advance (v.setS d 0).ctx false .seq)) ∧
    (u.nslots v ≤ k.toNat → Faults (.pick d n k) s { reqD (.pick d n k) d with legal := variantOk n } u t v 0x06 (BitVec.ofNat 64 k.toNat)) ∧
    (k.toNat < u.nslots v → u.snapBad v k.toNat = true → Faults (.pick d n k) s req u t v 0x07 (snapAddr v k.toNat))) ∧
  (∀ k s t th, let req : Req := req0 (.mnote k); MayExecute req s t th →
    let u := s.begun t th req; let v := s.runner t th req;
    (∀ p, k.toNat < u.nslots v → v.ctx.pick = some p → p.slot = k.toNat →
      Completes (.mnote k) s t (advance { v.ctx with pick := none } false .seq) ∧
      ∃ s' y, exec (.mnote k) s = .next s' ∧ s'.thread? t = some y ∧
        let site : SiteRec := .pick k.toNat p.variant (Nat.min (p.cycles / 256) 65535);
        (v.rob = [] → u.records v = true → ∃ m, s'.flight.margins = u.flight.margins ++ [m] ∧ m.site = site ∧ m.who = v.who ∧
          m.launch = v.launch ∧ m.waits = false) ∧
        (v.rob = [] → u.records v = false → s'.flight.margins = u.flight.margins) ∧
        (v.rob ≠ [] → s'.flight.margins = u.flight.margins ∧ ∃ e, y.rob = v.rob ++ [e] ∧ e.site = some (v.ctx.pc, site))) ∧
    (k.toNat < u.nslots v → (∀ p, v.ctx.pick = some p → p.slot ≠ k.toNat) → Completes (.mnote k) s t (advance v.ctx false .seq)) ∧
    (u.nslots v ≤ k.toNat → Faults (.mnote k) s (req0 (.mnote k)) u t v 0x06 (BitVec.ofNat 64 k.toNat)))

/-- R63, R64, R133, R134: `arm` makes the register absent until something writes it, and `dep` sends a deposit of S(b) to a register
of a neighbour's thread, which counts as sent, and waits under cause 5 while its row is held; of a core that is no neighbour it faults. -/
def Obligations.DepositResults : Prop :=
  (∀ d s t th, let req : Req := reqD (.arm d) d; MayExecute req s t th →
    let v := s.runner t th req; v.shadowed d.toNat = false →
    (v.coming.any fun e => e.1 == d.toNat) = false →
    Completes (.arm d) s t (advance { v.ctx with armed := setBits v.ctx.armed d.toNat 1 1 } false .seq)) ∧
  (∀ (x : Ctx) (n : BitVec 7) (w : Vec), ({ x with armed := setBits x.armed n.toNat 1 1 } : Ctx).armed.getLsbD n.toNat = true ∧
    (x.setReg n.toNat w).armed.getLsbD n.toNat = false ∧
    ∀ m < 128, m ≠ n.toNat → (x.setReg n.toNat w).armed.getLsbD m = x.armed.getLsbD m) ∧
  (∀ d a b s t th, let req : Req := { reqAB (.dep d a b) a b with commit := true }; MayExecute req s t th →
    let u := s.begun t th req; let v := s.runner t th req;
    (neighbours (coreOf t) (nbits (v.S a) 0 9) = true → u.edge (coreOf t) (some (nbits (v.S a) 0 9)) = true → Waits (.dep d a b) s t 5 u) ∧
    (neighbours (coreOf t) (nbits (v.S a) 0 9) = true → u.edge (coreOf t) (some (nbits (v.S a) 0 9)) = false →
      ∃ s', exec (.dep d a b) s = .next s' ∧ (s'.thread? t).map Thread.ctx = some (advance v.ctx false .seq) ∧ s'.mem = s.mem ∧
        s'.flight.deposits = u.flight.deposits ++
          [packetFrom u t v (nbits (v.S a) 0 9) (nbits (v.S a) 16 6) d.toNat ((v.S b).setWidth 512)]) ∧
    (neighbours (coreOf t) (nbits (v.S a) 0 9) = false →
      Faults (.dep d a b) s { reqAB (.dep d a b) a b with commit := true } u t v 0x06 (v.S a)))

/-- R360 to R363: `wait` goes on when what its fields bound is outstanding no more than they say, and else waits under the cause of
the first that is; `tlwait` of a context whose timeline has reached S(b) goes on, of one that has not waits under cause 7, and of one
that failed at that number or before faults with the number and the cause; `tlread` and `tlnext` read the context's count and the number of
its next command; a register that names no context of the thread's launch faults. The model's choices: which context a register names (log
58), and that `wait` counts the stores of the thread that have not committed as well (log 59). -/
def Obligations.TimelineResults : Prop :=
  (∀ l st c m s t th, let req : Req := req0 (.wait l st c m); MayExecute req s t th →
    let u := s.begun t th req; let v := s.runner t th req;
    let holds (n : BitVec 4) (k : Nat) : Prop := n = 15 ∨ k ≤ n.toNat
    (holds l v.loads → holds st v.stores → holds c (u.homeThread v).cpOut → holds m (u.homeThread v).mxOut →
      Completes (.wait l st c m) s t (advance v.ctx false .seq)) ∧
    (¬ holds l v.loads → Waits (.wait l st c m) s t 4 u) ∧
    (holds l v.loads → ¬ holds st v.stores → Waits (.wait l st c m) s t 5 u) ∧
    (holds l v.loads → holds st v.stores → ¬ (holds c (u.homeThread v).cpOut ∧ holds m (u.homeThread v).mxOut) →
      Waits (.wait l st c m) s t 7 u)) ∧
  (∀ d a s t th h m, let req : Req := reqDA (.tlread d a) d a; MayExecute req s t th →
    let u := s.begun t th req; let v := s.runner t th req; contextOf v (v.S a) = some (h, m) → u.ownsContext t v h m false = true →
    Completes (.tlread d a) s t (advance (v.setS d (BitVec.ofNat 64 (u.ctxOf h m).cnt)).ctx false .seq)) ∧
  (∀ d a s t th h m, let req : Req := reqDA (.tlnext d a) d a; MayExecute req s t th →
    let u := s.begun t th req; let v := s.runner t th req; contextOf v (v.S a) = some (h, m) → u.ownsContext t v h m false = true →
    Completes (.tlnext d a) s t (advance (v.setS d (BitVec.ofNat 64 ((u.ctxOf h m).issued + 1))).ctx false .seq)) ∧
  (∀ a b s t th h m, let req : Req := reqAB (.tlwait a b) a b; MayExecute req s t th →
    let u := s.begun t th req; let v := s.runner t th req; contextOf v (v.S a) = some (h, m) → u.ownsContext t v h m true = true →
    ((∀ f c, (u.ctxOf h m).failed = some (f, c) → (v.S b).toNat < f) →
      ((v.S b).toNat ≤ (u.ctxOf h m).cnt → h ≠ v.home → Ends (.tlwait a b) s t (advance v.ctx false .seq) (u.acquire t v 4)) ∧
      ((v.S b).toNat ≤ (u.ctxOf h m).cnt → h = v.home →
        Ends (.tlwait a b) s t (advance (v.orFlags ((u.ctxOf h m).flagsTo (v.mergedTo m) (v.S b).toNat)).ctx false .seq) (u.acquire t v 4)) ∧
      ((u.ctxOf h m).cnt < (v.S b).toNat → Waits (.tlwait a b) s t 7 u)) ∧
    (∀ f c, (u.ctxOf h m).failed = some (f, c) → f ≤ (v.S b).toNat → v.rob = [] →
      exec (.tlwait a b) s = .next (takeFault (if h = v.home then u.modCtx h m Eng.reset else u) t 0x08 0 false
        (BitVec.ofNat 64 (f % 2 ^ 48 + c * 2 ^ 48)) v.ctx.pc))) ∧
  (∀ d a s t th, let req : Req := reqDA (.tlread d a) d a; MayExecute req s t th →
    let u := s.begun t th req; let v := s.runner t th req; (∀ h m, contextOf v (v.S a) = some (h, m) → u.ownsContext t v h m false = false) →
    Faults (.tlread d a) s req u t v 0x06 (v.S a)) ∧
  (∀ d a s t th, let req : Req := reqDA (.tlnext d a) d a; MayExecute req s t th →
    let u := s.begun t th req; let v := s.runner t th req; (∀ h m, contextOf v (v.S a) = some (h, m) → u.ownsContext t v h m false = false) →
    Faults (.tlnext d a) s req u t v 0x06 (v.S a)) ∧
  ∀ a b s t th, let req : Req := reqAB (.tlwait a b) a b; MayExecute req s t th →
    let u := s.begun t th req; let v := s.runner t th req; (∀ h m, contextOf v (v.S a) = some (h, m) → u.ownsContext t v h m true = false) →
    Faults (.tlwait a b) s req u t v 0x06 (v.S a)

/-- R328, R364: an arrival adds one, and the one that reaches PARTIES completes the episode; `arrive` gives the episode that it joined and arrives once; `await` goes on when the episode has moved, as an acquire at the
barrier's scope, and else waits under cause 8; `arwt` arrives once and goes on when its arrival completes the episode, or when the episode
that it joined has moved, and waits under cause 8 between; `bstat` reads the barrier; a barrier that is not valid for the launch, or
released while a thread waits at it, faults, and `bstat` of one that is not valid reads 0. -/
def Obligations.BarrierResults : Prop :=
  (∀ w : Dword, nbits w 8 16 < nbits w 24 16 →
     (nbits w 8 16 + 1 = nbits w 24 16 → nbits (barArrive w) 8 16 = 0 ∧ nbits (barArrive w) 0 8 = (nbits w 0 8 + 1) % 256) ∧
     (nbits w 8 16 + 1 ≠ nbits w 24 16 → nbits (barArrive w) 8 16 = nbits w 8 16 + 1 ∧ nbits (barArrive w) 0 8 = nbits w 0 8) ∧
     nbits (barArrive w) 24 16 = nbits w 24 16 ∧ nbits (barArrive w) 40 24 = nbits w 40 24) ∧
  (∀ d i s t th, let req : Req := { reqD (.arrive d i) d with legal := barrierOk i, commit := true }; MayExecute req s t th →
    let u := s.begun t th req; let v := s.runner t th req;
    let w := u.barrier (dieOf (coreOf t)) i.toNat
    (u.barMine v w = true → u.departs t v (barScope i.toNat) none = none →
      Ends (.arrive d i) s t (advance (v.setS d (BitVec.ofNat 64 (barEpisode w))).ctx false .seq)
        (u.setBarrier (dieOf (coreOf t)) i.toNat (barArrive w))) ∧
    (u.barMine v w = false →
      Faults (.arrive d i) s { reqD (.arrive d i) d with legal := barrierOk i, commit := true } u t v 0x10 (BitVec.ofNat 64 i.toNat))) ∧
  (∀ a i s t th, let req : Req := { reqA (.await a i) a with legal := barrierOk i, commit := true }; MayExecute req s t th →
    let u := s.begun t th req; let v := s.runner t th req;
    let w := u.barrier (dieOf (coreOf t)) i.toNat
    (u.barFault t v i.toNat = none →
      (v.barOver i.toNat ≠ none ∨ barEpisode w ≠ nbits (v.S a) 0 8 →
        EndsAs (.await a i) s t (advance v.ctx false .seq) (u.acquire t v (barScope i.toNat)) fun y => y.wait = .none) ∧
      (v.barOver i.toNat = none → barEpisode w = nbits (v.S a) 0 8 →
        Waits (.await a i) s t 8 (u.modThread t fun y => { y with bar := some { id := i.toNat, episode := nbits (v.S a) 0 8, freed := none } }))) ∧
    (∀ r, u.barFault t v i.toNat = some r →
      Faults (.await a i) s req (u.modThread t fun y => { y with wait := .none }) t v 0x10 (BitVec.ofNat 64 (i.toNat + r * 2 ^ 8)))) ∧
  (∀ d i s t th, let req : Req := { reqD (.arwt d i) d with legal := barrierOk i, commit := true }; MayExecute req s t th →
    let u := s.begun t th req; let v := s.runner t th req;
    let w := u.barrier (dieOf (coreOf t)) i.toNat
    (v.awaits = none → u.barMine v w = true → u.departs t v (barScope i.toNat) none = none →
      (barEpisode (barArrive w) ≠ barEpisode w →
        Ends (.arwt d i) s t (advance (v.setS d (BitVec.ofNat 64 (barEpisode w))).ctx false .seq)
          ((u.setBarrier (dieOf (coreOf t)) i.toNat (barArrive w)).acquire t v (barScope i.toNat))) ∧
      (barEpisode (barArrive w) = barEpisode w →
        ∃ s' x y, exec (.arwt d i) s = .next s' ∧ u.thread? t = some x ∧ s'.thread? t = some y ∧
          y.ctx = (x.setS d (BitVec.ofNat 64 (barEpisode w))).ctx ∧ y.wait = .arwt (barEpisode w) x.ctx.pc ∧ y.cause = some 8 ∧
          s'.barrier (dieOf (coreOf t)) i.toNat = barArrive w ∧ s'.mem = s.mem)) ∧
    (v.awaits = none → u.barMine v w = false → Faults (.arwt d i) s req u t v 0x10 (BitVec.ofNat 64 i.toNat)) ∧
    (∀ e, v.awaits = some e → u.barFault t v i.toNat = none →
      (v.barOver i.toNat ≠ none ∨ barEpisode w ≠ e →
        EndsAs (.arwt d i) s t (advance v.ctx false .seq) (u.acquire t v (barScope i.toNat)) fun y => y.wait = .none) ∧
      (v.barOver i.toNat = none → barEpisode w = e →
        Waits (.arwt d i) s t 8 (u.modThread t fun y => { y with bar := some { id := i.toNat, episode := e, freed := none } }))) ∧
    (∀ e r, v.awaits = some e → u.barFault t v i.toNat = some r →
      Faults (.arwt d i) s req (u.modThread t fun y => { y with wait := .none }) t v 0x10 (BitVec.ofNat 64 (i.toNat + r * 2 ^ 8)))) ∧
  ∀ d i s t th, let req : Req := { reqD (.bstat d i) d with legal := barrierOk i, commit := true }; MayExecute req s t th →
    let u := s.begun t th req; let v := s.runner t th req;
    Completes (.bstat d i) s t (advance (v.setS d
      (if u.barMine v (u.barrier (dieOf (coreOf t)) i.toNat) then u.barrier (dieOf (coreOf t)) i.toNat else 0)).ctx false .seq)

/-! ### Messages, migration, tasks and routing -/

/-- R294 to R298: `send` puts one packet on its way once what its release at device scope covers is performed, and waits under cause 5
before; `rcv` takes the oldest unread message into a register pair, and as an acquire at device scope leaves what `State.acquire` leaves, the errors of
the messages behind it moved up with them (log 11, DEDUCED), and faults with DATA_LOST where the message lies in a line that an error has
spoiled (R169); `probe` reads its header, or all ones; `rti` leaves the handler for MSGPC. -/
def Obligations.MessageResults : Prop :=
  encodeNat (.probe 6) = 0x6C300006 ∧
  (∀ h a b s t th, let req : Req := { reqAB (.send h a b) a b with commit := true }; MayExecute req s t th →
    let u := s.begun t th req; let v := s.runner t th req;
    (∀ k, u.releaseHeld v 4 = some k → k = 5 ∧ Waits (.send h a b) s t 5 u) ∧
    (u.departs t v 4 (some (nbits (v.S a) 0 9)) = none →
    ∃ s', exec (.send h a b) s = .next s' ∧ (s'.thread? t).map Thread.ctx = some (advance v.ctx false .seq) ∧ s'.mem = s.mem ∧
      s'.flight.msgs = u.flight.msgs ++ [packetFrom u t v (nbits (v.S a) 0 9) (nbits (v.S a) 16 6) h.toNat (v.V b)])) ∧
  (∀ d s t th m rest, let req : Req := { word := encodeNat (.rcv d), regs := [d.toNat, d.toNat + 1], writes := [d.toNat, d.toNat + 1], commit := true }; MayExecute req s t th →
    let u := s.begun t th req; let v := s.runner t th req; (u.thread? v.home).isSome = true → u.mailbox v = m :: rest →
    u.mailBad v.home = false →
    ∃ s' y, exec (.rcv d) s = .next s' ∧ s'.thread? t = some y ∧ s'.mailbox y = rest ∧ Untouched ((u.acquire t v 4).shiftMail v.home) s' t ∧
      (s'.core (coreOf t)).l1d = ((u.flashL1 (coreOf t)).core (coreOf t)).l1d ∧ y.ctx = advance ((v.setV d m.payload).setV2 d (m.header.setWidth 512)).ctx false .seq) ∧
  (∀ d s t th, let req : Req := { word := encodeNat (.rcv d), regs := [d.toNat, d.toNat + 1], writes := [d.toNat, d.toNat + 1], commit := true }; MayExecute req s t th →
    let u := s.begun t th req; let v := s.runner t th req;
    (u.mailbox v = [] → Waits (.rcv d) s t 9 u) ∧
    (u.mailbox v ≠ [] → u.mailBad v.home = true → Faults (.rcv d) s req u t v 0x07 (mailAddr v.home))) ∧
  (∀ d s t th, let req : Req := reqD (.probe d) d; MayExecute req s t th →
    let u := s.begun t th req; let v := s.runner t th req;
    Completes (.probe d) s t (advance (v.setS d (match u.mailbox v with | [] => BitVec.allOnes 64 | m :: _ => m.header)).ctx false .seq)) ∧
  (∀ s t th, let req : Req := { req0 .rti with flow := true }; MayExecute req s t th →
    let v := s.runner t th req; v.ctx.hnd = true →
    EndsAs .rti s t { v.ctx with hnd := false, mskd := false, rem := 0, kept := .none, pc := v.ctx.msgpc } s fun y => y.wait = v.ctx.kept) ∧
  ∀ s t th, let req : Req := { req0 .rti with flow := true }; MayExecute req s t th →
    let u := s.begun t th req; let v := s.runner t th req; v.ctx.hnd = false →
    Faults .rti s { req0 .rti with flow := true } u t v 0x01 (BitVec.ofNat 64 (encodeNat .rti))

/-- R296: `msk` starts a masked section of n instructions, or with 0 ends one; within a section it may only shorten what remains. The model's
choice: an `msk` within a section is counted first, and looks at the count that is left (log 35). -/
def Obligations.MaskedSections : Prop :=
  ∀ n s t th, let req : Req := { req0 (.msk n) with legal := maskBoundOk n }; MayExecute req s t th →
    let u := s.begun t th req; let v := s.runner t th req;
    (th.ctx.mskd = false → n ≠ 0 → Completes (.msk n) s t (advance { v.ctx with mskd := true, rem := n.toNat } false .seq)) ∧
    (th.ctx.mskd = false → n = 0 → Completes (.msk n) s t (advance v.ctx false .seq)) ∧
    (th.ctx.mskd = true → n = 0 → Completes (.msk n) s t (advance { v.ctx with mskd := false, rem := 0 } false .seq)) ∧
    (th.ctx.mskd = true → n ≠ 0 → n.toNat ≤ v.ctx.rem → Completes (.msk n) s t (advance { v.ctx with mskd := true, rem := n.toNat } false .seq)) ∧
    (th.ctx.mskd = true → n ≠ 0 → v.ctx.rem < n.toNat →
      Faults (.msk n) s { req0 (.msk n) with legal := maskBoundOk n } u t v 0x11 (BitVec.ofNat 64 (n.toNat + v.ctx.rem * 2 ^ 8)))

/-- R299 to R302: `mig` to the thread's own core has no effect; to a core that takes it, the thread leaves as a migrant with its
context at the next instruction; to one that refuses it, it faults with the core and the reason; a leader that multicasts it waits until no member of its
rank is attached, whatever the core (log 26, DEDUCED), under cause 12 or a lower one that holds the `mig` besides. `migret` at home has no effect, and from a guest slot frees it and puts the context on its way; `migst` reads what a
core offers. -/
def Obligations.MigrationResults : Prop :=
  encodeNat (.migst 3 4) = 0x70184002 ∧
  (∀ a s t th, let req : Req := { reqA (.mig a) a with commit := true }; MayExecute req s t th →
    let u := s.begun t th req; let v := s.runner t th req;
    (v.casts = true → u.attachedTo v ≠ [] →
      (nbits (v.S a) 0 9 = coreOf t ∨ u.migRefused v (nbits (v.S a) 0 9) ≠ none ∨ u.migHeld t v (nbits (v.S a) 0 9) = none →
        Waits (.mig a) s t 12 u) ∧
      (∀ k, nbits (v.S a) 0 9 ≠ coreOf t → u.migRefused v (nbits (v.S a) 0 9) = none → u.migHeld t v (nbits (v.S a) 0 9) = some k →
        k < 12 ∧ Waits (.mig a) s t k u)) ∧
    ((v.casts = false ∨ u.attachedTo v = []) →
      (nbits (v.S a) 0 9 = coreOf t → Completes (.mig a) s t (advance v.ctx false .seq)) ∧
      (nbits (v.S a) 0 9 ≠ coreOf t → u.migRefused v (nbits (v.S a) 0 9) = none → u.migHeld t v (nbits (v.S a) 0 9) = none →
        ∃ s' m, exec (.mig a) s = .next s' ∧ (s'.core (nbits (v.S a) 0 9)).migrants = (u.core (nbits (v.S a) 0 9)).migrants ++ [m] ∧
          m.thread.ctx = advance v.ctx false .seq ∧ m.home = v.home ∧ m.from_ = coreOf t ∧ s'.mem = s.mem ∧
          (v.guest = false → ∃ y, s'.thread? t = some y ∧ y.away = some t) ∧
          (v.guest = true → v.home ≠ t → mget s'.threads t = none)) ∧
      (∀ k, nbits (v.S a) 0 9 ≠ coreOf t → u.migRefused v (nbits (v.S a) 0 9) = none → u.migHeld t v (nbits (v.S a) 0 9) = some k →
        Waits (.mig a) s t k u) ∧
      (∀ r, nbits (v.S a) 0 9 ≠ coreOf t → u.migRefused v (nbits (v.S a) 0 9) = some r →
        Faults (.mig a) s req u t v 0x0E (BitVec.ofNat 64 (nbits (v.S a) 0 9 + r * 2 ^ 16))))) ∧
  (∀ s t th, let req : Req := { req0 .migret with commit := true }; MayExecute req s t th →
    let v := s.runner t th req; v.guest = false → Completes .migret s t (advance v.ctx false .seq)) ∧
  (∀ s t th, let req : Req := { req0 .migret with commit := true }; MayExecute req s t th →
    let u := s.begun t th req; let v := s.runner t th req; v.guest = true → v.home ≠ t → v.stOut = 0 → v.coming = [] →
    u.departs t v 4 (some (coreOf v.home)) = none →
    ∃ s' r, exec .migret s = .next s' ∧ mget s'.threads t = none ∧ s'.flight.returns = u.flight.returns ++ [r] ∧
      r.thread.ctx = advance v.ctx false .seq ∧ s'.mem = s.mem) ∧
  ∀ d a s t th, let req : Req := reqDA (.migst d a) d a; MayExecute req s t th →
    let u := s.begun t th req; let v := s.runner t th req;
    Completes (.migst d a) s t (advance (v.setS d (BitVec.ofNat 64
      (((u.core (nbits (v.S a) 0 9)).migrants.filter fun m => m.thread.tenant == v.tenant).length +
       (u.offered (nbits (v.S a) 0 9) v.tenant - u.guests (nbits (v.S a) 0 9) v.tenant) * 2 ^ 8 +
       (if u.refusesGuests (nbits (v.S a) 0 9) v.tenant then 2 ^ 16 else 0) +
       (if u.holds (nbits (v.S a) 0 9) v.launch then 0 else 2 ^ 17)))).ctx false .seq)

/-- R265, R303, R304, R306: `tself` reads the address of the thread's task record, at home and in a guest; `spawn` of a task without dependences puts it on its home core's list and
answers bit 63 and the core, and of one with dependences arms the lowest free counter of that core and answers its number and the core;
`dec` puts
a decrement of the counter that S(a) names on its way. -/
def Obligations.TaskResults : Prop :=
  (∀ d s t th, let req : Req := reqD (.tself d) d; MayExecute req s t th →
    let v := s.runner t th req; Completes (.tself d) s t (advance (v.setS d v.task).ctx false .seq)) ∧
  (∀ (m : Migrant) base wdog, (m.guest base wdog).task = m.thread.task) ∧ encodeNat (.tself 4) = 0x74200003 ∧
  (∀ d a b s t th l loc x, let req : Req := { reqDAB (.spawn d a b) d a b with commit := true }; MayExecute req s t th →
    let u := s.begun t th req; let v := s.runner t th req; (v.S a).toNat % 64 = 0 → (v.S b).toNat ≤ 4095 →
    u.launchOf v = some l → (v.S a).toNat < 2 ^ 52 → u.resolve t v (v.S a).toNat 64 0 = .ok loc x → x.badLoc loc 64 = false →
    (∀ pa key blk, loc = .mem pa key blk → x.zeroing (pa / 64) = false) →
    (∀ p off, loc = .peer p off → x.mute p = false ∧ x.peerAllows p off 64 0 = true) →
    let w := (x.taskBytes loc).2; let r : Vec := BitVec.ofNat 512 (ofBytes (x.taskBytes loc).1);
    l.taskOk r = true → w.departs t v 4 (some (taskHome r)) = none →
    (v.S b = 0 → (w.core (taskHome r)).runList.length < 512 → (w.core (taskHome r)).waitTasks = [] →
      Ends (.spawn d a b) s t (advance (v.setS d (BitVec.ofNat 64 (2 ^ 63 + taskHome r))).ctx false .seq)
        (w.enlist { launch := v.launch, addr := v.S a, record := r, root := false })) ∧
    (∀ k, v.S b ≠ 0 → (List.range 256).find? (fun i => (mget (w.core (taskHome r)).counters i).isNone) = some k →
      Ends (.spawn d a b) s t (advance (v.setS d (BitVec.ofNat 64 (k * 2 ^ 9 + taskHome r))).ctx false .seq)
        (w.modCore (taskHome r) fun x => { x with
          counters := mput x.counters k (BitVec.ofNat 64 ((v.S b).toNat * 2 ^ 52 + (v.S a).toNat % 2 ^ 52 + v.tenant)),
          armed := mput x.armed k { launch := v.launch, addr := v.S a, record := r, root := false } }))) ∧
  (∀ d a b s t th, let req : Req := { reqDAB (.spawn d a b) d a b with commit := true }; MayExecute req s t th →
    let u := s.begun t th req; let v := s.runner t th req; (v.S a).toNat % 64 ≠ 0 →
    Faults (.spawn d a b) s { reqDAB (.spawn d a b) d a b with commit := true } u t v 0x04 (v.S a)) ∧
  ∀ a s t th, let req : Req := { reqA (.dec a) a with commit := true }; MayExecute req s t th →
    let u := s.begun t th req; let v := s.runner t th req; u.departs t v 4 (some (nbits (v.S a) 0 9)) = none →
    ∃ s' p, exec (.dec a) s = .next s' ∧ (s'.thread? t).map Thread.ctx = some (advance v.ctx false .seq) ∧ s'.mem = s.mem ∧
      s'.flight.decs = u.flight.decs ++ [p] ∧ p.core = nbits (v.S a) 0 9 ∧ p.k = nbits (v.S a) 9 8 ∧ p.tenant = v.tenant

/-- R273 to R277, R307, R308: `rtopen` opens a free batch with a good configuration; `rtsub` merges its entries into those that an open
batch keeps (`Batch.merge`; log 29, the model's reading of what is out of range), and the batch closes with the X-th; it is late in any other; `rtclose` closes it; `rtget` reads an admitted batch, in which a token
past the last is BADENTRY, and waits under cause 14 before; `rtstat` reads its state; all of a core whose row is not held; of a batch that the launch does not reach each answers NOBATCH. -/
def Obligations.RoutingResults : Prop :=
  (∀ d a s t th, let req : Req := { reqDA (.rtopen d a) d a with commit := true }; MayExecute req s t th →
    let u := s.begun t th req; let v := s.runner t th req; u.edge (coreOf t) none = false → cfgOk ((v.V a).setWidth 128) = true →
    ((∀ y, mget u.work.batches (nbits (v.V a) 0 3) = some y → y.state = 0 ∨ (y.launch = v.launch ∧ y.state = 3)) →
      Ends (.rtopen d a) s t (advance (v.setS d 0).ctx false .seq) (u.setBatch (nbits (v.V a) 0 3)
        { state := 1, launch := v.launch, cfg := (v.V a).setWidth 128, reached := 0, counted := 0, kept := [], result := [] })) ∧
    (∀ y, mget u.work.batches (nbits (v.V a) 0 3) = some y → y.state ≠ 0 → y.launch ≠ v.launch →
      Completes (.rtopen d a) s t (advance (v.setS d 0x400).ctx false .seq)) ∧
    (∀ y, mget u.work.batches (nbits (v.V a) 0 3) = some y → y.state ≠ 0 → y.launch = v.launch → y.state ≠ 3 →
      Completes (.rtopen d a) s t (advance (v.setS d 0x100).ctx false .seq))) ∧
  (∀ d a s t th, let req : Req := { reqDA (.rtopen d a) d a with commit := true }; MayExecute req s t th →
    let u := s.begun t th req; let v := s.runner t th req; u.edge (coreOf t) none = false → cfgOk ((v.V a).setWidth 128) = false →
    Completes (.rtopen d a) s t (advance (v.setS d 0x200).ctx false .seq)) ∧
  (∀ d a b s t th x, let req : Req := { reqDAB (.rtsub d a b) d a b with commit := true }; MayExecute req s t th →
    let u := s.begun t th req; let v := s.runner t th req; u.edge (coreOf t) none = false →
    u.batchOf (nbits (v.S b) 0 3) v.launch = some x →
    let r := ({ x with reached := Nat.min 65535 (x.reached + 1) } : Batch).merge (entriesOf (v.V a))
    (x.state = 1 → Ends (.rtsub d a b) s t (advance (v.setS d (if r.2 then 0x80 else 0)).ctx false .seq)
      (u.setBatch (nbits (v.S b) 0 3) { r.1 with counted := x.counted + 1, state := if cfgX x.cfg ≤ x.counted + 1 then 2 else 1 })) ∧
    (x.state ≠ 1 → Ends (.rtsub d a b) s t (advance (v.setS d 0x40).ctx false .seq)
      (u.setBatch (nbits (v.S b) 0 3) { x with reached := Nat.min 65535 (x.reached + 1) }))) ∧
  (∀ d a s t th x, let req : Req := { reqDA (.rtclose d a) d a with commit := true }; MayExecute req s t th →
    let u := s.begun t th req; let v := s.runner t th req; u.edge (coreOf t) none = false → u.batchOf (nbits (v.S a) 0 3) v.launch = some x →
    Ends (.rtclose d a) s t (advance (v.setS d 0).ctx false .seq)
      (u.setBatch (nbits (v.S a) 0 3) (if x.state = 1 then { x with state := 2 } else x))) ∧
  (∀ d a b s t th x, let req : Req := { word := encodeNat (.rtget d a b), regs := [d.toNat, a.toNat, b.toNat, d.toNat + 1], reads := [a.toNat, b.toNat], writes := [d.toNat, d.toNat + 1], commit := true }; MayExecute req s t th →
    let u := s.begun t th req; let v := s.runner t th req; u.edge (coreOf t) none = false → u.batchOf (nbits (v.S b) 0 3) v.launch = some x →
    (x.state = 3 → nbits (v.S a) 0 16 < cfgN x.cfg →
      Completes (.rtget d a b) s t (advance ((v.setV d (ofLanes 64
        (((mgetD x.result (nbits (v.S a) 0 16) ([], 0)).1 ++ List.replicate (8 - (mgetD x.result (nbits (v.S a) 0 16) ([], 0)).1.length) emptyRoute).map BitVec.toNat))).setV2 d
        (BitVec.ofNat 512 (mgetD x.result (nbits (v.S a) 0 16) ([], 0)).2)).ctx false .seq)) ∧
    (x.state = 3 → cfgN x.cfg ≤ nbits (v.S a) 0 16 →
      Completes (.rtget d a b) s t (advance ((v.setV d (ofLanes 64 ((List.replicate 8 emptyRoute).map BitVec.toNat))).setV2 d
        (BitVec.ofNat 512 0x80)).ctx false .seq)) ∧
    (x.state ≠ 3 → Waits (.rtget d a b) s t 14 u)) ∧
  (∀ d a s t th, let req : Req := { reqDA (.rtstat d a) d a with commit := true }; MayExecute req s t th →
    let u := s.begun t th req; let v := s.runner t th req; u.edge (coreOf t) none = false →
    Completes (.rtstat d a) s t (advance (v.setS d (match u.batchOf (nbits (v.S a) 0 3) v.launch with
      | none => 0x400
      | some x => BitVec.ofNat 64 (x.state + x.reached * 2 ^ 16))).ctx false .seq)) ∧
  (∀ d a b s t th, let req : Req := { reqDAB (.rtsub d a b) d a b with commit := true }; MayExecute req s t th →
    let u := s.begun t th req; let v := s.runner t th req; u.edge (coreOf t) none = false → u.batchOf (nbits (v.S b) 0 3) v.launch = none →
    Completes (.rtsub d a b) s t (advance (v.setS d 0x400).ctx false .seq)) ∧
  (∀ d a s t th, let req : Req := { reqDA (.rtclose d a) d a with commit := true }; MayExecute req s t th →
    let u := s.begun t th req; let v := s.runner t th req; u.edge (coreOf t) none = false → u.batchOf (nbits (v.S a) 0 3) v.launch = none →
    Completes (.rtclose d a) s t (advance (v.setS d 0x400).ctx false .seq)) ∧
  ∀ d a b s t th, let req : Req := { word := encodeNat (.rtget d a b), regs := [d.toNat, a.toNat, b.toNat, d.toNat + 1], reads := [a.toNat, b.toNat], writes := [d.toNat, d.toNat + 1], commit := true }; MayExecute req s t th →
    let u := s.begun t th req; let v := s.runner t th req; u.edge (coreOf t) none = false →
    u.batchOf (nbits (v.S b) 0 3) v.launch = none →
    Completes (.rtget d a b) s t (advance ((v.setV d (ofLanes 64 ((List.replicate 8 emptyRoute).map BitVec.toNat))).setV2 d (BitVec.ofNat 512 0x400)).ctx false .seq)

/-! ### Memory -/

/-- R233, R235, R236, R240: loads of 1, 2, 4, 8 and 64 bytes are sent and wait for their data; a load that is not aligned faults. -/
def Obligations.LoadsIssue : Prop :=
  (∀ d a z i, LoadIssues (.ld d a z i) { reqDA (.ld d a z i) d a with legal := loadSizeOk z } d z.toNat
    (fun th => th.S a + i.signExtend 64 <<< sizeLog z.toNat) none) ∧
  (∀ d a b z x, LoadIssues (.ldx d a b z x) { reqDAB (.ldx d a b z x) d a b with legal := loadSizeOk z } d z.toNat
    (fun th => th.S a + th.S b <<< x.toNat) none) ∧
  (∀ d a i, LoadIssues (.vld d a i) (reqDA (.vld d a i) d a) d 7 (fun th => th.S a + i.signExtend 64 <<< 6) none) ∧
  ∀ d a z c i, LoadIssues (.lda d a z c i) { reqDA (.lda d a z c i) d a with legal := loadSizeOk z && scopeOk c } d z.toNat
    (fun th => th.S a + i.signExtend 64 <<< sizeLog z.toNat) (some c.toNat)

/-- R229 to R231, R233, R160, R169, R387: when its data return, a load puts them into its register, extended as its size code says, whatever else
of the thread is under way, and memory stays as it is; until it may be performed (R166, R190) it waits; the thread's oldest load, if its
data hold an uncorrectable error, is a DATA_LOST fault at its own instruction, one that a peer refuses an ACCESS_FAULT, and what was issued after it is undone; a load of a line that no copy on the chip holds finds the bytes that memory
holds at the line's home; one that finds a line in the L1 reads that line. -/
def Obligations.LoadReturns : Prop :=
  (∀ s t th id l, s.thread? t = some th →
    (th.rob.findSome? fun e => match e.load with
      | some l => if l.id == id && !l.landed then some l else none
      | none => none) = some l →
    (s.loadWaits (coreOf t) th l = true → exec (.loadDataReturn t id) s = .next s) ∧
    (s.loadWaits (coreOf t) th l = false → s.unanswered l.loc = none → s.loadLost (coreOf t) l = none → l.loc.inBlock = none →
      (∀ e ∈ th.rob, ∀ m, e.load = some m → m.lost = none) →
      ∃ s' y, exec (.loadDataReturn t id) s = .next s' ∧ s'.thread? t = some y ∧ s'.mem = s.mem ∧
        y.ctx = th.ctx.setReg l.reg (loadValue l.sz (s.loadLoc (coreOf t) l.loc (loadBytes l.sz)).1)) ∧
    (∀ code e rest, s.loadWaits (coreOf t) th l = false → s.unanswered l.loc = none → s.loadLost (coreOf t) l = some code →
      th.rob = e :: rest → e.load = some l → th.pl = 0 →
      ∃ s' y, exec (.loadDataReturn t id) s = .next s' ∧ s'.thread? t = some y ∧ s'.mem = s.mem ∧ y.rob = [] ∧ y.ctx.pc = l.snap.pc ∧
        y.ctx.tookFault code (BitVec.ofNat 64 l.ea) l.snap.pc) ∧
    (∀ c code, s.loadLost c l = some code → code = 0x07 ∨ ((∃ w off, l.loc = .peer w off) ∧ code = 0x06))) ∧
  (∀ (s : State) c pa n key, pa % 64 + n ≤ 64 → mget (s.core c).l1d (cacheTag pa key) = none →
    (homeDie pa = some (dieOf c) ∨ mget (s.die (dieOf c)).rdc (cacheTag pa key) = none) →
    (s.loadThrough c pa n key).1 = s.homeBytes pa n key) ∧
  (∀ (s : State) c pa n key v, mget (s.core c).l1d (cacheTag pa key) = some v →
    s.loadThrough c pa n key = (lineBytes v (pa % 64) n, false, s)) ∧
  (∀ sz bs, sz < 4 → loadValue sz bs = (sextTo (ofBytes bs) (8 * 2 ^ sz)).setWidth 512) ∧
  (∀ sz bs, 4 ≤ sz → sz < 7 → loadValue sz bs = (zextTo (ofBytes bs) (8 * 2 ^ (sz - 4))).setWidth 512) ∧
  ∀ bs, loadValue 7 bs = BitVec.ofNat 512 (ofBytes bs)

/-- R234 to R236, R240, R243: stores of 1, 2, 4, 8 and 64 bytes, masked stores, store-releases and `zline`; one that is not aligned
faults, but `zline` takes the line that its address lies in. The model's choice: where a store to a block window is held or performed at once
(log 15). -/
def Obligations.StoresIssue : Prop :=
  (∀ d a z i, StoreIssues (.st d a z i) { reqAB (.st d a z i) d a with legal := storeSizeOk z } (2 ^ z.toNat) (2 ^ z.toNat)
    (fun th => th.S a + i.signExtend 64 <<< z.toNat) (fun th => scalarBytes (th.S d) (2 ^ z.toNat)) none) ∧
  (∀ d a b z x, StoreIssues (.stx d a b z x) { word := encodeNat (.stx d a b z x), regs := [d.toNat, a.toNat, b.toNat], reads := [d.toNat, a.toNat, b.toNat], legal := storeSizeOk z } (2 ^ z.toNat) (2 ^ z.toNat)
    (fun th => th.S a + th.S b <<< x.toNat) (fun th => scalarBytes (th.S d) (2 ^ z.toNat)) none) ∧
  (∀ d a i, StoreIssues (.vst d a i) (reqAB (.vst d a i) d a) 64 64 (fun th => th.S a + i.signExtend 64 <<< 6)
    (fun th => ((List.range 64).filter fun j => th.active j 8).map fun j => (j, byteOf (th.V d) j)) none) ∧
  (∀ d a z c i, StoreIssues (.stl d a z c i) { reqAB (.stl d a z c i) d a with legal := storeSizeOk z && scopeOk c } (2 ^ z.toNat) (2 ^ z.toNat)
    (fun th => th.S a + i.signExtend 64 <<< z.toNat) (fun th => scalarBytes (th.S d) (2 ^ z.toNat)) (some c.toNat)) ∧
  ∀ a i, StoreIssues (.zline a i) { reqA (.zline a i) a with commit := true } 1 64 (fun th => th.S a + i.signExtend 64 <<< 6)
    (fun _ => place 0 (List.replicate 64 0)) none

/-- R162, R230, R29, R203: at the home, a store's bytes go into memory, its acknowledgement lowers the thread's count of stores, and
it is no longer on its way; a line that is still being zeroed holds it back, and so does an earlier store that it may not overtake
(R190, R198). An invalidation removes the line from one die's RDC;
when all of a write's have, the home reports it; a peer's answer ends a peer write, and one that the peer refuses leaves its thread an
ACCESS_FAULT to take (R387; when it is taken is the model's choice, log 115). -/
def Obligations.StoresArrive : Prop :=
  (∀ s id x pa key blk, s.flight.stores.find? (fun y => y.id == id) = some x → x.req.loc = .mem pa key blk →
    (s.zeroing (pa / 64) = false → storeFirst id x s.flight.stores = true →
      ∃ s', exec (.storeAcknowledgement id) s = .next s' ∧ s'.mem = s.mem.puts (s.keyData key) x.req.writes ∧
        s'.flight.stores = s.flight.stores.filter (fun y => y.id != id) ∧
        s'.thread? (s.runSlot x.tid) = (s.thread? (s.runSlot x.tid)).map fun th => { th with stOut := th.stOut - 1 }) ∧
    ((s.zeroing (pa / 64) = true ∨ storeFirst id x s.flight.stores = false) → exec (.storeAcknowledgement id) s = .next s)) ∧
  (∀ s id x k off, s.flight.stores.find? (fun y => y.id == id) = some x → x.req.loc = .scratch k off → storeFirst id x s.flight.stores = true →
    ∃ s', exec (.storeAcknowledgement id) s = .next s' ∧ s'.mem = s.mem ∧
      (s'.cluster k).scratch = x.req.writes.foldl (fun m w => mput m w.1 w.2) (s.cluster k).scratch ∧
      s'.flight.stores = s.flight.stores.filter (fun y => y.id != id)) ∧
  (∀ s die line, (s.flight.invals.any fun x => x.line == line && x.dies.contains die) = true →
    ∃ s', exec (.rdcInvalidation die line) s = .next s' ∧ (s'.die die).rdc = dropLine (s.die die).rdc line ∧ s'.mem = s.mem ∧
      s'.threads = s.threads ∧ ∀ x ∈ s'.flight.invals, x.line = line → die ∉ x.dies) ∧
  (∀ s id, ∃ s', exec (.invalidationComplete id) s = .next s' ∧ OnlyFlight s s' ∧
    s'.flight = { s.flight with invals := s.flight.invals.filter fun x => !(x.id == id && x.dies.isEmpty) }) ∧
  ∀ s id x, s.flight.peers.find? (fun y => y.id == id) = some x → s.mute x.window = false →
    let ok := x.writes.all fun w => s.peerAllows x.window w.1 1 1
    ∃ s', exec (.peerPlacement id) s = .next s' ∧ s'.flight = { s.flight with peers := s.flight.peers.filter fun y => y.id != id } ∧
      s'.mem = s.mem ∧ (ok = true → s'.threads = s.threads) ∧
      (ok = false → x.tid < 65536 → x.who < 32768 → ∀ y, s.thread? x.who = some y →
        ∃ z, s'.thread? x.who = some z ∧ z.refused = y.refused.or (some (BitVec.ofNat 64 x.va)))

/-- R166, R168: a byte reads back as it was written under the key material it was written under; every other byte reads as before under
that material, and every byte of another line reads as before under every material. -/
def Obligations.MemoryReadsBack : Prop :=
  ∀ (m : Memory) key a b, m.tagged →
    (m.put key a b).byte key a = b ∧ (∀ c, c ≠ a → (m.put key a b).byte key c = m.byte key c) ∧
    (∀ k c, c / 64 ≠ a / 64 → (m.put key a b).byte k c = m.byte k c) ∧ (m.put key a b).tagged

/-- R237 to R239: the atomics, in both orders, and what each makes of the old value; the sums of `fadd` are rounded to nearest, ties to even,
in the location's format, and raise no flag. The model's choice: what an atomic of a peer page does and
answers (log 10, 83). -/
def Obligations.AtomicsPerform : Prop :=
  (∀ (f : BitVec 7 → BitVec 7 → BitVec 7 → BitVec 1 → Instr) (op : Nat) (o : Bool),
    (f, op, o) ∈ [(Instr.atomSwap, 0, false), (.atomAdd, 1, false), (.atomAnd, 2, false), (.atomOr, 3, false), (.atomXor, 4, false),
      (.atomMin, 5, false), (.atomMax, 6, false), (.atomMinn, 7, false), (.atomMaxn, 8, false), (.atomoSwap, 0, true), (.atomoAdd, 1, true),
      (.atomoAnd, 2, true), (.atomoOr, 3, true), (.atomoXor, 4, true), (.atomoMin, 5, true), (.atomoMax, 6, true), (.atomoMinn, 7, true),
      (.atomoMaxn, 8, true)] →
    ∀ d a b w, AtomicPerforms (f d a b w) (reqDAB (f d a b w) d a b) op (4 * 2 ^ w.toNat) o d a b) ∧
  (∀ d a b w, AtomicPerforms (.atomCas d a b w) (reqXAB (.atomCas d a b w) d a b) 9 (4 * 2 ^ w.toNat) false d a b) ∧
  (∀ d a b w, AtomicPerforms (.atomoCas d a b w) (reqXAB (.atomoCas d a b w) d a b) 9 (4 * 2 ^ w.toNat) true d a b) ∧
  (∀ d a b, AtomicPerforms (.atomFaddF32 d a b) (reqDAB (.atomFaddF32 d a b) d a b) 10 4 false d a b) ∧
  (∀ d a b, AtomicPerforms (.atomFaddBf16 d a b) (reqDAB (.atomFaddBf16 d a b) d a b) 11 2 false d a b) ∧
  (∀ d a b, AtomicPerforms (.atomoFaddF32 d a b) (reqDAB (.atomoFaddF32 d a b) d a b) 10 4 true d a b) ∧
  (∀ d a b, AtomicPerforms (.atomoFaddBf16 d a b) (reqDAB (.atomoFaddBf16 d a b) d a b) 11 2 true d a b) ∧
  (∀ x y c : Nat, x < 2 ^ 32 → y < 2 ^ 32 → atomNew 10 4 x y c = (fpAdd fmtF32 0 (unpack fmtF32 x) (unpack fmtF32 y)).1) ∧
  (∀ x y c : Nat, x < 2 ^ 16 → y < 2 ^ 16 → atomNew 11 2 x y c = (fpAdd fmtBf16 0 (unpack fmtBf16 x) (unpack fmtBf16 y)).1) ∧
  atomNew 11 2 0x4380 0x3F80 0 = 0x4380 ∧
  ∀ w x y c : Nat, (w = 4 ∨ w = 8) → x < 2 ^ (8 * w) → y < 2 ^ (8 * w) → c < 2 ^ (8 * w) →
    atomNew 0 w x y c = y ∧ atomNew 1 w x y c = (x + y) % 2 ^ (8 * w) ∧ atomNew 2 w x y c = x &&& y ∧ atomNew 3 w x y c = x ||| y ∧
    atomNew 4 w x y c = x ^^^ y ∧ atomNew 7 w x y c = Nat.min x y ∧ atomNew 8 w x y c = Nat.max x y ∧
    atomNew 9 w x y c = (if x = c then y else x) ∧
    atomNew 5 w x y c = (if signedOf x (8 * w) ≤ signedOf y (8 * w) then x else y) ∧
    atomNew 6 w x y c = (if signedOf x (8 * w) ≤ signedOf y (8 * w) then y else x)

/-- R188, R196, R241, R243: prefetches complete whatever their address, and change no memory; `l1inv` removes the line from both L1
caches, and does nothing to an on-chip window; a release fence goes on when what it waits for has been answered, and waits under cause 13 before; an acquire fence empties the
L1 at scope forme and above; `fence.wb` writes lines back and merges the dirty log. The model's choices: the cause 13 of a release fence (log
48), and `l1inv` of an on-chip window and TRAPV of a fault of it (log 23). -/
def Obligations.CacheAndFences : Prop :=
  (∀ a i s t th, let req : Req := { reqA (.pref a i) a with access := true }; MayExecute req s t th →
    let v := s.runner t th req;
    ∃ s', exec (.pref a i) s = .next s' ∧ (s'.thread? t).map Thread.ctx = some (advance v.ctx false .seq) ∧ s'.mem = s.mem) ∧
  (∀ a i s t th, let req : Req := { reqA (.prefl2 a i) a with access := true }; MayExecute req s t th →
    let v := s.runner t th req;
    ∃ s', exec (.prefl2 a i) s = .next s' ∧ (s'.thread? t).map Thread.ctx = some (advance v.ctx false .seq) ∧ s'.mem = s.mem) ∧
  (∀ a i s t th pa key blk w, let req : Req := { reqA (.l1inv a i) a with access := true, commit := true }; MayExecute req s t th →
    let u := s.begun t th req; let v := s.runner t th req;
    let ea := (v.S a + i.signExtend 64 <<< 6).toNat;
    (onChipWindow ea = true → Completes (.l1inv a i) s t (advance v.ctx false .seq)) ∧
    (onChipWindow ea = false → u.resolve t v (ea - ea % 64) 64 4 = .ok (.mem pa key blk) w →
      Ends (.l1inv a i) s t (advance v.ctx false .seq)
        (w.modCore (coreOf t) fun x => { x with l1d := dropLine x.l1d (pa / 64), l1i := dropLine x.l1i (pa / 64) }))) ∧
  (∀ c s t th, let req : Req := { req0 (.fenceAcq c) with legal := scopeOk c, access := true, commit := true }; MayExecute req s t th →
    let u := s.begun t th req; let v := s.runner t th req;
    Ends (.fenceAcq c) s t (advance v.ctx false .seq) (u.acquire t v c.toNat)) ∧
  (∀ c s t th, let req : Req := { req0 (.fenceRel c) with legal := scopeOk c, access := true, commit := true }; MayExecute req s t th →
    let u := s.begun t th req; let v := s.runner t th req;
    (u.releaseHeld v c.toNat = none → Completes (.fenceRel c) s t (advance v.ctx false .seq)) ∧
    (u.releaseHeld v c.toNat ≠ none → Waits (.fenceRel c) s t 13 u)) ∧
  (∀ c s t th, let req : Req := { req0 (.fenceFull c) with legal := scopeOk c, access := true, commit := true }; MayExecute req s t th →
    let u := s.begun t th req; let v := s.runner t th req;
    (u.releaseHeld v c.toNat = none → Ends (.fenceFull c) s t (advance v.ctx false .seq) (u.acquire t v c.toNat)) ∧
    (u.releaseHeld v c.toNat ≠ none → Waits (.fenceFull c) s t 13 u)) ∧
  (∀ c s t th, let req : Req := { req0 (.fenceWb c) with legal := scopeOk c, access := true, commit := true }; MayExecute req s t th →
    let u := s.begun t th req; let v := s.runner t th req;
    u.releaseHeld v c.toNat = none → u.releaseHeld v 1 = none →
    Ends (.fenceWb c) s t (advance v.ctx false .seq) (u.writeBackAll.mergeDirty (coreOf t))) ∧
  ∀ (s : State) t th c, (2 ≤ c → ((s.acquire t th c).core (coreOf t)).l1d = []) ∧ (c < 2 → s.acquire t th c = s)

/-- R48 to R50: `ext` and the word after it are one instruction, whose immediate is the word's with the prefix as its upper 26 bits; it
completes at the word after the pair. A second word that does not decode makes the pair illegal. -/
def Obligations.PairResults : Prop :=
  (∀ x w d a i s, decodeMain w = .ok (.addi d a i) → ∀ t th, MayExecute (pairReq (reqDA (.addi d a i) d a) x w s) s t th →
    Completes (.ext x w) s t (advance (th.counted.setS d (th.counted.S a + (x ++ i).signExtend 64)).ctx true .seq)) ∧
  (∀ x w d a i s, decodeMain w = .ok (.andi d a i) → ∀ t th, MayExecute (pairReq (reqDA (.andi d a i) d a) x w s) s t th →
    Completes (.ext x w) s t (advance (th.counted.setS d (th.counted.S a &&& (x ++ i).signExtend 64)).ctx true .seq)) ∧
  (∀ x w d a i s, decodeMain w = .ok (.ori d a i) → ∀ t th, MayExecute (pairReq (reqDA (.ori d a i) d a) x w s) s t th →
    Completes (.ext x w) s t (advance (th.counted.setS d (th.counted.S a ||| (x ++ i).setWidth 64)).ctx true .seq)) ∧
  (∀ x w d a i s, decodeMain w = .ok (.xori d a i) → ∀ t th, MayExecute (pairReq (reqDA (.xori d a i) d a) x w s) s t th →
    Completes (.ext x w) s t (advance (th.counted.setS d (th.counted.S a ^^^ (x ++ i).setWidth 64)).ctx true .seq)) ∧
  (∀ x w d a i s, decodeMain w = .ok (.slti d a i) → ∀ t th, MayExecute (pairReq (reqDA (.slti d a i) d a) x w s) s t th →
    Completes (.ext x w) s t (advance (th.counted.setS d
      (if (th.counted.S a).toInt < ((x ++ i).signExtend 64 : Dword).toInt then 1 else 0)).ctx true .seq)) ∧
  (∀ x w d i s, decodeMain w = .ok (.movi d i) → ∀ t th, MayExecute (pairReq (reqD (.movi d i) d) x w s) s t th →
    Completes (.ext x w) s t (advance (th.counted.setS d ((x ++ i).signExtend 64)).ctx true .seq)) ∧
  (∀ x w d s, decodeMain w = .ok (.jmp d) → ∀ t th, MayExecute (pairReq { req0 (.jmp d) with flow := true } x w s) s t th →
    Completes (.ext x w) s t { th.counted.ctx with pc := th.ctx.pc + 4 + (x ++ d).signExtend 64 <<< 2 }) ∧
  (∀ x w d s, decodeMain w = .ok (.call d) → ∀ t th, MayExecute (pairReq { req0 (.call d) with flow := true } x w s) s t th →
    Completes (.ext x w) s t { th.counted.ctx with pc := th.ctx.pc + 4 + (x ++ d).signExtend 64 <<< 2, lnk := th.ctx.pc + 8 }) ∧
  ∀ x w e s t th, decodeMain w = .error e → s.sched.cur = t → s.thread? t = some th → th.rob = [] →
    exec (.ext x w) s = .next (takeFault s t 0x01 0 true (BitVec.ofNat 64 ((0x0E * 2 ^ 26 + x.toNat) * 2 ^ 32 + w.toNat)) th.ctx.pc)

/-- R207, R219, R242: the region instructions with what each plans and answers; `scnt` answers the entries and the free nodes. -/
def Obligations.SparseResults : Prop :=
  (∀ d a g, RegionPerforms (.sld d a g) (reqDA (.sld d a g) d a) g false (some a)
    (fun s r _ key => (s.regRead g.toNat r key).map (answer r)) (fun r p th => th.setS d (regValue r.ty p.value))) ∧
  (∀ d a g, RegionPerforms (.sst d a g) (reqAB (.sst d a g) d a) g false (some a)
    (fun s r th key => s.planWrite g.toNat r key fun _ => regOperand r.ty (th.S d)) (fun _ _ th => th)) ∧
  (∀ d a g, RegionPerforms (.sadd d a g) (reqXA (.sadd d a g) d a) g false (some a)
    (fun s r th key => s.planWrite g.toNat r key fun old => regAdd r.ty old (regOperand r.ty (th.S d)))
    (fun r p th => th.setS d (regValue r.ty p.value))) ∧
  (∀ d a n g, RegionPerforms (.scan d a n g) (reqDA (.scan d a n g) d a) g true (some a)
    (fun s r _ cur => (s.regScan g.toNat r cur (n.toNat + 1)).map fun es => answer r (scanSlots es))
    (fun _ p th => th.setV d (BitVec.ofNat 512 p.value))) ∧
  (∀ d g, RegionPerforms (.scnt d g) (reqD (.scnt d g) d) g false none
    (fun _ r _ _ => .ok (answer r (r.entries % 2 ^ 40 + Nat.min r.freeCount (2 ^ 24 - 1) * 2 ^ 40)))
    (fun _ p th => th.setS d (BitVec.ofNat 64 p.value))) ∧
  ∀ (s : State) d g t th r, let req : Req := { reqD (.scnt d g) d with access := true, commit := true }; MayExecute req s t th →
    let u := s.begun t th req; let v := s.runner t th req;
    u.edge (coreOf t) none = false → u.resumeBreak g.toNat v.who = none → u.regionFor v.tenant g.toNat = .ok r → ∃ s', exec (.scnt d g) s = .next s' ∧
      (s'.thread? t).map Thread.ctx =
        some (advance (v.setS d (BitVec.ofNat 64 (r.entries % 2 ^ 40 + Nat.min r.freeCount (2 ^ 24 - 1) * 2 ^ 40))).ctx false .seq)

/-! ### Engines -/

/-- R281, R284 to R288, R290: the commands of the copy engine, with the checks of their operands. The model's choice: which reserved codes are
refused at issue and which fail in the engine (log 31). -/
def Obligations.CopyCommands : Prop :=
  (∀ a b, CopyIssues (.cpld a b) (reqEng (.cpld a b) [a, b]) 0 (·.V a) (·.V b) noOperand fun s th =>
    firstRefusal [operandRule (placeOk (th.V a)) (th.V a), boxRule (th.V b), staleRule s th (th.V b)]) ∧
  (∀ a b, CopyIssues (.cpst a b) (reqEng (.cpst a b) [a, b]) 1 (·.V a) (·.V b) noOperand fun s th =>
    firstRefusal [boxRule (th.V a), operandRule (placeOk (th.V b)) (th.V b), staleRule s th (th.V a)]) ∧
  (∀ a b c, CopyIssues (.cpadd a b c) (reqEng (.cpadd a b c) [a, b, c]) 2 (·.V a) (·.V b) (·.V c) fun s th =>
    firstRefusal [boxRule (th.V a), operandRule (placeOk (th.V b)) (th.V b),
      operandRule (nbits (th.V c) 1 15 == 0 && nbits (th.V c) 28 36 == 0) (th.V c), staleRule s th (th.V a)]) ∧
  (∀ a b c, CopyIssues (.cpgat a b c) (reqEng (.cpgat a b c) [a, b, c]) 3 (·.V a) (·.V b) (·.V c) fun s th =>
    firstRefusal [operandRule (placeOk (th.V a)) (th.V a), rowBoxRule (th.V b), indexRule (th.V c), staleRule s th (th.V b)]) ∧
  (∀ a b c, CopyIssues (.cpsca a b c) (reqEng (.cpsca a b c) [a, b, c]) 4 (·.V a) (·.V b) (·.V c) fun s th =>
    firstRefusal [rowBoxRule (th.V a), operandRule (placeOk (th.V b)) (th.V b), indexRule (th.V c), staleRule s th (th.V a)]) ∧
  (∀ a b, CopyIssues (.kvld a b) (reqEng (.kvld a b) [a, b]) 5 (·.V a) (·.V b) noOperand fun _ th =>
    firstRefusal [operandRule (placeOk (th.V a) && placeRing (th.V a)) (th.V a), kvRule (th.V b)]) ∧
  (∀ a b c, CopyIssues (.dens a b c) (reqEng (.dens a b c) [a, b, c]) 6 (·.V a) (·.V b) (·.V c) fun s th =>
    firstRefusal [boxRule (th.V a), operandRule (nbits (th.V b) 4 60 == 0) (th.V b), staleRule s th (th.V a)]) ∧
  (∀ a b, CopyIssues (.cpfill a b) (reqEng (.cpfill a b) [a, b]) 7 (·.V a) (·.V b) noOperand fun s th =>
    firstRefusal [boxRule (th.V a), staleRule s th (th.V a)]) ∧
  (∀ a b c, CopyIssues (.cpcopy a b c) (reqEng (.cpcopy a b c) [a, b, c]) 8 (·.V a) (·.V b) (·.V c) fun _ th =>
    operandRule (1 ≤ (th.S c).toNat && decide ((th.S c).toNat ≤ 2 ^ 32)) (th.V c)) ∧
  (∀ a b c, CopyIssues (.rpush a b c) (reqEng (.rpush a b c) [a, b, c]) 14 (·.V a) (·.V b) (·.V c) fun _ th =>
    firstRefusal [operandRule (placeOk (th.V b)) (th.V b), ringLenRule (th.V c)]) ∧
  ∀ a b c, CopyIssues (.rpop a b c) (reqEng (.rpop a b c) [a, b, c]) 15 (·.V a) (·.V b) (·.V c) fun _ th =>
    firstRefusal [operandRule (placeOk (th.V a)) (th.V a), ringLenRule (th.V c)]

/-- R281, R291 to R293: the commands of the matrix unit; `mma` and `smma` count a tile operation for each step that they name. The
model's choice: which reserved codes are refused at issue and which fail in the engine (log 31). -/
def Obligations.MatrixCommands : Prop :=
  (∀ a b c, MatrixIssues (.mma a b c) (reqEng (.mma a b c) [a, b, c]) 9 (·.V a) (·.V b) (·.V c) (fun th => nbits (th.V c) 8 8 + 1) fun _ th =>
    firstRefusal [operandRule (placeOk (th.V a)) (th.V a), operandRule (placeOk (th.V b)) (th.V b), tileRule false (th.V c)]) ∧
  (∀ a b c, MatrixIssues (.smma a b c) (reqEng (.smma a b c) [a, b, c]) 10 (·.V a) (·.V b) (·.V c) (fun th => nbits (th.V c) 8 8 + 1) fun _ th =>
    firstRefusal [operandRule (placeOk (th.V a)) (th.V a), operandRule (placeOk (th.V b)) (th.V b), tileRule true (th.V c)]) ∧
  (∀ a, MatrixIssues (.mzero a) (reqEng (.mzero a) [a]) 11 (·.V a) noOperand noOperand (fun _ => 1) fun _ th =>
    operandRule (nbits (th.V a) 3 61 == 0) (th.V a)) ∧
  ∀ a c, MatrixIssues (.mdrain a c) (reqEng (.mdrain a c) [a, c]) 12 (·.V a) noOperand (·.V c) (fun _ => 1) fun s th =>
    firstRefusal [boxRule (th.V a),
      operandRule (nbits (th.V c) 28 36 == 0 && nbits (th.V c) 8 8 == 0 && nbits (th.V c) 3 1 == 0 && nbits (th.V c) 4 2 != 3) (th.V c),
      staleRule s th (th.V a), drainBoxRule s th (th.V a)]

/-- R248, R249, R289: `rcfg` configures a ring of the launch with its four counters at zero, or removes it; a descriptor that breaks
the rules, a ring that reaches past the launch's grant, a ring of another launch and a ring in use fault with S(b). A command that starts moves WPTR or RPTR on, a filled slot TAIL, and a
read one HEAD; a push has room below COUNT, and a pop takes only what has been reserved and published. -/
def Obligations.RingResults : Prop :=
  (∀ a b s t th, let req : Req := { reqAB (.rcfg a b) a b with commit := true }; MayExecute req s t th →
    let u := s.begun t th req; let v := s.runner t th req;
    let k := nbits (v.S a) 0 4
    let w := (v.S b).toNat
    let r : Ring := { launch := v.launch, desc := BitVec.ofNat 64 (field w 0 32 + 2 ^ 63), tail := 0, wptr := 0, head := 0, rptr := 0, filled := [], read := [] }
    (field w 30 2 ≠ 3 → field w 26 4 ≤ 8 → field w 12 8 = 0 → field w 32 31 = 0 → (∀ x, mget (u.core (coreOf t)).rings k = some x → x.launch = v.launch) →
      u.ringBusy (coreOf t) k v.launch = false →
      (field w 63 1 = 1 → field w 0 12 * 2048 + 2 ^ field w 26 4 * ((field w 20 6 + 1) * 2048) ≤ u.grantSize v.launch →
        Ends (.rcfg a b) s t (advance v.ctx false .seq) (u.modCore (coreOf t) fun x => { x with rings := mput x.rings k r })) ∧
      (field w 63 1 = 0 → Ends (.rcfg a b) s t (advance v.ctx false .seq) (u.modCore (coreOf t) fun x => { x with rings := mdel x.rings k }))) ∧
    ((field w 63 1 = 1 ∧ u.grantSize v.launch < field w 0 12 * 2048 + 2 ^ field w 26 4 * ((field w 20 6 + 1) * 2048) ∨
      field w 30 2 = 3 ∨ 8 < field w 26 4 ∨ field w 12 8 ≠ 0 ∨ field w 32 31 ≠ 0 ∨ u.ringBusy (coreOf t) k v.launch = true ∨
      ∃ x, mget (u.core (coreOf t)).rings k = some x ∧ x.launch ≠ v.launch) →
      Faults (.rcfg a b) s { reqAB (.rcfg a b) a b with commit := true } u t v 0x06 (v.S b))) ∧
  (∀ (r : Ring) n, r.filled.contains (ringNext n) = false → n = r.tail → (r.fill n).tail = ringNext r.tail) ∧
  (∀ (r : Ring) n, n ≠ r.tail → r.filled.contains r.tail = false → (r.fill n).tail = r.tail) ∧
  (∀ (r : Ring) n, r.read.contains (ringNext n) = false → n = r.head → (r.retire n).head = ringNext r.head) ∧
  (∀ (r : Ring) n, n ≠ r.head → r.read.contains r.head = false → (r.retire n).head = r.head) ∧
  (∀ r : Ring, r.canPush = true ↔ (r.wptr + 2 ^ 16 - r.head) % 2 ^ 16 < 2 ^ nbits r.desc 26 4) ∧
  (∀ r : Ring, r.canPop = true ↔ (r.rptr + 2 ^ 16 - r.head) % 2 ^ 16 < 2 ^ nbits r.desc 26 4 ∧ r.rptr ≠ r.wptr) ∧
  -- a command of the copy engine that starts reserves the slot that it pushes, or claims the slot that it pops; a tile operation claims its slots
  (∀ s c m k r push, s.rowHeld c = false → s.copyRoom c = true →
    (s.copyPick c fun l => (s.nextStart c l (s.core c).copyQ).isSome).bind (fun l => s.nextStart c l (s.core c).copyQ) = some m →
    s.startFails c m = none → m.ringUse = some (k, push) → s.ring? c m.launch k = some r →
    ∃ s', exec (.copyCommandStart c) s = .next s' ∧ mget (s'.core c).rings k =
      some (if push then { r with wptr := ringNext r.wptr } else { r with rptr := ringNext r.rptr })) ∧
  ∀ (r x : Ring) n, r.claim = some (n, x) → n = r.rptr ∧ r.canPop = true ∧ x = { r with rptr := ringNext r.rptr }

/-! ### Table changes and the machine level -/

/-- R322, R331 to R335: `shdef` puts the record into the first free slot and answers its handle, or 0 when there is none, and faults
with the offset of the first field that breaks the rules; `shret` frees the record and moves its generation on; `shget` reads it; a
handle that matches no record faults with it. The model's choice: a handle is the low 32 bits of its register (log 61, DEDUCED). -/
def Obligations.ShapeResults : Prop :=
  (∀ a b s t th x k, let req : Req := { word := encodeNat (.shdef a b), regs := [a.toNat, b.toNat], reads := [b.toNat], writes := [a.toNat], commit := true }; MayExecute req s t th →
    let u := s.begun t th req; let v := s.runner t th req;
    u.departs t v 4 none = none → shapeFault (v.V b) = none → u.tenant? v.tenant = some x →
    (List.range 4096).find? (fun k => nbits (u.shapeAt (x.shtb + 64 * k)) 96 8 == 0) = some k →
    Ends (.shdef a b) s t (advance (v.setS a (BitVec.ofNat 64 (nbits (u.shapeAt (x.shtb + 64 * k)) 80 12 * 2 ^ 20 + k))).ctx false .seq)
      ((u.setShape (x.shtb + 64 * k) (setBits (setBits (v.V b) 80 16 (nbits (u.shapeAt (x.shtb + 64 * k)) 80 12)) 96 8 1)).acquire t v 4)) ∧
  (∀ a b s t th x, let req : Req := { word := encodeNat (.shdef a b), regs := [a.toNat, b.toNat], reads := [b.toNat], writes := [a.toNat], commit := true }; MayExecute req s t th →
    let u := s.begun t th req; let v := s.runner t th req;
    u.departs t v 4 none = none → shapeFault (v.V b) = none → u.tenant? v.tenant = some x →
    (List.range 4096).find? (fun k => nbits (u.shapeAt (x.shtb + 64 * k)) 96 8 == 0) = none →
    Ends (.shdef a b) s t (advance (v.setS a 0).ctx false .seq) (u.acquire t v 4)) ∧
  (∀ a b s t th o, let req : Req := { word := encodeNat (.shdef a b), regs := [a.toNat, b.toNat], reads := [b.toNat], writes := [a.toNat], commit := true }; MayExecute req s t th →
    let u := s.begun t th req; let v := s.runner t th req;
    u.departs t v 4 none = none → shapeFault (v.V b) = some o →
    Faults (.shdef a b) s { word := encodeNat (.shdef a b), regs := [a.toNat, b.toNat], reads := [b.toNat], writes := [a.toNat], commit := true } u t v 0x06 (BitVec.ofNat 64 o)) ∧
  (∀ b s t th p r, let req : Req := { word := encodeNat (.shret b), regs := [b.toNat], reads := [b.toNat], commit := true }; MayExecute req s t th →
    let u := s.begun t th req; let v := s.runner t th req;
    u.departs t v 4 none = none → u.handle v (v.S b) = some (p, r) →
    Ends (.shret b) s t (advance v.ctx false .seq)
      ((u.setShape p (setBits (setBits r 80 16 (if nbits r 80 12 = 4095 then 1 else nbits r 80 12 + 1)) 96 8 0)).acquire t v 4)) ∧
  (∀ a b s t th p r, let req : Req := { word := encodeNat (.shget a b), regs := [a.toNat, b.toNat], reads := [b.toNat], writes := [a.toNat], commit := true }; MayExecute req s t th →
    let u := s.begun t th req; let v := s.runner t th req;
    u.departs t v 4 none = none → u.handle v (v.S b) = some (p, r) →
    Ends (.shget a b) s t (advance (v.setV a r).ctx false .seq) (u.acquire t v 4)) ∧
  (∀ b s t th, let req : Req := { word := encodeNat (.shret b), regs := [b.toNat], reads := [b.toNat], commit := true }; MayExecute req s t th →
    let u := s.begun t th req; let v := s.runner t th req;
    u.departs t v 4 none = none → u.handle v (v.S b) = none →
    Faults (.shret b) s { word := encodeNat (.shret b), regs := [b.toNat], reads := [b.toNat], commit := true } u t v 0x09 (v.S b)) ∧
  ∀ a b s t th, let req : Req := { word := encodeNat (.shget a b), regs := [a.toNat, b.toNat], reads := [b.toNat], writes := [a.toNat], commit := true }; MayExecute req s t th →
    let u := s.begun t th req; let v := s.runner t th req;
    u.departs t v 4 none = none → u.handle v (v.S b) = none →
    Faults (.shget a b) s { word := encodeNat (.shget a b), regs := [a.toNat, b.toNat], reads := [b.toNat], writes := [a.toNat], commit := true } u t v 0x09 (v.S b)

/-- R336 to R341: `blkmap` maps a block of the free list, or says why not; `blkref` shares one, which makes both entries COW;
`blkfree` clears an entry, and a shared block's count falls; `blkmig` queues a migration; `blkst` reads an entry with its count and
the free blocks of the die. -/
def Obligations.BlockResults : Prop :=
  (∀ a b c s t th e, let req : Req := { word := encodeNat (.blkmap a b c), level := 1, regs := [a.toNat, b.toNat, c.toNat], reads := [b.toNat, c.toNat], writes := [a.toNat], commit := true }; MayExecute req s t th →
    let u := s.begun t th req; let v := s.runner t th req;
    u.departs t v 4 none = none → nbits (v.S c) 14 50 = 0 → u.ownsKey v.tenant (nbits (v.S c) 0 10) = true → u.entryOf v.tenant (v.S b) = some e →
    blkWb (u.blk e) = false →
    (blkValid (u.blk e) = true → Ends (.blkmap a b c) s t (advance (v.setS a 2).ctx false .seq) (u.acquire t v 4)) ∧
    (blkValid (u.blk e) = false → u.popBlock (nbits (v.S c) 12 2) v.tenant (nbits (v.S c) 10 1) = none →
      Ends (.blkmap a b c) s t (advance (v.setS a 1).ctx false .seq) (u.acquire t v 4)) ∧
    (∀ p w, blkValid (u.blk e) = false → u.popBlock (nbits (v.S c) 12 2) v.tenant (nbits (v.S c) 10 1) = some (p, w) → (v.S c).getLsbD 11 = false →
      Ends (.blkmap a b c) s t (advance (v.setS a 0).ctx false .seq)
        (((w.setCount p 1).setBlk e (blkMake (nbits (v.S c) 10 1) 0 (nbits (v.S c) 0 10) p)).acquire t v 4))) ∧
  (∀ a b c s t th ed es, let req : Req := { word := encodeNat (.blkref a b c), level := 1, regs := [a.toNat, b.toNat, c.toNat], reads := [b.toNat, c.toNat], writes := [a.toNat], commit := true }; MayExecute req s t th →
    let u := s.begun t th req; let v := s.runner t th req;
    u.departs t v 4 none = none → u.entryOf v.tenant (v.S b) = some ed → u.entryOf v.tenant (v.S c) = some es →
    blkWb (u.blk ed) = false → blkWb (u.blk es) = false → blkValid (u.blk es) = true → blkValid (u.blk ed) = false →
    u.blkCount (blkBase (u.blk es)) < 65535 →
    Ends (.blkref a b c) s t (advance (v.setS a 0).ctx false .seq)
      ((((u.setCount (blkBase (u.blk es)) (u.blkCount (blkBase (u.blk es)) + 1)).setBlk es (setBits (u.blk es) 125 1 1)).setBlk ed
        (blkMake (blkTier (u.blk es)) 1 (blkKey (u.blk es)) (blkBase (u.blk es)))).acquire t v 4)) ∧
  (∀ a b s t th e, let req : Req := { word := encodeNat (.blkfree a b), level := 1, regs := [a.toNat, b.toNat], reads := [b.toNat], writes := [a.toNat], commit := true }; MayExecute req s t th →
    let u := s.begun t th req; let v := s.runner t th req;
    u.departs t v 4 none = none → u.entryOf v.tenant (v.S b) = some e → blkWb (u.blk e) = false →
    (blkValid (u.blk e) = false → Ends (.blkfree a b) s t (advance (v.setS a 5).ctx false .seq) (u.acquire t v 4)) ∧
    (blkValid (u.blk e) = true → 1 < u.blkCount (blkBase (u.blk e)) →
      Ends (.blkfree a b) s t (advance (v.setS a 0).ctx false .seq)
        (((u.setBlk e (setBits (u.blk e) 127 1 0)).setCount (blkBase (u.blk e)) (u.blkCount (blkBase (u.blk e)) - 1)).acquire t v 4))) ∧
  (∀ a b c s t th e, let req : Req := { word := encodeNat (.blkmig a b c), regs := [a.toNat, b.toNat, c.toNat], reads := [b.toNat, c.toNat], writes := [a.toNat], commit := true }; MayExecute req s t th →
    let u := s.begun t th req; let v := s.runner t th req;
    u.departs t v 4 none = none → nbits (v.S c) 35 29 = 0 → u.entryOf v.tenant (v.S b) = some e → blkWb (u.blk e) = false →
    blkValid (u.blk e) = true → u.blkCount (blkBase (u.blk e)) ≤ 1 → (u.die (dieOf (coreOf t))).migQ.length < 64 →
    ∃ s' m, exec (.blkmig a b c) s = .next s' ∧ (s'.thread? t).map Thread.ctx = some (advance (v.setS a 0).ctx false .seq) ∧ s'.mem = s.mem ∧
      (s'.die (dieOf (coreOf t))).migQ = (u.die (dieOf (coreOf t))).migQ ++ [m] ∧ m.entry = e ∧ m.tier = nbits (v.S c) 34 1 ∧
      m.die = nbits (v.S c) 32 2 ∧ m.state = .queued ∧ m.cow = false) ∧
  ∀ a b s t th e, let req : Req := { word := encodeNat (.blkst a b), regs := [a.toNat, b.toNat], reads := [b.toNat], writes := [a.toNat], commit := true }; MayExecute req s t th →
    let u := s.begun t th req; let v := s.runner t th req;
    u.departs t v 4 none = none → u.entryOf v.tenant (v.S b) = some e →
    Ends (.blkst a b) s t (advance (v.setV a (BitVec.ofNat 512
      ((setBits (u.blk e) 64 16 (if blkValid (u.blk e) then u.blkCount (blkBase (u.blk e)) else 0)).toNat +
       (u.freeList (freeKey (dieOf (coreOf t)) v.tenant 0)).length * 2 ^ 128 + (u.freeList (freeKey (dieOf (coreOf t)) v.tenant 1)).length * 2 ^ 160))).ctx false .seq)
      (u.acquire t v 4)

/-- R342 to R344: `tlbinv` removes the cached translations that it names, and completes once no access that they translated is on its
way; `impset` gives a position of the launch to a slot, or frees it, and every other position reads as before, but that PB is cleared where
a live thread would have it on every one of its positions; `bcfg` configures a free barrier and releases one of the launch
where no thread has arrived. -/
def Obligations.TableResults : Prop :=
  (∀ b c s t th, let req : Req := { word := encodeNat (.tlbinv b c), level := 1, regs := [b.toNat, c.toNat], reads := [b.toNat, c.toNat], commit := true }; MayExecute req s t th →
    let u := s.begun t th req; let v := s.runner t th req;
    u.departs t v 4 none = none → nbits (v.S c) 10 54 = 0 → nbits (v.S c) 3 5 = 0 → nbits (v.S c) 0 3 < 5 → (v.S c).getLsbD 9 = false →
    let keepT (x : Tlb) : Bool := !x.named v.tenant (v.S b).toNat (pageSize (nbits (v.S c) 0 3)) ((v.S c).getLsbD 8)
    let cores := u.cores.map fun (e : Nat × Core) => (e.1, { e.2 with tlb := e.2.tlb.filter keepT })
    let clusters := u.clusters.map fun (e : Nat × Cluster) => (e.1, { e.2 with l2tlb := e.2.l2tlb.filter keepT })
    let w : State := { u with cores := cores, clusters := clusters }
    (w.accessesOut v.tenant (v.S b).toNat (Nat.max (pageSize (nbits (v.S c) 0 3)) (pageSize 4)) ((v.S c).getLsbD 8) = false →
      Ends (.tlbinv b c) s t (advance v.ctx false .seq) (w.acquire t v 4)) ∧
    (w.accessesOut v.tenant (v.S b).toNat (Nat.max (pageSize (nbits (v.S c) 0 3)) (pageSize 4)) ((v.S c).getLsbD 8) = true →
      Waits (.tlbinv b c) s t 15 (w.modThread t fun x => { x with reply := true }))) ∧
  (∀ b c s t th, let req : Req := { word := encodeNat (.impset b c), regs := [b.toNat, c.toNat], reads := [b.toNat, c.toNat], commit := true }; MayExecute req s t th →
    let u := s.begun t th req; let v := s.runner t th req;
    u.departs t v 4 none = none → nbits (v.S b) 6 58 = 0 → nbits (v.S c) 6 2 = 0 → nbits (v.S c) 9 55 = 0 →
    (u.impsetBad t v (nbits (v.S b) 0 6) (nbits (v.S c) 0 6) ((v.S c).getLsbD 8) = false →
      let p := nbits (v.S b) 0 6
      let slot := nbits (v.S c) 0 6
      let e := (u.core (coreOf t)).impView p
      let w (e1 : BitVec 16) : State := (u.modCore (coreOf t) fun x => x.setImp p e1).keepPosition (coreOf t) (impSlot e)
      ((v.S c).getLsbD 8 = false → Ends (.impset b c) s t (advance v.ctx false .seq)
        (((w (setBits (setBits e 14 1 1) 0 6 slot)).keepPosition (coreOf t) slot).acquire t v 4)) ∧
      ((v.S c).getLsbD 8 = true → Ends (.impset b c) s t (advance v.ctx false .seq) ((w (setBits (setBits e 14 1 0) 0 6 0)).acquire t v 4))) ∧
    (u.impsetBad t v (nbits (v.S b) 0 6) (nbits (v.S c) 0 6) ((v.S c).getLsbD 8) = true →
      Faults (.impset b c) s { word := encodeNat (.impset b c), regs := [b.toNat, c.toNat], reads := [b.toNat, c.toNat], commit := true } u t v 0x06
        (v.S b ||| v.S c <<< 8))) ∧
  -- what the importance table reads after a change of a position, and after PB is cleared on one of a live thread (R326)
  (∀ (x : Core) p q e, (x.setImp p e).impView p = e ∧ (q ≠ p → (x.setImp p e).impView q = x.impView q)) ∧
  (∀ (s : State) c slot q, c < 512 → ((s.keepPosition c slot).core c).impView q = (s.core c).impView q ∨
    ((s.core c).impView q).getLsbD 13 = true ∧ ((s.keepPosition c slot).core c).impView q = setBits ((s.core c).impView q) 13 1 0) ∧
  ∀ a b c s t th, let req : Req := { word := encodeNat (.bcfg a b c), regs := [a.toNat, b.toNat, c.toNat], reads := [b.toNat, c.toNat], writes := [a.toNat], commit := true }; MayExecute req s t th →
    let u := s.begun t th req; let v := s.runner t th req;
    u.departs t v 4 none = none → (v.S b).toNat ≤ 39 → nbits (v.S c) 16 47 = 0 →
    let w := u.barrier (dieOf (coreOf t)) (v.S b).toNat
    ((v.S c).getLsbD 63 = false → 1 ≤ nbits (v.S c) 0 16 → nbits (v.S c) 0 16 ≤ 32768 → w.getLsbD 63 = false →
      Ends (.bcfg a b c) s t (advance (v.setS a 0).ctx false .seq) ((u.setBarrier (dieOf (coreOf t)) (v.S b).toNat
        (BitVec.ofNat 64 (2 ^ 63 + u.barOwner v + nbits (v.S c) 0 16 * 2 ^ 24))).acquire t v 4)) ∧
    ((v.S c).getLsbD 63 = false → 1 ≤ nbits (v.S c) 0 16 → nbits (v.S c) 0 16 ≤ 32768 → w.getLsbD 63 = true →
      Ends (.bcfg a b c) s t (advance (v.setS a 2).ctx false .seq) (u.acquire t v 4)) ∧
    ((v.S c).getLsbD 63 = true → u.barMine v w = false →
      Faults (.bcfg a b c) s { word := encodeNat (.bcfg a b c), regs := [a.toNat, b.toNat, c.toNat], reads := [b.toNat, c.toNat], writes := [a.toNat], commit := true } u t v 0x10 (v.S b)) ∧
    ((v.S c).getLsbD 63 = true → u.barMine v w = true → nbits w 8 16 ≠ 0 →
      Ends (.bcfg a b c) s t (advance (v.setS a 8).ctx false .seq) (u.acquire t v 4)) ∧
    ((v.S c).getLsbD 63 = true → u.barMine v w = true → nbits w 8 16 = 0 →
      Ends (.bcfg a b c) s t (advance (v.setS a 0).ctx false .seq)
        (((u.setBarrier (dieOf (coreOf t)) (v.S b).toNat (setBits w 63 1 0)).releaseBar (dieOf (coreOf t)) (v.S b).toNat).acquire t v 4))

/-- R375, R377 to R381: `ptset` writes an entry, or answers why not and writes none; `keyld` loads and clears keys, and leaves zero in
V(b) in every case; `qsce` holds a row and lets it go; `impw` writes a position of any core; `tstop` and `tresume` stop a thread, which
may be between two cores, and let it go on; `sysret` ends the machine run at MEPC; `dump` is a fatal error: every
core stops, and the dump follows once the routers have drained (`PowerEvents`). The model's choices: an `impw` that would leave a live thread without a position or with
more than eight changes none (log 22), and what `ptset` does with the D bit (log 60). -/
def Obligations.MachineResults : Prop :=
  (∀ d a b s t th, let req : Req := sysp (syspWord d a b 0) [d.toNat, a.toNat, b.toNat] [a.toNat, b.toNat] [d.toNat]; MayExecute req s t th →
    let u := s.begun t th req; let v := s.runner t th req;
    nbits (v.S a) 0 3 = 0 → nbits (v.S a) 46 2 = 0 → nbits (v.S a) 54 2 = 0 → nbits (v.S a) 58 4 = 0 →
    let st := u.ptStatus (nbits (v.S a) 48 6) (nbits (v.S a) 3 43 * 8) (nbits (v.S a) 56 2) ((v.S a).getLsbD 62) (v.S b)
    (st ≠ 0 → Completes (.ptset d a b) s t (advance (v.setS d (BitVec.ofNat 64 st)).ctx false .seq)) ∧
    (st = 0 → (v.S a).getLsbD 62 = false → (v.S a).getLsbD 63 = false →
      Ends (.ptset d a b) s t (advance (v.setS d 0).ctx false .seq) (u.modTables fun x =>
        { x with ptes := mput x.ptes (nbits (v.S a) 3 43 * 8) (ptNew (mgetD x.ptes (nbits (v.S a) 3 43 * 8) 0) (v.S b)) }))) ∧
  (∀ d a b s t th, let req : Req := sysp (syspWord d a b 1) [d.toNat, a.toNat, b.toNat] [a.toNat, b.toNat] [d.toNat, b.toNat]; MayExecute req s t th →
    let u := s.begun t th req; let v := s.runner t th req;
    nbits (v.S a) 10 6 = 0 → nbits (v.S a) 22 41 = 0 →
    (mget u.tables.keys (nbits (v.S a) 0 10) = none → (nbits (v.S a) 0 10 = 0 → nbits (v.S a) 16 6 = 0) → (v.S a).getLsbD 63 = false →
      Ends (.keyld d a b) s t (advance ((v.setS d 0).setV b 0).ctx false .seq) (u.modTables fun x =>
        { x with keys := mput x.keys (nbits (v.S a) 0 10) { data := v.V b, tenant := nbits (v.S a) 16 6 } })) ∧
    (mget u.tables.keys (nbits (v.S a) 0 10) ≠ none → (v.S a).getLsbD 63 = false →
      Completes (.keyld d a b) s t (advance ((v.setS d 1).setV b 0).ctx false .seq)) ∧
    ((nbits (v.S a) 0 10 = 0 → nbits (v.S a) 16 6 = 0) → (v.S a).getLsbD 63 = true →
      Ends (.keyld d a b) s t (advance ((v.setS d 0).setV b 0).ctx false .seq) (u.modTables fun x =>
        { x with keys := mdel x.keys (nbits (v.S a) 0 10) })) ∧
    ((mget u.tables.keys (nbits (v.S a) 0 10) = none ∨ (v.S a).getLsbD 63 = true) → nbits (v.S a) 0 10 = 0 → nbits (v.S a) 16 6 ≠ 0 →
      Completes (.keyld d a b) s t (advance ((v.setS d 2).setV b 0).ctx false .seq))) ∧
  (∀ d a s t th, let req : Req := sysp (syspWord d a 0 4) [d.toNat, a.toNat] [a.toNat] [d.toNat]; MayExecute req s t th →
    let u := s.begun t th req; let v := s.runner t th req;
    nbits (v.S a) 2 2 = 0 → nbits (v.S a) 7 1 = 0 → nbits (v.S a) 9 55 = 0 →
    let r := nbits (v.S a) 0 2 * 8 + nbits (v.S a) 4 3
    ((v.S a).getLsbD 8 = true → Ends (.qsce d a) s t (advance (v.setS d 0).ctx false .seq) (u.modRow r fun x => { x with held := false })) ∧
    ((v.S a).getLsbD 8 = false → (u.modRow r fun x => { x with held := true }).rowBusy r = false →
      Ends (.qsce d a) s t (advance (v.setS d 0).ctx false .seq) (u.modRow r fun x => { x with held := true })) ∧
    ((v.S a).getLsbD 8 = false → (u.modRow r fun x => { x with held := true }).rowBusy r = true →
      Waits (.qsce d a) s t 15 (u.modRow r fun x => { x with held := true }))) ∧
  (∀ a b s t th, let req : Req := sysp (syspWord 0 a b 5) [a.toNat, b.toNat] [a.toNat, b.toNat] []; MayExecute req s t th →
    let u := s.begun t th req; let v := s.runner t th req;
    nbits (v.S a) 9 7 = 0 → nbits (v.S a) 22 42 = 0 → nbits (v.S b) 16 48 = 0 →
    let c := nbits (v.S a) 0 9
    let w := u.modCore c fun x => x.setImp (nbits (v.S a) 16 6) (bits (v.S b) 0 16)
    let keep (x : State) : State := (x.keepPosition c (impSlot ((u.core c).impView (nbits (v.S a) 16 6)))).keepPosition c (nbits (v.S b) 0 6)
    (w.positionsLegal c = true → Ends (.impw a b) s t (advance v.ctx false .seq) (keep w)) ∧
    (w.positionsLegal c = false → Ends (.impw a b) s t (advance v.ctx false .seq) (keep u))) ∧
  (∀ a b s t th k y, let req : Req := sysp (syspWord 0 a b 6) [a.toNat, b.toNat] [a.toNat, b.toNat] []; MayExecute req s t th →
    let u := s.begun t th req; let v := s.runner t th req;
    nbits (v.S a) 9 7 = 0 → nbits (v.S a) 22 42 = 0 → v.S b = 0 → mget u.threads (nbits (v.S a) 0 9 * 64 + nbits (v.S a) 16 6) = some y →
    nbits (v.S a) 16 6 ≠ 63 → k = y.away.getD (nbits (v.S a) 0 9 * 64 + nbits (v.S a) 16 6) → k ≠ t → (u.thread? k).isSome = true →
    (∀ z, u.thread? k = some z → z.ending = false) →
    ((u.thread? k).bind Thread.away ≠ some k →
      ∃ s' z, exec (.tstop a b) s = .next s' ∧ s'.thread? k = some z ∧ z.stopped = true ∧ s'.mem = s.mem ∧
        (s'.thread? t).map Thread.ctx = some (advance v.ctx false .seq)) ∧
    ((u.thread? k).bind Thread.away = some k →
      ∃ s', exec (.tstop a b) s = .next s' ∧ s'.mem = s.mem ∧ (s'.thread? t).map Thread.ctx = some (advance v.ctx false .seq) ∧
        (∀ c, ∀ m ∈ (s'.core c).migrants, m.home = k → m.thread.stopped = true) ∧
        ∀ r ∈ s'.flight.returns, r.thread.home = k → r.thread.stopped = true)) ∧
  (∀ a s t th k y, let req : Req := sysp (syspWord 0 a 0 7) [a.toNat] [a.toNat] []; MayExecute req s t th →
    let u := s.begun t th req; let v := s.runner t th req;
    nbits (v.S a) 9 7 = 0 → nbits (v.S a) 22 42 = 0 → mget u.threads (nbits (v.S a) 0 9 * 64 + nbits (v.S a) 16 6) = some y →
    nbits (v.S a) 16 6 ≠ 63 → k = y.away.getD (nbits (v.S a) 0 9 * 64 + nbits (v.S a) 16 6) → k ≠ t → (u.thread? k).isSome = true →
    (∀ z, u.thread? k = some z → z.ending = false) → (u.thread? k).bind Thread.away ≠ some k →
    ∃ s' z, exec (.tresume a) s = .next s' ∧ s'.thread? k = some z ∧ z.stopped = false ∧ z.bkSkip = true ∧ s'.mem = s.mem ∧
      (s'.thread? t).map Thread.ctx = some (advance v.ctx false .seq)) ∧
  (∀ s t th, let req : Req := { sysp (syspWord 0 0 0 2) [] [] [] with flow := true }; MayExecute req s t th →
    let u := s.begun t th req; let v := s.runner t th req; (u.core (coreOf t)).mrun = true →
    Ends .sysret s t { v.ctx with pc := wordAligned (u.core (coreOf t)).mepc } (u.modCore (coreOf t) fun x => { x with mrun := false })) ∧
  (∀ s t th, let req : Req := { sysp (syspWord 0 0 0 2) [] [] [] with flow := true }; MayExecute req s t th →
    let u := s.begun t th req; let v := s.runner t th req; (u.core (coreOf t)).mrun = false →
    Faults .sysret s { sysp (syspWord 0 0 0 2) [] [] [] with flow := true } u t v 0x01 (BitVec.ofNat 64 (syspWord 0 0 0 2))) ∧
  ∀ s t th, let req : Req := sysp (syspWord 0 0 0 3) [] [] []; MayExecute req s t th →
    let u := s.begun t th req;
    ∃ s' w, exec .dump s = .next s' ∧ s'.host.phase = .stopping (coreOf t) (slotOf t) (Config.dumpCause 0).toNat ∧ s'.sched.issue = false ∧
      s'.mem = s.mem ∧ s'.tables = s.tables ∧ s'.host.posted = s.host.posted ∧
      (s'.core (coreOf t)).mq = (u.core (coreOf t)).mq ++ [w] ∧ nbits w.1 0 8 = (Config.dumpCause 0).toNat % 256

/-! ### Events: a register written from outside, the proofing engine -/

/-- R72, R121, R353 to R358, R369, R392: a write of CORECLK waits for position 0; a write of WDOG, EVSEL, LPC or a die event counter
sets that register's writable fields and nothing else; URESM resumes the thread that UTSEL names, whose upcall waits for its run no more; the end of a pass, a log drain and a
sample go into the log and the bins; the proofing engine is set, read and cleared. -/
def Obligations.RegisterEvents : Prop :=
  (∀ s c v, c < 512 → ∃ s', exec (.coreclkWrite c v) s = .next s' ∧ OnlyCore s s' c ∧
    s'.core c = { s.core c with clkNext := some (ctlNew 1 (ctlFields 0x320) ((s.core c).clkNext.getD (s.core c).coreclk) v) }) ∧
  (∀ s c v, c < 512 → let n := (ctlNew 1 (ctlFields 0x330) (BitVec.ofNat 64 (s.core c).wdog) v).toNat
    ∃ s', exec (.wdogWrite c v) s = .next s' ∧ s' = { s with cores := s'.cores, threads := s'.threads } ∧
      (∀ d, d ≠ c → s'.core d = s.core d) ∧ s'.core c = { s.core c with wdog := n } ∧ (n ≠ 0 → s'.threads = s.threads) ∧
      (n = 0 → ∀ t, mget s'.threads t = (mget s.threads t).map fun x => if coreOf t = c then { x with wdog := 0 } else x)) ∧
  (∀ s t n v th, s.thread? t = some th → n < 8 →
    (∀ e, mget (s.core (coreOf t)).evs n = some e → e.owner = none ∨ e.owner = some th.launch) →
    ∃ s' e, exec (.evselWrite t n v) s = .next s' ∧ OnlyCore s s' (coreOf t) ∧ mget (s'.core (coreOf t)).evs n = some e ∧
      e.owner = some th.launch ∧ e.who = th.who ∧ e.tenant = th.tenant ∧
      e.sel = ctlNew 1 (ctlFields 0x108) ((mget (s.core (coreOf t)).evs n).elim 0 Ev.sel) v ∧
      e.cnt = (mget (s.core (coreOf t)).evs n).elim 0 Ev.cnt) ∧
  (∀ s t lvl v th, s.thread? t = some th → ∃ s', exec (.lpcWrite t lvl v) s = .next s' ∧ OnlyThread s s' t ∧
    s'.thread? t = some { th with ctx := th.ctx.writeCtl (if lvl then 0x023 else 0x020) 1 v }) ∧
  (∀ s t th u x w, s.thread? t = some th → th.pl = 1 → mget (s.core (coreOf t)).sups th.tenant = some u →
    s.thread? (coreOf t * 64 + u.utsel) = some x → x.tenant = th.tenant → x.pl = 0 → x.upcall = some w → w.resume = false →
    ∃ s' y, exec (.uresmWrite t) s = .next s' ∧ s' = { s with threads := s'.threads, cores := s'.cores } ∧
      s'.thread? (coreOf t * 64 + u.utsel) = some { x with upcall := some { w with resume := true }, uresm := true } ∧
      mget (s'.core (coreOf t)).sups th.tenant = some y ∧ u.utsel ∈ y.resumed ∧
      y.queue = u.queue.filter (fun e => e.kind == 1 || e.slot != u.utsel)) ∧
  (∀ s d n sel v, d < 4 → n < 16 → ∃ s', exec (.dieEventCounterWrite d n sel v) s = .next s' ∧ OnlyDie s s' d ∧
    mget (s'.die d).devs n = some (devSel (mgetD (s.die d).devs n (0, 0)).1 sel, v)) ∧
  (∀ s n k, s.managed = true → 10 ≤ n → n ≤ 24 → 2 ≤ k → k ≤ 16 → ∃ s', exec (.proofingSettings n k) s = .next s' ∧ s' = { s with dies := s'.dies } ∧
    ∀ d < 4, s'.die d = { s.die d with sampleExp := n, shift := k }) ∧
  (∀ s d, d < 4 → s.managed = true → s.egress s.manager = true → ∃ s', exec (.proofingClear d none) s = .next s' ∧
    s'.host.posted = s.host.posted ++
      [.proofing d none (s.die d).bins (s.die d).others (s.die d).totals (s.die d).dropped (s.die d).changesDropped] ∧
    s'.die d = { s.die d with bins := [], others := [], totals := [], dropped := 0, changesDropped := 0 }) ∧
  (∀ s c st, (s.core c).passDue = some st → ∃ s', exec (.stateChangePass c) s = .next s' ∧
    s'.core c = ((s.core c).endPass st).1 ∧ s'.threads = s.threads ∧ s'.mem = s.mem ∧
    (s'.die (dieOf c)).changesDropped = (s.die (dieOf c)).changesDropped + (if ((s.core c).endPass st).2 then 1 else 0)) ∧
  (∀ s c, c < 512 → (s.core c).slogR < (s.core c).slogW → ∃ s', exec (.logDrain c) s = .next s' ∧
    s'.core c = { s.core c with slogR := (s.core c).slogW } ∧
    s'.die (dieOf c) = (s.core c).unread.foldl (fun d e => d.readEntry c e) (s.die (dieOf c))) ∧
  (∀ s c x, (s.core c).sampleDue = some x → (s.sched.issue && coreOf s.sched.cur == c) = false →
    ∃ s', exec (.proofingSample c) s = .next s' ∧ s'.core c = { s.core c with sampleDue := none } ∧
      s'.die (dieOf c) = (s.die (dieOf c)).file x) ∧
  -- an entry of the log: a change, or 65,535 passes without one, unless the ring is full (R355, R356)
  ∀ x : Core, ∀ st < 4,
    (st ≠ x.sstate → x.slogW < x.slogR + 512 → ∃ w, (x.endPass st).1.slog = mput x.slog (x.slogW % 512) w ∧
      (x.endPass st).1.slogW = x.slogW + 1 ∧ nbits w 16 16 = Nat.min (x.delta + 1) 65535 ∧ nbits w 14 2 = st ∧
      (x.endPass st).1.delta = 0 ∧ (x.endPass st).2 = false) ∧
    (st = x.sstate → x.delta + 1 < 65535 → (x.endPass st).1.slog = x.slog ∧ (x.endPass st).1.slogW = x.slogW ∧
      (x.endPass st).1.delta = x.delta + 1) ∧
    (st ≠ x.sstate → x.slogR + 512 ≤ x.slogW → (x.endPass st).1.slog = x.slog ∧ (x.endPass st).1.slogW = x.slogW ∧
      (x.endPass st).1.lostEntry = true ∧ (x.endPass st).2 = true)

/-! ### Events: power and errors -/

/-- R169, R186, R375, R381, R382, R389, R391 to R394, R326: power, boot from what the boot flash holds, the stop, the dump and the reset after it, sessions, the power ceiling, sensors
and a row's temperature, voltage, clock and droop, power bubbles, and uncorrectable errors. The model's choices: which delivery modes an
endpoint takes at the setup (log 113), the first power-on says what the flash holds (log 111), the voltages at the start (log 2), the order in
which what is under way drains before a dump (log 21), the LOST of a completion (log 142), whose address it goes to (log 110), a current sensor's distrust (log 114), what a switch of the power state keeps (log 73), the rows that a
voltage step waits for (log 65), and where an uncorrectable error may lie (log 92). -/
def Obligations.PowerEvents : Prop :=
  (∀ s image ok (record : DeviceRecord) rok, s.host.phase = .off → ∃ s', exec (.powerOn image ok record rok) s = .next s' ∧
    s'.host.phase = (if ok && rok then .running else .recovery) ∧
    (∀ k, s.host.flash = some k → s'.host.image = k.1 ∧ s'.host.record = k.2 ∧ s'.host.flash = some k) ∧
    (s.host.flash = none → s'.host.image = image ∧ s'.host.record = record ∧ s'.host.flash = some (image, record)) ∧
    (∀ r < 32, (s'.row r).volt = voltOf s'.host.record 0 ∧ (s'.row r).clock = 0) ∧ s'.threads = [] ∧
    s'.mem = Memory.empty ∧ s'.work = State.reset.work ∧ s'.tables = State.reset.tables) ∧
  (∀ s, ∃ s', exec .powerOff s = .next s' ∧ s'.host.phase = .off ∧ s'.mem = Memory.empty ∧ s'.threads = [] ∧ s'.host.flash = s.host.flash) ∧
  (∀ s, s.host.phase = .dumped → ∃ s', exec .deviceReset s = .next s' ∧ s'.host.phase = .running ∧ s'.mem = s.mem.keep true ∧ s'.threads = [] ∧
    s'.tables = State.reset.tables ∧ s'.work = State.reset.work) ∧
  (∀ s (image : Signed Nat) (record : Signed DeviceRecord), s.host.phase = .recovery →
    (s.host.sessions.any (fun e => e.2.endpoint == 3 && e.2.port == 0) = true → image.verifies = true → record.verifies = true →
      exec (.recoveryImage image record) s = .next { s with host := { s.host with flash := some (image.item, record.item) } }) ∧
    ((s.host.sessions.any (fun e => e.2.endpoint == 3 && e.2.port == 0) = false ∨ image.verifies = false ∨ record.verifies = false) →
      exec (.recoveryImage image record) s = .next s)) ∧
  (∀ s n remote ep ts o, s.host.phase = .running → offerOk o ep = true → (∀ x ∈ ts, x < 64) →
    ∃ s', exec (.sessionSetup n remote ep ts o) s = .next s' ∧ OnlyHost s s' ∧
      mget s'.host.sessions n = some { remote := remote, endpoint := ep, tenants := if ep = 3 then [] else ts, port := o.port } ∧
      s'.host.posted = s.host.posted) ∧
  (∀ s n remote ep ts o, s.host.phase = .running → offerOk o ep = false → ∃ s', exec (.sessionSetup n remote ep ts o) s = .next s' ∧
    OnlyHost s s' ∧ s'.host.sessions = s.host.sessions ∧ s'.host.refusedSessions = s.host.refusedSessions + 1) ∧
  (∀ o ep, offerOk o ep = true ↔ o.secured = true ∧ o.aiFull = true ∧ o.lanes = 8 ∧ o.port < 16 ∧ ep ≤ 3 ∧ .other ∉ o.modes ∧
    (ep = 0 ∨ ep = 3 → .rod ∈ o.modes) ∧ (ep = 2 → .rudi ∈ o.modes) ∧ (ep = 1 ∨ ep = 2 → .rud ∈ o.modes)) ∧
  (∀ s, ∃ s', exec .powerCeiling s = .next s' ∧ s'.power.forced = true ∧ s'.mem = s.mem ∧ s'.threads = s.threads ∧
    ∀ r < 32, s'.row r = if (s.row r).clock ≠ 0 ∨ (s.row r).hop.isSome = true then { s.row r with hop := some 0 } else s.row r) ∧
  (∀ s, exec .powerCeilingLifted s = .next { s with power := { s.power with forced := false } }) ∧
  (∀ s d r, d < 4 → r < 8 → s.host.phase = .running → s.tooHot (rowNo d r) = true →
    ∃ s' c k cause, exec (.thermalTrip d r) s = .next s' ∧ s'.host.phase = .stopping c k cause ∧ c / 16 = rowNo d r ∧ k < 64 ∧
      s'.sched.issue = false ∧ s'.threads = s.threads ∧ s'.mem = s.mem) ∧
  (∀ s c k cause, c < 512 → s.host.phase = .running → ∃ s' w, exec (.fatalError c k cause) s = .next s' ∧
    s'.host.phase = .stopping c k cause ∧ s'.sched.issue = false ∧ s'.threads = s.threads ∧ s'.mem = s.mem ∧
    s' = { s with sched := s'.sched, cores := s'.cores, host := s'.host } ∧
    (s'.core c).mq = (s.core c).mq ++ [w] ∧ nbits w.1 0 8 = cause % 256) ∧
  -- then the routers drain, and the dump is made
  (∀ s c k cause, s.host.phase = .stopping c k cause → s.sched.agenda = [] →
    (∀ y, firstChange s s.drainWork = some y → step s = .next y) ∧
    (firstChange s s.drainWork = none → step s = .next (s.dump c k cause))) ∧
  (∀ (s : State) c k cause, let d := s.dump c k cause;
    d.host.phase = .dumped ∧ d.threads = s.threads ∧ d.cores = s.cores ∧ d.chan = Memory.empty ∧ (∀ e, (d.die e).l2dirty = []) ∧
    d.mem = (s.mem.keep false).puts (s.keyData 0) (s.timed.dumpBytes c k cause) ∧
    ∀ l ∈ s.work.launches, s.egress (s.hostOf l.2.tenant) = true →
      .completion l.2.tenant (s.hostOf l.2.tenant) (framed 1 (completion l.2 (s.lostOf l.2.tenant) 5 l.2.msgs d.sched.time)) ∈ d.host.posted) ∧
  (∀ s d r (x : SensorReading), d < 4 → r < 8 → x.sensor ≤ 2 → ∃ s', exec (.sensorUntrusted d r x) s = .next s' ∧
    s'.mem = s.mem ∧ s'.threads = s.threads ∧ ((s'.row (rowNo d r)).sensor x.sensor).value = some x.value ∧
    (x.sensor = 2 → (s'.row (rowNo d r)).untrusted 2 = true ∧ ((s.row (rowNo d r)).clock ≠ 0 → (s'.row (rowNo d r)).hop = some 0)) ∧
    (x.sensor ≠ 2 → (x.value < -20 ∨ 150 < x.value) → (s'.row (rowNo d r)).untrusted x.sensor = true)) ∧
  (∀ s d r (x : SensorReading), d < 4 → r < 8 → x.sensor ≤ 2 → ∃ s', exec (.sensorTrusted d r x) s = .next s' ∧
    s'.mem = s.mem ∧ s'.threads = s.threads ∧ ((s'.row (rowNo d r)).sensor x.sensor).value = some x.value) ∧
  (∀ (s : State) r i, (s.doubtful r i = true → ((s.judge r i).row r).untrusted i = true) ∧
    (s.doubtful r i = false → ((s.row r).sensor i).bad = none → ((s.judge r i).row r).untrusted i = false) ∧
    (∀ b, s.doubtful r i = false → ((s.row r).sensor i).bad = some b →
      (((s.judge r i).row r).untrusted i = true ↔ s.sched.time < b + second))) ∧
  (∀ (s : State) r v w, (s.row r).untrusted 0 = false → ((s.row r).sensor 0).value = some v → ((s.row r).sensor 1).value = some w →
    ((s.row r).untrusted 1 = false → s.rowTemp r = some (max v w)) ∧
    (∀ m n x y, (s.row r).untrusted 1 = true → s.neighbours r 1 = [m, n] → m.bad = none → n.bad = none → m.value = some x → n.value = some y →
      s.rowTemp r = some (max v (max x y + 10)))) ∧
  (∀ (s : State) r k, s.mayStep r k = true ↔ k ≤ 54 ∧ voltOf s.host.record (s.row r).clock ≤ voltOf s.host.record k ∧
    (∀ h, (s.row r).hop = some h → voltOf s.host.record h ≤ voltOf s.host.record k) ∧ (s.lowest r = true → k = 0)) ∧
  (∀ s d r k, d < 4 → r < 8 → s.mayStep (rowNo d r) k = true →
    (s.rowBusy (rowNo d r) = false → ∃ s', exec (.voltageStep d r k) s = .next s' ∧ OnlyRow s s' (rowNo d r) ∧
      s'.row (rowNo d r) = { s.row (rowNo d r) with volt := voltOf s.host.record k, held := false, wanted := none }) ∧
    (s.rowBusy (rowNo d r) = true → ∃ s', exec (.voltageStep d r k) s = .next s' ∧ OnlyRow s s' (rowNo d r) ∧
      s'.row (rowNo d r) = { s.row (rowNo d r) with held := true, wanted := some k })) ∧
  -- the step for which a row is held is taken, or given up, by the device itself
  (∀ s r k, r < 32 → (s.row r).wanted = some k → (s.lowest r = true → (s.row r).clock ≠ 0) →
    ∃ f ∈ s.voltWork, f s = if s.mayStep r k then execVoltageStep (r / 8) (r % 8) k s
      else .next (s.modRow r fun x => { x with held := false, wanted := none })) ∧
  (∀ s d r k, s.mayStep (rowNo d r) k = false → exec (.voltageStep d r k) s = .next s) ∧
  (∀ s d r k, (s.row (rowNo d r)).volt < voltOf s.host.record k → exec (.clockHop d r k) s = .next s) ∧
  (∀ s d r k, d < 4 → r < 8 → k ≤ 54 → voltOf s.host.record k ≤ (s.row (rowNo d r)).volt → (s.lowest (rowNo d r) = true → k = 0) → ∃ s', exec (.clockHop d r k) s = .next s' ∧
    OnlyRow s s' (rowNo d r) ∧ s'.row (rowNo d r) = { s.row (rowNo d r) with hop := some k }) ∧
  (∀ s d r k, d < 4 → r < 8 → (s.row (rowNo d r)).hop = some k → (s.row (rowNo d r)).frozen = false →
    ∃ s', exec (.droop d r true) s = .next s' ∧ s'.threads = s.threads ∧ s'.mem = s.mem ∧
      s'.row (rowNo d r) = { s.row (rowNo d r) with frozen := true, clock := Nat.min (s.row (rowNo d r)).clock k }) ∧
  (∀ s d r k, d < 4 → r < 8 → (s.row (rowNo d r)).hop = some k → ∃ s', exec (.droop d r false) s = .next s' ∧ OnlyRow s s' (rowNo d r) ∧
    s'.row (rowNo d r) = { s.row (rowNo d r) with frozen := false }) ∧
  (∀ s c p b, c < 512 → p < 64 → s.thread? (c * 64 + impSlot ((s.core c).impView p)) = none →
    ∃ s', exec (.powerBubble c p b) s = .next s' ∧ OnlyCore s s' c ∧
      s'.core c = (s.core c).setImp p (setBits ((s.core c).impView p) 13 1 (if b then 1 else 0))) ∧
  ∀ s l, exec (.uncorrectableError l) s =
    .next { s with power := { s.power with bad := mput s.power.bad l (BitVec.allOnes 64) } }

/-! ### Events: the host -/

/-- R259, R261, R384: commands of a session. A launch record whose fields are good enters its tenant's queue of its class; one for a
tenant without an entry is refused with STATUS 1; a HOSTNOTE becomes a record in the fault queue, or waits in its session for room there; the blocks of a BLOCKS_ADD are to be
zeroed; a region is opened, refused, marked closing and gone; each is answered, and a message of another KIND is refused. The model's choices:
how a launch whose tenant has no entry is answered (log 62), and STATUS 1 for nonzero reserved bytes in the body of a REGION_OPEN (log 112), the LOST of a completion (log 142), and where a reply goes whose
command names no tenant (log 110). -/
def Obligations.CommandEvents : Prop :=
  (∀ s n m x, let r := launchRecord m; hdrOk 1 128 (launchHeader m) = true → s.commands n = true → s.tenant? (nbits r 16 8) = some x → s.bound n (nbits r 16 8) = true →
    (newLaunch (nbits r 16 8) x.lser r).fieldsOk = true →
    let u := s.modTenant (nbits r 16 8) fun x => { x with lser := x.lser + 1 }
    let l := newLaunch (nbits r 16 8) x.lser r
    (u.rootTasks 0 l).isSome = true → (u.imageOf l).isSome = true → (mgetD s.work.queues (l.cls * 64 + nbits r 16 8) []).length < 64 →
    ∃ s', exec (.launch n m) s = .next s' ∧ s' = { s with tables := u.tables, work := s'.work } ∧
      mget s'.work.queues (l.cls * 64 + nbits r 16 8) = some (mgetD s.work.queues (l.cls * 64 + nbits r 16 8) [] ++ [(x.lser, r)])) ∧
  (∀ s n m, let r := launchRecord m; s.commands n = true → kindOf (launchHeader m) = 1 → s.tenant? (nbits r 16 8) = none →
    let t := nbits r 16 8
    s.egress (s.hostOf t) = true → ∃ s', exec (.launch n m) s = .next s' ∧ s'.work = s.work ∧
      s'.host.posted = s.host.posted ++ [.completion t (s.hostOf t) (framed 1 (completion (newLaunch t 0 r) 0 1 0 s.now))]) ∧
  (∀ s n m, s.commands n = true → kindOf (launchHeader m) ≠ 1 →
    exec (.launch n m) s = .next (s.reply n (nbits (launchRecord m) 16 8) (tagOf (launchHeader m)) (kindOf (launchHeader m)) 1)) ∧
  (∀ s n hdr body, s.commands n = true → hdrOk 4 24 hdr = false → exec (.hostnote n hdr body) s = .next (s.reply n (nbits body 0 8) (tagOf hdr) (kindOf hdr) 1)) ∧
  (∀ s n hdr body, s.commands n = true → hdrOk 4 24 hdr = true →
    (nbits body 16 48 ≠ 0 → exec (.hostnote n hdr body) s = .next (s.reply n (nbits body 0 8) (tagOf hdr) 4 1)) ∧
    (nbits body 16 48 = 0 → s.bound n (nbits body 0 8) = false → exec (.hostnote n hdr body) s = .next (s.reply n (nbits body 0 8) (tagOf hdr) 4 2)) ∧
    (nbits body 16 48 = 0 → s.bound n (nbits body 0 8) = true → s.faultRoom (nbits body 0 8) = false → exec (.hostnote n hdr body) s =
      .next (s.modHost fun h => { h with waiting := h.waiting ++ [(some n, .hostnote n hdr body)] })) ∧
    (nbits body 16 48 = 0 → s.bound n (nbits body 0 8) = true → s.faultRoom (nbits body 0 8) = true → exec (.hostnote n hdr body) s = .next ((s.postFault (nbits body 0 8)
      { kind := 0x10, die := 0xFF, status := nbits body 8 8, p0 := bits body 64 64, p1 := bits body 128 64, launch := 0 }).reply n (nbits body 0 8) (tagOf hdr) 4 0))) ∧
  (∀ s n hdr head bs, s.commands n = true → hdrOk 5 (8 + 4 * bs.length) hdr = true → nbits head 8 8 ≤ 3 → nbits head 16 8 ≤ 1 → nbits head 24 8 = 0 → nbits head 32 32 = bs.length →
    (s.bound n (nbits head 0 8) = false → exec (.blocksAdd n hdr head bs) s = .next (s.reply n (nbits head 0 8) (tagOf hdr) 5 2)) ∧
    (s.bound n (nbits head 0 8) = true → s.addable (nbits head 0 8) (nbits head 8 8) (nbits head 16 8) (bs.map BitVec.toNat) = false →
      exec (.blocksAdd n hdr head bs) s = .next (s.reply n (nbits head 0 8) (tagOf hdr) 5 3)) ∧
    (s.bound n (nbits head 0 8) = true → s.addable (nbits head 0 8) (nbits head 8 8) (nbits head 16 8) (bs.map BitVec.toNat) = true →
      ∃ s', exec (.blocksAdd n hdr head bs) s = .next s' ∧ s'.host = (s.reply n (nbits head 0 8) (tagOf hdr) 5 0).host ∧ s'.mem = s.mem ∧
        ∀ b ∈ bs, ∀ j < 1024, s'.zeroing (b.toNat * 1024 + j) = true)) ∧
  (∀ s n hdr body, s.commands n = true → hdrOk 2 32 hdr = true →
    (nbits body 40 24 ≠ 0 → exec (.regionOpen n hdr body) s = .next (s.reply n (openRegion body).tenant (tagOf hdr) 2 1)) ∧
    (nbits body 40 24 = 0 → s.bound n (openRegion body).tenant = true →
      (s.mayOpen body = false → exec (.regionOpen n hdr body) s = .next (s.reply n (openRegion body).tenant (tagOf hdr) 2 3)) ∧
      (∀ b k, s.mayOpen body = true → s.grantRecord (openRegion body) 0 = some (b, k, true) →
        s.regReady (openPlan (nbits body 0 8) (openRegion body) b k).region (openPlan (nbits body 0 8) (openRegion body) b k).writes = .yes →
        ∃ s' r, exec (.regionOpen n hdr body) s = .next s' ∧ mget s'.regions (nbits body 0 8) = some r ∧ r.tenant = nbits body 8 8 ∧
          r.rank = nbits body 16 8 ∧ r.grants = [some b] ∧ r.root = 0 ∧ r.entries = 0 ∧ r.freeCount = k - 1 ∧ s'.threads = s.threads))) ∧
  (∀ s n hdr body r, s.commands n = true → hdrOk 3 8 hdr = true → nbits body 8 56 = 0 → mget s.regions (nbits body 0 8) = some r → r.closing = false →
    s.bound n r.tenant = true → exec (.regionClose n hdr body) s =
      .next (({ s with regions := mput s.regions (nbits body 0 8) { r with closing := true } }).reply n r.tenant (tagOf hdr) 3 0)) ∧
  (∀ s n hdr body, s.commands n = true → hdrOk 3 8 hdr = true → nbits body 8 56 = 0 → mget s.regions (nbits body 0 8) = none →
    exec (.regionClose n hdr body) s = .next (s.reply n nobody (tagOf hdr) 3 3)) ∧
  -- where a reply goes (R385): to the address that firmware has set for the command's tenant
  (∀ (s : State) n k tag kind st x a, mget s.host.sessions n = some x → k ∈ x.tenants → mget s.host.hostDest k = some a → s.egress a = true →
    s.reply n k tag kind st = s.modHost fun h => { h with posted := h.posted ++
      [.reply n a (framed 2 (BitVec.ofNat 256 (tag.toNat + kind * 2 ^ 64 + st * 2 ^ 80)))] }) ∧
  (∀ (s : State) k a, mget s.host.hostDest k = some a → s.hostOf k = a) ∧
  ∀ s g r, mget s.regions g = some r → r.closing = true → r.waiting = false → ∃ s', exec (.regionCloseEffect g) s = .next s' ∧ s' = { s with regions := s'.regions } ∧
    mget s'.regions g = none ∧ ∀ h, h ≠ g → mget s'.regions h = mget s.regions h

/-- R327, R329, R387, R388, R390, R395: what management and peers do. Exports, windows and tenants are set and removed; a report carries
the SHA-512 digests, the nonce and the time, signed under the identity key (a free value, log 8; the digest and the bytes that it is of, log 143); a checkpoint to targets that the device record lists starts, is answered with the lines, and launches resume; an access through an export is
performed at its home, or in the new block where a migration has remapped it, or refused. The model's choices: what a checkpoint's lines hold
and which target takes which (log 72), how the accesses through an export are numbered (log 74), what a valid tenant entry sets (log 75), a migrated block under an export (log 15), and whose address an answer goes to (log 110). -/
def Obligations.HostEvents : Prop :=
  (∀ s x remote tenant base units perm key k, s.managed = true → x < 256 → mget s.tables.keys key = some k → k.tenant = tenant →
    base % 65536 = 0 → ∃ s', exec (.exportCfg x true remote tenant base units perm key) s = .next s' ∧ OnlyHost s s' ∧
      mget s'.host.exports x = some { remote := remote, tenant := tenant, base := base, units := units, perm := perm, key := key }) ∧
  (∀ s x remote tenant base units perm key, s.managed = true → x < 256 →
    ∃ s', exec (.exportCfg x false remote tenant base units perm key) s = .next s' ∧ OnlyHost s s' ∧ mget s'.host.exports x = none) ∧
  (∀ s p tenant dest (remote : RemoteExport), s.managed = true → p < 16 →
    (∃ s', exec (.peerWindow p true tenant dest remote) s = .next s' ∧ OnlyHost s s' ∧
      mget s'.host.windows p = some { tenant := tenant, dest := dest, remote := remote.number, units := remote.units, perm := remote.perm }) ∧
    ∃ s', exec (.peerWindow p false tenant dest remote) s = .next s' ∧ OnlyHost s s' ∧ mget s'.host.windows p = none) ∧
  (∀ s n e k, s.managed = true → n < 64 → s.hasLaunch n = false → nbits e 272 1 = 1 → mget s.tables.keys (nbits e 256 16) = some k →
    k.tenant = n → ∃ s', exec (.tenantTableChange n e) s = .next s' ∧ OnlyTables s s' ∧ s'.tenant? n = some (Tenant.set (s.tenant? n) e) ∧
      (s.tenant? n = none → ∀ j < 4096, nbits (s'.shapeAt ((Tenant.set none e).shtb + 64 * j)) 96 8 = 0 ∧
        nbits (s'.shapeAt ((Tenant.set none e).shtb + 64 * j)) 80 12 = 1)) ∧
  (∀ s n e x, s.managed = true → n < 64 → s.hasLaunch n = false → nbits e 272 1 = 0 → s.tenant? n = some x →
    ∃ s', exec (.tenantTableChange n e) s = .next s' ∧ s'.tenant? n = none ∧ s'.mem = s.mem ∧
      ∀ g r, mget s'.regions g = some r → r.tenant = n → r.closing = true) ∧
  (∀ s n e, s.hasLaunch n = true → exec (.tenantTableChange n e) s = .next s) ∧
  (∀ s nonce, s.managed = true → s.egress s.manager = true → ∃ s', exec (.attestationReport nonce) s = .next s' ∧ s'.mem = s.mem ∧ s'.threads = s.threads ∧
    let digests : BitVec 1024 := sha512 (storedBytes s.host.record.stored) ++ sha512 (storedBytes s.host.image);
    s'.host.posted = s.host.posted ++ [.report digests nonce (BitVec.ofNat 64 s.now) Config.serial
      (Config.signature s.host.record.key digests nonce (BitVec.ofNat 64 s.now) Config.serial)]) ∧
  (∀ s tag targets, s.managed = true → s.host.ckpt = none → targets ≠ [] → targets.length ≤ 16 → targets.all s.egress = true →
    ∃ s', exec (.checkpoint tag false targets) s = .next s' ∧ s'.host.ckpt = some { tag := tag, live := false, targets := targets } ∧
      s'.host.quiesced = true ∧ s'.work.paused = true ∧ s'.mem = s.mem ∧ s'.threads = s.threads) ∧
  (∀ s tag targets, s.managed = true → s.host.ckpt = none → targets ≠ [] → targets.length ≤ 16 → targets.all s.egress = true →
    ∃ s', exec (.checkpoint tag true targets) s = .next s' ∧ s'.host.ckpt = some { tag := tag, live := true, targets := targets } ∧
      s'.host.quiesced = s.host.quiesced ∧ s'.work = s.work ∧ s'.mem = s.mem ∧ s'.threads = s.threads) ∧
  (∀ s tag live targets, targets.all s.egress = false → exec (.checkpoint tag live targets) s = .next s) ∧
  (∀ s k n x, s.host.ckpt = some k → k.live = true → k.targets ≠ [] → k.targets.all s.egress = true →
    s.host.sessions.find? (fun e => e.2.endpoint == 3) = some (n, x) → mget s.host.sessions n = some x → x.tenants = [] → s.egress x.remote = true →
    ∃ s' kind, exec .checkpointReply s = .next s' ∧ s'.host.ckpt = none ∧ s'.host.posted = s.host.posted ++ s.ckptLines k.targets ++
        [.reply n x.remote (framed 2 (BitVec.ofNat 256 (k.tag.toNat + kind * 2 ^ 64)))] ∧ s'.mem = s.mem ∧ s'.threads = s.threads) ∧
  (∀ s k, s.host.ckpt = some k → k.live = false → s.quiet = false → exec .checkpointReply s = .next s) ∧
  (∀ s, s.managed = true → s.host.ckpt = none → exec .checkpointResume s =
    .next { s with host := { s.host with quiesced := false }, work := { s.work with paused := false } }) ∧
  ∀ s x remote off op n data e, s.host.phase = .running → 1 ≤ n → off % 64 + n ≤ 64 → mget s.host.exports x = some e →
    let pa := s.movedTo (e.base + off)
    ((e.allows remote off op n = false ∨ s.exportBound remote e.tenant = false) →
      exec (.exportAccess x remote off op n data) s = .next (s.post remote (.access remote false 0))) ∧
    (e.allows remote off op n = true → s.exportBound remote e.tenant = true → s.egress remote = true → s.keyValid e.key = true →
      (isHbm pa || isLpddr pa) = true → (op = 1 ∨ s.badAt pa n = false) → s.zeroing (pa / 64) = false →
      ∃ s', exec (.exportAccess x remote off op n data) s = .next s' ∧
        s'.host.posted = s.host.posted ++ [.access remote true (BitVec.ofNat 512 (ofBytes (s.homeBytes pa n e.key)))] ∧
        (op = 0 → s'.mem = s.mem) ∧
        (op = 1 → s'.mem = s.mem.puts (s.keyData e.key) (place pa (bytesOf data.toNat n))) ∧
        (2 ≤ op → s'.mem = s.mem.puts (s.keyData e.key) (place pa
          (bytesOf (atomNew (op - 2) n (ofBytes (s.homeBytes pa n e.key)) (nbits data 0 64) (nbits data 64 64)) n))))

/-! ### Events: messages, deposits, migration -/

/-- R64, R111, R190, R266, R268 to R272, R296, R301, R304: a message, no older one of its thread being under way to its mailbox, joins its
thread's mailbox, and an overflow is fault 0x0F; a handler starts, or a message that an error has spoiled is fault 0x07 (R169); a deposit lands or is refused; a counter falls and at 0 its task joins the
run list; a guest is admitted and comes home, which waits for what its old core has seen; the waits of `yield` and of a masked section end.
The model's choices: the number that a message carries (log 27), the order in which the packets of a thread arrive (log 89), the end of a
section whose count is 0 (log 35), where a register that migration brings arrives (log 17), and what a move waits for (log 106). -/
def Obligations.MessageEvents : Prop :=
  (∀ s i p t th, s.flight.msgs.find? (fun p => p.id == i) = some p → overtakes s.flight.msgs p (s.sameMail p) = false → s.mailTarget p = .live t th → ∃ s', exec (.messageArrival i) s = .next s' ∧
    s'.thread? t = some (th.deliver 0 p.k p.srcCore p.srcSlot p.payload) ∧ s'.mem = s.mem ∧ s'.saved = s.saved ∧
    s'.flight.msgs = s.flight.msgs.filter fun y => y.id != i) ∧
  (∀ s i p, s.flight.msgs.find? (fun p => p.id == i) = some p → overtakes s.flight.msgs p (s.sameMail p) = false → s.mailTarget p = .nobody → ∃ s', exec (.messageArrival i) s = .next s' ∧
    s'.threads = s.threads ∧ s'.saved = s.saved ∧ s'.flight.msgs = s.flight.msgs.filter fun y => y.id != i) ∧
  (∀ (th : Thread) kind k c sl v, th.mailbox.length < 8 → (th.deliver kind k c sl v).mailbox = th.mailbox ++
      [{ header := headerOf kind k c sl ((th.seq + 1) % 65536), payload := v }] ∧ (th.deliver kind k c sl v).overflow = th.overflow) ∧
  (∀ (th : Thread) kind k c sl v, 8 ≤ th.mailbox.length → (th.deliver kind k c sl v).mailbox = th.mailbox ∧
      (th.overflow = none → (th.deliver kind k c sl v).overflow = some (headerOf kind k c sl ((th.seq + 1) % 65536)))) ∧
  (∀ s t th h, s.thread? t = some th → th.overflow = some h → s.atBoundary t th = true →
    exec (.mailboxOverflow t) s = .next (takeFault (s.setThread t { th with overflow := none }) t 0x0F 0 false h th.ctx.pc)) ∧
  (∀ s t th m rest, s.thread? t = some th → th.mailbox = m :: rest → s.enters t th = true → s.mailBad t = false → ∃ s' y, exec (.handlerEntry t) s = .next s' ∧
    s'.thread? t = some y ∧ y.mailbox = rest ∧ y.ctx.hnd = true ∧ y.ctx.pc = th.ctx.msgv + BitVec.ofNat 64 (64 * nbits m.header 48 4) ∧
    y.ctx.msgpc = (if th.wait = .wfm then (advance th.ctx false .seq).pc else th.ctx.pc) ∧ y.ctx.reg 128 = m.payload ∧ y.ctx.reg 129 = m.header.setWidth 512 ∧
    (s'.core (coreOf t)).l1d = []) ∧
  (∀ s t th m rest, s.thread? t = some th → th.mailbox = m :: rest → s.enters t th = true → s.mailBad t = true →
    exec (.handlerEntry t) s = .next (takeFault s t 0x07 0 false (mailAddr t) th.ctx.pc)) ∧
  (∀ s i p t th, s.flight.deposits.find? (fun p => p.id == i) = some p → overtakes s.flight.deposits p (s.sameThread p) = false →
    s.target p = .live t th → th.refuses p.k = none →
    (th.stored p.k = false ∨ s.recordWaits th = none) →
    ∃ s', exec (.depositArrival i) s = .next s' ∧ s'.thread? t = some (th.land p.k p.payload) ∧ (th.stored p.k = false → s'.mem = s.mem) ∧
      s'.flight.deposits = s.flight.deposits.filter fun y => y.id != i) ∧
  (∀ s i p t th r, s.flight.deposits.find? (fun p => p.id == i) = some p → overtakes s.flight.deposits p (s.sameThread p) = false →
    s.target p = .live t th → th.refuses p.k = some r → th.guest = false →
    ∃ s', exec (.depositArrival i) s = .next s' ∧ s'.thread? t = some (th.deliver 1 0 p.srcCore p.srcSlot (refusedPayload p r)) ∧ s'.mem = s.mem) ∧
  (∀ s i p w k, s.flight.decs.find? (fun p => p.id == i) = some p → mget (s.core p.core).counters p.k = some w →
    mget (s.core p.core).armed p.k = some k → nbits w 0 6 = p.tenant →
    (1 < nbits w 52 12 → ∃ s', exec (.decrement i) s = .next s' ∧ mget (s'.core p.core).counters p.k = some (setBits w 52 12 (nbits w 52 12 - 1)) ∧
      (s'.core p.core).runList = (s.core p.core).runList) ∧
    (nbits w 52 12 = 1 → taskHome k.record = p.core → (s.core p.core).runList.length < 512 → (s.core p.core).waitTasks = [] →
      ∃ s', exec (.decrement i) s = .next s' ∧ mget (s'.core p.core).counters p.k = none ∧
        (s'.core p.core).runList = (s.core p.core).runList ++ [k])) ∧
  (∀ s c rest m sl b, s.nextMigrant c [] [] (s.core c).migrants = some (rest, m, sl, b) → s.recordWaits m.thread = none →
    ∃ s' g, exec (.guestAdmission c) s = .next s' ∧
    s'.thread? (c * 64 + sl) = some g ∧ g.guest = true ∧ g.home = m.home ∧ g.base = b ∧ g.ctx.pc = m.thread.ctx.pc ∧
    (s'.core c).migrants = rest ∧ ∃ y : State, y.mem = s.mem ∧ s' = y.writePresence g) ∧
  (∀ s i r h, s.flight.returns.find? (fun r => r.id == i) = some r → s.thread? r.thread.home = some h →
    let g := h.comeHome r.thread (s.core (coreOf r.thread.home)).wdog
    (s.steady r.core = true → s.recordWaits h = none → ∃ s', exec (.migretArrival i) s = .next s' ∧ s'.thread? r.thread.home = some g ∧
      ∃ y : State, y.mem = s.mem ∧ s' = y.writePresence g) ∧
    (s.steady r.core = false → exec (.migretArrival i) s = .next s)) ∧
  (∀ s t th, s.thread? t = some th → th.wait = .yield 0 → ∃ s', exec (.yieldExpiry t) s = .next s' ∧ OnlyThread s s' t ∧
    s'.thread? t = some { th with wait := .none }) ∧
  ∀ s t th, s.thread? t = some th → th.ctx.mskd = true → th.ctx.rem = 0 → ∃ s', exec (.maskBoundExpiry t) s = .next s' ∧ OnlyThread s s' t ∧
    s'.thread? t = some { th with ctx := { th.ctx with mskd := false } }

/-! ### Events: launches and formes -/

/-- R25, R28, R76, R262 to R264, R267, R276, R280, R372, R374: a launch is selected, placed and, after two sweeps that agree, ended; a
task becomes a forme; a forme is pre-empted whole and restored whole, and with a root of a GANG launch its other roots; a bank is
claimed; a closed routing batch is admitted, its experts' slots in order and each token's weights; nothing is formed while a quiesced checkpoint
keeps the launches off the device (R395). The model's choices: a bank that lies in the record comes back as `State.claimed` says (log 18);
a record that cannot be written yet holds up what writes it (log 108); the launch index that a launch takes (log 57), the range that
it is granted (log 80), what becomes of the local store of a launch that is pre-empted (log 141), the LOST of a completion (log 142), and whose
address it goes to (log 110). -/
def Obligations.WorkEvents : Prop :=
  (∀ s k n q r rest, s.work.paused = false → s.host.phase = .running →
    (List.range 4).find? (fun k => s.work.queues.any fun e => e.1 / 64 == k && !e.2.isEmpty) = some k → mget s.work.taken k = none →
    s.nextTenant k (mgetD s.work.visited k 0) = some n → mget s.work.queues (k * 64 + n) = some ((q, r) :: rest) →
    (newLaunch n q r).cost ≤ mgetD s.work.deficit (k * 64 + n) 0 + (match s.tenant? n with | some x => x.quantum | none => 1) →
    ∃ s', exec .launchSelect s = .next s' ∧ OnlyWork s s' ∧ mget s'.work.taken k = some (q, r) ∧ mget s'.work.queues (k * 64 + n) = some rest ∧
      mget s'.work.visited k = some n ∧ s'.work.launches = s.work.launches) ∧
  (∀ s w, s.host.phase = .running → s.vacateAll.work.paused = false → (List.range 4).findSome? (fun k => s.vacateAll.placeClass k) = some w →
    exec .placement s = .next w) ∧
  (∀ s, s.host.phase = .running → s.vacateAll.work.paused = true → exec .placement s = .next s.vacateAll) ∧
  (∀ s, s.host.phase = .running → s.vacateAll.work.paused = false → (List.range 4).findSome? (fun k => s.vacateAll.placeClass k) = none →
    exec .placement s = .next (if s.vacateAll.work.taken.isEmpty then s.vacateAll else s.vacateAll.readySpills).regainAll) ∧
  -- a launch that is placed: its launch index, its image and its margin snapshot, then its positions and grants on each of its cores
  (∀ (s : State) k ser r roots p i, mget s.work.taken k = some (ser, r) → let l := newLaunch (nbits r 16 8) ser r
    let key := launchKey l.tenant ser
    s.rootTasks key l = some roots → l.gang = false → s.freeIdx key l = some i →
    l.rows.foldlM (fun s c => s.giveCore key c) (s.enterLaunch key i l) = some p →
    s.placeClass k = some ((roots.foldl State.enlist p).modWork fun w => { w with taken := mdel w.taken k })) ∧
  (∀ (s : State) key idx l i, s.imageOf l = some i → ∃ x, (s.enterLaunch key idx l).launch? key = some x ∧ x.lidx = idx ∧
    x.upcv = (match s.tenant? l.tenant with | some y => y.upcvr | none => 0) ∧ x.textBase = i.textBase ∧ x.nslots = i.nslots ∧
    (l.frozen = true → x.snapshot = i.kept) ∧
    (l.frozen = false → (nbits l.record 26 1 = 0 ∨ i.joined = false) → x.snapshot = i.live) ∧
    (l.frozen = false → nbits l.record 26 1 = 1 → i.joined = true → x.snapshot = mgetD s.tables.shared (l.part 8 8) [])) ∧
  (∀ (s s' : State) key c l, s.launch? key = some l → l.cores.contains c = false → mget l.lsBase c = none → mget l.savedLs c = none → mget l.accBase c = none →
    s.giveCore key c = some s' →
    let ps := (s.core c).unused.take l.pcore
    ps.length = l.pcore ∧
    (∀ p ∈ ps, impUsed ((s'.core c).impView p) = true ∧ impThr ((s'.core c).impView p) = false ∧ impLidx ((s'.core c).impView p) = l.lidx % 64) ∧
    (∀ p, p ∉ ps → (s'.core c).impView p = (s.core c).impView p) ∧
    ∃ x, s'.launch? key = some x ∧ x.cores = l.cores ++ [c] ∧ l.accs ≤ (s.freeAccs c).length ∧
      mget x.accBase c = some ((s.freeAccs c).take l.accs) ∧ (l.spBytes ≠ 0 → (mget x.spBase (clusterOf c)).isSome = true) ∧
      (l.lsBytes ≠ 0 → ∃ b, lowestRange (s.ranges c Launch.lsBase Launch.lsBytes) 1024 l.lsBytes 24576 = some b ∧ mget x.lsBase c = some b)) ∧
  -- one that was pre-empted there finds its range at the same offsets, if it is free, with what was saved of it
  (∀ (s : State) l c b bs, mget l.savedLs c = some (b, bs) →
    s.storeRange l c = if (s.ranges c Launch.lsBase Launch.lsBytes).all (fun r => b + l.lsBytes ≤ r.1 || r.1 + r.2 ≤ b) then some (b, some bs) else none) ∧
  (∀ (s : State) key c l b, s.launch? key = some l → mget l.lsBase c = some b → l.lsBytes ≠ 0 → ∃ x, (s.vacate key c).launch? key = some x ∧
    mget x.lsBase c = none ∧ mget x.savedLs c = some (b, (List.range l.lsBytes).map fun i => s.localByte c (b + i)) ∧ c ∉ x.cores) ∧
  (∀ s c l, s.host.quiesced = true → exec (.formeCreation c l) s = .next (s.refill c)) ∧
  (∀ s c l k w, s.host.quiesced = false → (s.core c).runList.find? (fun k => k.launch == l) = some k → s.form k = some w → ∃ s' i f, exec (.formeCreation c l) s = .next s' ∧
    mget s'.work.formes i = some f ∧ f.launch = k.launch ∧ f.task = k ∧ f.f = taskPart k.record 16 1 ∧ f.t = taskPart k.record 17 1 ∧
    f.ended = [] ∧ f.tdone = false ∧ f.preempted = false) ∧
  (∀ s n l, s.launch? n = some l → l.ended = false →
    ((s.idleFor n = false ∨ sumOf l.sent ≠ sumOf l.recvd) → ∃ s', exec (.terminationSweep n) s = .next s' ∧ OnlyWork s s' ∧
      s'.launch? n = some { l with prev := none }) ∧
    (s.idleFor n = true → sumOf l.sent = sumOf l.recvd → l.prev ≠ some (sumOf l.sent, sumOf l.recvd) →
      ∃ s', exec (.terminationSweep n) s = .next s' ∧ OnlyWork s s' ∧ s'.launch? n = some { l with prev := some (sumOf l.sent, sumOf l.recvd) }) ∧
    (s.idleFor n = true → sumOf l.sent = sumOf l.recvd → l.prev = some (sumOf l.sent, sumOf l.recvd) →
      ∃ s', exec (.terminationSweep n) s = .next s' ∧ ∀ x, s'.launch? n = some x → x.ended = true)) ∧
  (∀ s n l, s.launch? n = some l → l.ended = true → let u := s.freeOf n l
    (u.endWaits n l.tenant = true → exec (.terminationSweep n) s = .next u) ∧
    (u.endWaits n l.tenant = false → ∃ s', exec (.terminationSweep n) s = .next s' ∧ s'.launch? n = none ∧
      (s.egress (s.hostOf l.tenant) = true →
        s'.host.posted = s.host.posted ++ [.completion l.tenant (s.hostOf l.tenant) (framed 1 (completion l (u.lostOf l.tenant) l.status l.msgs l.tend))]))) ∧
  (∀ s n f, mget s.work.formes n = some f → (∀ e ∈ s.unit n f, e.2.preempted = false) → s.due (s.unit n f) = true →
    (∀ e ∈ s.unit n f, ∀ x ∈ s.standing e.2, s.mayTake x.2 = true) →
    s.recordsWait ((s.unit n f).flatMap fun e => (s.standing e.2).map Prod.snd) = none → ∃ s', exec (.preEmption n) s = .next s' ∧
    ∀ e ∈ s.unit n f, (∀ g, mget s'.work.formes e.1 = some g → g.preempted = true) ∧ ∀ x ∈ s.standing e.2, mget s'.threads x.1 = none) ∧
  (∀ s n f e x, mget s.work.formes n = some f → e ∈ s.unit n f → x ∈ s.standing e.2 → s.mayTake x.2 = false →
    exec (.preEmption n) s = .next s) ∧
  (∀ s n f l w y, mget s.work.formes n = some f → s.launch? f.launch = some l → f.preempted = true → (l.cores.any fun c => s.wanted l c) = false →
    (∀ e ∈ s.saved, s.recordWaits e.2 = none ∧ s.steady (coreOf e.2.ranIn) = true) →
    (s.unit n f).foldlM (fun s e => s.seatForme l e.1 e.2) s = some w →
    (s.unit n f).foldlM (fun s e => (s.stored e.1 true).foldlM State.seatGuest s) w = some y → ∃ s', exec (.restore n) s = .next s' ∧
    ∀ e ∈ s.unit n f, ∀ g, mget s'.work.formes e.1 = some g → g.preempted = false) ∧
  (∀ s t th, s.thread? t = some th → th.pl ≠ 2 → th.res0 = false → th.fresh0 = true → (∀ e ∈ s.saved, s.recordWaits e.2 = none) →
    ∃ s', exec (.bankClaim t false) s = .next s' ∧
    s'.thread? t = some { th with res0 := true, fresh0 := false, claim := none } ∧ s'.work = s.work) ∧
  (∀ s t th, s.thread? t = some th → th.pl ≠ 2 → th.res1 = false → th.fresh1 = true → (∀ e ∈ s.saved, s.recordWaits e.2 = none) →
    ∃ s', exec (.bankClaim t true) s = .next s' ∧
    s'.thread? t = some { th with res1 := true, fresh1 := false, claim := none } ∧ s'.work = s.work) ∧
  -- a bank whose entries lie in the record comes back from it
  (∀ s t th b, s.thread? t = some th → th.pl = 0 → (if b then th.res1 else th.res0) = false → s.saved = [] →
    ∃ s', exec (.bankClaim t b) s = .next s' ∧ s'.thread? t = some ((s.tick.reloadSent th b).claimed th b) ∧ s'.mem = s.mem ∧ s'.work = s.work) ∧
  ∀ s b x, mget s.work.batches b = some x → x.state = 2 → ∃ s' y, exec (.routingAdmission b) s = .next s' ∧ OnlyWork s s' ∧
    mget s'.work.batches b = some y ∧ y.state = 3 ∧ y.kept = x.kept ∧ y.launch = x.launch ∧
    ∃ adm : Map (List Nat), (∀ e, (∃ t ∈ x.kept, ∃ w ∈ t.2, entryExpert w = e) → mget adm e = some (admitted x e)) ∧
      y.result = x.kept.map (fun t => (t.1, routeResult adm t.1 t.2)) ∧
    -- an expert admits C of its tokens; a token's result lists its admitted entries, with the expert, the slot and the weight of each
    (∀ e, ((x.kept.map Prod.fst).Nodup → (admitted x e).length ≤ cfgC x.cfg) ∧
      ∀ t ∈ admitted x e, ∃ z ∈ x.kept, z.1 = t ∧ ∃ w ∈ z.2, entryExpert w = e) ∧
    ∀ tok kept, kept.length ≤ 8 → let r := routeResult adm tok kept;
      r.1.length = (kept.filter fun w => (mgetD adm (entryExpert w) []).contains tok).length ∧ r.2 % 16 = r.1.length ∧
      (r.2 / 32 % 2 = 1 ↔ ∃ w ∈ kept, tok ∉ mgetD adm (entryExpert w) [])

/-! ### Events: engines -/

/-- R105, R201, R217, R246, R247, R251, R252, R254, R292: a copy command starts and completes, or fails and its context with it; an
ordered entry goes to memory when every slice is there; a scan step of `dens` reads on; a tile operation is granted and retires, and
`mzero` clears its accumulator; a drain is granted where a buffer is free, takes it and completes; timelines go on in order. The model's
choices: how a command goes on and completes (log 95 for ordered entries, log 32 and 52 for the units of its data), what a failure discards
(log 94), and the order of the pass over the cores (log 56). -/
def Obligations.EngineEvents : Prop :=
  (∀ s c m, s.rowHeld c = false → s.copyRoom c = true →
    (s.copyPick c fun l => (s.nextStart c l (s.core c).copyQ).isSome).bind (fun l => s.nextStart c l (s.core c).copyQ) = some m →
    (∀ k, s.startFails c m = some k → exec (.copyCommandStart c) s = .next (s.copyFails c m k)) ∧
    (s.startFails c m = none → ∃ s', exec (.copyCommandStart c) s = .next s' ∧ s'.mem = s.mem ∧ s'.threads = s.threads ∧
      ∀ x ∈ (s'.core c).copyQ, x.id = m.id → x.started = true ∧ x.paid = true)) ∧
  (∀ s c i m, s.copyTurn c i = some m → s.copyPublished c m = true → m.moved = true → m.refused = false → s.settled (m.owner c) = true →
    ∃ s', exec (.copyCommandComplete c i) s = .next s' ∧ s'.mem = s.mem ∧ ∀ x ∈ (s'.core c).copyQ, x.id ≠ m.id) ∧
  -- a unit of its data moves when its launch has the turn; with the last one it is complete
  (∀ s c i m, s.copyTurn c i = some m → s.copyPublished c m = true → m.moved = false →
    (m.paid = true ∨ s.copyPick c (fun l => (s.core c).copyQ.any fun x => x.launch == l && s.canMove c x) = some m.launch) →
    (∀ w, s.moveCopy c m = .moved w → m.refused = false → w.settled (m.owner c) = true →
      ∃ s', exec (.copyCommandComplete c i) s = .next s' ∧ s'.mem = w.mem ∧ ∀ x ∈ (s'.core c).copyQ, x.id ≠ m.id) ∧
    (∀ m2 w, s.moveCopy c m = .more m2 w → ∃ s', exec (.copyCommandComplete c i) s = .next s' ∧ s'.mem = w.mem ∧
      ∀ x ∈ (w.core c).copyQ, x.id = i → (if m.paid then { m2 with paid := false } else m2) ∈ (s'.core c).copyQ)) ∧
  (∀ s c i m w k, s.copyTurn c i = some m → s.copyPublished c m = true → m.moved = false → s.moveCopy c m = .fail k w →
    w.faultRoom m.tenant = true → (mget w.threads m.home).isSome = true → (w.ctxOf m.home false).cnt < m.n →
    (w.ctxOf m.home false).failed = none → ∃ s', exec (.engineFailed c i k) s = .next s' ∧ s'.mem = w.mem ∧
      (s'.ctxOf m.home false).failed = some (m.n, k) ∧ ∀ x ∈ (s'.core c).copyQ, x.home = m.home → x.n < m.n) ∧
  (∀ (e : Eng) fl, e.done = [] → (e.complete (e.cnt + 1) fl).cnt = e.cnt + 1 ∧ (e.complete (e.cnt + 1) fl).done = []) ∧
  (∀ (e : Eng) n fl, e.done = [] → e.cnt + 1 < n → (e.complete n fl).cnt = e.cnt ∧ (e.complete n fl).done = [n]) ∧
  (∀ s d l a e pa key, (s.die d).ordered.find? (fun e => e.launch == l && e.pa == a && s.ordFull e) = some e →
    s.reach (match s.launch? l with | some x => x.tenant | none => 0) e.va 2 = .at_ pa key none → s.zeroing (pa / 64) = false →
    ∃ s', exec (.orderedEntryCompletion d l a) s = .next s' ∧ s'.mem = s.mem.puts (s.keyData key) (place pa (bytesOf (narrowTo e.ty
      (e.slices.foldl (fun v c => ordAdd e.ty v c.2) (widenTo e.ty (ofBytes (s.homeBytes pa (typeBytes e.ty) key))))) (typeBytes e.ty))) ∧
      ∀ y ∈ (s'.die d).ordered, ¬ (y.launch = l ∧ y.pa = a)) ∧
  (∀ s c i m g es, s.copyTurn c i = some m → m.op = 6 → m.read.length < boxCount m.a (shapeRank m.shape) →
    s.resumeBreak (nbits m.b 0 4) (2 ^ 40 + cmdTag m.id) = none → s.regionFor m.tenant (nbits m.b 0 4) = .ok g →
    s.regScan (nbits m.b 0 4) g (if keyOf (densCoords g m m.read.length) = 0 then 2 ^ 127 else keyOf (densCoords g m m.read.length) - 1) 15 = .ok es →
    ∃ s' vs, exec (.regionPoint c i) s = .next s' ∧ s'.mem = s.mem ∧ s'.threads = s.threads ∧
      ∀ x ∈ (s.core c).copyQ, x.id = m.id → { x with read := x.read ++ vs } ∈ (s'.core c).copyQ) ∧
  (∀ s k c m, s.nextGrant k (s.cluster k).at_ (fun c => mgetD (s.cluster k).credit c 0) = some c →
    let u := s.modCluster k fun x => { x with credit := mput x.credit c (mgetD x.credit c 0 - 1), at_ := (c % 8 + 1) % 8 }
    u.readyTile c = some m → (m.op = 12 → u.drainFails m = none → ∃ s', exec (.tileGrant k) s = .next s' ∧ s'.mem = s.mem ∧
      ∀ x ∈ (s.core c).matQ, x.id = m.id → { x with granted := 1 } ∈ (s'.core c).matQ) ∧
    (m.op ≠ 12 → u.tileFails c m = none → ∀ vs w, u.claimSlots c m m.rings = some (vs, w) →
    ∃ s', exec (.tileGrant k) s = .next s' ∧ s'.mem = s.mem ∧ mget (s'.cluster k).credit c = some (mgetD (s.cluster k).credit c 0 - 1) ∧
      ∀ x ∈ (s.core c).matQ, x.id = m.id → { x with granted := x.granted + 1, slots := x.slots ++ vs } ∈ (s'.core c).matQ)) ∧
  -- with no operation ready the round is over, and its credit is lost
  (∀ s k, s.nextGrant k (s.cluster k).at_ (fun c => mgetD (s.cluster k).credit c 0) = none → s.nextGrant k 0 s.matWeight = none →
    ∃ s', exec (.tileGrant k) s = .next s' ∧ (s'.cluster k).credit = [] ∧ (s'.cluster k).at_ = 0 ∧ s' = { s with clusters := s'.clusters }) ∧
  (∀ (s : State) c m, s.readyTile c = some m → m.op = 12 → s.drainFails m = none → s.matTurn m = true ∧ s.drainFree (clusterOf c) = true) ∧
  (∀ s c i m, s.matCmd? c i = some m → m.op = 11 → s.matTurn m = true → m.acc < s.accCount m.launch → ∃ s', exec (.tileRetirement c i) s = .next s' ∧
    s'.accData c (s.accIndex c m.launch m.acc) = List.replicate 1024 0 ∧ s'.mem = s.mem ∧ ∀ x ∈ (s'.core c).matQ, x.id ≠ m.id) ∧
  (∀ s c i m, s.matCmd? c i = some m → m.op ≠ 11 → m.tile = true → m.retired < m.granted → s.tileBehind m = false → s.tileBad c m = false →
    scaledOp m.fmta = false → scaledOp m.fmtb = false → let mine := m.slots.take m.rings.length
    ∃ s', exec (.tileRetirement c i) s = .next s' ∧ s'.mem = s.mem ∧ s'.accData c (s.accIndex c m.launch m.acc) =
      (tileProduct m (s.accData c (s.accIndex c m.launch m.acc))
        (tileRows m.fmta m.sparseA (s.slotBytes c m m.a m.sparseA (if placeRing m.a then mine.head? else none)))
        (tileRows m.fmtb m.sparseB (s.slotBytes c m m.b m.sparseB (if placeRing m.b then mine.getLast? else none))) [] []).1) ∧
  (∀ s c i m, s.matCmd? c i = some m → m.op = 12 → m.drained = false → m.granted ≠ 0 → s.rowHeld c = false → s.drainFails m = none →
    s.accBad c (s.accIndex c m.launch m.acc) = false → ∃ s', exec (.drainTurn c i) s = .next s' ∧ s'.mem = s.mem ∧
      (s'.cluster (clusterOf c)).drains = (s.cluster (clusterOf c)).drains ++
        [{ core := c, id := i, data := s.accData c (s.accIndex c m.launch m.acc) }] ∧
      (m.c.getLsbD 6 = true → s'.accData c (s.accIndex c m.launch m.acc) = List.replicate 1024 0)) ∧
  ∀ s c i m data w k gs, s.matCmd? c i = some m → s.drainData c i = some data → s.drainBehind m = false → m.refused = false →
    m.moved = false → s.moveDrain c m data = (.moved w, k, gs) →
    ((drainTargets m).length ≤ k → w.settled (m.owner c) = true → ∃ s', exec (.drainComplete c i) s = .next s' ∧
      s'.mem = w.mem ∧ ∀ x ∈ (s'.core c).matQ, x.id ≠ m.id) ∧
    (k < (drainTargets m).length → exec (.drainComplete c i) s = .next (w.modMat c i fun x => { x with sent := k, grans := gs }))

/-! ### Events: memory blocks, tables, records -/

/-- R164 to R166, R178 to R184, R255 to R258: the block engine takes a migration, points the entry to the new block, and gives the old one
back; a write held too long is fault 0x0C; a log is merged; a line of a frame is zeroed; a fault record and a margin record reach their
places; a walk fills the TLBs. -/
def Obligations.BlockEvents : Prop :=
  (∀ s d m, ((s.die d).migQ.filter fun m => m.state != .queued).length < 4 → (s.die d).migQ.find? (fun m => m.state == .queued) = some m →
    m.cow = false →
    (blkValid (s.blk m.entry) = false → exec (.take d) s = .next ((s.modMig d m.id fun _ => none).postMigrated m d 3 (blkTier (s.blk m.entry)))) ∧
    (blkValid (s.blk m.entry) = true → blkWb (s.blk m.entry) = false → s.blkCount (blkBase (s.blk m.entry)) ≤ 1 →
      blkTier (s.blk m.entry) ≠ m.tier → ∀ b w, s.popBlock m.die m.tenant m.tier = some (b, w) → ∃ s', exec (.take d) s = .next s' ∧
        s'.blk m.entry = setBits (s.blk m.entry) 124 1 1 ∧ s'.threads = s.threads ∧
        ∀ x ∈ (s'.die d).migQ, x.id = m.id → x.state = .copy ∧ x.newBlk = b ∧ x.oldBlk = blkBase (s.blk m.entry))) ∧
  (∀ s d i m, (s.die d).migQ.find? (fun m => m.id == i && m.state == .copy) = some m → m.cow = false → m.waiters = [] →
    ∃ s', exec (.remap d i) s = .next s' ∧ s'.threads = s.threads ∧
      s'.blk m.entry = setBits (setBits (setBits (s.blk m.entry) 16 30 (m.newBlk / 65536)) 126 1 (if isHbm m.newBlk then 0 else 1)) 124 1 0 ∧
      s'.blkCount m.newBlk = 1 ∧ ∀ x ∈ (s'.die d).migQ, x.id = i → x.state = .release) ∧
  (∀ s d i m, (s.die d).migQ.find? (fun m => m.id == i && m.state == .release) = some m → m.cow = false → s.blockInUse m.oldBlk = false →
    (s.freeList (freeKey (mgetD s.tables.bdie (m.oldBlk / 65536) 0) m.tenant (if isHbm m.oldBlk then 0 else 1))).length < 2 ^ 22 →
    exec (.release d i) s = .next (((((s.modMig d i fun _ => none).setCount m.oldBlk 0).returnBlock m.tenant m.oldBlk)).postMigrated m d 0
      (if isHbm m.newBlk then 0 else 1))) ∧
  (∀ s b r, s.tables.returning.find? (fun r => r.2 == b) = some r → s.blockInUse b = false →
    (s.freeList (freeKey (mgetD s.tables.bdie (b / 65536) 0) r.1 (if isHbm b then 0 else 1))).length < 2 ^ 22 →
    ∃ s', exec (.blockReturn b) s = .next s' ∧ OnlyTables s s' ∧ s'.tables.returning = s.tables.returning.erase r ∧
      s'.freeList (freeKey (mgetD s.tables.bdie (b / 65536) 0) r.1 (if isHbm b then 0 else 1)) =
        b :: s.freeList (freeKey (mgetD s.tables.bdie (b / 65536) 0) r.1 (if isHbm b then 0 else 1))) ∧
  (∀ s t th h, s.thread? t = some th → th.held = some h → h.applied = false → ∃ s' y, exec (.blockBusy t) s = .next s' ∧
    s'.thread? t = some y ∧ y.held = none ∧ y.ctx.tookFault 0x0C (BitVec.ofNat 64 h.va) th.ctx.pc) ∧
  (∀ s c, c < 512 → ∃ s', exec (.dirtyLogMerge c) s = .next s' ∧ (s'.core c).logged = 0 ∧ s'.mem = s.mem ∧ s'.threads = s.threads) ∧
  (∀ s l z, (s.power.zeroing.filter (dueIn l)).getLast? = some z → ∃ s', exec (.frameZeroed l) s = .next s' ∧ s'.zeroing l = false ∧
    s'.threads = s.threads ∧ s'.mem = s.mem.puts (s.keyData z.2.2) (place (l * 64) (List.replicate 64 0))) ∧
  (∀ s n x m rest w, s.tenant? n = some x → x.tierWait = [] → x.waiting = m :: rest →
    (s.writeNote n x.fnqb (x.fq.seq + 1) 0 m = .written w →
      ∃ s', exec (.notificationRecord n) s = .next s' ∧ s'.mem = w.mem ∧
        s'.tenant? n = some { x with waiting := rest, fq := { x.fq with seq := x.fq.seq + 1 } }) ∧
    (s.writeNote n x.fnqb (x.fq.seq + 1) 0 m = .full → exec (.notificationRecord n) s = .next s)) ∧
  (∀ s i r l x k, s.flight.margins.find? (fun r => r.id == i) = some r → s.launch? r.launch = some l → s.imageOf l = some x →
    siteSlot x l.textBase r.pc r.site = some k →
    let u := (s.modFlight fun f => { f with margins := f.margins.filter fun x => x.id != i }).cacheSite r
    (dropsRecord (s.marginSlot l x k) r.site = false → exec (.marginRecord i) s = .next (u.modMargin l k fun m => addRecord m r.site)) ∧
    (dropsRecord (s.marginSlot l x k) r.site = true → ∃ s', exec (.marginRecord i) s = .next s' ∧ s'.tables = s.tables ∧ s'.flight = u.flight)) ∧
  ∀ s i w e b z, s.flight.walks.find? (fun w => w.id == i) = some w → s.walk w.tenant w.va = .leaf e b z →
    ∃ s', exec (.translationWalk i) s = .next s' ∧ s'.mem = s.mem ∧ s'.threads = s.threads ∧
      (∀ t ∈ w.waiters, { tenant := w.tenant, base := b, size := z, pte := e, dirty := pteD e : Tlb } ∈ (s'.core (waiterCore t)).tlb) ∧
      s'.flight.walks = s.flight.walks.filter fun x => x.id != i

/-! ### Events: supervisors, the machine level, a core's cycle -/

/-- R17, R49, R50, R55, R354, R368, R375, R376: a supervisor run starts with the oldest entry; the machine slot runs for the oldest of its
entries; a breakpoint stops its thread, and in a machine slot the device (R381); the watchdog is fault 0x12 with the cause; a cycle of a core moves to the next position; a
reserved word, alone or in a pair, is fault 0x01 with the word, or the pair, in TRAPV. The model's choices: a breakpoint and the watchdog wait
until what the thread has issued has committed (log 34), what firmware makes of an entry (log 90), when a watchdog has run out (log 63), where
a run of a machine slot begins (log 8, 49), and what becomes of the low bits of an upcall vector that is not aligned to a word (log 105). -/
def Obligations.SupervisorEvents : Prop :=
  (∀ s c n u e rest th x l, mget (s.core c).sups n = some u → u.queue = e :: rest → u.run = none → e.kind ≠ 1 →
    s.thread? (c * 64 + e.slot) = some th → s.thread? (c * 64 + u.slot) = some x → s.launchOf th = some l →
    th.inUpcall = true → ∃ s' y v, exec (.upcallRun c n) s = .next s' ∧ s'.thread? (c * 64 + u.slot) = some y ∧
      y.ctx.pc = wordAligned (l.upcv + BitVec.ofNat 64 (64 * e.kind)) ∧ y.ctx.reg 0 = e.word.setWidth 512 ∧ y.launch = th.launch ∧
      mget (s'.core c).sups n = some v ∧ v.queue = rest ∧ v.run = some th.launch ∧ v.utsel = e.slot ∧ s'.mem = s.mem) ∧
  (∀ s c w who rest th, c < 512 → (s.core c).mq = (w, who) :: rest → (s.core c).mrun = false → s.thread? (c * 64 + 63) = some th →
    -- a breakpoint's entry, or one of a thread that has ended
    (w.getLsbD 23 = true ∨ (th.who ≠ who ∧ (∀ e ∈ s.threads, e.2.who ≠ who) ∧ ∀ e ∈ s.saved, e.2.who ≠ who) → ∃ s', exec (.machineEntry c) s = .next s' ∧ s'.mem = s.mem ∧
      s'.core c = { s.core c with mq := rest, mrun := true, mcause := w, mepc := th.ctx.pc } ∧
      s'.thread? (c * 64 + 63) = some { th with ctx := { th.ctx with pc := wordAligned (Config.machineVector s.host.image) }, cause := none }) ∧
    -- a fault of a user thread ends it; a fault of a supervisor slot ends the launches of its tenant (log 90, DEDUCED)
    (∀ k y, w.getLsbD 23 = false → th.who ≠ who → k ≠ c * 64 + 63 → (k, y) ∈ s.threads → y.who = who → (y.guest = true ∨ y.away = none) →
      (∀ e ∈ s.threads, e.2.who = who → e = (k, y)) → ∃ s', exec (.machineEntry c) s = .next s' ∧
      (s'.core c).mrun = true ∧ (s'.core c).mcause = w ∧ (s'.core c).mepc = th.ctx.pc ∧
      (y.pl = 0 → ∀ z, mget s'.threads k = some z → z.ending = true) ∧
      (y.pl ≠ 0 → ∀ l ∈ s.work.launches, l.2.tenant = y.tenant → ∀ x, s'.launch? l.1 = some x → x.ended = true))) ∧
  (∀ s t th n, s.thread? t = some th → s.breakpointAt t th = some n → th.stopped = false → th.upcall = none → th.away = none → th.rob = [] →
    th.pl = 2 → ∃ s', exec (.breakpoint t) s = .next s' ∧ s'.host.phase = .stopping (coreOf t) (slotOf t) 0x21 ∧ s'.mem = s.mem) ∧
  (∀ s t th n, s.thread? t = some th → s.breakpointAt t th = some n → th.stopped = false → th.upcall = none → th.away = none → th.rob = [] →
    th.pl ≠ 2 → ∃ s' y, exec (.breakpoint t) s = .next s' ∧ s'.thread? t = some y ∧ y.stopped = true ∧ y.ctx.tookFault 0x21 0 th.ctx.pc ∧
      (s'.core (coreOf t)).mq = (s.core (coreOf t)).mq ++ [(mcauseOf t th 0x21 (n + 4), th.who)] ∧ s'.mem = s.mem) ∧
  (∀ s t th, s.thread? t = some th → s.runOut t th = true → th.expired = none →
    (th.rob = [] → ∃ s' y, exec (.watchdog t) s = .next s' ∧ s'.thread? t = some y ∧
      y.ctx.tookFault 0x12 (BitVec.ofNat 64 (th.cause.getD 15)) th.ctx.pc) ∧
    (th.rob ≠ [] → exec (.watchdog t) s = .next (s.setThread t { th with expired := some (th.cause.getD 15) }))) ∧
  (∀ s c, c < 512 → s.sched.issue = false → s.host.phase = .running → (s.core c).halted = false → ∃ s', exec (.barrelIssue c) s = .next s' ∧
    s'.sched.turn = (c + 1) % 512 ∧ (s'.core c).pos = ((s.core c).pos + 1) % 64 ∧ (s'.core c).cyc = (s.core c).cyc + 1 ∧ s'.mem = s.mem) ∧
  (∀ s c, c < 512 → s.sched.issue = false → s.host.phase = .running → (s.core c).halted = true → ∃ s', exec (.barrelIssue c) s = .next s' ∧
    (s'.core c).pos = (s.core c).pos ∧ s'.threads = s.threads ∧ s'.mem = s.mem) ∧
  (∀ s w th, (reservedBy w).isSome = true → s.thread? s.sched.cur = some th → th.rob = [] →
    exec (.reservedWord none w) s = .next (takeFault s s.sched.cur 0x01 0 false (BitVec.ofNat 64 w.toNat) th.ctx.pc)) ∧
  ∀ s x w th, (reservedBy w).isSome = true → s.thread? s.sched.cur = some th → th.rob = [] →
    exec (.reservedWord (some x) w) s = .next (takeFault s s.sched.cur 0x01 0 true
      (BitVec.ofNat 64 ((0x0E * 2 ^ 26 + x.toNat) * 2 ^ 32 + w.toNat)) th.ctx.pc)

/-! ### The machine as a whole -/

/-- R73, R110, R365, R366, R368: a fault saves its code, TCODE, privilege, PAIR and FDET in TRAPC, TRAPV, and the pc in TRAPPC, and leaves the
registers and memory as they are; a user thread whose launch has an upcall vector goes into the upcall state, and the supervisor of its
tenant gets an entry; one without a vector, and a supervisor's thread, stop and the machine slot gets an entry; one of the machine slot is fatal (R381). The model's choice: that such a
thread is stopped (log 50). -/
def Obligations.FaultTaken : Prop :=
  ∀ s t th code tcode pair v pc, s.thread? t = some th → code < 256 → tcode < 256 →
    (th.pl < 2 → ∃ y, (takeFault s t code tcode pair v pc).thread? t = some y ∧
      nbits y.ctx.trapc 0 8 = code ∧ nbits y.ctx.trapc 8 8 = tcode ∧ nbits y.ctx.trapc 16 2 = th.pl ∧
      nbits y.ctx.trapc 18 1 = (if pair then 1 else 0) ∧ nbits y.ctx.trapc 19 1 = (if th.attached then 1 else 0) ∧
      (th.attached = true → y.det = true) ∧ y.ctx.trapv = v ∧ y.ctx.trappc = pc ∧
      y.ctx = { th.ctx with trapc := y.ctx.trapc, trapv := v, trappc := pc } ∧
      (th.pl = 0 → (∃ l, s.launchOf th = some l ∧ l.upcv ≠ 0) →
        y.upcall = some { kind := if isUpcall code then 0 else 2, code := code, resume := false } ∧ y.stopped = th.stopped ∧
        ∀ u, mget (s.core (coreOf t)).sups th.tenant = some u →
          mget ((takeFault s t code tcode pair v pc).core (coreOf t)).sups th.tenant =
            some { u with queue := u.queue ++ [{ slot := slotOf t, kind := if isUpcall code then 0 else 2, code := code }] }) ∧
      ((th.pl = 1 ∨ ∀ l, s.launchOf th = some l → l.upcv = 0) → y.stopped = true ∧ y.upcall = th.upcall ∧
        ∃ w, ((takeFault s t code tcode pair v pc).core (coreOf t)).mq = (s.core (coreOf t)).mq ++ [(w, th.who)] ∧ nbits w 0 8 = code)) ∧
    (takeFault s t code tcode pair v pc).mem = s.mem ∧ (takeFault s t code tcode pair v pc).tables = s.tables ∧
    (∀ u, u ≠ t → (takeFault s t code tcode pair v pc).thread? u = s.thread? u) ∧
    (th.pl = 2 → (takeFault s t code tcode pair v pc).host.phase = .stopping (coreOf t) (slotOf t) code)

/-- R55, R56, R60, R110, R229, R230: what an instruction meets before it executes, in this order: a word that is not legal is fault 0x01
with the word; a privilege too low is fault 0x02 with the word; a register past the window is fault 0x03 with its number; a source or
destination that waits for a load, or a bank, or a source that is armed holds it under causes 4, 3 and 10, or under a lower one that holds
the instruction besides its armed source; a fault is taken once the earlier instructions have committed, and waits for them under cause 4
until then; and a leader whose members are too far behind holds it under the lowest cause that applies (R20, R349). -/
def Obligations.StopsBeforeExecution : Prop :=
  ∀ (q : Req) s t th (k : State → Nat → Thread → Out), s.sched.cur = t → s.thread? t = some th →
    let stop (code : Nat) (v : Dword) : Out := .next (if th.rob = [] then takeFault s t code 0 q.pair v th.ctx.pc else hold s t 4);
    (q.legal = false → begin q s k = stop 0x01 (BitVec.ofNat 64 q.word)) ∧
    (q.legal = true → s.paced th = true → begin q s k = .next (hold s t (s.pacedCause t th q k))) ∧
    (q.legal = true → th.casts = false → s.paced th = false →
      (th.pl < q.level → begin q s k = stop 0x02 (BitVec.ofNat 64 q.word)) ∧
      (∀ n, q.level ≤ th.pl → th.badReg q.regs = some n → begin q s k = stop 0x03 (BitVec.ofNat 64 n)) ∧
      (∀ n, q.level ≤ th.pl → th.badReg q.regs = none → n ∈ q.reads ++ q.writes → (q.reads ++ q.writes).any th.absent = false →
        th.pending n = true → begin q s k = .next (hold s t 4)) ∧
      (∀ c, q.level ≤ th.pl → th.badReg q.regs = none → th.heldBy q = some c → c ≠ 3 → begin q s k = .next (hold s t (s.lowestHold t th q c))) ∧
      (∀ c, c ≠ 10 → s.lowestHold t th q c = c) ∧ s.lowestHold t th q 10 ≤ 10 ∧
      (∀ e d, e ∈ q.early → s.holdsEarly t th e = some d → s.lowestHold t th q 10 ≤ d) ∧
      (q.level ≤ th.pl → th.badReg q.regs = none → th.heldBy q = some 3 → ∃ n ∈ q.reads ++ q.writes, th.absent n = true ∧
        begin q s k = .next (hold (s.modThread t fun x => { x with claim := some (th.inSecond n) }) t 3)) ∧
      (q.level ≤ th.pl → th.badReg q.regs = none → th.heldBy q = none → begin q s k = k s t th.counted) ∧
      (th.heldBy q = some 10 → ∃ n ∈ q.reads, th.ctx.armed.getLsbD n = true)) ∧
    (∀ ns n, th.badReg ns = some n → n ∈ ns ∧ th.limit ≤ n)

/-- R13, R325, R345, R389, and the model's choices of reset values (log 2 to 4): the device runs; no memory, table, thread or launch is
there; every core's only used position is 63, for the machine slot; the machine slots' threads have every register zero; and both
memories have their canonical form (log 5). -/
def Obligations.ResetState : Prop :=
  State.reset.host.phase = .running ∧ State.reset.threads = [] ∧ State.reset.work.launches = [] ∧ State.reset.tables.keys = [] ∧
  State.reset.tables.tenants = [] ∧ State.reset.mem = Memory.empty ∧ State.reset.memWf ∧
  (∀ c, (State.reset.core c).imp = [(63, 0xCFFF)] ∧ (State.reset.core c).copyQ = [] ∧ (State.reset.core c).matQ = []) ∧
  ∀ c < 512, ∃ th, State.reset.thread? (c * 64 + 63) = some th ∧ th.pl = 2 ∧ th.ctx = Ctx.zero ∧ th.guest = false

/-- R17, R20, R43, R44, R127: where a thread that has the turn meets at its pc a word that the decoder reads as an instruction, the step is
that instruction's meaning, in the state after the fetch; an `ext` runs with the word after it; a replay runs its captured word, stepped;
and an attached member runs the word that its leader has sent it. -/
def Obligations.StepRunsDecoded : Prop :=
  ∀ s t th, s.host.phase = .running → s.sched.agenda = [] → s.sched.issue = true → s.sched.cur = t → s.thread? t = some th →
    s.mayTry t = true → th.ending = false → s.toResume t th = false → th.expired = none → th.refused = none → (th.overflow.isSome && s.atBoundary t th) = false →
    s.yields th = false → s.enters t th = false → s.breakpointAt t th = none →
    (∀ w u i, th.ctx.framed = false → th.attached = false → s.fetch t th th.ctx.pc = .word w u →
      (isExt w = false → decodeWord w = .ok i → step s = exec i u) ∧
      (∀ v x, isExt w = true → u.fetch t th (th.ctx.pc + 4) = .word v x → step s = exec (.ext (bits w 0 26) v) x)) ∧
    (∀ w i, th.ctx.framed = true → th.ctx.frame[nbits th.ctx.rpts 0 4]? = some w → isExt (th.wordAt w) = false →
      decodeWord (th.wordAt w) = .ok i → step s = exec i s) ∧
    (∀ r rest i, th.ctx.framed = false → th.attached = true → th.ribbon = r :: rest → r.pc = th.ctx.pc → isExt r.w0 = false →
      decodeWord r.w0 = .ok i → step s = exec i (s.setThread t { th with lead := some (r.next, r.taken) }))

/-- R44 to R51: words written out from the fields of the encoding decode to the instructions that they stand for. -/
def Obligations.DecodedWords : Prop :=
  decodeWord 0b000000_000000000000000000000_00000#32 = .ok .nop ∧
  decodeWord 0b000000_00000000000000_0000111_00010#32 = .ok (.trap 7) ∧
  decodeWord 0b000001_0000001_0000010_0000011_00000#32 = .ok (.add 1 2 3) ∧
  decodeWord 0b000010_0000101_0000110_111111111111#32 = .ok (.addi 5 6 0xFFF) ∧
  decodeWord 0b100000_0000001_0000010_0000011_000_10#32 = .ok (.vadd 1 2 3 2) ∧
  decodeWord 0b110000_0000001_0000010_011_000000101#32 = .ok (.ld 1 2 3 5) ∧
  decodeWord 0b111111_000000000000000000000_00010#32 = .ok .sysret ∧
  decodeWord 0b000001_0000001_0000010_0000011_11111#32 = .error .function

/-- R44 to R55: decoding the bytes of an encoded instruction gives the instruction back and leaves the bytes after it, for every
instruction with an encoding and every value of its operands. -/
def Obligations.DecodeEncode : Prop :=
  ∀ i rest, i.encodable = true → i.wf = true → decodeBytes (encodeBytes i ++ rest) = .ok (i, rest)

/-- R381, R389: the device does not run and is not about to make a dump, and no event that is to happen to it is one that its phase takes (log
1). -/
def Sys2Proof.Machine.State.dormant (s : State) : Prop :=
  s.host.phase ≠ .running ∧ (∀ c k x, s.host.phase ≠ .stopping c k x) ∧ ∀ i ∈ s.sched.agenda, isEvent i = true → s.host.phase.takes i = false

/-- R381, R389: where the device does not run and is not about to make a dump, and of the events that are to happen to it there is none that its phase takes, a step changes
nothing of it but the list of what is still to happen (log 1), and leaves it so. -/
def Obligations.DormantStays : Prop :=
  ∀ s s', s.dormant → step s = .next s' → s'.dormant ∧ s' = { s with sched := { s.sched with agenda := s'.sched.agenda } }
end

