-- ==== Sys2Proof/Laws/PerInstr.lean ====
section
/-! SUPPORT. Sys2Proof/Laws/PerInstr.lean: a fact about every row of the table, one lemma for each. -/

namespace Sys2Proof.Laws.Bounded

open Sys2Proof

set_option Elab.async false

/-- The word of an instruction has 32 bits (R44); a row without an encoding has the number 0. -/
def Statement (i : Instr) : Prop := encodeNat i < 2 ^ 32

/-- A word without fields. -/
theorem lt0 {b : Nat} (c : Nat) (h : b = c) (h' : c < 2 ^ 32) : b < 2 ^ 32 := h ▸ h'

/-- A field adds at most its largest value at its place. -/
theorem enc1_le (b : Nat) {n : Nat} (x : BitVec n) (lo : Nat) : enc1 b x lo ≤ b + (2 ^ n - 1) * 2 ^ lo := by
  have h : x.toNat ≤ 2 ^ n - 1 := by have := x.isLt; omega
  exact Nat.add_le_add_left (Nat.mul_le_mul_right _ h) b

theorem enc1_mono {b c : Nat} (h : b ≤ c) {n : Nat} (x : BitVec n) (lo : Nat) : enc1 b x lo ≤ enc1 c x lo :=
  Nat.add_le_add_right h _

theorem lt1 {b lo n : Nat} {x : BitVec n} (h : b + (2 ^ n - 1) * 2 ^ lo < 2 ^ 32) : enc1 b x lo < 2 ^ 32 :=
  Nat.lt_of_le_of_lt (enc1_le b x lo) h

theorem lt2 {b lo lo' n m : Nat} {x : BitVec n} {y : BitVec m}
    (h : b + (2 ^ n - 1) * 2 ^ lo + (2 ^ m - 1) * 2 ^ lo' < 2 ^ 32) : enc2 b x lo y lo' < 2 ^ 32 :=
  Nat.lt_of_le_of_lt (enc1_mono (enc1_le b x lo) y lo') (lt1 h)

theorem lt3 {b lo lo' lo'' n m k : Nat} {x : BitVec n} {y : BitVec m} {z : BitVec k}
    (h : b + (2 ^ n - 1) * 2 ^ lo + (2 ^ m - 1) * 2 ^ lo' + (2 ^ k - 1) * 2 ^ lo'' < 2 ^ 32) :
    enc3 b x lo y lo' z lo'' < 2 ^ 32 :=
  Nat.lt_of_le_of_lt (enc1_mono (enc1_mono (enc1_le b x lo) y lo') z lo'') (lt2 h)

theorem lt4 {b lo lo' lo'' l3 n m k j : Nat} {x : BitVec n} {y : BitVec m} {z : BitVec k} {u : BitVec j}
    (h : b + (2 ^ n - 1) * 2 ^ lo + (2 ^ m - 1) * 2 ^ lo' + (2 ^ k - 1) * 2 ^ lo'' + (2 ^ j - 1) * 2 ^ l3 < 2 ^ 32) :
    enc4 b x lo y lo' z lo'' u l3 < 2 ^ 32 :=
  Nat.lt_of_le_of_lt (enc1_mono (enc1_mono (enc1_mono (enc1_le b x lo) y lo') z lo'') u l3) (lt3 h)

theorem lt5 {b lo lo' lo'' l3 l4 n m k j p : Nat} {x : BitVec n} {y : BitVec m} {z : BitVec k} {u : BitVec j} {v : BitVec p}
    (h : b + (2 ^ n - 1) * 2 ^ lo + (2 ^ m - 1) * 2 ^ lo' + (2 ^ k - 1) * 2 ^ lo'' + (2 ^ j - 1) * 2 ^ l3 + (2 ^ p - 1) * 2 ^ l4 < 2 ^ 32) :
    enc5 b x lo y lo' z lo'' u l3 v l4 < 2 ^ 32 :=
  Nat.lt_of_le_of_lt (enc1_mono (enc1_mono (enc1_mono (enc1_mono (enc1_le b x lo) y lo') z lo'') u l3) v l4) (lt4 h)

theorem trap (c : BitVec 7) : Statement (.trap c) := lt1 (by decide)
theorem add (d : BitVec 7) (a : BitVec 7) (b : BitVec 7) : Statement (.add d a b) := lt3 (by decide)
theorem sub (d : BitVec 7) (a : BitVec 7) (b : BitVec 7) : Statement (.sub d a b) := lt3 (by decide)
theorem mul (d : BitVec 7) (a : BitVec 7) (b : BitVec 7) : Statement (.mul d a b) := lt3 (by decide)
theorem mulh (d : BitVec 7) (a : BitVec 7) (b : BitVec 7) : Statement (.mulh d a b) := lt3 (by decide)
theorem mulhn (d : BitVec 7) (a : BitVec 7) (b : BitVec 7) : Statement (.mulhn d a b) := lt3 (by decide)
theorem div (d : BitVec 7) (a : BitVec 7) (b : BitVec 7) : Statement (.div d a b) := lt3 (by decide)
theorem divn (d : BitVec 7) (a : BitVec 7) (b : BitVec 7) : Statement (.divn d a b) := lt3 (by decide)
theorem rem (d : BitVec 7) (a : BitVec 7) (b : BitVec 7) : Statement (.rem d a b) := lt3 (by decide)
theorem remn (d : BitVec 7) (a : BitVec 7) (b : BitVec 7) : Statement (.remn d a b) := lt3 (by decide)
theorem and (d : BitVec 7) (a : BitVec 7) (b : BitVec 7) : Statement (.and d a b) := lt3 (by decide)
theorem or (d : BitVec 7) (a : BitVec 7) (b : BitVec 7) : Statement (.or d a b) := lt3 (by decide)
theorem xor (d : BitVec 7) (a : BitVec 7) (b : BitVec 7) : Statement (.xor d a b) := lt3 (by decide)
theorem andn (d : BitVec 7) (a : BitVec 7) (b : BitVec 7) : Statement (.andn d a b) := lt3 (by decide)
theorem shl (d : BitVec 7) (a : BitVec 7) (b : BitVec 7) : Statement (.shl d a b) := lt3 (by decide)
theorem shr (d : BitVec 7) (a : BitVec 7) (b : BitVec 7) : Statement (.shr d a b) := lt3 (by decide)
theorem sra (d : BitVec 7) (a : BitVec 7) (b : BitVec 7) : Statement (.sra d a b) := lt3 (by decide)
theorem rotr (d : BitVec 7) (a : BitVec 7) (b : BitVec 7) : Statement (.rotr d a b) := lt3 (by decide)
theorem min (d : BitVec 7) (a : BitVec 7) (b : BitVec 7) : Statement (.min d a b) := lt3 (by decide)
theorem max (d : BitVec 7) (a : BitVec 7) (b : BitVec 7) : Statement (.max d a b) := lt3 (by decide)
theorem minn (d : BitVec 7) (a : BitVec 7) (b : BitVec 7) : Statement (.minn d a b) := lt3 (by decide)
theorem maxn (d : BitVec 7) (a : BitVec 7) (b : BitVec 7) : Statement (.maxn d a b) := lt3 (by decide)
theorem cmpeq (d : BitVec 7) (a : BitVec 7) (b : BitVec 7) : Statement (.cmpeq d a b) := lt3 (by decide)
theorem cmplt (d : BitVec 7) (a : BitVec 7) (b : BitVec 7) : Statement (.cmplt d a b) := lt3 (by decide)
theorem cmpltn (d : BitVec 7) (a : BitVec 7) (b : BitVec 7) : Statement (.cmpltn d a b) := lt3 (by decide)
theorem clz (d : BitVec 7) (a : BitVec 7) : Statement (.clz d a) := lt2 (by decide)
theorem ctz (d : BitVec 7) (a : BitVec 7) : Statement (.ctz d a) := lt2 (by decide)
theorem popc (d : BitVec 7) (a : BitVec 7) : Statement (.popc d a) := lt2 (by decide)
theorem sext (d : BitVec 7) (a : BitVec 7) (w : BitVec 7) : Statement (.sext d a w) := lt3 (by decide)
theorem zext (d : BitVec 7) (a : BitVec 7) (w : BitVec 7) : Statement (.zext d a w) := lt3 (by decide)
theorem addi (d : BitVec 7) (a : BitVec 7) (i : BitVec 12) : Statement (.addi d a i) := lt3 (by decide)
theorem andi (d : BitVec 7) (a : BitVec 7) (i : BitVec 12) : Statement (.andi d a i) := lt3 (by decide)
theorem ori (d : BitVec 7) (a : BitVec 7) (i : BitVec 12) : Statement (.ori d a i) := lt3 (by decide)
theorem xori (d : BitVec 7) (a : BitVec 7) (i : BitVec 12) : Statement (.xori d a i) := lt3 (by decide)
theorem shli (d : BitVec 7) (a : BitVec 7) (n : BitVec 6) : Statement (.shli d a n) := lt3 (by decide)
theorem shri (d : BitVec 7) (a : BitVec 7) (n : BitVec 6) : Statement (.shri d a n) := lt3 (by decide)
theorem srai (d : BitVec 7) (a : BitVec 7) (n : BitVec 6) : Statement (.srai d a n) := lt3 (by decide)
theorem roti (d : BitVec 7) (a : BitVec 7) (n : BitVec 6) : Statement (.roti d a n) := lt3 (by decide)
theorem seqi (d : BitVec 7) (a : BitVec 7) (i : BitVec 10) : Statement (.seqi d a i) := lt3 (by decide)
theorem slti (d : BitVec 7) (a : BitVec 7) (i : BitVec 10) : Statement (.slti d a i) := lt3 (by decide)
theorem sltni (d : BitVec 7) (a : BitVec 7) (i : BitVec 10) : Statement (.sltni d a i) := lt3 (by decide)
theorem movi (d : BitVec 7) (i : BitVec 19) : Statement (.movi d i) := lt2 (by decide)
theorem movk (d : BitVec 7) (q : BitVec 2) (v : BitVec 16) : Statement (.movk d q v) := lt3 (by decide)
theorem sel (d : BitVec 7) (a : BitVec 7) (b : BitVec 7) (k : BitVec 3) : Statement (.sel d a b k) := lt4 (by decide)
theorem kcmp (d : BitVec 3) (a : BitVec 7) (b : BitVec 7) (c : BitVec 3) : Statement (.kcmp d a b c) := lt4 (by decide)
theorem kand (d : BitVec 3) (a : BitVec 3) (b : BitVec 3) : Statement (.kand d a b) := lt3 (by decide)
theorem kor (d : BitVec 3) (a : BitVec 3) (b : BitVec 3) : Statement (.kor d a b) := lt3 (by decide)
theorem kxor (d : BitVec 3) (a : BitVec 3) (b : BitVec 3) : Statement (.kxor d a b) := lt3 (by decide)
theorem kandn (d : BitVec 3) (a : BitVec 3) (b : BitVec 3) : Statement (.kandn d a b) := lt3 (by decide)
theorem knot (d : BitVec 3) (a : BitVec 3) : Statement (.knot d a) := lt2 (by decide)
theorem kmov (d : BitVec 3) (a : BitVec 3) : Statement (.kmov d a) := lt2 (by decide)
theorem vtok (d : BitVec 3) (a : BitVec 7) : Statement (.vtok d a) := lt2 (by decide)
theorem ktov (d : BitVec 7) (a : BitVec 3) : Statement (.ktov d a) := lt2 (by decide)
theorem kpopc (d : BitVec 7) (a : BitVec 3) : Statement (.kpopc d a) := lt2 (by decide)
theorem vmask (d : BitVec 3) (a : BitVec 7) (w : BitVec 2) : Statement (.vmask d a w) := lt3 (by decide)
theorem kfirst (d : BitVec 3) (a : BitVec 3) : Statement (.kfirst d a) := lt2 (by decide)
theorem ctlr (d : BitVec 7) (n : BitVec 10) : Statement (.ctlr d n) := lt2 (by decide)
theorem ctlw (a : BitVec 7) (n : BitVec 10) : Statement (.ctlw a n) := lt2 (by decide)
theorem ctls (a : BitVec 7) (n : BitVec 10) : Statement (.ctls a n) := lt2 (by decide)
theorem ctlc (a : BitVec 7) (n : BitVec 10) : Statement (.ctlc a n) := lt2 (by decide)
theorem ext (i : BitVec 26) (w : BitVec 32) : Statement (.ext i w) := lt1 (by decide)
theorem bt (k : BitVec 3) (d : BitVec 22) : Statement (.bt k d) := lt2 (by decide)
theorem bf (k : BitVec 3) (d : BitVec 22) : Statement (.bf k d) := lt2 (by decide)
theorem jmp (d : BitVec 26) : Statement (.jmp d) := lt1 (by decide)
theorem call (d : BitVec 26) : Statement (.call d) := lt1 (by decide)
theorem jr (a : BitVec 7) : Statement (.jr a) := lt1 (by decide)
theorem callr (a : BitVec 7) : Statement (.callr a) := lt1 (by decide)
theorem loopi (l : BitVec 1) (c : BitVec 10) (e : BitVec 14) : Statement (.loopi l c e) := lt3 (by decide)
theorem loop (l : BitVec 1) (a : BitVec 7) (e : BitVec 14) : Statement (.loop l a e) := lt3 (by decide)
theorem rpt (n : BitVec 4) (r : BitVec 6) (d : BitVec 4) (a : BitVec 4) (b : BitVec 4) : Statement (.rpt n r d a b) := lt5 (by decide)
theorem join (i : BitVec 7) : Statement (.join i) := lt1 (by decide)
theorem fstat (d : BitVec 7) : Statement (.fstat d) := lt1 (by decide)
theorem fidx (d : BitVec 7) : Statement (.fidx d) := lt1 (by decide)
theorem pick (d : BitVec 7) (n : BitVec 5) (s : BitVec 12) : Statement (.pick d n s) := lt3 (by decide)
theorem mread (d : BitVec 7) (f : BitVec 5) (s : BitVec 12) : Statement (.mread d f s) := lt3 (by decide)
theorem mnote (s : BitVec 12) : Statement (.mnote s) := lt1 (by decide)
theorem wait (l : BitVec 4) (s : BitVec 4) (c : BitVec 4) (m : BitVec 4) : Statement (.wait l s c m) := lt4 (by decide)
theorem tlwait (a : BitVec 7) (b : BitVec 7) : Statement (.tlwait a b) := lt2 (by decide)
theorem tlread (d : BitVec 7) (a : BitVec 7) : Statement (.tlread d a) := lt2 (by decide)
theorem tlnext (d : BitVec 7) (a : BitVec 7) : Statement (.tlnext d a) := lt2 (by decide)
theorem arrive (d : BitVec 7) (i : BitVec 7) : Statement (.arrive d i) := lt2 (by decide)
theorem await (a : BitVec 7) (i : BitVec 7) : Statement (.await a i) := lt2 (by decide)
theorem arwt (d : BitVec 7) (i : BitVec 7) : Statement (.arwt d i) := lt2 (by decide)
theorem bstat (d : BitVec 7) (i : BitVec 7) : Statement (.bstat d i) := lt2 (by decide)
theorem send (h : BitVec 4) (a : BitVec 7) (b : BitVec 7) : Statement (.send h a b) := lt3 (by decide)
theorem rcv (d : BitVec 7) : Statement (.rcv d) := lt1 (by decide)
theorem msk (n : BitVec 7) : Statement (.msk n) := lt1 (by decide)
theorem dep (d : BitVec 7) (a : BitVec 7) (b : BitVec 7) : Statement (.dep d a b) := lt3 (by decide)
theorem arm (d : BitVec 7) : Statement (.arm d) := lt1 (by decide)
theorem probe (d : BitVec 7) : Statement (.probe d) := lt1 (by decide)
theorem mig (a : BitVec 7) : Statement (.mig a) := lt1 (by decide)
theorem migst (d : BitVec 7) (a : BitVec 7) : Statement (.migst d a) := lt2 (by decide)
theorem spawn (d : BitVec 7) (a : BitVec 7) (b : BitVec 7) : Statement (.spawn d a b) := lt3 (by decide)
theorem dec (a : BitVec 7) : Statement (.dec a) := lt1 (by decide)
theorem tself (d : BitVec 7) : Statement (.tself d) := lt1 (by decide)
theorem rtopen (d : BitVec 7) (a : BitVec 7) : Statement (.rtopen d a) := lt2 (by decide)
theorem rtsub (d : BitVec 7) (a : BitVec 7) (b : BitVec 7) : Statement (.rtsub d a b) := lt3 (by decide)
theorem rtclose (d : BitVec 7) (a : BitVec 7) : Statement (.rtclose d a) := lt2 (by decide)
theorem rtget (d : BitVec 7) (a : BitVec 7) (b : BitVec 7) : Statement (.rtget d a b) := lt3 (by decide)
theorem rtstat (d : BitVec 7) (a : BitVec 7) : Statement (.rtstat d a) := lt2 (by decide)
theorem vadd (d : BitVec 7) (a : BitVec 7) (b : BitVec 7) (w : BitVec 2) : Statement (.vadd d a b w) := lt4 (by decide)
theorem vsub (d : BitVec 7) (a : BitVec 7) (b : BitVec 7) (w : BitVec 2) : Statement (.vsub d a b w) := lt4 (by decide)
theorem vmul (d : BitVec 7) (a : BitVec 7) (b : BitVec 7) (w : BitVec 2) : Statement (.vmul d a b w) := lt4 (by decide)
theorem vmac (d : BitVec 7) (a : BitVec 7) (b : BitVec 7) (w : BitVec 2) : Statement (.vmac d a b w) := lt4 (by decide)
theorem vmin (d : BitVec 7) (a : BitVec 7) (b : BitVec 7) (w : BitVec 2) : Statement (.vmin d a b w) := lt4 (by decide)
theorem vmax (d : BitVec 7) (a : BitVec 7) (b : BitVec 7) (w : BitVec 2) : Statement (.vmax d a b w) := lt4 (by decide)
theorem vminn (d : BitVec 7) (a : BitVec 7) (b : BitVec 7) (w : BitVec 2) : Statement (.vminn d a b w) := lt4 (by decide)
theorem vmaxn (d : BitVec 7) (a : BitVec 7) (b : BitVec 7) (w : BitVec 2) : Statement (.vmaxn d a b w) := lt4 (by decide)
theorem vand (d : BitVec 7) (a : BitVec 7) (b : BitVec 7) (w : BitVec 2) : Statement (.vand d a b w) := lt4 (by decide)
theorem vor (d : BitVec 7) (a : BitVec 7) (b : BitVec 7) (w : BitVec 2) : Statement (.vor d a b w) := lt4 (by decide)
theorem vxor (d : BitVec 7) (a : BitVec 7) (b : BitVec 7) (w : BitVec 2) : Statement (.vxor d a b w) := lt4 (by decide)
theorem vandn (d : BitVec 7) (a : BitVec 7) (b : BitVec 7) (w : BitVec 2) : Statement (.vandn d a b w) := lt4 (by decide)
theorem vshl (d : BitVec 7) (a : BitVec 7) (b : BitVec 7) (w : BitVec 2) : Statement (.vshl d a b w) := lt4 (by decide)
theorem vshr (d : BitVec 7) (a : BitVec 7) (b : BitVec 7) (w : BitVec 2) : Statement (.vshr d a b w) := lt4 (by decide)
theorem vsra (d : BitVec 7) (a : BitVec 7) (b : BitVec 7) (w : BitVec 2) : Statement (.vsra d a b w) := lt4 (by decide)
theorem vpopc (d : BitVec 7) (a : BitVec 7) (w : BitVec 2) : Statement (.vpopc d a w) := lt3 (by decide)
theorem vceq (d : BitVec 3) (a : BitVec 7) (b : BitVec 7) (w : BitVec 2) : Statement (.vceq d a b w) := lt4 (by decide)
theorem vcne (d : BitVec 3) (a : BitVec 7) (b : BitVec 7) (w : BitVec 2) : Statement (.vcne d a b w) := lt4 (by decide)
theorem vclt (d : BitVec 3) (a : BitVec 7) (b : BitVec 7) (w : BitVec 2) : Statement (.vclt d a b w) := lt4 (by decide)
theorem vcge (d : BitVec 3) (a : BitVec 7) (b : BitVec 7) (w : BitVec 2) : Statement (.vcge d a b w) := lt4 (by decide)
theorem vcltn (d : BitVec 3) (a : BitVec 7) (b : BitVec 7) (w : BitVec 2) : Statement (.vcltn d a b w) := lt4 (by decide)
theorem vcgen (d : BitVec 3) (a : BitVec 7) (b : BitVec 7) (w : BitVec 2) : Statement (.vcgen d a b w) := lt4 (by decide)
theorem vfadd (d : BitVec 7) (a : BitVec 7) (b : BitVec 7) (f : BitVec 2) : Statement (.vfadd d a b f) := lt4 (by decide)
theorem vfsub (d : BitVec 7) (a : BitVec 7) (b : BitVec 7) (f : BitVec 2) : Statement (.vfsub d a b f) := lt4 (by decide)
theorem vfmul (d : BitVec 7) (a : BitVec 7) (b : BitVec 7) (f : BitVec 2) : Statement (.vfmul d a b f) := lt4 (by decide)
theorem vfma (d : BitVec 7) (a : BitVec 7) (b : BitVec 7) (f : BitVec 2) : Statement (.vfma d a b f) := lt4 (by decide)
theorem vfmin (d : BitVec 7) (a : BitVec 7) (b : BitVec 7) (f : BitVec 2) : Statement (.vfmin d a b f) := lt4 (by decide)
theorem vfmax (d : BitVec 7) (a : BitVec 7) (b : BitVec 7) (f : BitVec 2) : Statement (.vfmax d a b f) := lt4 (by decide)
theorem vfdiv (d : BitVec 7) (a : BitVec 7) (b : BitVec 7) (f : BitVec 2) : Statement (.vfdiv d a b f) := lt4 (by decide)
theorem vfsqrt (d : BitVec 7) (a : BitVec 7) (f : BitVec 2) : Statement (.vfsqrt d a f) := lt3 (by decide)
theorem vfrcp (d : BitVec 7) (a : BitVec 7) (f : BitVec 2) : Statement (.vfrcp d a f) := lt3 (by decide)
theorem vfrsq (d : BitVec 7) (a : BitVec 7) (f : BitVec 2) : Statement (.vfrsq d a f) := lt3 (by decide)
theorem vfexp2 (d : BitVec 7) (a : BitVec 7) (f : BitVec 2) : Statement (.vfexp2 d a f) := lt3 (by decide)
theorem vflog2 (d : BitVec 7) (a : BitVec 7) (f : BitVec 2) : Statement (.vflog2 d a f) := lt3 (by decide)
theorem vfabs (d : BitVec 7) (a : BitVec 7) (f : BitVec 2) : Statement (.vfabs d a f) := lt3 (by decide)
theorem vfneg (d : BitVec 7) (a : BitVec 7) (f : BitVec 2) : Statement (.vfneg d a f) := lt3 (by decide)
theorem vfclt (d : BitVec 3) (a : BitVec 7) (b : BitVec 7) (f : BitVec 2) : Statement (.vfclt d a b f) := lt4 (by decide)
theorem vfceq (d : BitVec 3) (a : BitVec 7) (b : BitVec 7) (f : BitVec 2) : Statement (.vfceq d a b f) := lt4 (by decide)
theorem cvtBf16F32 (d : BitVec 7) (a : BitVec 7) (s : BitVec 1) (r : BitVec 3) : Statement (.cvtBf16F32 d a s r) := lt4 (by decide)
theorem cvtF16F32 (d : BitVec 7) (a : BitVec 7) (s : BitVec 1) (r : BitVec 3) : Statement (.cvtF16F32 d a s r) := lt4 (by decide)
theorem cvtF32Bf16 (d : BitVec 7) (a : BitVec 7) (s : BitVec 1) (r : BitVec 3) : Statement (.cvtF32Bf16 d a s r) := lt4 (by decide)
theorem cvtF32F16 (d : BitVec 7) (a : BitVec 7) (s : BitVec 1) (r : BitVec 3) : Statement (.cvtF32F16 d a s r) := lt4 (by decide)
theorem cvtE4m3F32 (d : BitVec 7) (a : BitVec 7) (s : BitVec 1) (r : BitVec 3) : Statement (.cvtE4m3F32 d a s r) := lt4 (by decide)
theorem cvtE5m2F32 (d : BitVec 7) (a : BitVec 7) (s : BitVec 1) (r : BitVec 3) : Statement (.cvtE5m2F32 d a s r) := lt4 (by decide)
theorem cvtF32E4m3 (d : BitVec 7) (a : BitVec 7) (s : BitVec 1) (r : BitVec 3) : Statement (.cvtF32E4m3 d a s r) := lt4 (by decide)
theorem cvtF32E5m2 (d : BitVec 7) (a : BitVec 7) (s : BitVec 1) (r : BitVec 3) : Statement (.cvtF32E5m2 d a s r) := lt4 (by decide)
theorem cvtI32F32 (d : BitVec 7) (a : BitVec 7) (s : BitVec 1) (r : BitVec 3) : Statement (.cvtI32F32 d a s r) := lt4 (by decide)
theorem cvtF32I32 (d : BitVec 7) (a : BitVec 7) (s : BitVec 1) (r : BitVec 3) : Statement (.cvtF32I32 d a s r) := lt4 (by decide)
theorem cvtI8I32 (d : BitVec 7) (a : BitVec 7) (s : BitVec 1) (r : BitVec 3) : Statement (.cvtI8I32 d a s r) := lt4 (by decide)
theorem cvtI32I8 (d : BitVec 7) (a : BitVec 7) (s : BitVec 1) (r : BitVec 3) : Statement (.cvtI32I8 d a s r) := lt4 (by decide)
theorem q4pack (d : BitVec 7) (a : BitVec 7) (s : BitVec 1) (r : BitVec 3) (t : BitVec 2) : Statement (.q4pack d a s r t) := lt5 (by decide)
theorem q4unpk (d : BitVec 7) (a : BitVec 7) (s : BitVec 1) (r : BitVec 3) : Statement (.q4unpk d a s r) := lt4 (by decide)
theorem vrsum (d : BitVec 7) (a : BitVec 7) (t : BitVec 2) : Statement (.vrsum d a t) := lt3 (by decide)
theorem vrmax (d : BitVec 7) (a : BitVec 7) (t : BitVec 2) : Statement (.vrmax d a t) := lt3 (by decide)
theorem vrmin (d : BitVec 7) (a : BitVec 7) (t : BitVec 2) : Statement (.vrmin d a t) := lt3 (by decide)
theorem vrarg (d : BitVec 7) (a : BitVec 7) (t : BitVec 2) : Statement (.vrarg d a t) := lt3 (by decide)
theorem vrdot (d : BitVec 7) (a : BitVec 7) (b : BitVec 7) (t : BitVec 2) : Statement (.vrdot d a b t) := lt4 (by decide)
theorem vsplat (d : BitVec 7) (a : BitVec 7) (w : BitVec 2) : Statement (.vsplat d a w) := lt3 (by decide)
theorem vshuf (d : BitVec 7) (a : BitVec 7) (b : BitVec 7) (w : BitVec 2) : Statement (.vshuf d a b w) := lt4 (by decide)
theorem vslup (d : BitVec 7) (a : BitVec 7) (b : BitVec 7) (w : BitVec 2) : Statement (.vslup d a b w) := lt4 (by decide)
theorem vsldn (d : BitVec 7) (a : BitVec 7) (b : BitVec 7) (w : BitVec 2) : Statement (.vsldn d a b w) := lt4 (by decide)
theorem vcomp (d : BitVec 7) (a : BitVec 7) (w : BitVec 2) : Statement (.vcomp d a w) := lt3 (by decide)
theorem vexpd (d : BitVec 7) (a : BitVec 7) (w : BitVec 2) : Statement (.vexpd d a w) := lt3 (by decide)
theorem vzip (d : BitVec 7) (a : BitVec 7) (b : BitVec 7) (w : BitVec 2) : Statement (.vzip d a b w) := lt4 (by decide)
theorem vunzip (d : BitVec 7) (a : BitVec 7) (b : BitVec 7) (w : BitVec 2) : Statement (.vunzip d a b w) := lt4 (by decide)
theorem ixdot (d : BitVec 7) (a : BitVec 7) (b : BitVec 7) : Statement (.ixdot d a b) := lt3 (by decide)
theorem bmpfx (d : BitVec 7) (a : BitVec 7) : Statement (.bmpfx d a) := lt2 (by decide)
theorem ixcnt (d : BitVec 7) (a : BitVec 7) (b : BitVec 7) : Statement (.ixcnt d a b) := lt3 (by decide)
theorem vtopk (d : BitVec 7) (a : BitVec 7) (b : BitVec 7) : Statement (.vtopk d a b) := lt3 (by decide)
theorem vsort (d : BitVec 7) (a : BitVec 7) : Statement (.vsort d a) := lt2 (by decide)
theorem vmrg (d : BitVec 7) (a : BitVec 7) (b : BitVec 7) : Statement (.vmrg d a b) := lt3 (by decide)
theorem ld (d : BitVec 7) (a : BitVec 7) (s : BitVec 3) (i : BitVec 9) : Statement (.ld d a s i) := lt4 (by decide)
theorem st (d : BitVec 7) (a : BitVec 7) (s : BitVec 3) (i : BitVec 9) : Statement (.st d a s i) := lt4 (by decide)
theorem vld (d : BitVec 7) (a : BitVec 7) (i : BitVec 9) : Statement (.vld d a i) := lt3 (by decide)
theorem vst (d : BitVec 7) (a : BitVec 7) (i : BitVec 9) : Statement (.vst d a i) := lt3 (by decide)
theorem ldx (d : BitVec 7) (a : BitVec 7) (b : BitVec 7) (s : BitVec 3) (x : BitVec 2) : Statement (.ldx d a b s x) := lt5 (by decide)
theorem stx (d : BitVec 7) (a : BitVec 7) (b : BitVec 7) (s : BitVec 3) (x : BitVec 2) : Statement (.stx d a b s x) := lt5 (by decide)
theorem atomSwap (d : BitVec 7) (a : BitVec 7) (b : BitVec 7) (w : BitVec 1) : Statement (.atomSwap d a b w) := lt4 (by decide)
theorem atomAdd (d : BitVec 7) (a : BitVec 7) (b : BitVec 7) (w : BitVec 1) : Statement (.atomAdd d a b w) := lt4 (by decide)
theorem atomAnd (d : BitVec 7) (a : BitVec 7) (b : BitVec 7) (w : BitVec 1) : Statement (.atomAnd d a b w) := lt4 (by decide)
theorem atomOr (d : BitVec 7) (a : BitVec 7) (b : BitVec 7) (w : BitVec 1) : Statement (.atomOr d a b w) := lt4 (by decide)
theorem atomXor (d : BitVec 7) (a : BitVec 7) (b : BitVec 7) (w : BitVec 1) : Statement (.atomXor d a b w) := lt4 (by decide)
theorem atomMin (d : BitVec 7) (a : BitVec 7) (b : BitVec 7) (w : BitVec 1) : Statement (.atomMin d a b w) := lt4 (by decide)
theorem atomMax (d : BitVec 7) (a : BitVec 7) (b : BitVec 7) (w : BitVec 1) : Statement (.atomMax d a b w) := lt4 (by decide)
theorem atomMinn (d : BitVec 7) (a : BitVec 7) (b : BitVec 7) (w : BitVec 1) : Statement (.atomMinn d a b w) := lt4 (by decide)
theorem atomMaxn (d : BitVec 7) (a : BitVec 7) (b : BitVec 7) (w : BitVec 1) : Statement (.atomMaxn d a b w) := lt4 (by decide)
theorem atomCas (d : BitVec 7) (a : BitVec 7) (b : BitVec 7) (w : BitVec 1) : Statement (.atomCas d a b w) := lt4 (by decide)
theorem atomFaddF32 (d : BitVec 7) (a : BitVec 7) (b : BitVec 7) : Statement (.atomFaddF32 d a b) := lt3 (by decide)
theorem atomFaddBf16 (d : BitVec 7) (a : BitVec 7) (b : BitVec 7) : Statement (.atomFaddBf16 d a b) := lt3 (by decide)
theorem atomoSwap (d : BitVec 7) (a : BitVec 7) (b : BitVec 7) (w : BitVec 1) : Statement (.atomoSwap d a b w) := lt4 (by decide)
theorem atomoAdd (d : BitVec 7) (a : BitVec 7) (b : BitVec 7) (w : BitVec 1) : Statement (.atomoAdd d a b w) := lt4 (by decide)
theorem atomoAnd (d : BitVec 7) (a : BitVec 7) (b : BitVec 7) (w : BitVec 1) : Statement (.atomoAnd d a b w) := lt4 (by decide)
theorem atomoOr (d : BitVec 7) (a : BitVec 7) (b : BitVec 7) (w : BitVec 1) : Statement (.atomoOr d a b w) := lt4 (by decide)
theorem atomoXor (d : BitVec 7) (a : BitVec 7) (b : BitVec 7) (w : BitVec 1) : Statement (.atomoXor d a b w) := lt4 (by decide)
theorem atomoMin (d : BitVec 7) (a : BitVec 7) (b : BitVec 7) (w : BitVec 1) : Statement (.atomoMin d a b w) := lt4 (by decide)
theorem atomoMax (d : BitVec 7) (a : BitVec 7) (b : BitVec 7) (w : BitVec 1) : Statement (.atomoMax d a b w) := lt4 (by decide)
theorem atomoMinn (d : BitVec 7) (a : BitVec 7) (b : BitVec 7) (w : BitVec 1) : Statement (.atomoMinn d a b w) := lt4 (by decide)
theorem atomoMaxn (d : BitVec 7) (a : BitVec 7) (b : BitVec 7) (w : BitVec 1) : Statement (.atomoMaxn d a b w) := lt4 (by decide)
theorem atomoCas (d : BitVec 7) (a : BitVec 7) (b : BitVec 7) (w : BitVec 1) : Statement (.atomoCas d a b w) := lt4 (by decide)
theorem atomoFaddF32 (d : BitVec 7) (a : BitVec 7) (b : BitVec 7) : Statement (.atomoFaddF32 d a b) := lt3 (by decide)
theorem atomoFaddBf16 (d : BitVec 7) (a : BitVec 7) (b : BitVec 7) : Statement (.atomoFaddBf16 d a b) := lt3 (by decide)
theorem lda (d : BitVec 7) (a : BitVec 7) (s : BitVec 3) (c : BitVec 3) (i : BitVec 6) : Statement (.lda d a s c i) := lt5 (by decide)
theorem stl (d : BitVec 7) (a : BitVec 7) (s : BitVec 3) (c : BitVec 3) (i : BitVec 6) : Statement (.stl d a s c i) := lt5 (by decide)
theorem fenceAcq (c : BitVec 3) : Statement (.fenceAcq c) := lt1 (by decide)
theorem fenceRel (c : BitVec 3) : Statement (.fenceRel c) := lt1 (by decide)
theorem fenceFull (c : BitVec 3) : Statement (.fenceFull c) := lt1 (by decide)
theorem fenceWb (c : BitVec 3) : Statement (.fenceWb c) := lt1 (by decide)
theorem sld (d : BitVec 7) (a : BitVec 7) (g : BitVec 4) : Statement (.sld d a g) := lt3 (by decide)
theorem sst (d : BitVec 7) (a : BitVec 7) (g : BitVec 4) : Statement (.sst d a g) := lt3 (by decide)
theorem sadd (d : BitVec 7) (a : BitVec 7) (g : BitVec 4) : Statement (.sadd d a g) := lt3 (by decide)
theorem scan (d : BitVec 7) (a : BitVec 7) (n : BitVec 2) (g : BitVec 4) : Statement (.scan d a n g) := lt4 (by decide)
theorem scnt (d : BitVec 7) (g : BitVec 4) : Statement (.scnt d g) := lt2 (by decide)
theorem pref (a : BitVec 7) (i : BitVec 9) : Statement (.pref a i) := lt2 (by decide)
theorem prefl2 (a : BitVec 7) (i : BitVec 9) : Statement (.prefl2 a i) := lt2 (by decide)
theorem l1inv (a : BitVec 7) (i : BitVec 9) : Statement (.l1inv a i) := lt2 (by decide)
theorem zline (a : BitVec 7) (i : BitVec 9) : Statement (.zline a i) := lt2 (by decide)
theorem cpld (a : BitVec 7) (b : BitVec 7) : Statement (.cpld a b) := lt2 (by decide)
theorem cpst (a : BitVec 7) (b : BitVec 7) : Statement (.cpst a b) := lt2 (by decide)
theorem cpadd (a : BitVec 7) (b : BitVec 7) (c : BitVec 7) : Statement (.cpadd a b c) := lt3 (by decide)
theorem cpgat (a : BitVec 7) (b : BitVec 7) (c : BitVec 7) : Statement (.cpgat a b c) := lt3 (by decide)
theorem cpsca (a : BitVec 7) (b : BitVec 7) (c : BitVec 7) : Statement (.cpsca a b c) := lt3 (by decide)
theorem kvld (a : BitVec 7) (b : BitVec 7) : Statement (.kvld a b) := lt2 (by decide)
theorem dens (a : BitVec 7) (b : BitVec 7) (c : BitVec 7) : Statement (.dens a b c) := lt3 (by decide)
theorem cpfill (a : BitVec 7) (b : BitVec 7) : Statement (.cpfill a b) := lt2 (by decide)
theorem cpcopy (a : BitVec 7) (b : BitVec 7) (c : BitVec 7) : Statement (.cpcopy a b c) := lt3 (by decide)
theorem mma (a : BitVec 7) (b : BitVec 7) (c : BitVec 7) : Statement (.mma a b c) := lt3 (by decide)
theorem smma (a : BitVec 7) (b : BitVec 7) (c : BitVec 7) : Statement (.smma a b c) := lt3 (by decide)
theorem mzero (a : BitVec 7) : Statement (.mzero a) := lt1 (by decide)
theorem mdrain (a : BitVec 7) (c : BitVec 7) : Statement (.mdrain a c) := lt2 (by decide)
theorem rcfg (a : BitVec 7) (b : BitVec 7) : Statement (.rcfg a b) := lt2 (by decide)
theorem rpush (a : BitVec 7) (b : BitVec 7) (c : BitVec 7) : Statement (.rpush a b c) := lt3 (by decide)
theorem rpop (a : BitVec 7) (b : BitVec 7) (c : BitVec 7) : Statement (.rpop a b c) := lt3 (by decide)
theorem shdef (a : BitVec 7) (b : BitVec 7) : Statement (.shdef a b) := lt2 (by decide)
theorem shret (b : BitVec 7) : Statement (.shret b) := lt1 (by decide)
theorem shget (a : BitVec 7) (b : BitVec 7) : Statement (.shget a b) := lt2 (by decide)
theorem blkmap (a : BitVec 7) (b : BitVec 7) (c : BitVec 7) : Statement (.blkmap a b c) := lt3 (by decide)
theorem blkref (a : BitVec 7) (b : BitVec 7) (c : BitVec 7) : Statement (.blkref a b c) := lt3 (by decide)
theorem blkfree (a : BitVec 7) (b : BitVec 7) : Statement (.blkfree a b) := lt2 (by decide)
theorem blkmig (a : BitVec 7) (b : BitVec 7) (c : BitVec 7) : Statement (.blkmig a b c) := lt3 (by decide)
theorem blkst (a : BitVec 7) (b : BitVec 7) : Statement (.blkst a b) := lt2 (by decide)
theorem tlbinv (b : BitVec 7) (c : BitVec 7) : Statement (.tlbinv b c) := lt2 (by decide)
theorem impset (b : BitVec 7) (c : BitVec 7) : Statement (.impset b c) := lt2 (by decide)
theorem bcfg (a : BitVec 7) (b : BitVec 7) (c : BitVec 7) : Statement (.bcfg a b c) := lt3 (by decide)
theorem ptset (d : BitVec 7) (a : BitVec 7) (b : BitVec 7) : Statement (.ptset d a b) := lt3 (by decide)
theorem keyld (d : BitVec 7) (a : BitVec 7) (b : BitVec 7) : Statement (.keyld d a b) := lt3 (by decide)
theorem qsce (d : BitVec 7) (a : BitVec 7) : Statement (.qsce d a) := lt2 (by decide)
theorem impw (a : BitVec 7) (b : BitVec 7) : Statement (.impw a b) := lt2 (by decide)
theorem tstop (a : BitVec 7) (b : BitVec 7) : Statement (.tstop a b) := lt2 (by decide)
theorem tresume (a : BitVec 7) : Statement (.tresume a) := lt1 (by decide)
theorem nop : Statement (.nop) := lt0 0x00000000 rfl (by decide)
theorem halt : Statement (.halt) := lt0 0x00000001 rfl (by decide)
theorem brk : Statement (.brk) := lt0 0x00000003 rfl (by decide)
theorem yield : Statement (.yield) := lt0 0x00000004 rfl (by decide)
theorem wfm : Statement (.wfm) := lt0 0x00000005 rfl (by decide)
theorem ret : Statement (.ret) := lt0 0x4C000002 rfl (by decide)
theorem detach : Statement (.detach) := lt0 0x58000000 rfl (by decide)
theorem rti : Statement (.rti) := lt0 0x6C000003 rfl (by decide)
theorem migret : Statement (.migret) := lt0 0x70000001 rfl (by decide)
theorem tdone : Statement (.tdone) := lt0 0x74000002 rfl (by decide)
theorem sysret : Statement (.sysret) := lt0 0xFC000002 rfl (by decide)
theorem dump : Statement (.dump) := lt0 0xFC000003 rfl (by decide)
theorem uresmWrite (sup : Nat) : Statement (.uresmWrite sup) := lt0 0 rfl (by decide)
theorem coreclkWrite (core : Nat) (v : BitVec 64) : Statement (.coreclkWrite core v) := lt0 0 rfl (by decide)
theorem evselWrite (tid : Nat) (n : Nat) (v : BitVec 64) : Statement (.evselWrite tid n v) := lt0 0 rfl (by decide)
theorem wdogWrite (core : Nat) (v : BitVec 64) : Statement (.wdogWrite core v) := lt0 0 rfl (by decide)
theorem lpcWrite (tid : Nat) (lvl : Bool) (v : BitVec 64) : Statement (.lpcWrite tid lvl v) := lt0 0 rfl (by decide)
theorem launch (sess : Nat) (msg : BitVec 1152) : Statement (.launch sess msg) := lt0 0 rfl (by decide)
theorem regionOpen (sess : Nat) (hdr : BitVec 128) (body : BitVec 256) : Statement (.regionOpen sess hdr body) := lt0 0 rfl (by decide)
theorem regionClose (sess : Nat) (hdr : BitVec 128) (body : BitVec 64) : Statement (.regionClose sess hdr body) := lt0 0 rfl (by decide)
theorem regionCloseEffect (g : Nat) : Statement (.regionCloseEffect g) := lt0 0 rfl (by decide)
theorem hostnote (sess : Nat) (hdr : BitVec 128) (body : BitVec 192) : Statement (.hostnote sess hdr body) := lt0 0 rfl (by decide)
theorem blocksAdd (sess : Nat) (hdr : BitVec 128) (head : BitVec 64) (blocks : List (BitVec 32)) : Statement (.blocksAdd sess hdr head blocks) := lt0 0 rfl (by decide)
theorem checkpoint (tag : BitVec 64) (live : Bool) (targets : List Nat) : Statement (.checkpoint tag live targets) := lt0 0 rfl (by decide)
theorem checkpointReply : Statement (.checkpointReply) := lt0 0 rfl (by decide)
theorem attestationReport (nonce : BitVec 256) : Statement (.attestationReport nonce) := lt0 0 rfl (by decide)
theorem exportCfg (x : Nat) (valid : Bool) (remote : Nat) (tenant : Nat) (base : Nat) (units : Nat) (perm : BitVec 3) (key : Nat) : Statement (.exportCfg x valid remote tenant base units perm key) := lt0 0 rfl (by decide)
theorem peerWindow (p : Nat) (valid : Bool) (tenant : Nat) (dest : Nat) (remote : RemoteExport) : Statement (.peerWindow p valid tenant dest remote) := lt0 0 rfl (by decide)
theorem tenantTableChange (tenant : Nat) (entry : BitVec 512) : Statement (.tenantTableChange tenant entry) := lt0 0 rfl (by decide)
theorem proofingClear (die : Nat) (tenant : Option Nat) : Statement (.proofingClear die tenant) := lt0 0 rfl (by decide)
theorem exportAccess (x : Nat) (remote : Nat) (off : Nat) (op : Nat) (size : Nat) (data : BitVec 512) : Statement (.exportAccess x remote off op size data) := lt0 0 rfl (by decide)
theorem peerPlacement (id : Nat) : Statement (.peerPlacement id) := lt0 0 rfl (by decide)
theorem powerOn (image : Nat) (imageOk : Bool) (record : DeviceRecord) (recordOk : Bool) : Statement (.powerOn image imageOk record recordOk) := lt0 0 rfl (by decide)
theorem deviceReset : Statement (.deviceReset) := lt0 0 rfl (by decide)
theorem powerCeiling : Statement (.powerCeiling) := lt0 0 rfl (by decide)
theorem thermalTrip (die : Nat) (row : Nat) : Statement (.thermalTrip die row) := lt0 0 rfl (by decide)
theorem sensorUntrusted (die : Nat) (row : Nat) (reading : SensorReading) : Statement (.sensorUntrusted die row reading) := lt0 0 rfl (by decide)
theorem sensorTrusted (die : Nat) (row : Nat) (reading : SensorReading) : Statement (.sensorTrusted die row reading) := lt0 0 rfl (by decide)
theorem voltageStep (die : Nat) (row : Nat) (step : Nat) : Statement (.voltageStep die row step) := lt0 0 rfl (by decide)
theorem clockHop (die : Nat) (row : Nat) (step : Nat) : Statement (.clockHop die row step) := lt0 0 rfl (by decide)
theorem droop (die : Nat) (row : Nat) (fires : Bool) : Statement (.droop die row fires) := lt0 0 rfl (by decide)
theorem powerBubble (core : Nat) (p : Nat) (set : Bool) : Statement (.powerBubble core p set) := lt0 0 rfl (by decide)
theorem launchSelect : Statement (.launchSelect) := lt0 0 rfl (by decide)
theorem placement : Statement (.placement) := lt0 0 rfl (by decide)
theorem formeCreation (core : Nat) (launch : Nat) : Statement (.formeCreation core launch) := lt0 0 rfl (by decide)
theorem terminationSweep (launch : Nat) : Statement (.terminationSweep launch) := lt0 0 rfl (by decide)
theorem preEmption (forme : Nat) : Statement (.preEmption forme) := lt0 0 rfl (by decide)
theorem restore (forme : Nat) : Statement (.restore forme) := lt0 0 rfl (by decide)
theorem bankClaim (tid : Nat) (second : Bool) : Statement (.bankClaim tid second) := lt0 0 rfl (by decide)
theorem messageArrival (id : Nat) : Statement (.messageArrival id) := lt0 0 rfl (by decide)
theorem mailboxOverflow (tid : Nat) : Statement (.mailboxOverflow tid) := lt0 0 rfl (by decide)
theorem handlerEntry (tid : Nat) : Statement (.handlerEntry tid) := lt0 0 rfl (by decide)
theorem depositArrival (id : Nat) : Statement (.depositArrival id) := lt0 0 rfl (by decide)
theorem decrement (id : Nat) : Statement (.decrement id) := lt0 0 rfl (by decide)
theorem guestAdmission (core : Nat) : Statement (.guestAdmission core) := lt0 0 rfl (by decide)
theorem copyCommandStart (core : Nat) : Statement (.copyCommandStart core) := lt0 0 rfl (by decide)
theorem copyCommandComplete (core : Nat) (id : Nat) : Statement (.copyCommandComplete core id) := lt0 0 rfl (by decide)
theorem engineFailed (core : Nat) (id : Nat) (cause : Nat) : Statement (.engineFailed core id cause) := lt0 0 rfl (by decide)
theorem tileGrant (cluster : Nat) : Statement (.tileGrant cluster) := lt0 0 rfl (by decide)
theorem tileRetirement (core : Nat) (id : Nat) : Statement (.tileRetirement core id) := lt0 0 rfl (by decide)
theorem drainTurn (core : Nat) (id : Nat) : Statement (.drainTurn core id) := lt0 0 rfl (by decide)
theorem drainComplete (core : Nat) (id : Nat) : Statement (.drainComplete core id) := lt0 0 rfl (by decide)
theorem orderedEntryCompletion (die : Nat) (launch : Nat) (addr : Nat) : Statement (.orderedEntryCompletion die launch addr) := lt0 0 rfl (by decide)
theorem take (die : Nat) : Statement (.take die) := lt0 0 rfl (by decide)
theorem remap (die : Nat) (id : Nat) : Statement (.remap die id) := lt0 0 rfl (by decide)
theorem release (die : Nat) (id : Nat) : Statement (.release die id) := lt0 0 rfl (by decide)
theorem blockReturn (block : Nat) : Statement (.blockReturn block) := lt0 0 rfl (by decide)
theorem blockBusy (tid : Nat) : Statement (.blockBusy tid) := lt0 0 rfl (by decide)
theorem notificationRecord (tenant : Nat) : Statement (.notificationRecord tenant) := lt0 0 rfl (by decide)
theorem routingAdmission (b : Nat) : Statement (.routingAdmission b) := lt0 0 rfl (by decide)
theorem regionPoint (core : Nat) (id : Nat) : Statement (.regionPoint core id) := lt0 0 rfl (by decide)
theorem loadDataReturn (tid : Nat) (id : Nat) : Statement (.loadDataReturn tid id) := lt0 0 rfl (by decide)
theorem storeAcknowledgement (id : Nat) : Statement (.storeAcknowledgement id) := lt0 0 rfl (by decide)
theorem invalidationComplete (id : Nat) : Statement (.invalidationComplete id) := lt0 0 rfl (by decide)
theorem dirtyLogMerge (core : Nat) : Statement (.dirtyLogMerge core) := lt0 0 rfl (by decide)
theorem marginRecord (id : Nat) : Statement (.marginRecord id) := lt0 0 rfl (by decide)
theorem upcallRun (core : Nat) (tenant : Nat) : Statement (.upcallRun core tenant) := lt0 0 rfl (by decide)
theorem machineEntry (core : Nat) : Statement (.machineEntry core) := lt0 0 rfl (by decide)
theorem breakpoint (tid : Nat) : Statement (.breakpoint tid) := lt0 0 rfl (by decide)
theorem fatalError (core : Nat) (slot : Nat) (cause : Nat) : Statement (.fatalError core slot cause) := lt0 0 rfl (by decide)
theorem watchdog (tid : Nat) : Statement (.watchdog tid) := lt0 0 rfl (by decide)
theorem yieldExpiry (tid : Nat) : Statement (.yieldExpiry tid) := lt0 0 rfl (by decide)
theorem maskBoundExpiry (tid : Nat) : Statement (.maskBoundExpiry tid) := lt0 0 rfl (by decide)
theorem stateChangePass (core : Nat) : Statement (.stateChangePass core) := lt0 0 rfl (by decide)
theorem logDrain (core : Nat) : Statement (.logDrain core) := lt0 0 rfl (by decide)
theorem proofingSample (core : Nat) : Statement (.proofingSample core) := lt0 0 rfl (by decide)
theorem barrelIssue (core : Nat) : Statement (.barrelIssue core) := lt0 0 rfl (by decide)
theorem reservedWord (x : Option (BitVec 26)) (w : BitVec 32) : Statement (.reservedWord x w) := lt0 0 rfl (by decide)
theorem translationWalk (id : Nat) : Statement (.translationWalk id) := lt0 0 rfl (by decide)
theorem rdcInvalidation (die : Nat) (line : Nat) : Statement (.rdcInvalidation die line) := lt0 0 rfl (by decide)
theorem frameZeroed (line : Nat) : Statement (.frameZeroed line) := lt0 0 rfl (by decide)
theorem migretArrival (id : Nat) : Statement (.migretArrival id) := lt0 0 rfl (by decide)
theorem uncorrectableError (line : Nat) : Statement (.uncorrectableError line) := lt0 0 rfl (by decide)
theorem powerCeilingLifted : Statement (.powerCeilingLifted) := lt0 0 rfl (by decide)
theorem powerOff : Statement (.powerOff) := lt0 0 rfl (by decide)
theorem recoveryImage (image : Signed Nat) (record : Signed DeviceRecord) : Statement (.recoveryImage image record) := lt0 0 rfl (by decide)
theorem sessionSetup (sess : Nat) (remote : Nat) (endpoint : Nat) (tenants : List Nat) (offer : Offer) : Statement (.sessionSetup sess remote endpoint tenants offer) := lt0 0 rfl (by decide)
theorem checkpointResume : Statement (.checkpointResume) := lt0 0 rfl (by decide)
theorem dieEventCounterWrite (die : Nat) (n : Nat) (sel : BitVec 16) (v : BitVec 64) : Statement (.dieEventCounterWrite die n sel v) := lt0 0 rfl (by decide)
theorem proofingSettings (n : Nat) (shift : Nat) : Statement (.proofingSettings n shift) := lt0 0 rfl (by decide)

end Sys2Proof.Laws.Bounded
end

