-- ==== Sys2Proof/Laws/State.lean ====
section
/-! SUPPORT. Sys2Proof/Laws/State.lean: what each update of the state and of a thread leaves as it is, field by field. -/

namespace Sys2Proof.Machine

set_option Elab.async false

/-! ### Updates of the device -/

@[simp] theorem State.modCore_sched (s : State) (c : Nat) (f : Core → Core) : (s.modCore c f).sched = s.sched := rfl
@[simp] theorem State.modCore_threads (s : State) (c : Nat) (f : Core → Core) : (s.modCore c f).threads = s.threads := rfl
@[simp] theorem State.modCore_saved (s : State) (c : Nat) (f : Core → Core) : (s.modCore c f).saved = s.saved := rfl
@[simp] theorem State.modCore_clusters (s : State) (c : Nat) (f : Core → Core) : (s.modCore c f).clusters = s.clusters := rfl
@[simp] theorem State.modCore_dies (s : State) (c : Nat) (f : Core → Core) : (s.modCore c f).dies = s.dies := rfl
@[simp] theorem State.modCore_mem (s : State) (c : Nat) (f : Core → Core) : (s.modCore c f).mem = s.mem := rfl
@[simp] theorem State.modCore_chan (s : State) (c : Nat) (f : Core → Core) : (s.modCore c f).chan = s.chan := rfl
@[simp] theorem State.modCore_tables (s : State) (c : Nat) (f : Core → Core) : (s.modCore c f).tables = s.tables := rfl
@[simp] theorem State.modCore_flight (s : State) (c : Nat) (f : Core → Core) : (s.modCore c f).flight = s.flight := rfl
@[simp] theorem State.modCore_work (s : State) (c : Nat) (f : Core → Core) : (s.modCore c f).work = s.work := rfl
@[simp] theorem State.modCore_regions (s : State) (c : Nat) (f : Core → Core) : (s.modCore c f).regions = s.regions := rfl
@[simp] theorem State.modCore_host (s : State) (c : Nat) (f : Core → Core) : (s.modCore c f).host = s.host := rfl
@[simp] theorem State.modCore_power (s : State) (c : Nat) (f : Core → Core) : (s.modCore c f).power = s.power := rfl
@[simp] theorem State.modCluster_sched (s : State) (c : Nat) (f : Cluster → Cluster) : (s.modCluster c f).sched = s.sched := rfl
@[simp] theorem State.modCluster_threads (s : State) (c : Nat) (f : Cluster → Cluster) : (s.modCluster c f).threads = s.threads := rfl
@[simp] theorem State.modCluster_saved (s : State) (c : Nat) (f : Cluster → Cluster) : (s.modCluster c f).saved = s.saved := rfl
@[simp] theorem State.modCluster_cores (s : State) (c : Nat) (f : Cluster → Cluster) : (s.modCluster c f).cores = s.cores := rfl
@[simp] theorem State.modCluster_dies (s : State) (c : Nat) (f : Cluster → Cluster) : (s.modCluster c f).dies = s.dies := rfl
@[simp] theorem State.modCluster_mem (s : State) (c : Nat) (f : Cluster → Cluster) : (s.modCluster c f).mem = s.mem := rfl
@[simp] theorem State.modCluster_chan (s : State) (c : Nat) (f : Cluster → Cluster) : (s.modCluster c f).chan = s.chan := rfl
@[simp] theorem State.modCluster_tables (s : State) (c : Nat) (f : Cluster → Cluster) : (s.modCluster c f).tables = s.tables := rfl
@[simp] theorem State.modCluster_flight (s : State) (c : Nat) (f : Cluster → Cluster) : (s.modCluster c f).flight = s.flight := rfl
@[simp] theorem State.modCluster_work (s : State) (c : Nat) (f : Cluster → Cluster) : (s.modCluster c f).work = s.work := rfl
@[simp] theorem State.modCluster_regions (s : State) (c : Nat) (f : Cluster → Cluster) : (s.modCluster c f).regions = s.regions := rfl
@[simp] theorem State.modCluster_host (s : State) (c : Nat) (f : Cluster → Cluster) : (s.modCluster c f).host = s.host := rfl
@[simp] theorem State.modCluster_power (s : State) (c : Nat) (f : Cluster → Cluster) : (s.modCluster c f).power = s.power := rfl
@[simp] theorem State.modDie_sched (s : State) (c : Nat) (f : Die → Die) : (s.modDie c f).sched = s.sched := rfl
@[simp] theorem State.modDie_threads (s : State) (c : Nat) (f : Die → Die) : (s.modDie c f).threads = s.threads := rfl
@[simp] theorem State.modDie_saved (s : State) (c : Nat) (f : Die → Die) : (s.modDie c f).saved = s.saved := rfl
@[simp] theorem State.modDie_cores (s : State) (c : Nat) (f : Die → Die) : (s.modDie c f).cores = s.cores := rfl
@[simp] theorem State.modDie_clusters (s : State) (c : Nat) (f : Die → Die) : (s.modDie c f).clusters = s.clusters := rfl
@[simp] theorem State.modDie_mem (s : State) (c : Nat) (f : Die → Die) : (s.modDie c f).mem = s.mem := rfl
@[simp] theorem State.modDie_chan (s : State) (c : Nat) (f : Die → Die) : (s.modDie c f).chan = s.chan := rfl
@[simp] theorem State.modDie_tables (s : State) (c : Nat) (f : Die → Die) : (s.modDie c f).tables = s.tables := rfl
@[simp] theorem State.modDie_flight (s : State) (c : Nat) (f : Die → Die) : (s.modDie c f).flight = s.flight := rfl
@[simp] theorem State.modDie_work (s : State) (c : Nat) (f : Die → Die) : (s.modDie c f).work = s.work := rfl
@[simp] theorem State.modDie_regions (s : State) (c : Nat) (f : Die → Die) : (s.modDie c f).regions = s.regions := rfl
@[simp] theorem State.modDie_host (s : State) (c : Nat) (f : Die → Die) : (s.modDie c f).host = s.host := rfl
@[simp] theorem State.modDie_power (s : State) (c : Nat) (f : Die → Die) : (s.modDie c f).power = s.power := rfl
@[simp] theorem State.modRow_sched (s : State) (c : Nat) (f : Row → Row) : (s.modRow c f).sched = s.sched := rfl
@[simp] theorem State.modRow_threads (s : State) (c : Nat) (f : Row → Row) : (s.modRow c f).threads = s.threads := rfl
@[simp] theorem State.modRow_saved (s : State) (c : Nat) (f : Row → Row) : (s.modRow c f).saved = s.saved := rfl
@[simp] theorem State.modRow_cores (s : State) (c : Nat) (f : Row → Row) : (s.modRow c f).cores = s.cores := rfl
@[simp] theorem State.modRow_clusters (s : State) (c : Nat) (f : Row → Row) : (s.modRow c f).clusters = s.clusters := rfl
@[simp] theorem State.modRow_dies (s : State) (c : Nat) (f : Row → Row) : (s.modRow c f).dies = s.dies := rfl
@[simp] theorem State.modRow_mem (s : State) (c : Nat) (f : Row → Row) : (s.modRow c f).mem = s.mem := rfl
@[simp] theorem State.modRow_chan (s : State) (c : Nat) (f : Row → Row) : (s.modRow c f).chan = s.chan := rfl
@[simp] theorem State.modRow_tables (s : State) (c : Nat) (f : Row → Row) : (s.modRow c f).tables = s.tables := rfl
@[simp] theorem State.modRow_flight (s : State) (c : Nat) (f : Row → Row) : (s.modRow c f).flight = s.flight := rfl
@[simp] theorem State.modRow_work (s : State) (c : Nat) (f : Row → Row) : (s.modRow c f).work = s.work := rfl
@[simp] theorem State.modRow_regions (s : State) (c : Nat) (f : Row → Row) : (s.modRow c f).regions = s.regions := rfl
@[simp] theorem State.modRow_host (s : State) (c : Nat) (f : Row → Row) : (s.modRow c f).host = s.host := rfl
@[simp] theorem State.modTables_sched (s : State) (f : Tables → Tables) : (s.modTables f).sched = s.sched := rfl
@[simp] theorem State.modTables_threads (s : State) (f : Tables → Tables) : (s.modTables f).threads = s.threads := rfl
@[simp] theorem State.modTables_saved (s : State) (f : Tables → Tables) : (s.modTables f).saved = s.saved := rfl
@[simp] theorem State.modTables_cores (s : State) (f : Tables → Tables) : (s.modTables f).cores = s.cores := rfl
@[simp] theorem State.modTables_clusters (s : State) (f : Tables → Tables) : (s.modTables f).clusters = s.clusters := rfl
@[simp] theorem State.modTables_dies (s : State) (f : Tables → Tables) : (s.modTables f).dies = s.dies := rfl
@[simp] theorem State.modTables_mem (s : State) (f : Tables → Tables) : (s.modTables f).mem = s.mem := rfl
@[simp] theorem State.modTables_chan (s : State) (f : Tables → Tables) : (s.modTables f).chan = s.chan := rfl
@[simp] theorem State.modTables_flight (s : State) (f : Tables → Tables) : (s.modTables f).flight = s.flight := rfl
@[simp] theorem State.modTables_work (s : State) (f : Tables → Tables) : (s.modTables f).work = s.work := rfl
@[simp] theorem State.modTables_regions (s : State) (f : Tables → Tables) : (s.modTables f).regions = s.regions := rfl
@[simp] theorem State.modTables_host (s : State) (f : Tables → Tables) : (s.modTables f).host = s.host := rfl
@[simp] theorem State.modTables_power (s : State) (f : Tables → Tables) : (s.modTables f).power = s.power := rfl
@[simp] theorem State.modFlight_sched (s : State) (f : Flight → Flight) : (s.modFlight f).sched = s.sched := rfl
@[simp] theorem State.modFlight_threads (s : State) (f : Flight → Flight) : (s.modFlight f).threads = s.threads := rfl
@[simp] theorem State.modFlight_saved (s : State) (f : Flight → Flight) : (s.modFlight f).saved = s.saved := rfl
@[simp] theorem State.modFlight_cores (s : State) (f : Flight → Flight) : (s.modFlight f).cores = s.cores := rfl
@[simp] theorem State.modFlight_clusters (s : State) (f : Flight → Flight) : (s.modFlight f).clusters = s.clusters := rfl
@[simp] theorem State.modFlight_dies (s : State) (f : Flight → Flight) : (s.modFlight f).dies = s.dies := rfl
@[simp] theorem State.modFlight_mem (s : State) (f : Flight → Flight) : (s.modFlight f).mem = s.mem := rfl
@[simp] theorem State.modFlight_chan (s : State) (f : Flight → Flight) : (s.modFlight f).chan = s.chan := rfl
@[simp] theorem State.modFlight_tables (s : State) (f : Flight → Flight) : (s.modFlight f).tables = s.tables := rfl
@[simp] theorem State.modFlight_work (s : State) (f : Flight → Flight) : (s.modFlight f).work = s.work := rfl
@[simp] theorem State.modFlight_regions (s : State) (f : Flight → Flight) : (s.modFlight f).regions = s.regions := rfl
@[simp] theorem State.modFlight_host (s : State) (f : Flight → Flight) : (s.modFlight f).host = s.host := rfl
@[simp] theorem State.modFlight_power (s : State) (f : Flight → Flight) : (s.modFlight f).power = s.power := rfl
@[simp] theorem State.modWork_sched (s : State) (f : Work → Work) : (s.modWork f).sched = s.sched := rfl
@[simp] theorem State.modWork_threads (s : State) (f : Work → Work) : (s.modWork f).threads = s.threads := rfl
@[simp] theorem State.modWork_saved (s : State) (f : Work → Work) : (s.modWork f).saved = s.saved := rfl
@[simp] theorem State.modWork_cores (s : State) (f : Work → Work) : (s.modWork f).cores = s.cores := rfl
@[simp] theorem State.modWork_clusters (s : State) (f : Work → Work) : (s.modWork f).clusters = s.clusters := rfl
@[simp] theorem State.modWork_dies (s : State) (f : Work → Work) : (s.modWork f).dies = s.dies := rfl
@[simp] theorem State.modWork_mem (s : State) (f : Work → Work) : (s.modWork f).mem = s.mem := rfl
@[simp] theorem State.modWork_chan (s : State) (f : Work → Work) : (s.modWork f).chan = s.chan := rfl
@[simp] theorem State.modWork_tables (s : State) (f : Work → Work) : (s.modWork f).tables = s.tables := rfl
@[simp] theorem State.modWork_flight (s : State) (f : Work → Work) : (s.modWork f).flight = s.flight := rfl
@[simp] theorem State.modWork_regions (s : State) (f : Work → Work) : (s.modWork f).regions = s.regions := rfl
@[simp] theorem State.modWork_host (s : State) (f : Work → Work) : (s.modWork f).host = s.host := rfl
@[simp] theorem State.modWork_power (s : State) (f : Work → Work) : (s.modWork f).power = s.power := rfl
@[simp] theorem State.modHost_sched (s : State) (f : HostIf → HostIf) : (s.modHost f).sched = s.sched := rfl
@[simp] theorem State.modHost_threads (s : State) (f : HostIf → HostIf) : (s.modHost f).threads = s.threads := rfl
@[simp] theorem State.modHost_saved (s : State) (f : HostIf → HostIf) : (s.modHost f).saved = s.saved := rfl
@[simp] theorem State.modHost_cores (s : State) (f : HostIf → HostIf) : (s.modHost f).cores = s.cores := rfl
@[simp] theorem State.modHost_clusters (s : State) (f : HostIf → HostIf) : (s.modHost f).clusters = s.clusters := rfl
@[simp] theorem State.modHost_dies (s : State) (f : HostIf → HostIf) : (s.modHost f).dies = s.dies := rfl
@[simp] theorem State.modHost_mem (s : State) (f : HostIf → HostIf) : (s.modHost f).mem = s.mem := rfl
@[simp] theorem State.modHost_chan (s : State) (f : HostIf → HostIf) : (s.modHost f).chan = s.chan := rfl
@[simp] theorem State.modHost_tables (s : State) (f : HostIf → HostIf) : (s.modHost f).tables = s.tables := rfl
@[simp] theorem State.modHost_flight (s : State) (f : HostIf → HostIf) : (s.modHost f).flight = s.flight := rfl
@[simp] theorem State.modHost_work (s : State) (f : HostIf → HostIf) : (s.modHost f).work = s.work := rfl
@[simp] theorem State.modHost_regions (s : State) (f : HostIf → HostIf) : (s.modHost f).regions = s.regions := rfl
@[simp] theorem State.modHost_power (s : State) (f : HostIf → HostIf) : (s.modHost f).power = s.power := rfl
@[simp] theorem State.setThread_sched (s : State) (t : Nat) (th : Thread) : (s.setThread t th).sched = s.sched := rfl
@[simp] theorem State.setThread_saved (s : State) (t : Nat) (th : Thread) : (s.setThread t th).saved = s.saved := rfl
@[simp] theorem State.setThread_cores (s : State) (t : Nat) (th : Thread) : (s.setThread t th).cores = s.cores := rfl
@[simp] theorem State.setThread_clusters (s : State) (t : Nat) (th : Thread) : (s.setThread t th).clusters = s.clusters := rfl
@[simp] theorem State.setThread_dies (s : State) (t : Nat) (th : Thread) : (s.setThread t th).dies = s.dies := rfl
@[simp] theorem State.setThread_mem (s : State) (t : Nat) (th : Thread) : (s.setThread t th).mem = s.mem := rfl
@[simp] theorem State.setThread_chan (s : State) (t : Nat) (th : Thread) : (s.setThread t th).chan = s.chan := rfl
@[simp] theorem State.setThread_tables (s : State) (t : Nat) (th : Thread) : (s.setThread t th).tables = s.tables := rfl
@[simp] theorem State.setThread_flight (s : State) (t : Nat) (th : Thread) : (s.setThread t th).flight = s.flight := rfl
@[simp] theorem State.setThread_work (s : State) (t : Nat) (th : Thread) : (s.setThread t th).work = s.work := rfl
@[simp] theorem State.setThread_regions (s : State) (t : Nat) (th : Thread) : (s.setThread t th).regions = s.regions := rfl
@[simp] theorem State.setThread_host (s : State) (t : Nat) (th : Thread) : (s.setThread t th).host = s.host := rfl
@[simp] theorem State.setThread_power (s : State) (t : Nat) (th : Thread) : (s.setThread t th).power = s.power := rfl
@[simp] theorem State.newId_threads (s : State) : (s.newId).threads = s.threads := rfl
@[simp] theorem State.newId_saved (s : State) : (s.newId).saved = s.saved := rfl
@[simp] theorem State.newId_cores (s : State) : (s.newId).cores = s.cores := rfl
@[simp] theorem State.newId_clusters (s : State) : (s.newId).clusters = s.clusters := rfl
@[simp] theorem State.newId_dies (s : State) : (s.newId).dies = s.dies := rfl
@[simp] theorem State.newId_mem (s : State) : (s.newId).mem = s.mem := rfl
@[simp] theorem State.newId_chan (s : State) : (s.newId).chan = s.chan := rfl
@[simp] theorem State.newId_tables (s : State) : (s.newId).tables = s.tables := rfl
@[simp] theorem State.newId_flight (s : State) : (s.newId).flight = s.flight := rfl
@[simp] theorem State.newId_work (s : State) : (s.newId).work = s.work := rfl
@[simp] theorem State.newId_regions (s : State) : (s.newId).regions = s.regions := rfl
@[simp] theorem State.newId_host (s : State) : (s.newId).host = s.host := rfl
@[simp] theorem State.newId_power (s : State) : (s.newId).power = s.power := rfl
@[simp] theorem State.tick_threads (s : State) : (s.tick).threads = s.threads := rfl
@[simp] theorem State.tick_saved (s : State) : (s.tick).saved = s.saved := rfl
@[simp] theorem State.tick_cores (s : State) : (s.tick).cores = s.cores := rfl
@[simp] theorem State.tick_clusters (s : State) : (s.tick).clusters = s.clusters := rfl
@[simp] theorem State.tick_dies (s : State) : (s.tick).dies = s.dies := rfl
@[simp] theorem State.tick_mem (s : State) : (s.tick).mem = s.mem := rfl
@[simp] theorem State.tick_chan (s : State) : (s.tick).chan = s.chan := rfl
@[simp] theorem State.tick_tables (s : State) : (s.tick).tables = s.tables := rfl
@[simp] theorem State.tick_flight (s : State) : (s.tick).flight = s.flight := rfl
@[simp] theorem State.tick_work (s : State) : (s.tick).work = s.work := rfl
@[simp] theorem State.tick_regions (s : State) : (s.tick).regions = s.regions := rfl
@[simp] theorem State.tick_host (s : State) : (s.tick).host = s.host := rfl
@[simp] theorem State.tick_power (s : State) : (s.tick).power = s.power := rfl
@[simp] theorem State.timed_threads (s : State) : (s.timed).threads = s.threads := rfl
@[simp] theorem State.timed_saved (s : State) : (s.timed).saved = s.saved := rfl
@[simp] theorem State.timed_cores (s : State) : (s.timed).cores = s.cores := rfl
@[simp] theorem State.timed_clusters (s : State) : (s.timed).clusters = s.clusters := rfl
@[simp] theorem State.timed_dies (s : State) : (s.timed).dies = s.dies := rfl
@[simp] theorem State.timed_mem (s : State) : (s.timed).mem = s.mem := rfl
@[simp] theorem State.timed_chan (s : State) : (s.timed).chan = s.chan := rfl
@[simp] theorem State.timed_tables (s : State) : (s.timed).tables = s.tables := rfl
@[simp] theorem State.timed_flight (s : State) : (s.timed).flight = s.flight := rfl
@[simp] theorem State.timed_work (s : State) : (s.timed).work = s.work := rfl
@[simp] theorem State.timed_regions (s : State) : (s.timed).regions = s.regions := rfl
@[simp] theorem State.timed_host (s : State) : (s.timed).host = s.host := rfl
@[simp] theorem State.timed_power (s : State) : (s.timed).power = s.power := rfl
@[simp] theorem State.post_time (s : State) (d : Nat) (p : Posted) : (s.post d p).sched.time = s.sched.time := by
  unfold State.post State.dropPacket; split <;> rfl
@[simp] theorem State.post_agenda (s : State) (d : Nat) (p : Posted) : (s.post d p).sched.agenda = s.sched.agenda := by
  unfold State.post State.dropPacket; split <;> rfl
@[simp] theorem State.post_threads (s : State) (d : Nat) (p : Posted) : (s.post d p).threads = s.threads := by
  unfold State.post State.dropPacket; split <;> rfl
@[simp] theorem State.post_saved (s : State) (d : Nat) (p : Posted) : (s.post d p).saved = s.saved := by
  unfold State.post State.dropPacket; split <;> rfl
@[simp] theorem State.post_cores (s : State) (d : Nat) (p : Posted) : (s.post d p).cores = s.cores := by
  unfold State.post State.dropPacket; split <;> rfl
@[simp] theorem State.post_clusters (s : State) (d : Nat) (p : Posted) : (s.post d p).clusters = s.clusters := by
  unfold State.post State.dropPacket; split <;> rfl
@[simp] theorem State.post_dies (s : State) (d : Nat) (p : Posted) : (s.post d p).dies = s.dies := by
  unfold State.post State.dropPacket; split <;> rfl
@[simp] theorem State.post_mem (s : State) (d : Nat) (p : Posted) : (s.post d p).mem = s.mem := by
  unfold State.post State.dropPacket; split <;> rfl
@[simp] theorem State.post_chan (s : State) (d : Nat) (p : Posted) : (s.post d p).chan = s.chan := by
  unfold State.post State.dropPacket; split <;> rfl
@[simp] theorem State.post_tables (s : State) (d : Nat) (p : Posted) : (s.post d p).tables = s.tables := by
  unfold State.post State.dropPacket; split <;> rfl
@[simp] theorem State.post_flight (s : State) (d : Nat) (p : Posted) : (s.post d p).flight = s.flight := by
  unfold State.post State.dropPacket; split <;> rfl
@[simp] theorem State.post_work (s : State) (d : Nat) (p : Posted) : (s.post d p).work = s.work := by
  unfold State.post State.dropPacket; split <;> rfl
@[simp] theorem State.post_regions (s : State) (d : Nat) (p : Posted) : (s.post d p).regions = s.regions := by
  unfold State.post State.dropPacket; split <;> rfl
@[simp] theorem State.post_power (s : State) (d : Nat) (p : Posted) : (s.post d p).power = s.power := by
  unfold State.post State.dropPacket; split <;> rfl
@[simp] theorem State.modLaunch_sched (s : State) (l : Nat) (f : Launch → Launch) : (s.modLaunch l f).sched = s.sched := rfl
@[simp] theorem State.modLaunch_threads (s : State) (l : Nat) (f : Launch → Launch) : (s.modLaunch l f).threads = s.threads := rfl
@[simp] theorem State.modLaunch_saved (s : State) (l : Nat) (f : Launch → Launch) : (s.modLaunch l f).saved = s.saved := rfl
@[simp] theorem State.modLaunch_cores (s : State) (l : Nat) (f : Launch → Launch) : (s.modLaunch l f).cores = s.cores := rfl
@[simp] theorem State.modLaunch_clusters (s : State) (l : Nat) (f : Launch → Launch) : (s.modLaunch l f).clusters = s.clusters := rfl
@[simp] theorem State.modLaunch_dies (s : State) (l : Nat) (f : Launch → Launch) : (s.modLaunch l f).dies = s.dies := rfl
@[simp] theorem State.modLaunch_mem (s : State) (l : Nat) (f : Launch → Launch) : (s.modLaunch l f).mem = s.mem := rfl
@[simp] theorem State.modLaunch_chan (s : State) (l : Nat) (f : Launch → Launch) : (s.modLaunch l f).chan = s.chan := rfl
@[simp] theorem State.modLaunch_tables (s : State) (l : Nat) (f : Launch → Launch) : (s.modLaunch l f).tables = s.tables := rfl
@[simp] theorem State.modLaunch_flight (s : State) (l : Nat) (f : Launch → Launch) : (s.modLaunch l f).flight = s.flight := rfl
@[simp] theorem State.modLaunch_regions (s : State) (l : Nat) (f : Launch → Launch) : (s.modLaunch l f).regions = s.regions := rfl
@[simp] theorem State.modLaunch_host (s : State) (l : Nat) (f : Launch → Launch) : (s.modLaunch l f).host = s.host := rfl
@[simp] theorem State.modLaunch_power (s : State) (l : Nat) (f : Launch → Launch) : (s.modLaunch l f).power = s.power := rfl
@[simp] theorem State.modTenant_sched (s : State) (n : Nat) (f : Tenant → Tenant) : (s.modTenant n f).sched = s.sched := rfl
@[simp] theorem State.modTenant_threads (s : State) (n : Nat) (f : Tenant → Tenant) : (s.modTenant n f).threads = s.threads := rfl
@[simp] theorem State.modTenant_saved (s : State) (n : Nat) (f : Tenant → Tenant) : (s.modTenant n f).saved = s.saved := rfl
@[simp] theorem State.modTenant_cores (s : State) (n : Nat) (f : Tenant → Tenant) : (s.modTenant n f).cores = s.cores := rfl
@[simp] theorem State.modTenant_clusters (s : State) (n : Nat) (f : Tenant → Tenant) : (s.modTenant n f).clusters = s.clusters := rfl
@[simp] theorem State.modTenant_dies (s : State) (n : Nat) (f : Tenant → Tenant) : (s.modTenant n f).dies = s.dies := rfl
@[simp] theorem State.modTenant_mem (s : State) (n : Nat) (f : Tenant → Tenant) : (s.modTenant n f).mem = s.mem := rfl
@[simp] theorem State.modTenant_chan (s : State) (n : Nat) (f : Tenant → Tenant) : (s.modTenant n f).chan = s.chan := rfl
@[simp] theorem State.modTenant_flight (s : State) (n : Nat) (f : Tenant → Tenant) : (s.modTenant n f).flight = s.flight := rfl
@[simp] theorem State.modTenant_work (s : State) (n : Nat) (f : Tenant → Tenant) : (s.modTenant n f).work = s.work := rfl
@[simp] theorem State.modTenant_regions (s : State) (n : Nat) (f : Tenant → Tenant) : (s.modTenant n f).regions = s.regions := rfl
@[simp] theorem State.modTenant_host (s : State) (n : Nat) (f : Tenant → Tenant) : (s.modTenant n f).host = s.host := rfl
@[simp] theorem State.modTenant_power (s : State) (n : Nat) (f : Tenant → Tenant) : (s.modTenant n f).power = s.power := rfl
@[simp] theorem State.modSup_sched (s : State) (c n : Nat) (f : Sup → Sup) : (s.modSup c n f).sched = s.sched := rfl
@[simp] theorem State.modSup_threads (s : State) (c n : Nat) (f : Sup → Sup) : (s.modSup c n f).threads = s.threads := rfl
@[simp] theorem State.modSup_saved (s : State) (c n : Nat) (f : Sup → Sup) : (s.modSup c n f).saved = s.saved := rfl
@[simp] theorem State.modSup_clusters (s : State) (c n : Nat) (f : Sup → Sup) : (s.modSup c n f).clusters = s.clusters := rfl
@[simp] theorem State.modSup_dies (s : State) (c n : Nat) (f : Sup → Sup) : (s.modSup c n f).dies = s.dies := rfl
@[simp] theorem State.modSup_mem (s : State) (c n : Nat) (f : Sup → Sup) : (s.modSup c n f).mem = s.mem := rfl
@[simp] theorem State.modSup_chan (s : State) (c n : Nat) (f : Sup → Sup) : (s.modSup c n f).chan = s.chan := rfl
@[simp] theorem State.modSup_tables (s : State) (c n : Nat) (f : Sup → Sup) : (s.modSup c n f).tables = s.tables := rfl
@[simp] theorem State.modSup_flight (s : State) (c n : Nat) (f : Sup → Sup) : (s.modSup c n f).flight = s.flight := rfl
@[simp] theorem State.modSup_work (s : State) (c n : Nat) (f : Sup → Sup) : (s.modSup c n f).work = s.work := rfl
@[simp] theorem State.modSup_regions (s : State) (c n : Nat) (f : Sup → Sup) : (s.modSup c n f).regions = s.regions := rfl
@[simp] theorem State.modSup_host (s : State) (c n : Nat) (f : Sup → Sup) : (s.modSup c n f).host = s.host := rfl
@[simp] theorem State.modSup_power (s : State) (c n : Nat) (f : Sup → Sup) : (s.modSup c n f).power = s.power := rfl

@[simp] theorem State.modTables_tables (s : State) (f : Tables → Tables) : (s.modTables f).tables = f s.tables := rfl
@[simp] theorem State.modFlight_flight (s : State) (f : Flight → Flight) : (s.modFlight f).flight = f s.flight := rfl
@[simp] theorem State.modWork_work (s : State) (f : Work → Work) : (s.modWork f).work = f s.work := rfl
@[simp] theorem State.modHost_host (s : State) (f : HostIf → HostIf) : (s.modHost f).host = f s.host := rfl
@[simp] theorem State.newId_nextId (s : State) : s.newId.sched.nextId = s.sched.nextId + 1 := rfl
@[simp] theorem State.newId_cur (s : State) : s.newId.sched.cur = s.sched.cur := rfl
@[simp] theorem State.newId_issue (s : State) : s.newId.sched.issue = s.sched.issue := rfl

/-- A core after a change of a core: the changed one, or what it was. -/
theorem State.core_modCore (s : State) (c d : Nat) (f : Core → Core) :
    (s.modCore c f).core d = if d = c then f (s.core c) else s.core d := by
  simp only [State.core, State.modCore, mgetD]
  rw [mget_mput]; split <;> simp

@[simp] theorem State.core_modCore_self (s : State) (c : Nat) (f : Core → Core) : (s.modCore c f).core c = f (s.core c) := by
  simp [State.core_modCore]

theorem State.die_modDie (s : State) (c d : Nat) (f : Die → Die) :
    (s.modDie c f).die d = if d = c then f (s.die c) else s.die d := by
  simp only [State.die, State.modDie, mgetD]
  rw [mget_mput]; split <;> simp

theorem State.cluster_modCluster (s : State) (c d : Nat) (f : Cluster → Cluster) :
    (s.modCluster c f).cluster d = if d = c then f (s.cluster c) else s.cluster d := by
  simp only [State.cluster, State.modCluster, mgetD]
  rw [mget_mput]; split <;> simp

theorem State.row_modRow (s : State) (c d : Nat) (f : Row → Row) :
    (s.modRow c f).row d = if d = c then f (s.row c) else s.row d := by
  simp only [State.row, State.modRow, mgetD]
  rw [mget_mput]; split <;> simp

/-- The live thread of a slot after a thread has been set. -/
theorem State.thread?_setThread (s : State) (t u : Nat) (th : Thread) :
    (s.setThread t th).thread? u = if u = t then some th else s.thread? u := by
  simp only [State.thread?, State.setThread]
  rw [mget_mput]
  by_cases h : u = t <;> simp [h]

@[simp] theorem State.thread?_setThread_self (s : State) (t : Nat) (th : Thread) : (s.setThread t th).thread? t = some th := by
  simp [State.thread?_setThread]

/-- The live threads depend on the thread map only. -/
theorem State.thread?_congr {s s' : State} (h : s'.threads = s.threads) (u : Nat) : s'.thread? u = s.thread? u := by
  simp [State.thread?, h]

@[simp] theorem State.thread?_modCore (s : State) (c : Nat) (f : Core → Core) (u : Nat) : (s.modCore c f).thread? u = s.thread? u := rfl
@[simp] theorem State.thread?_modCluster (s : State) (c : Nat) (f : Cluster → Cluster) (u : Nat) : (s.modCluster c f).thread? u = s.thread? u := rfl
@[simp] theorem State.thread?_modDie (s : State) (c : Nat) (f : Die → Die) (u : Nat) : (s.modDie c f).thread? u = s.thread? u := rfl
@[simp] theorem State.thread?_modRow (s : State) (c : Nat) (f : Row → Row) (u : Nat) : (s.modRow c f).thread? u = s.thread? u := rfl
@[simp] theorem State.thread?_modTables (s : State) (f : Tables → Tables) (u : Nat) : (s.modTables f).thread? u = s.thread? u := rfl
@[simp] theorem State.thread?_modFlight (s : State) (f : Flight → Flight) (u : Nat) : (s.modFlight f).thread? u = s.thread? u := rfl
@[simp] theorem State.thread?_modWork (s : State) (f : Work → Work) (u : Nat) : (s.modWork f).thread? u = s.thread? u := rfl
@[simp] theorem State.thread?_modHost (s : State) (f : HostIf → HostIf) (u : Nat) : (s.modHost f).thread? u = s.thread? u := rfl
@[simp] theorem State.thread?_newId (s : State) (u : Nat) : (s.newId).thread? u = s.thread? u := rfl
@[simp] theorem State.thread?_tick (s : State) (u : Nat) : (s.tick).thread? u = s.thread? u := rfl
@[simp] theorem State.thread?_timed (s : State) (u : Nat) : (s.timed).thread? u = s.thread? u := rfl
@[simp] theorem State.thread?_post (s : State) (d : Nat) (p : Posted) (u : Nat) : (s.post d p).thread? u = s.thread? u := by
  unfold State.thread?; simp
@[simp] theorem State.thread?_modLaunch (s : State) (l : Nat) (f : Launch → Launch) (u : Nat) : (s.modLaunch l f).thread? u = s.thread? u := rfl
@[simp] theorem State.thread?_modTenant (s : State) (n : Nat) (f : Tenant → Tenant) (u : Nat) : (s.modTenant n f).thread? u = s.thread? u := rfl
@[simp] theorem State.thread?_modSup (s : State) (c n : Nat) (f : Sup → Sup) (u : Nat) : (s.modSup c n f).thread? u = s.thread? u := rfl

/-- The live thread of a slot after a thread has been changed. -/
theorem State.thread?_modThread (s : State) (t u : Nat) (f : Thread → Thread) :
    (s.modThread t f).thread? u = if u = t then (s.thread? t).map f else s.thread? u := by
  unfold State.modThread
  cases h : s.thread? t with
  | none => split <;> simp_all
  | some th => simp [State.thread?_setThread]

/-! ### Updates of a thread -/

@[simp] theorem Thread.setCtx_pl (th : Thread) (f : Ctx → Ctx) : (th.setCtx f).pl = th.pl := rfl
@[simp] theorem Thread.setCtx_tenant (th : Thread) (f : Ctx → Ctx) : (th.setCtx f).tenant = th.tenant := rfl
@[simp] theorem Thread.setCtx_launch (th : Thread) (f : Ctx → Ctx) : (th.setCtx f).launch = th.launch := rfl
@[simp] theorem Thread.setCtx_w (th : Thread) (f : Ctx → Ctx) : (th.setCtx f).w = th.w := rfl
@[simp] theorem Thread.setCtx_base (th : Thread) (f : Ctx → Ctx) : (th.setCtx f).base = th.base := rfl
@[simp] theorem Thread.setCtx_forme (th : Thread) (f : Ctx → Ctx) : (th.setCtx f).forme = th.forme := rfl
@[simp] theorem Thread.setCtx_midx (th : Thread) (f : Ctx → Ctx) : (th.setCtx f).midx = th.midx := rfl
@[simp] theorem Thread.setCtx_rank (th : Thread) (f : Ctx → Ctx) : (th.setCtx f).rank = th.rank := rfl
@[simp] theorem Thread.setCtx_home (th : Thread) (f : Ctx → Ctx) : (th.setCtx f).home = th.home := rfl
@[simp] theorem Thread.setCtx_guest (th : Thread) (f : Ctx → Ctx) : (th.setCtx f).guest = th.guest := rfl
@[simp] theorem Thread.setCtx_away (th : Thread) (f : Ctx → Ctx) : (th.setCtx f).away = th.away := rfl
@[simp] theorem Thread.setCtx_task (th : Thread) (f : Ctx → Ctx) : (th.setCtx f).task = th.task := rfl
@[simp] theorem Thread.setCtx_recno (th : Thread) (f : Ctx → Ctx) : (th.setCtx f).recno = th.recno := rfl
@[simp] theorem Thread.setCtx_stackBase (th : Thread) (f : Ctx → Ctx) : (th.setCtx f).stackBase = th.stackBase := rfl
@[simp] theorem Thread.setCtx_rob (th : Thread) (f : Ctx → Ctx) : (th.setCtx f).rob = th.rob := rfl
@[simp] theorem Thread.setCtx_stOut (th : Thread) (f : Ctx → Ctx) : (th.setCtx f).stOut = th.stOut := rfl
@[simp] theorem Thread.setCtx_cpOut (th : Thread) (f : Ctx → Ctx) : (th.setCtx f).cpOut = th.cpOut := rfl
@[simp] theorem Thread.setCtx_mxOut (th : Thread) (f : Ctx → Ctx) : (th.setCtx f).mxOut = th.mxOut := rfl
@[simp] theorem Thread.setCtx_mailbox (th : Thread) (f : Ctx → Ctx) : (th.setCtx f).mailbox = th.mailbox := rfl
@[simp] theorem Thread.setCtx_seq (th : Thread) (f : Ctx → Ctx) : (th.setCtx f).seq = th.seq := rfl
@[simp] theorem Thread.setCtx_overflow (th : Thread) (f : Ctx → Ctx) : (th.setCtx f).overflow = th.overflow := rfl
@[simp] theorem Thread.setCtx_ribbon (th : Thread) (f : Ctx → Ctx) : (th.setCtx f).ribbon = th.ribbon := rfl
@[simp] theorem Thread.setCtx_sent (th : Thread) (f : Ctx → Ctx) : (th.setCtx f).sent = th.sent := rfl
@[simp] theorem Thread.setCtx_det (th : Thread) (f : Ctx → Ctx) : (th.setCtx f).det = th.det := rfl
@[simp] theorem Thread.setCtx_lead (th : Thread) (f : Ctx → Ctx) : (th.setCtx f).lead = th.lead := rfl
@[simp] theorem Thread.setCtx_join (th : Thread) (f : Ctx → Ctx) : (th.setCtx f).join = th.join := rfl
@[simp] theorem Thread.setCtx_wait (th : Thread) (f : Ctx → Ctx) : (th.setCtx f).wait = th.wait := rfl
@[simp] theorem Thread.setCtx_bar (th : Thread) (f : Ctx → Ctx) : (th.setCtx f).bar = th.bar := rfl
@[simp] theorem Thread.setCtx_upcall (th : Thread) (f : Ctx → Ctx) : (th.setCtx f).upcall = th.upcall := rfl
@[simp] theorem Thread.setCtx_stopped (th : Thread) (f : Ctx → Ctx) : (th.setCtx f).stopped = th.stopped := rfl
@[simp] theorem Thread.setCtx_ending (th : Thread) (f : Ctx → Ctx) : (th.setCtx f).ending = th.ending := rfl
@[simp] theorem Thread.setCtx_copy (th : Thread) (f : Ctx → Ctx) : (th.setCtx f).copy = th.copy := rfl
@[simp] theorem Thread.setCtx_matrix (th : Thread) (f : Ctx → Ctx) : (th.setCtx f).matrix = th.matrix := rfl
@[simp] theorem Thread.setCtx_wdog (th : Thread) (f : Ctx → Ctx) : (th.setCtx f).wdog = th.wdog := rfl
@[simp] theorem Thread.setCtx_cause (th : Thread) (f : Ctx → Ctx) : (th.setCtx f).cause = th.cause := rfl
@[simp] theorem Thread.setCtx_held (th : Thread) (f : Ctx → Ctx) : (th.setCtx f).held = th.held := rfl
@[simp] theorem Thread.setCtx_res0 (th : Thread) (f : Ctx → Ctx) : (th.setCtx f).res0 = th.res0 := rfl
@[simp] theorem Thread.setCtx_res1 (th : Thread) (f : Ctx → Ctx) : (th.setCtx f).res1 = th.res1 := rfl
@[simp] theorem Thread.setCtx_fresh0 (th : Thread) (f : Ctx → Ctx) : (th.setCtx f).fresh0 = th.fresh0 := rfl
@[simp] theorem Thread.setCtx_fresh1 (th : Thread) (f : Ctx → Ctx) : (th.setCtx f).fresh1 = th.fresh1 := rfl
@[simp] theorem Thread.setCtx_bkSkip (th : Thread) (f : Ctx → Ctx) : (th.setCtx f).bkSkip = th.bkSkip := rfl
@[simp] theorem Thread.setCtx_reply (th : Thread) (f : Ctx → Ctx) : (th.setCtx f).reply = th.reply := rfl
@[simp] theorem Thread.setCtx_idle (th : Thread) (f : Ctx → Ctx) : (th.setCtx f).idle = th.idle := rfl
@[simp] theorem Thread.setCtx_uresm (th : Thread) (f : Ctx → Ctx) : (th.setCtx f).uresm = th.uresm := rfl
@[simp] theorem Thread.setCtx_refused (th : Thread) (f : Ctx → Ctx) : (th.setCtx f).refused = th.refused := rfl
@[simp] theorem Thread.setCtx_claim (th : Thread) (f : Ctx → Ctx) : (th.setCtx f).claim = th.claim := rfl
@[simp] theorem Thread.setCtx_coming (th : Thread) (f : Ctx → Ctx) : (th.setCtx f).coming = th.coming := rfl
@[simp] theorem Thread.setCtx_expired (th : Thread) (f : Ctx → Ctx) : (th.setCtx f).expired = th.expired := rfl
@[simp] theorem Thread.setV_pl (th : Thread) (n : BitVec 7) (v : Vec) : (th.setV n v).pl = th.pl := rfl
@[simp] theorem Thread.setV_tenant (th : Thread) (n : BitVec 7) (v : Vec) : (th.setV n v).tenant = th.tenant := rfl
@[simp] theorem Thread.setV_launch (th : Thread) (n : BitVec 7) (v : Vec) : (th.setV n v).launch = th.launch := rfl
@[simp] theorem Thread.setV_w (th : Thread) (n : BitVec 7) (v : Vec) : (th.setV n v).w = th.w := rfl
@[simp] theorem Thread.setV_base (th : Thread) (n : BitVec 7) (v : Vec) : (th.setV n v).base = th.base := rfl
@[simp] theorem Thread.setV_forme (th : Thread) (n : BitVec 7) (v : Vec) : (th.setV n v).forme = th.forme := rfl
@[simp] theorem Thread.setV_midx (th : Thread) (n : BitVec 7) (v : Vec) : (th.setV n v).midx = th.midx := rfl
@[simp] theorem Thread.setV_rank (th : Thread) (n : BitVec 7) (v : Vec) : (th.setV n v).rank = th.rank := rfl
@[simp] theorem Thread.setV_home (th : Thread) (n : BitVec 7) (v : Vec) : (th.setV n v).home = th.home := rfl
@[simp] theorem Thread.setV_guest (th : Thread) (n : BitVec 7) (v : Vec) : (th.setV n v).guest = th.guest := rfl
@[simp] theorem Thread.setV_away (th : Thread) (n : BitVec 7) (v : Vec) : (th.setV n v).away = th.away := rfl
@[simp] theorem Thread.setV_task (th : Thread) (n : BitVec 7) (v : Vec) : (th.setV n v).task = th.task := rfl
@[simp] theorem Thread.setV_recno (th : Thread) (n : BitVec 7) (v : Vec) : (th.setV n v).recno = th.recno := rfl
@[simp] theorem Thread.setV_stackBase (th : Thread) (n : BitVec 7) (v : Vec) : (th.setV n v).stackBase = th.stackBase := rfl
@[simp] theorem Thread.setV_rob (th : Thread) (n : BitVec 7) (v : Vec) : (th.setV n v).rob = th.rob := rfl
@[simp] theorem Thread.setV_stOut (th : Thread) (n : BitVec 7) (v : Vec) : (th.setV n v).stOut = th.stOut := rfl
@[simp] theorem Thread.setV_cpOut (th : Thread) (n : BitVec 7) (v : Vec) : (th.setV n v).cpOut = th.cpOut := rfl
@[simp] theorem Thread.setV_mxOut (th : Thread) (n : BitVec 7) (v : Vec) : (th.setV n v).mxOut = th.mxOut := rfl
@[simp] theorem Thread.setV_mailbox (th : Thread) (n : BitVec 7) (v : Vec) : (th.setV n v).mailbox = th.mailbox := rfl
@[simp] theorem Thread.setV_seq (th : Thread) (n : BitVec 7) (v : Vec) : (th.setV n v).seq = th.seq := rfl
@[simp] theorem Thread.setV_overflow (th : Thread) (n : BitVec 7) (v : Vec) : (th.setV n v).overflow = th.overflow := rfl
@[simp] theorem Thread.setV_ribbon (th : Thread) (n : BitVec 7) (v : Vec) : (th.setV n v).ribbon = th.ribbon := rfl
@[simp] theorem Thread.setV_sent (th : Thread) (n : BitVec 7) (v : Vec) : (th.setV n v).sent = th.sent := rfl
@[simp] theorem Thread.setV_det (th : Thread) (n : BitVec 7) (v : Vec) : (th.setV n v).det = th.det := rfl
@[simp] theorem Thread.setV_lead (th : Thread) (n : BitVec 7) (v : Vec) : (th.setV n v).lead = th.lead := rfl
@[simp] theorem Thread.setV_join (th : Thread) (n : BitVec 7) (v : Vec) : (th.setV n v).join = th.join := rfl
@[simp] theorem Thread.setV_wait (th : Thread) (n : BitVec 7) (v : Vec) : (th.setV n v).wait = th.wait := rfl
@[simp] theorem Thread.setV_bar (th : Thread) (n : BitVec 7) (v : Vec) : (th.setV n v).bar = th.bar := rfl
@[simp] theorem Thread.setV_upcall (th : Thread) (n : BitVec 7) (v : Vec) : (th.setV n v).upcall = th.upcall := rfl
@[simp] theorem Thread.setV_stopped (th : Thread) (n : BitVec 7) (v : Vec) : (th.setV n v).stopped = th.stopped := rfl
@[simp] theorem Thread.setV_ending (th : Thread) (n : BitVec 7) (v : Vec) : (th.setV n v).ending = th.ending := rfl
@[simp] theorem Thread.setV_copy (th : Thread) (n : BitVec 7) (v : Vec) : (th.setV n v).copy = th.copy := rfl
@[simp] theorem Thread.setV_matrix (th : Thread) (n : BitVec 7) (v : Vec) : (th.setV n v).matrix = th.matrix := rfl
@[simp] theorem Thread.setV_wdog (th : Thread) (n : BitVec 7) (v : Vec) : (th.setV n v).wdog = th.wdog := rfl
@[simp] theorem Thread.setV_cause (th : Thread) (n : BitVec 7) (v : Vec) : (th.setV n v).cause = th.cause := rfl
@[simp] theorem Thread.setV_held (th : Thread) (n : BitVec 7) (v : Vec) : (th.setV n v).held = th.held := rfl
@[simp] theorem Thread.setV_res0 (th : Thread) (n : BitVec 7) (v : Vec) : (th.setV n v).res0 = th.res0 := rfl
@[simp] theorem Thread.setV_res1 (th : Thread) (n : BitVec 7) (v : Vec) : (th.setV n v).res1 = th.res1 := rfl
@[simp] theorem Thread.setV_fresh0 (th : Thread) (n : BitVec 7) (v : Vec) : (th.setV n v).fresh0 = th.fresh0 := rfl
@[simp] theorem Thread.setV_fresh1 (th : Thread) (n : BitVec 7) (v : Vec) : (th.setV n v).fresh1 = th.fresh1 := rfl
@[simp] theorem Thread.setV_bkSkip (th : Thread) (n : BitVec 7) (v : Vec) : (th.setV n v).bkSkip = th.bkSkip := rfl
@[simp] theorem Thread.setV_reply (th : Thread) (n : BitVec 7) (v : Vec) : (th.setV n v).reply = th.reply := rfl
@[simp] theorem Thread.setV_idle (th : Thread) (n : BitVec 7) (v : Vec) : (th.setV n v).idle = th.idle := rfl
@[simp] theorem Thread.setV_uresm (th : Thread) (n : BitVec 7) (v : Vec) : (th.setV n v).uresm = th.uresm := rfl
@[simp] theorem Thread.setV_refused (th : Thread) (n : BitVec 7) (v : Vec) : (th.setV n v).refused = th.refused := rfl
@[simp] theorem Thread.setV_claim (th : Thread) (n : BitVec 7) (v : Vec) : (th.setV n v).claim = th.claim := rfl
@[simp] theorem Thread.setV_coming (th : Thread) (n : BitVec 7) (v : Vec) : (th.setV n v).coming = th.coming := rfl
@[simp] theorem Thread.setV_expired (th : Thread) (n : BitVec 7) (v : Vec) : (th.setV n v).expired = th.expired := rfl
@[simp] theorem Thread.setS_pl (th : Thread) (n : BitVec 7) (v : Dword) : (th.setS n v).pl = th.pl := rfl
@[simp] theorem Thread.setS_tenant (th : Thread) (n : BitVec 7) (v : Dword) : (th.setS n v).tenant = th.tenant := rfl
@[simp] theorem Thread.setS_launch (th : Thread) (n : BitVec 7) (v : Dword) : (th.setS n v).launch = th.launch := rfl
@[simp] theorem Thread.setS_w (th : Thread) (n : BitVec 7) (v : Dword) : (th.setS n v).w = th.w := rfl
@[simp] theorem Thread.setS_base (th : Thread) (n : BitVec 7) (v : Dword) : (th.setS n v).base = th.base := rfl
@[simp] theorem Thread.setS_forme (th : Thread) (n : BitVec 7) (v : Dword) : (th.setS n v).forme = th.forme := rfl
@[simp] theorem Thread.setS_midx (th : Thread) (n : BitVec 7) (v : Dword) : (th.setS n v).midx = th.midx := rfl
@[simp] theorem Thread.setS_rank (th : Thread) (n : BitVec 7) (v : Dword) : (th.setS n v).rank = th.rank := rfl
@[simp] theorem Thread.setS_home (th : Thread) (n : BitVec 7) (v : Dword) : (th.setS n v).home = th.home := rfl
@[simp] theorem Thread.setS_guest (th : Thread) (n : BitVec 7) (v : Dword) : (th.setS n v).guest = th.guest := rfl
@[simp] theorem Thread.setS_away (th : Thread) (n : BitVec 7) (v : Dword) : (th.setS n v).away = th.away := rfl
@[simp] theorem Thread.setS_task (th : Thread) (n : BitVec 7) (v : Dword) : (th.setS n v).task = th.task := rfl
@[simp] theorem Thread.setS_recno (th : Thread) (n : BitVec 7) (v : Dword) : (th.setS n v).recno = th.recno := rfl
@[simp] theorem Thread.setS_stackBase (th : Thread) (n : BitVec 7) (v : Dword) : (th.setS n v).stackBase = th.stackBase := rfl
@[simp] theorem Thread.setS_rob (th : Thread) (n : BitVec 7) (v : Dword) : (th.setS n v).rob = th.rob := rfl
@[simp] theorem Thread.setS_stOut (th : Thread) (n : BitVec 7) (v : Dword) : (th.setS n v).stOut = th.stOut := rfl
@[simp] theorem Thread.setS_cpOut (th : Thread) (n : BitVec 7) (v : Dword) : (th.setS n v).cpOut = th.cpOut := rfl
@[simp] theorem Thread.setS_mxOut (th : Thread) (n : BitVec 7) (v : Dword) : (th.setS n v).mxOut = th.mxOut := rfl
@[simp] theorem Thread.setS_mailbox (th : Thread) (n : BitVec 7) (v : Dword) : (th.setS n v).mailbox = th.mailbox := rfl
@[simp] theorem Thread.setS_seq (th : Thread) (n : BitVec 7) (v : Dword) : (th.setS n v).seq = th.seq := rfl
@[simp] theorem Thread.setS_overflow (th : Thread) (n : BitVec 7) (v : Dword) : (th.setS n v).overflow = th.overflow := rfl
@[simp] theorem Thread.setS_ribbon (th : Thread) (n : BitVec 7) (v : Dword) : (th.setS n v).ribbon = th.ribbon := rfl
@[simp] theorem Thread.setS_sent (th : Thread) (n : BitVec 7) (v : Dword) : (th.setS n v).sent = th.sent := rfl
@[simp] theorem Thread.setS_det (th : Thread) (n : BitVec 7) (v : Dword) : (th.setS n v).det = th.det := rfl
@[simp] theorem Thread.setS_lead (th : Thread) (n : BitVec 7) (v : Dword) : (th.setS n v).lead = th.lead := rfl
@[simp] theorem Thread.setS_join (th : Thread) (n : BitVec 7) (v : Dword) : (th.setS n v).join = th.join := rfl
@[simp] theorem Thread.setS_wait (th : Thread) (n : BitVec 7) (v : Dword) : (th.setS n v).wait = th.wait := rfl
@[simp] theorem Thread.setS_bar (th : Thread) (n : BitVec 7) (v : Dword) : (th.setS n v).bar = th.bar := rfl
@[simp] theorem Thread.setS_upcall (th : Thread) (n : BitVec 7) (v : Dword) : (th.setS n v).upcall = th.upcall := rfl
@[simp] theorem Thread.setS_stopped (th : Thread) (n : BitVec 7) (v : Dword) : (th.setS n v).stopped = th.stopped := rfl
@[simp] theorem Thread.setS_ending (th : Thread) (n : BitVec 7) (v : Dword) : (th.setS n v).ending = th.ending := rfl
@[simp] theorem Thread.setS_copy (th : Thread) (n : BitVec 7) (v : Dword) : (th.setS n v).copy = th.copy := rfl
@[simp] theorem Thread.setS_matrix (th : Thread) (n : BitVec 7) (v : Dword) : (th.setS n v).matrix = th.matrix := rfl
@[simp] theorem Thread.setS_wdog (th : Thread) (n : BitVec 7) (v : Dword) : (th.setS n v).wdog = th.wdog := rfl
@[simp] theorem Thread.setS_cause (th : Thread) (n : BitVec 7) (v : Dword) : (th.setS n v).cause = th.cause := rfl
@[simp] theorem Thread.setS_held (th : Thread) (n : BitVec 7) (v : Dword) : (th.setS n v).held = th.held := rfl
@[simp] theorem Thread.setS_res0 (th : Thread) (n : BitVec 7) (v : Dword) : (th.setS n v).res0 = th.res0 := rfl
@[simp] theorem Thread.setS_res1 (th : Thread) (n : BitVec 7) (v : Dword) : (th.setS n v).res1 = th.res1 := rfl
@[simp] theorem Thread.setS_fresh0 (th : Thread) (n : BitVec 7) (v : Dword) : (th.setS n v).fresh0 = th.fresh0 := rfl
@[simp] theorem Thread.setS_fresh1 (th : Thread) (n : BitVec 7) (v : Dword) : (th.setS n v).fresh1 = th.fresh1 := rfl
@[simp] theorem Thread.setS_bkSkip (th : Thread) (n : BitVec 7) (v : Dword) : (th.setS n v).bkSkip = th.bkSkip := rfl
@[simp] theorem Thread.setS_reply (th : Thread) (n : BitVec 7) (v : Dword) : (th.setS n v).reply = th.reply := rfl
@[simp] theorem Thread.setS_idle (th : Thread) (n : BitVec 7) (v : Dword) : (th.setS n v).idle = th.idle := rfl
@[simp] theorem Thread.setS_uresm (th : Thread) (n : BitVec 7) (v : Dword) : (th.setS n v).uresm = th.uresm := rfl
@[simp] theorem Thread.setS_refused (th : Thread) (n : BitVec 7) (v : Dword) : (th.setS n v).refused = th.refused := rfl
@[simp] theorem Thread.setS_claim (th : Thread) (n : BitVec 7) (v : Dword) : (th.setS n v).claim = th.claim := rfl
@[simp] theorem Thread.setS_coming (th : Thread) (n : BitVec 7) (v : Dword) : (th.setS n v).coming = th.coming := rfl
@[simp] theorem Thread.setS_expired (th : Thread) (n : BitVec 7) (v : Dword) : (th.setS n v).expired = th.expired := rfl
@[simp] theorem Thread.setK_pl (th : Thread) (n : BitVec 3) (v : Mask) : (th.setK n v).pl = th.pl := rfl
@[simp] theorem Thread.setK_tenant (th : Thread) (n : BitVec 3) (v : Mask) : (th.setK n v).tenant = th.tenant := rfl
@[simp] theorem Thread.setK_launch (th : Thread) (n : BitVec 3) (v : Mask) : (th.setK n v).launch = th.launch := rfl
@[simp] theorem Thread.setK_w (th : Thread) (n : BitVec 3) (v : Mask) : (th.setK n v).w = th.w := rfl
@[simp] theorem Thread.setK_base (th : Thread) (n : BitVec 3) (v : Mask) : (th.setK n v).base = th.base := rfl
@[simp] theorem Thread.setK_forme (th : Thread) (n : BitVec 3) (v : Mask) : (th.setK n v).forme = th.forme := rfl
@[simp] theorem Thread.setK_midx (th : Thread) (n : BitVec 3) (v : Mask) : (th.setK n v).midx = th.midx := rfl
@[simp] theorem Thread.setK_rank (th : Thread) (n : BitVec 3) (v : Mask) : (th.setK n v).rank = th.rank := rfl
@[simp] theorem Thread.setK_home (th : Thread) (n : BitVec 3) (v : Mask) : (th.setK n v).home = th.home := rfl
@[simp] theorem Thread.setK_guest (th : Thread) (n : BitVec 3) (v : Mask) : (th.setK n v).guest = th.guest := rfl
@[simp] theorem Thread.setK_away (th : Thread) (n : BitVec 3) (v : Mask) : (th.setK n v).away = th.away := rfl
@[simp] theorem Thread.setK_task (th : Thread) (n : BitVec 3) (v : Mask) : (th.setK n v).task = th.task := rfl
@[simp] theorem Thread.setK_recno (th : Thread) (n : BitVec 3) (v : Mask) : (th.setK n v).recno = th.recno := rfl
@[simp] theorem Thread.setK_stackBase (th : Thread) (n : BitVec 3) (v : Mask) : (th.setK n v).stackBase = th.stackBase := rfl
@[simp] theorem Thread.setK_rob (th : Thread) (n : BitVec 3) (v : Mask) : (th.setK n v).rob = th.rob := rfl
@[simp] theorem Thread.setK_stOut (th : Thread) (n : BitVec 3) (v : Mask) : (th.setK n v).stOut = th.stOut := rfl
@[simp] theorem Thread.setK_cpOut (th : Thread) (n : BitVec 3) (v : Mask) : (th.setK n v).cpOut = th.cpOut := rfl
@[simp] theorem Thread.setK_mxOut (th : Thread) (n : BitVec 3) (v : Mask) : (th.setK n v).mxOut = th.mxOut := rfl
@[simp] theorem Thread.setK_mailbox (th : Thread) (n : BitVec 3) (v : Mask) : (th.setK n v).mailbox = th.mailbox := rfl
@[simp] theorem Thread.setK_seq (th : Thread) (n : BitVec 3) (v : Mask) : (th.setK n v).seq = th.seq := rfl
@[simp] theorem Thread.setK_overflow (th : Thread) (n : BitVec 3) (v : Mask) : (th.setK n v).overflow = th.overflow := rfl
@[simp] theorem Thread.setK_ribbon (th : Thread) (n : BitVec 3) (v : Mask) : (th.setK n v).ribbon = th.ribbon := rfl
@[simp] theorem Thread.setK_sent (th : Thread) (n : BitVec 3) (v : Mask) : (th.setK n v).sent = th.sent := rfl
@[simp] theorem Thread.setK_det (th : Thread) (n : BitVec 3) (v : Mask) : (th.setK n v).det = th.det := rfl
@[simp] theorem Thread.setK_lead (th : Thread) (n : BitVec 3) (v : Mask) : (th.setK n v).lead = th.lead := rfl
@[simp] theorem Thread.setK_join (th : Thread) (n : BitVec 3) (v : Mask) : (th.setK n v).join = th.join := rfl
@[simp] theorem Thread.setK_wait (th : Thread) (n : BitVec 3) (v : Mask) : (th.setK n v).wait = th.wait := rfl
@[simp] theorem Thread.setK_bar (th : Thread) (n : BitVec 3) (v : Mask) : (th.setK n v).bar = th.bar := rfl
@[simp] theorem Thread.setK_upcall (th : Thread) (n : BitVec 3) (v : Mask) : (th.setK n v).upcall = th.upcall := rfl
@[simp] theorem Thread.setK_stopped (th : Thread) (n : BitVec 3) (v : Mask) : (th.setK n v).stopped = th.stopped := rfl
@[simp] theorem Thread.setK_ending (th : Thread) (n : BitVec 3) (v : Mask) : (th.setK n v).ending = th.ending := rfl
@[simp] theorem Thread.setK_copy (th : Thread) (n : BitVec 3) (v : Mask) : (th.setK n v).copy = th.copy := rfl
@[simp] theorem Thread.setK_matrix (th : Thread) (n : BitVec 3) (v : Mask) : (th.setK n v).matrix = th.matrix := rfl
@[simp] theorem Thread.setK_wdog (th : Thread) (n : BitVec 3) (v : Mask) : (th.setK n v).wdog = th.wdog := rfl
@[simp] theorem Thread.setK_cause (th : Thread) (n : BitVec 3) (v : Mask) : (th.setK n v).cause = th.cause := rfl
@[simp] theorem Thread.setK_held (th : Thread) (n : BitVec 3) (v : Mask) : (th.setK n v).held = th.held := rfl
@[simp] theorem Thread.setK_res0 (th : Thread) (n : BitVec 3) (v : Mask) : (th.setK n v).res0 = th.res0 := rfl
@[simp] theorem Thread.setK_res1 (th : Thread) (n : BitVec 3) (v : Mask) : (th.setK n v).res1 = th.res1 := rfl
@[simp] theorem Thread.setK_fresh0 (th : Thread) (n : BitVec 3) (v : Mask) : (th.setK n v).fresh0 = th.fresh0 := rfl
@[simp] theorem Thread.setK_fresh1 (th : Thread) (n : BitVec 3) (v : Mask) : (th.setK n v).fresh1 = th.fresh1 := rfl
@[simp] theorem Thread.setK_bkSkip (th : Thread) (n : BitVec 3) (v : Mask) : (th.setK n v).bkSkip = th.bkSkip := rfl
@[simp] theorem Thread.setK_reply (th : Thread) (n : BitVec 3) (v : Mask) : (th.setK n v).reply = th.reply := rfl
@[simp] theorem Thread.setK_idle (th : Thread) (n : BitVec 3) (v : Mask) : (th.setK n v).idle = th.idle := rfl
@[simp] theorem Thread.setK_uresm (th : Thread) (n : BitVec 3) (v : Mask) : (th.setK n v).uresm = th.uresm := rfl
@[simp] theorem Thread.setK_refused (th : Thread) (n : BitVec 3) (v : Mask) : (th.setK n v).refused = th.refused := rfl
@[simp] theorem Thread.setK_claim (th : Thread) (n : BitVec 3) (v : Mask) : (th.setK n v).claim = th.claim := rfl
@[simp] theorem Thread.setK_coming (th : Thread) (n : BitVec 3) (v : Mask) : (th.setK n v).coming = th.coming := rfl
@[simp] theorem Thread.setK_expired (th : Thread) (n : BitVec 3) (v : Mask) : (th.setK n v).expired = th.expired := rfl

@[simp] theorem Thread.counted_regs (th : Thread) : th.counted.ctx.regs = th.ctx.regs := by unfold Thread.counted; split <;> rfl
@[simp] theorem Thread.counted_masks (th : Thread) : th.counted.ctx.masks = th.ctx.masks := by unfold Thread.counted; split <;> rfl
@[simp] theorem Thread.counted_shadow (th : Thread) : th.counted.ctx.shadow = th.ctx.shadow := by unfold Thread.counted; split <;> rfl
@[simp] theorem Thread.counted_hnd (th : Thread) : th.counted.ctx.hnd = th.ctx.hnd := by unfold Thread.counted; split <;> rfl
@[simp] theorem Thread.counted_pc (th : Thread) : th.counted.ctx.pc = th.ctx.pc := by unfold Thread.counted; split <;> rfl

/-- Reading a register after writing it. -/
theorem Ctx.reg_setReg (x : Ctx) (r : Nat) (v : Vec) : (x.setReg r v).reg r = v := by
  unfold Ctx.setReg Ctx.reg
  by_cases h : 128 ≤ r
  · simp only [h, if_true]; rw [mgetD_mputD, if_pos rfl]
  · simp only [h, if_false]; rw [mgetD_mputD, if_pos rfl]

/-- Reading another register. -/
theorem Ctx.reg_setReg_ne (x : Ctx) {r n : Nat} (v : Vec) (h : n ≠ r) : (x.setReg r v).reg n = x.reg n := by
  unfold Ctx.setReg Ctx.reg
  by_cases hr : 128 ≤ r <;> by_cases hn : 128 ≤ n <;> simp only [hr, hn, if_true, if_false]
  · rw [mgetD_mputD, if_neg (by omega)]
  · rw [mgetD_mputD, if_neg h]

/-- V(n) after a write of V(n). -/
theorem Thread.V_setV (th : Thread) (n : BitVec 7) (v : Vec) : (th.setV n v).V n = v := by
  have h : (th.setV n v).regId n.toNat = th.regId n.toNat := by
    have : (th.setV n v).ctx.hnd = th.ctx.hnd := by
      simp only [Thread.setV]; unfold Ctx.setReg; split <;> rfl
    simp [Thread.regId, Thread.shadowed, this]
  unfold Thread.V
  rw [h]
  exact Ctx.reg_setReg _ _ _

/-- S(n) after a write of S(n), and the bits above it (R57). -/
theorem Thread.S_setS (th : Thread) (n : BitVec 7) (v : Dword) : (th.setS n v).S n = v := by
  unfold Thread.S Thread.setS
  rw [Thread.V_setV]
  simp

end Sys2Proof.Machine
end

