-- ==== Sys2Proof/Laws/Run.lean ====
section
/-! SUPPORT. Sys2Proof/Laws/Run.lean: what the frame around an instruction does (`begin`, `finish`), said once: an instruction that
may execute runs its meaning, and completing it touches nothing but its thread. -/

namespace Sys2Proof.Machine

/-! ### What is left untouched -/

theorem Untouched.refl (s : State) (t : Nat) : Untouched s s t := by
  constructor <;> intros <;> rfl

theorem Untouched.trans {a b c : State} {t : Nat} (h : Untouched a b t) (k : Untouched b c t) : Untouched a c t where
  mem := k.mem.trans h.mem
  chan := k.chan.trans h.chan
  tables := k.tables.trans h.tables
  saved := k.saved.trans h.saved
  clusters := k.clusters.trans h.clusters
  dies := k.dies.trans h.dies
  regions := k.regions.trans h.regions
  work := k.work.trans h.work
  host := k.host.trans h.host
  power := k.power.trans h.power
  flight := k.flight.trans h.flight
  cores := fun c => (k.cores c).trans (h.cores c)
  others := fun u hu => (k.others u hu).trans (h.others u hu)

/-- A change of a thread's own entry leaves everything else. -/
theorem untouched_setThread (s : State) (t : Nat) (th : Thread) : Untouched s (s.setThread t th) t where
  mem := rfl
  chan := rfl
  tables := rfl
  saved := rfl
  clusters := rfl
  dies := rfl
  regions := rfl
  work := rfl
  host := rfl
  power := rfl
  flight := rfl
  cores := fun _ => rfl
  others := fun u hu => by rw [State.thread?_setThread, if_neg hu]

/-- A change of a core's counters and issue mark leaves everything else. -/
theorem untouched_modCore (s : State) (t c : Nat) (f : Core → Core) (hf : ∀ x, (f x).still = x.still) :
    Untouched s (s.modCore c f) t where
  mem := rfl
  chan := rfl
  tables := rfl
  saved := rfl
  clusters := rfl
  dies := rfl
  regions := rfl
  work := rfl
  host := rfl
  power := rfl
  flight := rfl
  cores := fun d => by
    rw [State.core_modCore]
    split
    · subst d; exact hf _
    · rfl
  others := fun _ _ => rfl

theorem untouched_countFor (s : State) (t c tid l n src k : Nat) : Untouched s (s.countFor c tid l n src k) t := by
  unfold State.countFor
  split
  · exact Untouched.refl s t
  · exact untouched_modCore s t c _ fun _ => rfl

theorem untouched_count (s : State) (t u : Nat) (th : Thread) (src k : Nat) : Untouched s (s.count u th src k) t :=
  untouched_countFor _ _ _ _ _ _ _ _

@[simp] theorem State.countFor_threads (s : State) (c tid l n src k : Nat) : (s.countFor c tid l n src k).threads = s.threads := by
  unfold State.countFor; split <;> rfl

@[simp] theorem State.count_threads (s : State) (t : Nat) (th : Thread) (src k : Nat) : (s.count t th src k).threads = s.threads :=
  State.countFor_threads ..

/-! ### Words that a leader sends (R20) -/

/-- What sending a word changes: only ribbons and the leader's own count of words sent. -/
def SameBut (s s' : State) : Prop :=
  s' = { s with threads := s'.threads } ∧
  ∀ u, ∃ g : Thread → Thread, (∀ x, ∃ r n, g x = { x with ribbon := r, sent := n }) ∧ s'.thread? u = (s.thread? u).map g

theorem SameBut.refl (s : State) : SameBut s s :=
  ⟨rfl, fun u => ⟨id, fun x => ⟨x.ribbon, x.sent, rfl⟩, by simp⟩⟩

theorem SameBut.trans {a b c : State} (h : SameBut a b) (k : SameBut b c) : SameBut a c := by
  refine ⟨?_, fun u => ?_⟩
  · have h1 := h.1
    have k1 := k.1
    rw [h1] at k1
    exact k1
  · obtain ⟨g, hg, e⟩ := h.2 u
    obtain ⟨g', hg', e'⟩ := k.2 u
    refine ⟨g' ∘ g, fun x => ?_, by rw [e', e, Option.map_map]⟩
    obtain ⟨r, n, hx⟩ := hg x
    obtain ⟨r', n', hx'⟩ := hg' (g x)
    exact ⟨r', n', by rw [Function.comp, hx', hx]⟩

theorem sameBut_modThread (s : State) (t : Nat) (f : Thread → Thread) (hf : ∀ x, ∃ r n, f x = { x with ribbon := r, sent := n }) :
    SameBut s (s.modThread t f) := by
  refine ⟨?_, fun u => ?_⟩
  · unfold State.modThread; split <;> rfl
  · rw [State.thread?_modThread]
    by_cases hu : u = t
    · subst hu; exact ⟨f, hf, by simp⟩
    · exact ⟨id, fun x => ⟨x.ribbon, x.sent, rfl⟩, by simp [hu]⟩

theorem sameBut_multicast (s : State) (th : Thread) (w : Ribbon) : SameBut s (s.multicast th w) := by
  unfold State.multicast
  generalize s.attachedTo th = ms
  induction ms generalizing s with
  | nil => exact SameBut.refl s
  | cons m rest ih => exact (sameBut_modThread s m _ fun x => ⟨_, _, rfl⟩).trans (ih _)

theorem sameBut_sendAhead (s : State) (t : Nat) (th : Thread) (q : Req) : SameBut s (s.sendAhead t th q) := by
  unfold State.sendAhead
  split
  · exact (sameBut_multicast _ _ _).trans (sameBut_modThread _ _ _ fun x => ⟨_, _, rfl⟩)
  · exact SameBut.refl s

theorem SameBut.untouched {s s' : State} (h : SameBut s s') (t : Nat) : Untouched s s' t := by
  have get {β : Type} (p : State → β) (hp : ∀ m, p { s with threads := m } = p s) : p s' = p s := by
    have e := h.1
    rw [e]; exact hp _
  have hc : s'.cores = s.cores := get State.cores fun _ => rfl
  refine { mem := get State.mem fun _ => rfl, chan := get State.chan fun _ => rfl, tables := get State.tables fun _ => rfl,
           saved := get State.saved fun _ => rfl, clusters := get State.clusters fun _ => rfl, dies := get State.dies fun _ => rfl,
           regions := get State.regions fun _ => rfl, work := get State.work fun _ => rfl, host := get State.host fun _ => rfl,
           power := get State.power fun _ => rfl, flight := get (fun x => x.flight.still) fun _ => rfl,
           cores := fun c => by simp only [State.core, hc], others := fun u _ => ?_ }
  obtain ⟨g, hg, e⟩ := h.2 u
  rw [e, Option.map_map]
  congr 1
  funext x
  obtain ⟨r, n, hx⟩ := hg x
  simp [hx]

theorem SameBut.ctx {s s' : State} (h : SameBut s s') (u : Nat) : (s'.thread? u).map Thread.ctx = (s.thread? u).map Thread.ctx := by
  obtain ⟨g, hg, e⟩ := h.2 u
  rw [e, Option.map_map]
  congr 1
  funext x
  obtain ⟨r, n, hx⟩ := hg x
  simp [hx]

/-- The thread as it stands when its meaning starts: what it has sent ahead apart, the thread that had the turn. -/
theorem sendAhead_thread {s : State} {t : Nat} {th : Thread} (q : Req) (h : s.thread? t = some th) :
    ∃ r n, (s.sendAhead t th q).thread? t = some { th with ribbon := r, sent := n } := by
  obtain ⟨g, hg, e⟩ := (sameBut_sendAhead s t th q).2 t
  obtain ⟨r, n, hx⟩ := hg th
  exact ⟨r, n, by rw [e, h, Option.map_some, hx]⟩

/-! ### Before an instruction -/

theorem begun_thread {q : Req} {s : State} {t : Nat} {th : Thread} (h : s.thread? t = some th) :
    ∃ r n, (s.begun t th q).thread? t = some { th with ribbon := r, sent := n } ∧
      s.runner t th q = ({ th with ribbon := r, sent := n } : Thread).counted := by
  obtain ⟨r, n, e⟩ := sendAhead_thread q h
  refine ⟨r, n, e, ?_⟩
  unfold State.runner State.begun
  rw [e]
  rfl

/-- Before the effect nothing differs but what a leader has sent. -/
theorem untouched_begun (s : State) (t : Nat) (th : Thread) (q : Req) : Untouched s (s.begun t th q) t :=
  (sameBut_sendAhead s t th q).untouched t

/-- An instruction that may execute runs its meaning, on the thread that has the turn. -/
theorem MayExecute.runs {q : Req} {s : State} {t : Nat} {th : Thread} (h : MayExecute q s t th) (k : State → Nat → Thread → Out) :
    begin q s k = k (s.begun t th q) t (s.runner t th q) := by
  obtain ⟨r, n, e, v⟩ := begun_thread (q := q) h.live
  have hw : ({ th with ribbon := r, sent := n } : Thread).badReg q.regs = none := h.window
  have hf : ({ th with ribbon := r, sent := n } : Thread).heldBy q = none := h.free
  have hl : ¬ ({ th with ribbon := r, sent := n } : Thread).pl < q.level := Nat.not_lt.mpr h.level
  have ht := h.turn
  subst ht
  have hg : (!q.legal) = false := by simp [h.legal]
  unfold State.begun at e
  simp only [begin, h.live, hg, h.drift, e, hw, hf, if_neg hl, v, State.begun]
  simp

/-- The thread as the meaning finds it differs from the thread that had the turn in what has been sent ahead, and in the instruction that
a masked section has counted. -/
theorem runner_ctx {q : Req} {s : State} {t : Nat} {th : Thread} (h : s.thread? t = some th) :
    (s.runner t th q).ctx = th.counted.ctx := by
  obtain ⟨r, n, -, v⟩ := begun_thread (q := q) h
  rw [v]
  unfold Thread.counted
  split <;> rfl

/-! ### After an instruction -/

theorem untouched_idle (s : State) (t : Nat) : Untouched s { s with sched := { s.sched with issue := false } } t := by
  constructor <;> intros <;> rfl

theorem untouched_sampled (s : State) (t u cause : Nat) : Untouched s (s.sampled u cause) t := by
  unfold State.sampled
  split
  · split
    · exact untouched_modCore s t _ _ fun _ => rfl
    · exact Untouched.refl s t
  · exact Untouched.refl s t

@[simp] theorem State.sampled_threads (s : State) (u cause : Nat) : (s.sampled u cause).threads = s.threads := by
  unfold State.sampled
  split
  · split <;> rfl
  · rfl

theorem untouched_issuedBy (s : State) (t : Nat) (th : Thread) : Untouched s (s.issuedBy t th) t := by
  unfold State.issuedBy
  have h := ((((untouched_idle s t).trans (untouched_modCore _ t (coreOf t) (fun y => { y with issued := true }) fun _ => rfl)).trans
    (untouched_count _ t t th 0x02 1)).trans (untouched_count _ t t th 0x10 1)).trans (untouched_sampled _ t t 0)
  dsimp only
  split
  · exact h
  · exact h.trans (untouched_count _ t t th 0x05 1)

@[simp] theorem State.issuedBy_threads (s : State) (t : Nat) (th : Thread) : (s.issuedBy t th).threads = s.threads := by
  unfold State.issuedBy
  dsimp only
  split <;> simp

theorem untouched_record (s : State) (t u : Nat) (th : Thread) (r : Option (Dword × SiteRec)) : Untouched s (s.record u th r) t := by
  unfold State.record
  split
  · split
    · constructor <;> intros <;> rfl
    · exact Untouched.refl s t
  · exact Untouched.refl s t

@[simp] theorem State.record_threads (s : State) (u : Nat) (th : Thread) (r : Option (Dword × SiteRec)) :
    (s.record u th r).threads = s.threads := by
  unfold State.record
  split
  · split <;> rfl
  · rfl

/-- A change of one thread outside its context leaves every context. -/
theorem sameCtx_modThread (s : State) (h : Nat) (f : Thread → Thread) (hf : ∀ x, (f x).ctx = x.ctx) (u : Nat) :
    ((s.modThread h f).thread? u).map Thread.ctx = (s.thread? u).map Thread.ctx := by
  rw [State.thread?_modThread]
  split
  · subst u
    rw [Option.map_map]
    exact congrArg (fun g => (s.thread? h).map g) (funext hf)
  · rfl

theorem untouched_modOther (s : State) (t h : Nat) (f : Thread → Thread) (hf : ∀ x, (f x).ctx = x.ctx) :
    Untouched s (s.modThread h f) t := by
  obtain ⟨m, get⟩ : ∃ m, s.modThread h f = { s with threads := m } := by
    unfold State.modThread
    split
    · exact ⟨_, rfl⟩
    · exact ⟨s.threads, rfl⟩
  have c := sameCtx_modThread s h f hf
  rw [get] at c ⊢
  exact { mem := rfl, chan := rfl, tables := rfl, saved := rfl, clusters := rfl, dies := rfl, regions := rfl, work := rfl, host := rfl,
          power := rfl, flight := rfl, cores := fun _ => rfl, others := fun u _ => c u }

theorem Thread.dropFlags_ctx (h : Thread) (matrix : Bool) (n : Nat) : (h.dropFlags matrix n).ctx = h.ctx := by
  unfold Thread.dropFlags
  dsimp only
  split <;> rfl

/-- What an entry that stores nothing does as it commits: records and counters, and the flags that it has merged. -/
theorem commit_spec (s : State) (t : Nat) (e : Rob) (he : e.store = none) :
    ((s.commit t e).thread? t).map Thread.ctx = (s.thread? t).map Thread.ctx ∧ Untouched s (s.commit t e) t := by
  unfold State.commit
  split
  · exact ⟨rfl, Untouched.refl s t⟩
  · rename_i th hth
    obtain ⟨h0, u0⟩ : ((if e.leaves then s.modThread t Thread.detach else s).thread? t).map Thread.ctx = (s.thread? t).map Thread.ctx ∧
        Untouched s (if e.leaves then s.modThread t Thread.detach else s) t := by
      split
      · exact ⟨sameCtx_modThread s t Thread.detach (fun _ => rfl) t, untouched_modOther s t t Thread.detach fun _ => rfl⟩
      · exact ⟨rfl, Untouched.refl s t⟩
    generalize (if e.leaves then s.modThread t Thread.detach else s) = s0 at h0 u0 ⊢
    have hu := (u0.trans (untouched_record s0 t t th e.site)).trans (untouched_count _ t t th 0x03 1)
    have hc : (((s0.record t th e.site).count t th 0x03 1).thread? t).map Thread.ctx = (s.thread? t).map Thread.ctx :=
      (congrArg _ (State.thread?_congr ((State.count_threads _ _ _ _ _).trans (State.record_threads _ _ _ _)) t)).trans h0
    simp only [he]
    split
    · rename_i matrix n _
      have hf := fun x : Thread => Thread.dropFlags_ctx x matrix n
      exact ⟨(sameCtx_modThread _ _ _ hf t).trans hc, hu.trans (untouched_modOther _ t _ _ hf)⟩
    · exact ⟨hc, hu⟩

@[simp] theorem Thread.afterwards_ctx (th pre : Thread) (x : Ctx) (wdog : Nat) : (th.afterwards pre x wdog).ctx = x := by
  rfl

/-- Completing an instruction that stores nothing: the thread goes on at its next instruction, and nothing else is touched. -/
theorem complete_spec (s : State) (t : Nat) (th : Thread) (q : Req) (nx : Next) (e : Rob) (he : e.store = none) :
    ((complete s t th q nx e).thread? t).map Thread.ctx = some (advance th.ctx q.pair nx) ∧ Untouched s (complete s t th q nx e) t := by
  unfold complete
  dsimp only
  generalize hs1 : (if ((s.thread? t).getD th).casts && ((s.thread? t).getD th).sent == 0 then
      s.multicast ((s.thread? t).getD th) (ribbonOf q th.ctx.pc (advance th.ctx q.pair nx).pc nx.taken) else s) = s1
  generalize (s.thread? t).getD th = pre at hs1 ⊢
  have h1 : Untouched s s1 t := by
    rw [← hs1]; split
    · exact (sameBut_multicast _ _ _).untouched t
    · exact Untouched.refl s t
  split
  · obtain ⟨hc, hu⟩ := commit_spec (s1.setThread t (th.afterwards pre (advance th.ctx q.pair nx) (s1.core (coreOf t)).wdog)) t
      { e with rib := pre.wordOf (ribbonOf q th.ctx.pc (advance th.ctx q.pair nx).pc nx.taken),
               leaves := pre.diverges (advance th.ctx q.pair nx) nx.taken } he
    refine ⟨hc.trans ?_, (h1.trans (untouched_setThread _ _ _)).trans hu⟩
    rw [State.thread?_setThread_self]
    simp
  · refine ⟨?_, h1.trans (untouched_setThread _ _ _)⟩
    rw [State.thread?_setThread_self]
    simp

/-- The same with the instruction's issue counted. -/
theorem finish_spec (s : State) (t : Nat) (th : Thread) (q : Req) (nx : Next) (e : Rob) (he : e.store = none) :
    ((finish s t th q nx e).thread? t).map Thread.ctx = some (advance th.ctx q.pair nx) ∧ Untouched s (finish s t th q nx e) t := by
  obtain ⟨hc, hu⟩ := complete_spec (s.issuedBy t th) t th q nx e he
  exact ⟨hc, (untouched_issuedBy s t th).trans hu⟩

/-- An instruction whose meaning completes the thread `y` in the state `e`. -/
theorem MayExecute.ends {q : Req} {i : Instr} {s e : State} {t : Nat} {th y : Thread} {nx : Next} {r : Rob}
    {k : State → Nat → Thread → Out} (h : MayExecute q s t th) (hi : exec i s = begin q s k)
    (hk : k (s.begun t th q) t (s.runner t th q) = .next (finish e t y q nx r)) (hr : r.store = none) :
    Ends i s t (advance y.ctx q.pair nx) e := by
  obtain ⟨hc, hu⟩ := finish_spec e t y q nx r hr
  exact ⟨_, by rw [hi, h.runs, hk], hc, hu⟩

theorem Thread.counted_with (th : Thread) (r : List Ribbon) (n : Nat) :
    ({ th with ribbon := r, sent := n } : Thread).counted = { th.counted with ribbon := r, sent := n } := by
  unfold Thread.counted; dsimp only; split <;> rfl

@[simp] theorem Thread.counted_rob (x : Thread) : x.counted.rob = x.rob := by unfold Thread.counted; split <;> rfl
@[simp] theorem Thread.counted_stOut (x : Thread) : x.counted.stOut = x.stOut := by unfold Thread.counted; split <;> rfl
@[simp] theorem Thread.counted_pl (x : Thread) : x.counted.pl = x.pl := by unfold Thread.counted; split <;> rfl
@[simp] theorem Thread.counted_home (x : Thread) : x.counted.home = x.home := by unfold Thread.counted; split <;> rfl

/-- An instruction whose meaning completes in the state in which it started. -/
theorem MayExecute.completes {q : Req} {i : Instr} {s : State} {t : Nat} {th y : Thread} {nx : Next} {r : Rob}
    {k : State → Nat → Thread → Out} (h : MayExecute q s t th) (hi : exec i s = begin q s k)
    (hk : k (s.begun t th q) t (s.runner t th q) = .next (finish (s.begun t th q) t y q nx r)) (hr : r.store = none) :
    Completes i s t (advance y.ctx q.pair nx) := by
  obtain ⟨s', a, b, c⟩ := h.ends hi hk hr
  exact ⟨s', a, b, (untouched_begun s t th q).trans c⟩

/-- An instruction whose meaning raises a fault. -/
theorem MayExecute.faults {q : Req} {i : Instr} {s : State} {t : Nat} {th : Thread} {code tcode : Nat} {tv : Dword}
    {k : State → Nat → Thread → Out} (h : MayExecute q s t th) (hi : exec i s = begin q s k)
    (hk : k (s.begun t th q) t (s.runner t th q) = raise (s.begun t th q) t q code tv tcode) :
    Faults i s q (s.begun t th q) t (s.runner t th q) code tv tcode := by
  obtain ⟨r, n, e, v⟩ := begun_thread (q := q) h.live
  unfold Faults
  rw [hi, h.runs, hk, v]
  unfold raise
  simp only [e, Thread.counted_rob, Thread.counted_pc]
  split <;> rfl

/-- Holding a thread changes its cause, the turn and the counters. -/
theorem untouched_stall (s : State) (t c : Nat) : Untouched s (s.stall c) t := by
  have h := untouched_idle s t
  unfold State.stall
  dsimp only
  split
  · split
    · exact h.trans (untouched_count _ _ _ _ _ _)
    · exact h
  · split
    · exact h.trans (untouched_countFor _ _ _ _ _ _ _ _)
    · exact h

theorem State.stall_threads (s : State) (c : Nat) : (s.stall c).threads = s.threads := by
  unfold State.stall
  dsimp only
  split
  · split <;> simp
  · split <;> simp

theorem untouched_fillOn (s : State) (t : Nat) : Untouched s s.fillOn t := by
  unfold State.fillOn
  dsimp only
  split
  · constructor <;> intros <;> rfl
  · exact untouched_stall _ _ _

theorem State.fillOn_threads (s : State) : s.fillOn.threads = s.threads := by
  unfold State.fillOn
  dsimp only
  split
  · rfl
  · exact State.stall_threads ..

theorem untouched_modThread (s : State) (t : Nat) (f : Thread → Thread) : Untouched s (s.modThread t f) t := by
  unfold State.modThread
  split
  · exact untouched_setThread s t _
  · exact Untouched.refl s t

/-- Holding a thread: the cause, and nothing else of the device. -/
theorem hold_spec (s : State) (t c : Nat) :
    (hold s t c).thread? t = (s.thread? t).map (fun x => { x with cause := some c }) ∧ Untouched s (hold s t c) t := by
  unfold hold
  have hm : ((s.modThread t fun th => { th with cause := some c }).sampled t c).thread? t =
      (s.thread? t).map fun x => { x with cause := some c } := by
    rw [State.thread?_congr (State.sampled_threads _ _ _), State.thread?_modThread]; simp
  have hu := (untouched_modThread s t fun th => { th with cause := some c }).trans (untouched_sampled _ t t c)
  dsimp only
  split
  · exact ⟨by rw [State.thread?_congr (State.fillOn_threads _), hm], hu.trans (untouched_fillOn _ t)⟩
  · exact ⟨hm, hu⟩

/-- An instruction whose meaning holds the thread. -/
theorem MayExecute.waits {q : Req} {i : Instr} {s e : State} {t c : Nat} {th : Thread} {k : State → Nat → Thread → Out}
    (h : MayExecute q s t th) (hi : exec i s = begin q s k)
    (hk : k (s.begun t th q) t (s.runner t th q) = .next (hold e t c)) : Waits i s t c e := by
  obtain ⟨a, b⟩ := hold_spec e t c
  exact ⟨_, by rw [hi, h.runs, hk], a, b⟩

/-- An instruction that only computes completes whenever it may execute. -/
theorem computes_simple {q : Req} {i : Instr} {f : Thread → Thread} (hi : ∀ s, exec i s = simple q s f)
    (hf : ∀ (th : Thread) r n, (f ({ th with ribbon := r, sent := n } : Thread).counted).ctx = (f th.counted).ctx) :
    Computes q i f := by
  intro s t th h
  obtain ⟨r, n, -, v⟩ := begun_thread (q := q) h.live
  have := h.completes (y := f (s.runner t th q)) (r := Rob.none) (hi s) rfl rfl
  rwa [v, hf] at this

end Sys2Proof.Machine
end

