-- ==== Sys2Proof/Tests/Slice0.lean ====
section
/-! SUPPORT. Sys2Proof/Tests/Slice0.lean: tests. The ill-formed terms that WellFormed refuses, words written out from the encodings,
small steps with values worked out from the spec, and for every statement with hypotheses a state and operands that meet them. -/

set_option Elab.async false

namespace Sys2Proof.Tests

open Sys2Proof Sys2Proof.Machine

/-! ### A state to test in -/

/-- A thread of tenant 1 with registers, alone in slot 0 of core 0, outside any forme. -/
def hand (rs : Map Vec := []) (pl : Nat := 0) : Thread :=
  { setupThread pl with forme := 0, ctx := { (setupThread pl).ctx with regs := rs } }

/-- A hand with another context. -/
def handAt (f : Ctx → Ctx) : Thread := hand.setCtx f

/-- The device with that thread at the instruction `w`: its launch, its tenant and key, and its page in the core's caches. -/
def desk (th : Thread) (w : Nat := 0) : State :=
  let core : Core := { Core.reset with
    imp := [(0, 0xC000), (63, 0xCFFF)], tlb := [{ tenant := 1, base := setupPc, size := 4096, pte := setupPte, dirty := true }],
    l1i := [(cacheTag setupPc 1, BitVec.ofNat 512 w)] }
  let r := State.reset
  { r with
    sched := { r.sched with cur := 0, issue := true }, threads := [(0, th)], cores := [(0, core)],
    tables := { r.tables with tenants := [(1, Tenant.forSetup none)], keys := [(1, { data := 0, tenant := 1 })] },
    work := { r.work with launches := [(launchKey 1 0, setupLaunch)] } }

/-- What lets an instruction execute, as a test. -/
def allowed (q : Req) (s : State) (t : Nat) (th : Thread) : Bool :=
  s.sched.cur == t && s.thread? t == some th && q.legal && !s.paced th && decide (q.level ≤ th.pl) && th.badReg q.regs == none &&
    th.heldBy q == none

theorem may_of {q : Req} {s : State} {t : Nat} {th : Thread} (h : allowed q s t th = true) : MayExecute q s t th := by
  simp only [allowed, Bool.and_eq_true, beq_iff_eq, Bool.not_eq_true', decide_eq_true_eq] at h
  exact ⟨h.1.1.1.1.1.1, h.1.1.1.1.1.2, h.1.1.1.1.2, h.1.1.1.2, h.1.1.2, h.1.2, h.2⟩

/-- The hypotheses of a clause can all be met: the instruction may execute, and `P` holds of the state and the thread at its start. -/
def Meets (q : Req) (P : State → Nat → Thread → Prop) : Prop :=
  ∃ s t th, MayExecute q s t th ∧ P (s.begun t th q) t (s.runner t th q)

theorem meets_when {q : Req} {P : State → Nat → Thread → Prop} {s : State} {th : Thread} (h : allowed q s 0 th = true)
    (c : th.casts = false ∨ th.sent ≠ 0) (m : th.ctx.mskd = false) (p : P s 0 th) : Meets q P := by
  have b : s.begun 0 th q = s := by rcases c with c | c <;> simp [State.begun, State.sendAhead, c]
  have r : s.runner 0 th q = th := by
    unfold State.runner
    rw [b, (may_of h).live]
    simp [Thread.counted, m]
  exact ⟨s, 0, th, may_of h, by rw [b, r]; exact p⟩

/-- What a clause asks of the thread in slot 0, as a test. -/
def meet (q : Req) (P : State → Nat → Thread → Prop) [∀ s t v, Decidable (P s t v)] (s : State) (th : Thread) : Bool :=
  allowed q s 0 th && (!th.casts || th.sent != 0) && !th.ctx.mskd && decide (P s 0 th)

/-- `Meets`, in a state with a thread in slot 0 that has no word to send and is in no masked section. -/
theorem meets {q : Req} {P : State → Nat → Thread → Prop} [∀ s t v, Decidable (P s t v)] (s : State) (th : Thread)
    (h : meet q P s th = true := by decide +kernel) : Meets q P := by
  simp only [meet, Bool.and_eq_true, Bool.or_eq_true, bne_iff_ne, Bool.not_eq_true', decide_eq_true_eq] at h
  exact meets_when h.1.1.1 h.1.1.2 h.1.2 h.2

/-- `meets` for a thread alone at the desk. -/
theorem here {q : Req} {P : State → Nat → Thread → Prop} [∀ s t v, Decidable (P s t v)] (th : Thread)
    (h : meet q P (desk th) th = true := by decide +kernel) : Meets q P := meets (desk th) th h

/-- Some state meets a premise that can be tested. -/
theorem found {P : State → Prop} [∀ s, Decidable (P s)] (s : State) (h : decide (P s) = true := by decide +kernel) : ∃ s, P s :=
  ⟨s, of_decide_eq_true h⟩

/-- Every instruction that only computes may execute, whatever its operands (R57): a thread at machine level whose window is whole. -/
theorem may_compute (q : Req) (h1 : q.legal = true) (h2 : q.level ≤ 2) (h3 : ∀ n ∈ q.regs, n < 128) : ∃ s t th, MayExecute q s t th := by
  have hb : (hand [] 2).badReg q.regs = none := by
    simp only [Thread.badReg, List.find?_eq_none]
    intro n hn
    have hl : (hand [] 2).limit = 128 := by decide +kernel
    have hs : (hand [] 2).shadowed n = false := by simp [Thread.shadowed, hand, setupThread, Ctx.zero]
    have := h3 n hn
    simp [hl, hs]; omega
  have ha : (q.reads ++ q.writes).any (hand [] 2).absent = false := by
    simp only [List.any_eq_false]
    intro n _
    simp [Thread.absent, hand, setupThread]
  have hp : (q.reads ++ q.writes).any (hand [] 2).pending = false := by
    simp only [List.any_eq_false]
    intro n _
    simp [Thread.pending, hand, setupThread, Thread.blank]
  refine ⟨desk (hand [] 2), 0, hand [] 2, rfl, rfl, h1, rfl, h2, hb, ?_⟩
  simp only [Thread.heldBy, ha, hp]
  simp [hand, setupThread, Thread.blank, Ctx.zero]

/-! ### Witnesses: instructions that only compute -/

theorem witness_IntegerResults :
    (∀ d a b, ∃ s t th, MayExecute (reqDAB (.add d a b) d a b) s t th) ∧ (∀ d a, ∃ s t th, MayExecute (reqDA (.clz d a) d a) s t th) ∧
    ∀ d a, ∃ s t th, MayExecute { reqDA (.sext d a 2) d a with legal := decide ((2 : BitVec 2).toNat ≤ 2) } s t th := by
  refine ⟨fun d a b => may_compute _ rfl (Nat.zero_le 2) ?_, fun d a => may_compute _ rfl (Nat.zero_le 2) ?_,
    fun d a => may_compute _ rfl (Nat.zero_le 2) ?_⟩ <;> simp [reqDAB, reqDA] <;> omega

theorem witness_ImmediateResults :
    (∀ d a i, ∃ s t th, MayExecute (reqDA (.addi d a i) d a) s t th) ∧ (∀ d i, ∃ s t th, MayExecute (reqD (.movi d i) d) s t th) ∧
    ∀ d a b k, ∃ s t th, MayExecute (reqDAB (.sel d a b k) d a b) s t th := by
  refine ⟨fun d a i => may_compute _ rfl (Nat.zero_le 2) ?_, fun d i => may_compute _ rfl (Nat.zero_le 2) ?_,
    fun d a b k => may_compute _ rfl (Nat.zero_le 2) ?_⟩ <;> simp [reqDAB, reqDA, reqD] <;> omega

theorem witness_MaskResults :
    (∀ d a b, ∃ s t th, MayExecute { reqAB (.kcmp d a b 5) a b with legal := condOk 5 } s t th) ∧
    (∀ d a b, ∃ s t th, MayExecute (req0 (.kand d a b)) s t th) ∧ ∀ d a, ∃ s t th, MayExecute (reqD (.ktov d a) d) s t th := by
  refine ⟨fun d a b => may_compute _ rfl (Nat.zero_le 2) ?_, fun d a b => may_compute _ rfl (Nat.zero_le 2) ?_,
    fun d a => may_compute _ rfl (Nat.zero_le 2) ?_⟩ <;> simp [reqAB, reqD, req0] <;> omega

theorem witness_LaneResults :
    (∀ d a b w, ∃ s t th, MayExecute (reqDAB (.vadd d a b w) d a b) s t th) ∧ (∀ d a b w, ∃ s t th, MayExecute (reqXAB (.vmac d a b w) d a b) s t th) ∧
    ∀ d a b w, ∃ s t th, MayExecute (reqAB (.vceq d a b w) a b) s t th := by
  refine ⟨fun d a b w => may_compute _ rfl (Nat.zero_le 2) ?_, fun d a b w => may_compute _ rfl (Nat.zero_le 2) ?_,
    fun d a b w => may_compute _ rfl (Nat.zero_le 2) ?_⟩ <;> simp [reqDAB, reqXAB, reqAB] <;> omega

theorem witness_FloatResults :
    (∀ d a b, ∃ s t th, MayExecute { reqDAB (.vfadd d a b 2) d a b with legal := fmtOk 2 } s t th) ∧
    ∀ d a, ∃ s t th, MayExecute { reqDA (.vfsqrt d a 0) d a with legal := fmtOk 0 } s t th := by
  refine ⟨fun d a b => may_compute _ rfl (Nat.zero_le 2) ?_, fun d a => may_compute _ rfl (Nat.zero_le 2) ?_⟩ <;> simp [reqDAB, reqDA] <;> omega

theorem witness_ConversionResults :
    (∀ d a z, ∃ s t th, MayExecute { reqDA (.cvtBf16F32 d a z 5) d a with legal := roundOk 5 } s t th) ∧
    ∃ s t th, MayExecute { word := encodeNat (.q4pack 126 126 0 5 0), regs := [126, 126, 127], reads := [126, 127], writes := [126], legal := roundOk 5 } s t th := by
  refine ⟨fun d a z => may_compute _ rfl (Nat.zero_le 2) ?_, may_compute _ rfl (Nat.zero_le 2) (by simp)⟩
  simp [reqDA]; omega

theorem witness_ReductionResults : ∀ d a b (k : BitVec 2), k ≠ 0 → ∃ s t th, MayExecute (reqDAB (.vrdot d a b k) d a b) s t th := by
  refine fun d a b k _ => may_compute _ rfl (Nat.zero_le 2) ?_
  simp [reqDAB]; omega

theorem witness_PermuteResults : ∀ d a b w, ∃ s t th, MayExecute (reqDAB (.vshuf d a b w) d a b) s t th := by
  refine fun d a b w => may_compute _ rfl (Nat.zero_le 2) ?_
  simp [reqDAB]; omega

/-! ### Witnesses: control flow, loops, frames, formes -/

/-- The desk whose margin unit has no room for a record of the thread's branch: its pending buffer is full (R184). -/
def deskFull (th : Thread) : State :=
  let r (i : Nat) : MRec := { id := i, core := 0, who := 0, launch := launchKey 1 0, pc := 0, site := .branch true, waits := true }
  (desk th).modFlight fun f => { f with margins := (List.range 32).map r }

theorem witness_FlowResults :
    Meets { req0 (.bf 1 0) with flow := true, legal := (1 : BitVec 3) != 0 } (fun u t v => u.siteFull (coreOf t) v (v.PC (req0 (.bf 1 0))) = false) ∧
    Meets { req0 (.bt 0 0) with flow := true } (fun u t v => u.siteFull (coreOf t) v (v.PC (req0 (.bt 0 0))) = true) ∧
    Meets { reqA (.jr 1) 1 with flow := true } (fun _ _ v => nbits (v.S 1) 0 2 = 0) ∧
    Meets { reqA (.jr 1) 1 with flow := true } (fun _ _ v => nbits (v.S 1) 0 2 ≠ 0) ∧
    Meets { reqA (.callr 1) 1 with flow := true } (fun _ _ v => nbits (v.S 1) 0 2 = 0) ∧
    Meets { reqA (.callr 1) 1 with flow := true } (fun _ _ v => nbits (v.S 1) 0 2 ≠ 0) :=
  ⟨here hand, meets (deskFull hand) hand, here (hand [(1, 4)]), here (hand [(1, 6)]), here (hand [(1, 4)]), here (hand [(1, 5)])⟩

theorem witness_LoopResults :
    Meets { req0 (.loopi 0 1 1) with flow := true, legal := (1 : BitVec 10) != 0 }
      (fun u t v => (1 : BitVec 10) ≠ 0 ∧ u.siteFull (coreOf t) v (v.PC (req0 (.loopi 0 1 1))) = false) ∧
    Meets { req0 (.loopi 1 0 1) with flow := true, legal := (1 : BitVec 10) != 0 }
      (fun u t v => u.siteFull (coreOf t) v (v.PC (req0 (.loopi 1 0 1))) = true) ∧
    Meets { reqA (.loop 1 1 1) 1 with flow := true, legal := (1 : BitVec 14) != 0 } (fun _ _ v => v.S 1 ≠ 0) ∧
    Meets { reqA (.loop 1 1 1) 1 with flow := true, legal := (1 : BitVec 14) != 0 } (fun _ _ v => v.S 1 = 0) :=
  ⟨here hand, meets (deskFull hand) hand, here (hand [(1, 4)]), here hand⟩

/-- A context with two loop levels, whose last words are 0x20 and 0x40. -/
def looping (c0 c1 : Dword) : Ctx := { Ctx.zero with lpc0 := c0, lpe0 := 0x20, lps0 := 0x10, lpc1 := c1, lpe1 := 0x40, lps1 := 0x8 }

theorem witness_LoopEnds :
    ((looping 2 3).lpc0 ≠ 0 ∧ (0x20 : Dword) = (looping 2 3).lpe0 ∧ (looping 2 3).lpc0 ≠ 1) ∧
    ((looping 1 3).lpc0 = 1 ∧ (0x20 : Dword) = (looping 1 3).lpe0 ∧ (0x20 : Dword) ≠ (looping 1 3).lpe1) ∧
    (∃ x : Ctx, x.lpc0 = 1 ∧ (0x20 : Dword) = x.lpe0 ∧ x.lpc1 ≠ 0 ∧ 0x20 = x.lpe1 ∧ x.lpc1 ≠ 1) ∧
    (∃ x : Ctx, x.lpc0 = 1 ∧ (0x20 : Dword) = x.lpe0 ∧ x.lpc1 = 1 ∧ 0x20 = x.lpe1) ∧
    ((looping 0 3).lpc0 = 0 ∧ (looping 0 3).lpc1 ≠ 0 ∧ (0x40 : Dword) = (looping 0 3).lpe1 ∧ (looping 0 3).lpc1 ≠ 1) ∧
    ((looping 0 1).lpc1 = 1 ∧ (0x40 : Dword) = (looping 0 1).lpe1) ∧ ((looping 0 0).lpc0 = 0 ∧ (looping 0 0).lpc1 = 0) := by
  refine ⟨?_, ?_, ⟨{ looping 1 2 with lpe1 := 0x20 }, ?_⟩, ⟨{ looping 1 1 with lpe1 := 0x20 }, ?_⟩, ?_, ?_, ?_⟩ <;> decide

/-- The words of a frame of one word after an `rpt` of one word: a `nop`-sized integer addition, a branch, a register past the window. -/
def frameOf (th : Thread) (w : Nat) : List Word := match (desk th (w * 2 ^ 32)).fetchFrame 0 th (th.ctx.pc + 4) 1 with
  | .words ws _ => ws
  | _ => []

/-- A context in a frame, with those contents of RPTS. -/
def framing (n : Nat) : Ctx := { Ctx.zero with rpts := BitVec.ofNat 64 (2 ^ 15 + n) }

/-- The word at `pc + 8` behind an `ext` that an `rpt` of one word captures. -/
def extBehind : Option Word := match (desk hand (0x38000001 * 2 ^ 32)).fetchFrame 0 hand (hand.ctx.pc + 4) 1 with
  | .words _ s => match s.fetch 0 hand (hand.ctx.pc + 8) with
    | .word x _ => some x
    | _ => none
  | _ => none

theorem witness_FrameResults :
    ((framing (2 ^ 16)).framed = true ∧ nbits (framing (2 ^ 16)).rpts 0 4 < nbits (framing (2 ^ 16)).rpts 16 4) ∧
    ((framing (2 ^ 20)).framed = true ∧ ¬ nbits (framing (2 ^ 20)).rpts 0 4 < nbits (framing (2 ^ 20)).rpts 16 4 ∧
      nbits (framing (2 ^ 20)).rpts 4 6 < nbits (framing (2 ^ 20)).rpts 20 6) ∧
    ((framing 0).framed = true ∧ ¬ nbits (framing 0).rpts 0 4 < nbits (framing 0).rpts 16 4 ∧ ¬ nbits (framing 0).rpts 4 6 < nbits (framing 0).rpts 20 6) ∧
    Meets { req0 (.rpt 0 1 1 1 1) with flow := true } (fun u t v =>
      (match u.fetchFrame t v (v.ctx.pc + 4) 1 with | .words _ w => (w.thread? t).isSome | _ => false) = true) ∧
    (frameOf hand 0x04082060 = [0x04082060] ∧ capturedCheck hand (rptsOf 0 1 1 1 1) 0x04082060 = .good ∧
      frameSplits hand.ctx (hand.ctx.pc + 4) 1 = false) ∧
    (frameOf hand 0x44000000 = [0x44000000] ∧ capturedCheck hand (rptsOf 0 1 1 1 1) 0x44000000 = .illegal ∧ isExt 0x44000000 = false) ∧
    (frameOf hand 0x38000001 = [0x38000001] ∧ capturedCheck hand (rptsOf 0 1 1 1 1) 0x38000001 = .illegal ∧ isExt 0x38000001 = true ∧
      extBehind = some 0) ∧
    (∃ ws : List Word, ws.findIdx? (fun z => capturedCheck hand (rptsOf 1 1 1 1 1) z == .illegal) = some 0 ∧ isExt (ws.getD 0 0) = true ∧
      ws[1]? = some 0x04082060 ∧ (match (desk hand (0x38000001 * 2 ^ 32 + 0x04082060 * 2 ^ 64)).fetchFrame 0 hand (hand.ctx.pc + 4) 2 with
        | .words vs _ => vs == ws
        | _ => false) = true) ∧
    (frameOf { hand with w := 8 } 0x04482060 = [0x04482060] ∧ capturedCheck { hand with w := 8 } (rptsOf 0 1 1 1 1) 0x04482060 = .window 9) := by
  refine ⟨?_, ?_, ?_, here hand, ?_, ?_, ?_, ⟨[0x38000001, 0x04082060], ?_⟩, ?_⟩ <;> decide +kernel

/-- A message. -/
def letter : Msg := { header := headerOf 0 3 1 2 1, payload := 7 }
/-- A hand that has that message and waits at `wfm`, with a handler. -/
def called : Thread := { handAt fun x => { x with msgv := 0x100 } with mailbox := [letter], wait := .wfm }

theorem witness_ThreadPauses :
    Meets (req0 .yield) (fun _ _ _ => True) ∧
    Meets (req0 .wfm) (fun u t v => (u.homeThread v).mailbox ≠ [] ∧ ¬ (v.wait = .wfm ∧ u.enters t { v with rob := [] } = true)) ∧
    Meets (req0 .wfm) (fun u t v => (u.homeThread v).mailbox ≠ [] ∧ v.wait = .wfm ∧ u.enters t { v with rob := [] } = true) ∧
    Meets (req0 .wfm) (fun u _ v => (u.homeThread v).mailbox = []) ∧ Meets { req0 .detach with commit := true } (fun _ _ v => v.attached = true) ∧
    Meets { req0 .detach with commit := true } (fun _ _ v => v.attached = false) :=
  ⟨here hand, here { hand with mailbox := [letter] }, here called, here hand, here { hand with forme := 1, midx := 1 }, here hand⟩

theorem witness_TrapEntries : Meets (req0 (.trap 31)) (fun _ _ _ => True) ∧ Meets (req0 .brk) (fun _ _ _ => True) := ⟨here hand, here hand⟩

/-- A store of the thread in slot 0, on its way. -/
def underWay : Store :=
  { id := 1, tid := 0, core := 0, launch := launchKey 1 0, req := { loc := .mem 0x10000 1 none, writes := [(0x10000, 1)] }, seen := false }
/-- The desk with that store. -/
def deskStoring (th : Thread) : State := (desk th).modFlight fun f => { f with stores := [underWay] }

/-- A supervisor's thread, with registers. -/
def chief (rs : Map Vec) : Thread := hand rs 1

/-- A load on its way into v9. -/
def coming : Load :=
  { id := 1, reg := 9, sz := 3, loc := .mem 0x10100 1 none, ea := 0x10100, scope := none, landed := false, lost := none, missed := false,
    pair := false, snap := Ctx.zero }
/-- The hand with that load. -/
def loading : Thread := { hand with rob := [{ Rob.none with load := some coming }] }
/-- The desk with a supervisor slot of the tenant in slot 0. -/
def deskSup (th : Thread) : State := (desk th).modCore 0 fun x =>
  { x with sups := [(1, { slot := 0, utsel := 0, queue := [], notice := false, run := none, resumed := [] })] }

theorem witness_ThreadEnds :
    (∃ s : State, s.sched.cur = 0 ∧ s.thread? 0 = some loading ∧ s.paced loading = false ∧ loading.rob ≠ []) ∧
    Meets { req0 .halt with commit := true } (fun _ _ v => v.stOut = 0 ∧ v.pl = 2) ∧
    Meets { req0 .tdone with commit := true } (fun u _ v => v.stOut = 0 ∧ v.pl = 2 ∧ u.releaseHeld v 4 = none) ∧
    Meets { req0 .tdone with commit := true } (fun u t v => v.stOut = 0 ∧ v.pl = 1 ∧ u.releaseHeld v 4 = none ∧
      (mget (u.core (coreOf t)).sups v.tenant).isSome = true) ∧
    Meets { req0 .tdone with commit := true } (fun _ _ v => v.stOut ≠ 0) ∧
    Meets { req0 .halt with commit := true } (fun _ _ v => v.stOut = 0 ∧ v.pl = 0) ∧ Meets { req0 .halt with commit := true } (fun _ _ v => v.stOut ≠ 0) ∧
    Meets { req0 .halt with commit := true } (fun u t v => v.stOut = 0 ∧ v.pl = 1 ∧ (mget (u.core (coreOf t)).sups v.tenant).isSome = true) ∧
    Meets { req0 .tdone with commit := true } (fun u _ v => v.stOut = 0 ∧ v.pl = 0 ∧ u.releaseHeld v 4 = none) ∧
    Meets { req0 .tdone with commit := true } (fun u _ v => v.stOut = 0 ∧ u.releaseHeld v 4 = some 5) :=
  ⟨found (desk loading), here (hand [] 2), here (hand [] 2), meets (deskSup (chief [])) (chief []), here { hand with stOut := 1 },
   here hand, here { hand with stOut := 1 }, meets (deskSup (chief [])) (chief []),
   here hand, meets (deskStoring hand) hand⟩

/-- A task of the launch without a record. -/
def chore : Task := { launch := launchKey 1 0, addr := 0, record := 0, root := false }
/-- A forme of two members, the leader in slot 0 and the member on core 1, which waits at the `join` with an id. -/
def pairOf (th : Thread) (id : Nat) : State :=
  let m : Thread := { hand with forme := 1, midx := 1, home := 64, det := true, join := some id }
  let f : Forme := { launch := launchKey 1 0, task := chore, f := 2, t := 1, tids := [0, 64], ended := [], tdone := false, preempted := false }
  { desk th with threads := [(0, th), (64, m)] }.modWork fun w => { w with formes := [(1, f)] }
/-- The leader, in a frame's replays, where it sends no words. -/
def leading : Thread := { hand with forme := 1, ctx := { hand.ctx with rpts := BitVec.ofNat 64 (2 ^ 15) } }
/-- A detached member in slot 0, and its leader in slot 64, which has ended or waits at a `join` or not. -/
def deskMember (th : Thread) (j : Option Nat) (ended : Bool) : State :=
  let f : Forme := { launch := launchKey 1 0, task := chore, f := 2, t := 1, tids := [64, 0], ended := if ended then [64] else [], tdone := false, preempted := false }
  { desk th with threads := [(0, th), (64, { hand with forme := 1, home := 64, join := j })] }.modWork fun w => { w with formes := [(1, f)] }
/-- That member. -/
def apart : Thread := { hand with forme := 1, midx := 1, det := true }
/-- How many members the thread's forme has. -/
def membersOf (u : State) (v : Thread) : Nat := match mget u.work.formes v.forme with | some f => f.f | none => 1

theorem witness_JoinResults :
    Meets { req0 (.join 3) with commit := true } (fun u _ v => membersOf u v = 1) ∧
    Meets { req0 (.join 3) with commit := true } (fun _ _ v => v.guest = true) ∧
    Meets { req0 (.join 3) with commit := true } (fun u _ v => membersOf u v = 2 ∧ v.guest = false ∧ v.midx ≠ 0 ∧ v.det = false) ∧
    Meets { req0 (.join 3) with commit := true } (fun u _ v => membersOf u v = 2 ∧ v.guest = false ∧ v.midx = 0 ∧
      u.detachedFrom v = [64] ∧ (u.detachedFrom v).all (fun h => u.joinsAt 3 h) = true) ∧
    Meets { req0 (.join 3) with commit := true } (fun u _ v => membersOf u v = 2 ∧ v.guest = false ∧ v.midx = 0 ∧
      (u.detachedFrom v).all (fun h => u.joinsAt 3 h) = false) ∧
    Meets { req0 (.join 3) with commit := true } (fun u _ v => membersOf u v = 2 ∧ v.guest = false ∧ v.midx ≠ 0 ∧ v.det = true ∧ u.leaderOf v = none) ∧
    Meets { req0 (.join 3) with commit := true } (fun u _ v => membersOf u v = 2 ∧ v.guest = false ∧ v.midx ≠ 0 ∧ v.det = true ∧
      u.leaderOf v = some 64 ∧ (u.thread? 64).bind Thread.join = none) ∧
    Meets { req0 (.join 3) with commit := true } (fun u _ v => membersOf u v = 2 ∧ v.guest = false ∧ v.midx ≠ 0 ∧ v.det = true ∧
      u.leaderOf v = some 64 ∧ (u.thread? 64).bind Thread.join = some 3) ∧
    Meets { req0 (.join 3) with commit := true } (fun u _ v => membersOf u v = 2 ∧ v.guest = false ∧ v.midx ≠ 0 ∧ v.det = true ∧
      u.leaderOf v = some 64 ∧ (u.thread? 64).bind Thread.join = some 4) :=
  ⟨here hand, here { hand with guest := true, home := 64 }, meets (pairOf { hand with forme := 1, midx := 1 } 3) { hand with forme := 1, midx := 1 },
   meets (pairOf leading 3) leading, meets (pairOf leading 4) leading, meets (deskMember apart none true) apart,
   meets (deskMember apart none false) apart, meets (deskMember apart (some 3) false) apart, meets (deskMember apart (some 4) false) apart⟩

/-! ### Witnesses: control registers, margins, timelines, barriers -/

theorem witness_ControlReads :
    Meets { reqD (.ctlr 1 0x008) 1 with legal := ctlAssigned 0x008, level := ctlRead 0x008 } (fun _ _ _ => 0x008 ≠ 0x101) ∧
    Meets { reqD (.ctlr 1 0x101) 1 with legal := true, level := 0 } (fun _ _ _ => True) ∧
    Meets (reqD (.fstat 1) 1) (fun _ _ _ => True) ∧ Meets (reqD (.fidx 1) 1) (fun _ _ _ => True) :=
  ⟨here hand, here hand, here hand, here hand⟩

theorem witness_ControlWrites :
    Meets { reqA (.ctlw 1 0x008) 1 with legal := ctlAssigned 0x008, level := ctlWrite 0x008, flow := true, commit := false }
      (fun _ _ _ => ctlOwn 0x008 = true) ∧
    Meets { reqA (.ctls 1 0x101) 1 with legal := ctlAssigned 0x101, level := ctlWrite 0x101, flow := true, commit := false }
      (fun _ _ _ => ctlOwn 0x101 = false ∧ ctlReadOnly 0x101 = true) ∧
    Meets { reqA (.ctlc 1 0x110) 1 with legal := ctlAssigned 0x110, level := ctlWrite 0x110, flow := true, commit := true }
      (fun _ _ _ => ctlOwn 0x110 = false ∧ ctlReadOnly 0x110 = false) :=
  ⟨here hand, here hand, here hand⟩

theorem witness_ControlRegistersReadBack : ctlOwn 0x001 = true ∧ ctlOwn 0x032 = true ∧ ctlOwn 0x018 = true := by decide

/-- The desk where a line of its launch's snapshot holds an error. -/
def deskSpoiled : State := { desk hand with power := { (desk hand).power with bad := [(sramLine 6 0 (launchKey 1 0 * 65536 + 3), 1)] } }

/-- The desk whose launch has an image of sixteen slots, the first of them with that snapshot. -/
def deskSlot (n : Nat) : State := (desk hand).modLaunch (launchKey 1 0) fun l => { l with snapshot := [(0, BitVec.ofNat 128 n)] }

/-- A thread whose `pick` of slot 2 has its record pending. -/
def picking (th : Thread) : Thread := th.setCtx fun x => { x with pick := some { slot := 2, variant := 1, cycles := 9 } }

theorem witness_MarginResults :
    Meets { reqD (.mread 1 12 15) 1 with legal := marginFieldOk 12 } (fun u _ v => 15 < u.nslots v ∧ u.snapBad v 15 = false) ∧
    Meets { reqD (.mread 1 12 12) 1 with legal := marginFieldOk 12 } (fun u _ v => 12 < u.nslots v ∧ u.snapBad v 12 = true) ∧
    Meets { reqD (.mread 1 0 16) 1 with legal := marginFieldOk 0 } (fun u _ v => u.nslots v ≤ 16) ∧
    Meets { reqD (.pick 1 3 0) 1 with legal := variantOk 3 } (fun u _ v => 0 < u.nslots v ∧ u.snapBad v 0 = false ∧ slotKind (u.snapSlot v 0) = 0) ∧
    Meets { reqD (.pick 1 3 12) 1 with legal := variantOk 3 } (fun u _ v => 12 < u.nslots v ∧ u.snapBad v 12 = true) ∧
    Meets { reqD (.pick 1 3 0) 1 with legal := variantOk 3 } (fun u _ v => 0 < u.nslots v ∧ u.snapBad v 0 = false ∧ slotKind (u.snapSlot v 0) = 4) ∧
    Meets { reqD (.pick 1 3 0) 1 with legal := variantOk 3 } (fun u _ v => 0 < u.nslots v ∧ u.snapBad v 0 = false ∧
      slotKind (u.snapSlot v 0) ≠ 0 ∧ slotKind (u.snapSlot v 0) ≠ 4) ∧
    Meets { reqD (.pick 1 0 16) 1 with legal := variantOk 0 } (fun u _ v => u.nslots v ≤ 16) ∧
    Meets (req0 (.mnote 2)) (fun u _ v => 2 < u.nslots v ∧ v.ctx.pick = some { slot := 2, variant := 1, cycles := 9 } ∧ v.rob = [] ∧ u.records v = true) ∧
    Meets (req0 (.mnote 2)) (fun u _ v => 2 < u.nslots v ∧ v.ctx.pick = some { slot := 2, variant := 1, cycles := 9 } ∧ v.rob = [] ∧ u.records v = false) ∧
    Meets (req0 (.mnote 2)) (fun u _ v => 2 < u.nslots v ∧ v.ctx.pick = some { slot := 2, variant := 1, cycles := 9 } ∧ v.rob ≠ []) ∧
    Meets (req0 (.mnote 2)) (fun u _ v => 2 < u.nslots v ∧ v.ctx.pick = none) ∧ Meets (req0 (.mnote 16)) (fun u _ v => u.nslots v ≤ 16) :=
  ⟨here hand, meets deskSpoiled hand, here hand, here hand, meets deskSpoiled hand, meets (deskSlot 4) hand, meets (deskSlot 1) hand, here hand,
   here (picking hand), meets ((desk (picking hand)).modLaunch (launchKey 1 0) fun l => { l with record := l.record ||| BitVec.ofNat 1024 (2 ^ 25) }) (picking hand),
   here (picking loading), here hand, here hand⟩

theorem witness_DepositResults :
    Meets (reqD (.arm 127) 127) (fun _ _ v => v.shadowed 127 = false ∧ (v.coming.any fun e => e.1 == 127) = false) ∧
    Meets { reqAB (.dep 3 1 2) 1 2 with commit := true } (fun u t v => neighbours (coreOf t) (nbits (v.S 1) 0 9) = true ∧
      u.edge (coreOf t) (some (nbits (v.S 1) 0 9)) = false) ∧
    Meets { reqAB (.dep 3 1 2) 1 2 with commit := true } (fun u t v => neighbours (coreOf t) (nbits (v.S 1) 0 9) = true ∧
      u.edge (coreOf t) (some (nbits (v.S 1) 0 9)) = true) ∧
    Meets { reqAB (.dep 3 1 2) 1 2 with commit := true } (fun _ t v => neighbours (coreOf t) (nbits (v.S 1) 0 9) = false) :=
  ⟨here hand, here (hand [(1, 1)]), meets ((desk (hand [(1, 16)])).modRow 0 fun x => { x with held := true }) (hand [(1, 16)]), here (hand [(1, 2)])⟩

/-- The context that a register names is one that a test holds for. -/
def names (v : Thread) (a : BitVec 7) (P : Nat → Bool → Bool) : Bool := match contextOf v (v.S a) with
  | some (h, m) => P h m
  | none => false
/-- A hand whose register 1 names its copy context, or its matrix context, and whose copy context has failed at command 2. -/
def ownCopy (b : Nat) : Thread := hand [(1, BitVec.ofNat 512 (2 ^ 63)), (2, BitVec.ofNat 512 b)]
def ownMatrix : Thread := hand [(1, BitVec.ofNat 512 (2 ^ 63 + 1))]
def broken : Thread := { ownCopy 2 with copy := { Eng.zero with cnt := 1, issued := 3, failed := some (2, 1) } }

theorem witness_TimelineResults :
    Meets (req0 (.wait 0 0 0 15)) (fun u _ v => v.loads ≤ 0 ∧ v.stores ≤ 0 ∧ (u.homeThread v).cpOut ≤ 0) ∧
    Meets (req0 (.wait 0 0 0 0)) (fun _ _ v => ¬ v.loads ≤ 0) ∧
    Meets (req0 (.wait 15 0 0 0)) (fun _ _ v => ¬ v.stores ≤ 0) ∧
    Meets (req0 (.wait 1 1 2 0)) (fun u _ v => v.loads ≤ 1 ∧ v.stores ≤ 1 ∧ ¬ (u.homeThread v).cpOut ≤ 2) ∧
    Meets (reqDA (.tlread 2 1) 2 1) (fun u t v => names v 1 (fun h m => u.ownsContext t v h m false) = true) ∧
    Meets (reqDA (.tlnext 2 1) 2 1) (fun u t v => names v 1 (fun h m => u.ownsContext t v h m false) = true) ∧
    Meets (reqAB (.tlwait 1 2) 1 2) (fun u t v => names v 1 (fun h m => u.ownsContext t v h m true && (u.ctxOf h m).failed.isNone &&
      decide ((v.S 2).toNat ≤ (u.ctxOf h m).cnt) && h != v.home) = true) ∧
    Meets (reqAB (.tlwait 1 2) 1 2) (fun u t v => names v 1 (fun h m => u.ownsContext t v h m true && (u.ctxOf h m).failed.isNone &&
      decide ((v.S 2).toNat ≤ (u.ctxOf h m).cnt) && h == v.home) = true) ∧
    Meets (reqAB (.tlwait 1 2) 1 2) (fun u t v => names v 1 (fun h m => u.ownsContext t v h m true && (u.ctxOf h m).failed == some (2, 1) &&
      decide ((v.S 2).toNat < 2) && decide ((v.S 2).toNat ≤ (u.ctxOf h m).cnt)) = true) ∧
    Meets (reqAB (.tlwait 1 2) 1 2) (fun u t v => names v 1 (fun h m => u.ownsContext t v h m true && (u.ctxOf h m).failed.isNone &&
      decide ((u.ctxOf h m).cnt < (v.S 2).toNat)) = true) ∧
    Meets (reqAB (.tlwait 1 2) 1 2) (fun u t v => names v 1 (fun h m => u.ownsContext t v h m true && (u.ctxOf h m).failed == some (2, 1) &&
      decide (2 ≤ (v.S 2).toNat) && v.rob == []) = true) ∧
    Meets (reqAB (.tlwait 1 2) 1 2) (fun _ _ v => contextOf v (v.S 1) = none) ∧ Meets (reqDA (.tlread 2 1) 2 1) (fun _ _ v => contextOf v (v.S 1) = none) ∧
    Meets (reqDA (.tlnext 2 1) 2 1) (fun _ _ v => contextOf v (v.S 1) = none) := by
  let other : Thread := { hand with home := 64 }
  let past : Thread := { broken with ctx := { broken.ctx with regs := [(1, BitVec.ofNat 512 (2 ^ 63)), (2, 1)] } }
  exact ⟨here hand, here loading, here { loading with stOut := 1 }, here { hand with cpOut := 3 }, here ownMatrix, here (ownCopy 0),
    meets ((desk (hand [(1, 0x100)])).setThread 64 other) (hand [(1, 0x100)]), here (ownCopy 0), here past, here (ownCopy 1), here broken,
    here (hand [(1, 2)]), here (hand [(1, 2)]), here (hand [(1, 2)])⟩

/-- A barrier entry of launch 0 of tenant 1: the parties, the arrivals and the episode. -/
def barrierOf (parties arrived episode : Nat) : Dword := BitVec.ofNat 64 (2 ^ 63 + 2 ^ 56 + parties * 2 ^ 24 + arrived * 2 ^ 8 + episode)
/-- The desk with entry 39 of the device's barriers. -/
def deskBarrier (th : Thread) (w : Dword) : State := (desk th).setBarrier 0 39 w
/-- The barrier that entry 39 holds for the thread's die. -/
def bar39 (u : State) (t : Nat) : Dword := u.barrier (dieOf (coreOf t)) 39

/-- A hand that waits in an `arwt` whose episode is 5. -/
def arrived : Thread := { hand with wait := .arwt 5 hand.ctx.pc }

theorem witness_BarrierResults :
    (nbits (barrierOf 2 1 255) 8 16 < nbits (barrierOf 2 1 255) 24 16 ∧ nbits (barrierOf 2 1 255) 8 16 + 1 = nbits (barrierOf 2 1 255) 24 16) ∧
    (nbits (barrierOf 2 0 0) 8 16 + 1 ≠ nbits (barrierOf 2 0 0) 24 16) ∧
    Meets { reqD (.arrive 1 39) 1 with legal := barrierOk 39, commit := true }
      (fun u t v => u.barMine v (bar39 u t) = true ∧ u.departs t v (barScope 39) none = none) ∧
    Meets { reqD (.arrive 1 0) 1 with legal := barrierOk 0, commit := true } (fun u t v => u.barMine v (u.barrier (dieOf (coreOf t)) 0) = false) ∧
    Meets { reqA (.await 1 39) 1 with legal := barrierOk 39, commit := true } (fun u t v => u.barFault t v 39 = none ∧ (v.barOver 39 ≠ none ∨ barEpisode (bar39 u t) ≠ nbits (v.S 1) 0 8)) ∧
    Meets { reqA (.await 1 39) 1 with legal := barrierOk 39, commit := true } (fun u t v => u.barFault t v 39 = none ∧ v.barOver 39 = none ∧ barEpisode (bar39 u t) = nbits (v.S 1) 0 8) ∧
    Meets { reqA (.await 1 39) 1 with legal := barrierOk 39, commit := true } (fun u t v => u.barFault t v 39 = some 0) ∧
    Meets { reqD (.arwt 1 39) 1 with legal := barrierOk 39, commit := true } (fun u t v => v.awaits = none ∧ u.barMine v (bar39 u t) = true ∧
      u.departs t v (barScope 39) none = none ∧ barEpisode (barArrive (bar39 u t)) ≠ barEpisode (bar39 u t)) ∧
    Meets { reqD (.arwt 1 39) 1 with legal := barrierOk 39, commit := true } (fun u t v => v.awaits = none ∧ u.barMine v (bar39 u t) = true ∧
      u.departs t v (barScope 39) none = none ∧ barEpisode (barArrive (bar39 u t)) = barEpisode (bar39 u t)) ∧
    Meets { reqD (.arwt 1 39) 1 with legal := barrierOk 39, commit := true } (fun u t v => v.awaits = none ∧ u.barMine v (bar39 u t) = false) ∧
    Meets { reqD (.arwt 1 39) 1 with legal := barrierOk 39, commit := true } (fun u t v => v.awaits = some 5 ∧ u.barFault t v 39 = none ∧
      (v.barOver 39 ≠ none ∨ barEpisode (bar39 u t) ≠ 5)) ∧
    Meets { reqD (.arwt 1 39) 1 with legal := barrierOk 39, commit := true } (fun u t v => v.awaits = some 5 ∧ u.barFault t v 39 = none ∧
      v.barOver 39 = none ∧ barEpisode (bar39 u t) = 5) ∧
    Meets { reqD (.arwt 1 39) 1 with legal := barrierOk 39, commit := true } (fun u t v => v.awaits = some 5 ∧ u.barFault t v 39 = some 0) ∧
    Meets { reqD (.bstat 1 39) 1 with legal := barrierOk 39, commit := true } (fun _ _ _ => True) := by
  refine ⟨by decide, by decide, meets (deskBarrier hand (barrierOf 2 0 0)) hand, here hand, meets (deskBarrier hand (barrierOf 2 0 1)) hand,
    meets (deskBarrier hand (barrierOf 2 0 0)) hand, here hand, meets (deskBarrier hand (barrierOf 1 0 0)) hand,
    meets (deskBarrier hand (barrierOf 2 0 0)) hand, here hand, meets (deskBarrier arrived (barrierOf 2 0 6)) arrived,
    meets (deskBarrier arrived (barrierOf 2 1 5)) arrived, here arrived, here hand⟩

/-! ### Witnesses: messages, migration, tasks, routing -/

/-- What `rcv` and `rtget` need, which write a pair of registers. -/
def reqPair (i : Instr) (reads : List Nat) : Req := { word := encodeNat i, regs := 126 :: reads ++ [127], reads := reads, writes := [126, 127], commit := true }

/-- The desk where the first line of the mailbox of slot 0 holds an error. -/
def deskSmudged (th : Thread) : State := { desk th with power := { (desk th).power with bad := [(mailLine 0 0, 1)] } }

theorem witness_MessageResults :
    Meets { reqAB (.send 255 1 2) 1 2 with commit := true } (fun u _ v => u.releaseHeld v 4 = some 5) ∧
    Meets { reqAB (.send 255 1 2) 1 2 with commit := true } (fun u t v => u.departs t v 4 (some (nbits (v.S 1) 0 9)) = none) ∧
    Meets (reqPair (.rcv 126) []) (fun u _ v => (u.thread? v.home).isSome = true ∧ u.mailbox v = [letter] ∧ u.mailBad v.home = false) ∧
    Meets (reqPair (.rcv 126) []) (fun u _ v => u.mailbox v ≠ [] ∧ u.mailBad v.home = true) ∧
    Meets (reqPair (.rcv 126) []) (fun u _ v => u.mailbox v = []) ∧
    Meets (reqD (.probe 1) 1) (fun _ _ _ => True) ∧
    Meets { req0 .rti with flow := true } (fun _ _ v => v.ctx.hnd = true) ∧ Meets { req0 .rti with flow := true } (fun _ _ v => v.ctx.hnd = false) :=
  ⟨meets (deskStoring hand) hand, here hand, here { hand with mailbox := [letter] },
   meets (deskSmudged { hand with mailbox := [letter] }) { hand with mailbox := [letter] }, here hand, here hand,
   here (handAt fun x => { x with hnd := true }), here hand⟩

/-- A thread in a masked section of which `n` instructions remain, this one counted. -/
def masking (n : Nat) : Thread := handAt fun x => { x with mskd := true, rem := n }

theorem witness_MaskedSections :
    Meets { req0 (.msk 64) with legal := maskBoundOk 64 } (fun _ _ v => v.ctx.mskd = false) ∧
    Meets { req0 (.msk 0) with legal := maskBoundOk 0 } (fun _ _ v => v.ctx.mskd = false) ∧
    (∃ s t th, MayExecute { req0 (.msk 0) with legal := maskBoundOk 0 } s t th ∧ th.ctx.mskd = true) ∧
    (∃ s t th, MayExecute { req0 (.msk 3) with legal := maskBoundOk 3 } s t th ∧ th.ctx.mskd = true ∧ 3 ≤ th.counted.ctx.rem) ∧
    (∃ s t th, MayExecute { req0 (.msk 4) with legal := maskBoundOk 4 } s t th ∧ th.ctx.mskd = true ∧ th.counted.ctx.rem < 4) := by
  refine ⟨here hand, here hand, ⟨desk (masking 4), 0, masking 4, may_of ?_, rfl⟩, ⟨desk (masking 4), 0, masking 4, may_of ?_, rfl, ?_⟩,
    ⟨desk (masking 4), 0, masking 4, may_of ?_, rfl, ?_⟩⟩ <;> decide +kernel

/-- The desk with core 1, where the launch holds a position and the tenant offers guest slots. -/
def deskOffer (th : Thread) (slots queued : Nat := 0) : State :=
  let m : Migrant := { home := 0, from_ := 0, thread := hand }
  let s := (desk th).modCore 1 fun x =>
    { x with imp := [(0, 0x8000), (63, 0xCFFF)], guestCfg := [(1, BitVec.ofNat 64 (1 + slots))], migrants := List.replicate queued m }
  s.modLaunch (launchKey 1 0) fun l => { l with cores := [0, 1] }
/-- A guest in slot 0 of core 0. -/
def visitor : Thread := { hand with guest := true, home := 64 }

/-- A leader that has sent its word, and its rank-mate, attached to it. -/
def sender (rs : Map Vec) : Thread := { hand rs with forme := 1, sent := 1 }
def deskSender (th : Thread) : State :=
  ((deskOffer th).setThread 64 { hand with forme := 1, midx := 1, home := 64 }).modWork fun w => { w with formes := (pairOf th 3).work.formes }

theorem witness_MigrationResults :
    Meets { reqA (.mig 1) 1 with commit := true } (fun u t v => v.casts = true ∧ u.attachedTo v ≠ [] ∧ nbits (v.S 1) 0 9 = coreOf t) ∧
    Meets { reqA (.mig 1) 1 with commit := true } (fun u t v => v.casts = true ∧ u.attachedTo v ≠ [] ∧ nbits (v.S 1) 0 9 ≠ coreOf t ∧
      u.migRefused v (nbits (v.S 1) 0 9) ≠ none) ∧
    Meets { reqA (.mig 1) 1 with commit := true } (fun u t v => v.casts = true ∧ u.attachedTo v ≠ [] ∧ nbits (v.S 1) 0 9 ≠ coreOf t ∧
      u.migRefused v (nbits (v.S 1) 0 9) = none ∧ u.migHeld t v (nbits (v.S 1) 0 9) = none) ∧
    Meets { reqA (.mig 1) 1 with commit := true } (fun u t v => v.casts = true ∧ u.attachedTo v ≠ [] ∧ nbits (v.S 1) 0 9 ≠ coreOf t ∧
      u.migRefused v (nbits (v.S 1) 0 9) = none ∧ u.migHeld t v (nbits (v.S 1) 0 9) = some 5) ∧
    Meets { reqA (.mig 1) 1 with commit := true } (fun u t v => u.attachedTo v = [] ∧ nbits (v.S 1) 0 9 = coreOf t) ∧
    Meets { reqA (.mig 1) 1 with commit := true } (fun u t v => u.attachedTo v = [] ∧ nbits (v.S 1) 0 9 ≠ coreOf t ∧
      u.migRefused v (nbits (v.S 1) 0 9) = none ∧ u.migHeld t v (nbits (v.S 1) 0 9) = none ∧ v.guest = false) ∧
    Meets { reqA (.mig 1) 1 with commit := true } (fun u t v => nbits (v.S 1) 0 9 ≠ coreOf t ∧
      u.migRefused v (nbits (v.S 1) 0 9) = none ∧ u.migHeld t v (nbits (v.S 1) 0 9) = none ∧ v.guest = true ∧ v.home ≠ t) ∧
    Meets { reqA (.mig 1) 1 with commit := true } (fun u t v => nbits (v.S 1) 0 9 ≠ coreOf t ∧
      u.migRefused v (nbits (v.S 1) 0 9) = none ∧ (u.migHeld t v (nbits (v.S 1) 0 9)).isSome = true) ∧
    Meets { reqA (.mig 1) 1 with commit := true } (fun u t v => nbits (v.S 1) 0 9 ≠ coreOf t ∧ (u.migRefused v (nbits (v.S 1) 0 9)).isSome = true) ∧
    Meets { req0 .migret with commit := true } (fun _ _ v => v.guest = false) ∧
    Meets { req0 .migret with commit := true } (fun u t v => v.guest = true ∧ v.home ≠ t ∧ v.stOut = 0 ∧ v.coming = [] ∧ u.departs t v 4 (some (coreOf v.home)) = none) ∧
    Meets (reqDA (.migst 1 2) 1 2) (fun _ _ _ => True) := by
  let guest : Thread := { visitor with ctx := { visitor.ctx with regs := [(1, 1)] } }
  exact ⟨meets (deskSender (sender [])) (sender []), meets (deskSender (sender [(1, 511)])) (sender [(1, 511)]), meets (deskSender (sender [(1, 1)])) (sender [(1, 1)]),
    meets (deskSender { sender [(1, 1)] with stOut := 1 }) { sender [(1, 1)] with stOut := 1 }, here hand, meets (deskOffer (hand [(1, 1)])) (hand [(1, 1)]),
    meets (deskOffer guest) guest, meets (deskOffer { hand [(1, 1)] with stOut := 1 }) { hand [(1, 1)] with stOut := 1 },
    here (hand [(1, 511)]), here hand, here visitor, here hand⟩

/-- A task record: entry 0x10000, one thread in one member, eight registers, core 0, no dependences (R265). -/
def taskRecord : Vec := BitVec.ofNat 512 (0x10000 + 2 ^ 128 + 2 ^ 136 + 8 * 2 ^ 144)
/-- The desk with that record in memory at 0x10040, which v1 names, and `n` dependences in v2. -/
def deskTask (n : Nat) : State :=
  let th := hand [(1, 0x10040), (2, BitVec.ofNat 512 n)]
  { desk th with mem := Memory.empty.puts ((desk th).keyData 1) (place 0x10040 (lineBytes taskRecord 0 64)) }

/-- What `spawn` of the record at 0x10040 asks before it looks at the dependences, with what is asked of these. -/
def spawns (u : State) (t : Nat) (v : Thread) (P : State → Vec → Bool) : Bool :=
  match u.resolve t v (v.S 1).toNat 64 0 with
  | .ok loc x =>
    let w := (x.taskBytes loc).2
    let r : Vec := BitVec.ofNat 512 (ofBytes (x.taskBytes loc).1)
    loc == .mem 0x10040 1 none && (v.S 1).toNat % 64 == 0 && decide ((v.S 2).toNat ≤ 4095) && !x.zeroing (0x10040 / 64) && !x.badLoc loc 64 &&
      (match u.launchOf v with | some l => l.taskOk r | none => false) && w.departs t v 4 (some (taskHome r)) == none && P w r
  | _ => false

theorem witness_TaskResults :
    Meets (reqD (.tself 1) 1) (fun _ _ _ => True) ∧
    Meets { reqDAB (.spawn 3 1 2) 3 1 2 with commit := true } (fun u t v => v.S 2 = 0 ∧ spawns u t v (fun w r =>
      decide ((w.core (taskHome r)).runList.length < 512) && (w.core (taskHome r)).waitTasks.isEmpty) = true) ∧
    Meets { reqDAB (.spawn 3 1 2) 3 1 2 with commit := true } (fun u t v => v.S 2 ≠ 0 ∧ spawns u t v (fun w r =>
      (List.range 256).find? (fun i => (mget (w.core (taskHome r)).counters i).isNone) == some 0) = true) ∧
    Meets { reqDAB (.spawn 3 1 2) 3 1 2 with commit := true } (fun _ _ v => (v.S 1).toNat % 64 ≠ 0) ∧
    Meets { reqA (.dec 1) 1 with commit := true } (fun u t v => u.departs t v 4 (some (nbits (v.S 1) 0 9)) = none) :=
  ⟨here hand, meets (deskTask 0) (hand [(1, 0x10040), (2, 0)]), meets (deskTask 4095) (hand [(1, 0x10040), (2, 4095)]), here (hand [(1, 0x10041)]), here hand⟩

/-- A configuration of one token, one expert and room for one (R273). -/
def routing : BitVec 128 := BitVec.ofNat 128 (2 ^ 8 + 2 ^ 16 + 2 ^ 32 + 2 ^ 48 + 2 ^ 64 + 2 ^ 96)
/-- A batch of launch `n` of tenant 1. -/
def batchAt (state : Nat) (n : Nat := 0) : Batch :=
  { state := state, launch := launchKey 1 n, cfg := routing, reached := 0, counted := 0, kept := [], result := [] }
/-- The desk with batch 0. -/
def deskBatch (th : Thread) (state : Nat) (n : Nat := 0) : State := (desk th).setBatch 0 (batchAt state n)
/-- The batch that a register names is in the state `k`. -/
def batchIn (u : State) (v : Thread) (a : BitVec 7) (k : Nat) : Bool := (u.batchOf (nbits (v.S a) 0 3) v.launch).map Batch.state == some k
/-- A hand with that configuration. -/
def router : Thread := hand [(1, routing.setWidth 512)]
/-- The state and the owner of the batch that a configuration names, if it has an entry. -/
def slotOfBatch (u : State) (v : Thread) : Option (Nat × Nat) := (mget u.work.batches (nbits (v.V 1) 0 3)).map fun y => (y.state, y.launch)

theorem witness_RoutingResults :
    Meets { reqDA (.rtopen 2 1) 2 1 with commit := true } (fun u t v => u.edge (coreOf t) none = false ∧ cfgOk ((v.V 1).setWidth 128) = true ∧ slotOfBatch u v = none) ∧
    Meets { reqDA (.rtopen 2 1) 2 1 with commit := true } (fun u t v => u.edge (coreOf t) none = false ∧ cfgOk ((v.V 1).setWidth 128) = true ∧ slotOfBatch u v = some (3, v.launch)) ∧
    Meets { reqDA (.rtopen 2 1) 2 1 with commit := true } (fun u t v => u.edge (coreOf t) none = false ∧ cfgOk ((v.V 1).setWidth 128) = true ∧ slotOfBatch u v = some (1, launchKey 1 5)) ∧
    Meets { reqDA (.rtopen 2 1) 2 1 with commit := true } (fun u t v => u.edge (coreOf t) none = false ∧ cfgOk ((v.V 1).setWidth 128) = true ∧ slotOfBatch u v = some (2, v.launch)) ∧
    Meets { reqDA (.rtopen 2 1) 2 1 with commit := true } (fun u t v => u.edge (coreOf t) none = false ∧ cfgOk ((v.V 1).setWidth 128) = false) ∧
    Meets { reqDAB (.rtsub 3 1 2) 3 1 2 with commit := true } (fun u t v => u.edge (coreOf t) none = false ∧ batchIn u v 2 1 = true) ∧
    Meets { reqDAB (.rtsub 3 1 2) 3 1 2 with commit := true } (fun u t v => u.edge (coreOf t) none = false ∧ batchIn u v 2 2 = true) ∧
    Meets { reqDA (.rtclose 2 1) 2 1 with commit := true } (fun u t v => u.edge (coreOf t) none = false ∧ batchIn u v 1 1 = true) ∧
    Meets (reqPair (.rtget 126 1 2) [1, 2]) (fun u t v => u.edge (coreOf t) none = false ∧ batchIn u v 2 3 = true ∧ nbits (v.S 1) 0 16 < cfgN routing) ∧
    Meets (reqPair (.rtget 126 1 2) [1, 2]) (fun u t v => u.edge (coreOf t) none = false ∧ batchIn u v 2 3 = true ∧ cfgN routing ≤ nbits (v.S 1) 0 16) ∧
    Meets (reqPair (.rtget 126 1 2) [1, 2]) (fun u t v => u.edge (coreOf t) none = false ∧ batchIn u v 2 2 = true) ∧
    Meets { reqDA (.rtstat 2 1) 2 1 with commit := true } (fun u t _ => u.edge (coreOf t) none = false) ∧
    Meets { reqDAB (.rtsub 3 1 2) 3 1 2 with commit := true } (fun u t v => u.edge (coreOf t) none = false ∧ u.batchOf (nbits (v.S 2) 0 3) v.launch = none) ∧
    Meets { reqDA (.rtclose 2 1) 2 1 with commit := true } (fun u t v => u.edge (coreOf t) none = false ∧ u.batchOf (nbits (v.S 1) 0 3) v.launch = none) ∧
    Meets (reqPair (.rtget 126 1 2) [1, 2]) (fun u t v => u.edge (coreOf t) none = false ∧ u.batchOf (nbits (v.S 2) 0 3) v.launch = none) := by
  refine ⟨here router, meets (deskBatch router 3) router, meets (deskBatch router 1 5) router, meets (deskBatch router 2) router, here hand,
    meets (deskBatch hand 1) hand, meets (deskBatch hand 2) hand, meets (deskBatch hand 1) hand, meets (deskBatch hand 3) hand,
    meets (deskBatch (hand [(1, 1)]) 3) (hand [(1, 1)]), meets (deskBatch hand 2) hand, here hand, here hand, here hand, here hand⟩

/-! ### Witnesses: memory -/

/-- The search found a location, with `P` of what it found. -/
def Access.found (a : Access) (P : Loc → State → Bool) : Bool := match a with
  | .ok loc w => P loc w
  | _ => false

/-- A hand whose v1 holds an address. -/
def pointing (a : Nat) : Thread := hand [(1, BitVec.ofNat 512 a)]

/-- Both clauses of a load's statement. -/
def LoadMeets (q : Req) (sz : Nat) (ea : Thread → Dword) : Prop :=
  Meets { q with access := true } (fun u t v => (ea v).toNat % loadBytes sz = 0 ∧
    Access.found (u.resolve t v (ea v).toNat (loadBytes sz) 0) (fun loc w => !w.storePending v loc && !w.siteFull (coreOf t) v (v.PC q)) = true) ∧
  Meets { q with access := true } (fun _ _ v => (ea v).toNat % loadBytes sz ≠ 0)

theorem witness_LoadsIssue :
    LoadMeets { reqDA (.ld 9 1 3 1) 9 1 with legal := loadSizeOk 3 } 3 (fun th => th.S 1 + (1 : BitVec 6).signExtend 64 <<< sizeLog 3) ∧
    LoadMeets { reqDAB (.ldx 9 1 2 6 3) 9 1 2 with legal := loadSizeOk 6 } 6 (fun th => th.S 1 + th.S 2 <<< 3) ∧
    LoadMeets (reqDA (.vld 9 1 1) 9 1) 7 (fun th => th.S 1 + (1 : BitVec 12).signExtend 64 <<< 6) ∧
    LoadMeets { reqDA (.lda 9 1 1 4 0) 9 1 with legal := loadSizeOk 1 && scopeOk 4 } 1 (fun th => th.S 1 + (0 : BitVec 6).signExtend 64 <<< sizeLog 1) :=
  ⟨⟨here (pointing 0x10040), here (pointing 0x10041)⟩, ⟨here (pointing 0x10040), here (pointing 0x10042)⟩,
   ⟨here (pointing 0x10040), here (pointing 0x10020)⟩, ⟨here (pointing 0x10040), here (pointing 0x10041)⟩⟩

/-- The load that its data return for. -/
def returning (th : Thread) (id : Nat) : Option Load := th.rob.findSome? fun e => match e.load with
  | some l => if l.id == id && !l.landed then some l else none
  | none => none

theorem witness_LoadReturns :
    (∃ s : State, s.thread? 0 = some loading ∧ returning loading 1 = some coming ∧ s.loadWaits 0 loading coming = true) ∧
    (∃ s : State, s.thread? 0 = some loading ∧ returning loading 1 = some coming ∧ s.loadWaits 0 loading coming = false ∧ s.unanswered coming.loc = none ∧
      s.loadLost 0 coming = none ∧ coming.loc.inBlock = none ∧ (loading.rob.all fun e => match e.load with | some m => m.lost.isNone | none => true) = true) ∧
    (∃ s : State, s.thread? 0 = some loading ∧ returning loading 1 = some coming ∧ s.loadWaits 0 loading coming = false ∧ s.unanswered coming.loc = none ∧
      s.loadLost 0 coming = some 0x07 ∧
      loading.rob.head?.map Rob.load = some (some coming) ∧ loading.pl = 0) ∧
    (∃ s : State, 0x10100 % 64 + 64 ≤ 64 ∧ mget (s.core 0).l1d (cacheTag 0x10100 1) = none ∧ homeDie 0x10100 = some (dieOf 0)) ∧
    (∃ s : State, 0x10100 % 64 + 64 ≤ 64 ∧ mget (s.core 128).l1d (cacheTag 0x10100 1) = none ∧ homeDie 0x10100 ≠ some (dieOf 128) ∧
      mget (s.die (dieOf 128)).rdc (cacheTag 0x10100 1) = none) ∧
    (∃ s : State, mget (s.core 0).l1d (cacheTag 0x10100 1) = some 7) :=
  ⟨found { desk loading with power := { State.reset.power with zeroing := [(1028, 1, 1)] } }, found (desk loading),
   found { desk loading with power := { State.reset.power with bad := [(1028, 1)] } }, found (desk hand), found (desk hand),
   found ((desk hand).modCore 0 fun x => { x with l1d := [(cacheTag 0x10100 1, 7)] })⟩

/-- The leaf of a block window. -/
def blockLeaf : Dword := BitVec.ofNat 64 (2 ^ 63 + 2 ^ 62 + 2 ^ 61 + 0x2000000 + 3)
/-- The desk whose core caches that leaf, of one entry for block 3 under key 1 (R314, R315), and a leaf of peer window 2, which allows all accesses in 64 KiB (R387, R388), with
that many migrations queued on the die. -/
def deskBlock (th : Thread) (cow count queued : Nat) : State :=
  let s := desk th
  let m : Mig := { id := 1, cow := false, entry := 0, va := 0, tenant := 1, die := 0, tier := 0, tag := 0, state := .queued, newBlk := 0, oldBlk := 0, waiters := [] }
  let t : Tlb := { tenant := 1, base := 0x40000000, size := 2 ^ 30, pte := blockLeaf, dirty := true }
  let p : Tlb := { tenant := 1, base := 0x80000000, size := 4096, pte := BitVec.ofNat 64 (2 ^ 63 + 2 ^ 62 + 2 ^ 46 + 0x200000000000 + 2 * 2 ^ 41 + 3), dirty := true }
  let s := s.modCore 0 fun x => { x with tlb := t :: p :: x.tlb }
  let s := s.modHost fun x => { x with windows := [(2, { tenant := 1, dest := 0, remote := 5, units := 1, perm := 7 })] }
  (s.modTables fun x => { x with blks := [(0x2000000, blkMake 0 cow 1 0x30000)], bcount := [(3, count)] }).modDie 0 fun x =>
    { x with migQ := List.replicate queued m }
/-- Where those windows lie. -/
def inBlocks : Thread := pointing 0x40000000
def inPeer : Thread := pointing 0x80000000

/-- What a write of the block window comes to: in place, with the access below the threshold, or with no room to copy. -/
def inPlace (u : State) (v : Thread) (b ea t : Nat) : Bool := match u.blockWrite (dieOf (coreOf t)) b ea v.tenant t with
  | .inPlace x => decide (blkAcc (x.blk b) + 1 < (match x.tenant? v.tenant with | some y => y.accthr | none => 256))
  | _ => false
def noRoom (u : State) (v : Thread) (b ea t : Nat) : Bool := match u.blockWrite (dieOf (coreOf t)) b ea v.tenant t with
  | .full => true
  | _ => false

/-- What every clause of a store asks that sends it. -/
def sends (q : Req) (align n : Nat) (ea : Thread → Dword) (scope : Option Nat) (P : Loc → State → Bool) (u : State) (t : Nat) (v : Thread) : Bool :=
  (ea v).toNat % align == 0 && (scope.bind fun c => u.releaseHeld v c) == none && !v.heldApplied && !u.queuedWrite t && decide (v.stores < 255) &&
    Access.found (u.resolve t v ((ea v).toNat - (ea v).toNat % n) n 1) P && q.level == 0

/-- The clauses that every store has: applied, with its location found outside a block window, and not aligned. -/
def StoreMeets (q : Req) (align n : Nat) (ea : Thread → Dword) (scope : Option Nat) : Prop :=
  let req : Req := { q with access := true, commit := q.commit || scope.isSome }
  Meets req (fun u _ v => (ea v).toNat % align = 0 ∧ (scope.bind fun c => u.releaseHeld v c) = none ∧ v.heldApplied = true) ∧
  Meets req (fun u t v => sends q align n ea scope (fun loc _ => loc.inBlock == none) u t v = true ∧ v.rob = []) ∧
  (align = 1 ∨ Meets req (fun _ _ v => (ea v).toNat % align ≠ 0))

/-- A write that a remap has applied. -/
def appliedAt (a : Nat) : Thread :=
  { pointing a with held := some { req := { loc := .mem 0x30000 1 none, writes := [] }, atom := none, va := a, applied := true, old := 0, pair := false } }

theorem witness_StoresIssue :
    StoreMeets { reqAB (.st 1 1 3 1) 1 1 with legal := storeSizeOk 3 } 8 8 (fun th => th.S 1 + (1 : BitVec 7).signExtend 64 <<< 3) none ∧
    StoreMeets { word := encodeNat (.stx 2 1 3 0 0), regs := [2, 1, 3], reads := [2, 1, 3], legal := storeSizeOk 0 } 1 1 (fun th => th.S 1 + th.S 3 <<< 0) none ∧
    StoreMeets (reqAB (.vst 1 1 0) 1 1) 64 64 (fun th => th.S 1 + (0 : BitVec 12).signExtend 64 <<< 6) none ∧
    StoreMeets { reqAB (.stl 1 1 2 5 0) 1 1 with legal := storeSizeOk 2 && scopeOk 5 } 4 4 (fun th => th.S 1 + (0 : BitVec 6).signExtend 64 <<< 2) (some 5) ∧
    StoreMeets { reqA (.zline 1 1) 1 with commit := true } 1 64 (fun th => th.S 1 + (1 : BitVec 12).signExtend 64 <<< 6) none :=
  ⟨⟨here (appliedAt 0x10040), here (pointing 0x10040), .inr (here (pointing 0x10041))⟩, ⟨here (appliedAt 0x10040), here (pointing 0x10fff), .inl rfl⟩,
   ⟨here (appliedAt 0x10040), here (pointing 0x10fc0), .inr (here (pointing 0x10fe0))⟩,
   ⟨here (appliedAt 0x10040), here (pointing 0x10040), .inr (here (pointing 0x10042))⟩, ⟨here (appliedAt 0x10040), here (pointing 0x10041), .inl rfl⟩⟩

/-- A store behind a load, and the clauses of a store in the block window. -/
theorem witness_StoresIssue_block :
    let q : Req := { reqAB (.st 1 1 3 1) 1 1 with legal := storeSizeOk 3 }
    let ea : Thread → Dword := fun th => th.S 1 + (1 : BitVec 7).signExtend 64 <<< 3
    Meets { q with access := true } (fun u t v => sends q 8 8 ea none (fun loc _ => loc.inBlock == none) u t v = true ∧ v.rob ≠ []) ∧
    Meets { q with access := true } (fun u t v => sends q 8 8 ea none (fun loc w => match loc with
      | .mem pa _ (some b) => !w.zeroing (pa / 64) && !w.lineBusy (coreOf t) v.home loc && inPlace w v b (ea v).toNat t
      | _ => false) u t v = true ∧ v.rob = []) ∧
    Meets { q with access := true } (fun u t v => sends q 8 8 ea none (fun loc w => match loc with
      | .mem pa _ (some b) => !w.zeroing (pa / 64) && !w.lineBusy (coreOf t) v.home loc && noRoom w v b (ea v).toNat t
      | _ => false) u t v = true ∧ v.rob = []) :=
  ⟨here { pointing 0x10040 with rob := loading.rob }, meets (deskBlock inBlocks 0 1 0) inBlocks, meets (deskBlock inBlocks 1 2 64) inBlocks⟩

/-- A store to the scratchpad, on its way, and a write to a peer. -/
def toScratch : Store := { underWay with req := { loc := .scratch 0 8, writes := [(8, 1)] } }
def toPeer : PeerOp := { id := 7, tid := 0, core := 0, launch := launchKey 1 0, window := 2, writes := [(0x10FF, 1)], counted := true, who := 0 }

theorem witness_StoresArrive :
    (∃ s : State, s.flight.stores.find? (fun y => y.id == 1) = some underWay ∧ underWay.req.loc = .mem 0x10000 1 none ∧ s.zeroing (0x10000 / 64) = false ∧
      storeFirst 1 underWay s.flight.stores = true) ∧
    (∃ s : State, s.flight.stores.find? (fun y => y.id == 1) = some underWay ∧ s.zeroing (0x10000 / 64) = true) ∧
    (∃ s : State, s.flight.stores.find? (fun y => y.id == 2) = some { underWay with id := 2 } ∧ storeFirst 2 { underWay with id := 2 } s.flight.stores = false) ∧
    (∃ s : State, s.flight.stores.find? (fun y => y.id == 1) = some toScratch ∧ storeFirst 1 toScratch s.flight.stores = true) ∧
    (∃ s : State, (s.flight.invals.any fun x => x.line == 1024 && x.dies.contains 3) = true) ∧
    (∃ s : State, s.flight.peers.find? (fun y => y.id == 7) = some toPeer ∧ s.mute toPeer.window = false ∧
      (toPeer.writes.all fun w => s.peerAllows toPeer.window w.1 1 1) = true) ∧
    (∃ s : State, s.flight.peers.find? (fun y => y.id == 7) = some toPeer ∧ s.mute toPeer.window = false ∧
      (toPeer.writes.all fun w => s.peerAllows toPeer.window w.1 1 1) = false ∧ toPeer.tid < 65536 ∧ toPeer.who < 32768 ∧
      (s.thread? toPeer.who).isSome = true) :=
  ⟨found (deskStoring hand), found { deskStoring hand with power := { State.reset.power with zeroing := [(1024, 1, 1)] } },
   found ((desk hand).modFlight fun f => { f with stores := [underWay, { underWay with id := 2 }] }),
   found ((desk hand).modFlight fun f => { f with stores := [toScratch] }),
   found ((desk hand).modFlight fun f => { f with invals := [{ id := 1, tid := 0, line := 1024, dies := [1, 3] }] }),
   found ((deskBlock hand 0 1 0).modFlight fun f => { f with peers := [toPeer] }), found ((desk hand).modFlight fun f => { f with peers := [toPeer] })⟩

theorem witness_MemoryReadsBack : Memory.empty.tagged ∧ (Memory.empty.put 5 64 1).tagged := by
  constructor
  · intro a h; simp [Memory.empty, mget] at h
  · intro a h
    have e : Memory.empty.put 5 64 1 = { cells := [(64, 1)], tags := [(1, 5)] } := by decide +kernel
    rw [e] at h ⊢
    simp only [mget] at h ⊢
    split at h
    · rename_i k; subst k; rfl
    · simp at h

/-- What every clause of an atomic asks that performs it. -/
def performs (n : Nat) (ordered : Bool) (a : BitVec 7) (P : Loc → State → Bool) (u : State) (t : Nat) (v : Thread) : Bool :=
  !v.heldApplied && !u.queuedWrite t && (v.S a).toNat % n == 0 && (!ordered || u.releaseHeld v 4 == none) &&
    Access.found (u.resolve t v (v.S a).toNat n 2) (fun loc w => !w.storePending v loc && !w.seenStore (coreOf t) loc && P loc w)

/-- The clauses of an atomic: applied, on memory, the scratchpad, the local store, a peer and a block window, and not aligned. -/
def AtomicMeets (q : Req) (n : Nat) (ordered : Bool) (a : BitVec 7) : Prop :=
  let req : Req := { q with access := true, commit := true }
  Meets req (fun _ _ v => v.held.map Held.applied = some true) ∧
  Meets req (fun u t v => performs n ordered a (fun loc w => match loc with
    | .mem pa _ none => !w.zeroing (pa / 64) && !w.badAt pa n
    | _ => false) u t v = true) ∧
  Meets req (fun u t v => performs n ordered a (fun loc w => match loc with | .scratch _ _ => !w.badLoc loc n | _ => false) u t v = true) ∧
  Meets req (fun u t v => performs n ordered a (fun loc w => match loc with | .localStore _ _ _ => !w.badLoc loc n | _ => false) u t v = true) ∧
  Meets req (fun u t v => performs n ordered a (fun loc w => match loc with | .peer k off => !w.mute k && w.peerAllows k off n 2 | _ => false) u t v = true) ∧
  Meets req (fun u t v => performs n ordered a (fun loc w => match loc with
    | .mem pa _ (some e) => !w.zeroing (pa / 64) && inPlace w v e (v.S a).toNat t && !w.badAt pa n
    | _ => false) u t v = true) ∧
  Meets req (fun u t v => v.heldApplied = false ∧ u.queuedWrite t = false ∧ (v.S a).toNat % n ≠ 0)

theorem witness_AtomicsPerform :
    AtomicMeets (reqDAB (.atomAdd 3 1 2 1) 3 1 2) 8 false 1 ∧ AtomicMeets (reqDAB (.atomoMaxn 3 1 2 0) 3 1 2) 4 true 1 ∧
    AtomicMeets (reqXAB (.atomCas 3 1 2 1) 3 1 2) 8 false 1 ∧ AtomicMeets (reqXAB (.atomoCas 3 1 2 0) 3 1 2) 4 true 1 ∧
    AtomicMeets (reqDAB (.atomFaddF32 3 1 2) 3 1 2) 4 false 1 ∧ AtomicMeets (reqDAB (.atomFaddBf16 3 1 2) 3 1 2) 2 false 1 ∧
    AtomicMeets (reqDAB (.atomoFaddF32 3 1 2) 3 1 2) 4 true 1 ∧ AtomicMeets (reqDAB (.atomoFaddBf16 3 1 2) 3 1 2) 2 true 1 := by
  refine ⟨?_, ?_, ?_, ?_, ?_, ?_, ?_, ?_⟩ <;>
    exact ⟨here (appliedAt 0x10040), here (pointing 0x10ff8), here (pointing (0xFF0 * 2 ^ 52 + 0xFFF8)), here (pointing (0xFF1 * 2 ^ 52 + 0x3F8)),
      meets (deskBlock inPeer 0 1 0) inPeer, meets (deskBlock inBlocks 0 1 0) inBlocks, here (pointing 0x10041)⟩

theorem witness_CacheAndFences :
    Meets { reqA (.pref 1 1) 1 with access := true } (fun _ _ _ => True) ∧ Meets { reqA (.prefl2 1 1) 1 with access := true } (fun _ _ _ => True) ∧
    Meets { reqA (.l1inv 1 1) 1 with access := true, commit := true } (fun _ _ v => onChipWindow (v.S 1 + (1 : BitVec 12).signExtend 64 <<< 6).toNat = true) ∧
    Meets { reqA (.l1inv 1 1) 1 with access := true, commit := true } (fun u t v =>
      let ea := (v.S 1 + (1 : BitVec 12).signExtend 64 <<< 6).toNat
      onChipWindow ea = false ∧ Access.found (u.resolve t v (ea - ea % 64) 64 4) (fun loc _ => loc == .mem 0x10080 1 none) = true) ∧
    Meets { req0 (.fenceAcq 5) with legal := scopeOk 5, access := true, commit := true } (fun _ _ _ => True) ∧
    Meets { req0 (.fenceRel 4) with legal := scopeOk 4, access := true, commit := true } (fun u _ v => u.releaseHeld v 4 = none) ∧
    Meets { req0 (.fenceRel 4) with legal := scopeOk 4, access := true, commit := true } (fun u _ v => u.releaseHeld v 4 ≠ none) ∧
    Meets { req0 (.fenceFull 1) with legal := scopeOk 1, access := true, commit := true } (fun u _ v => u.releaseHeld v 1 = none) ∧
    Meets { req0 (.fenceFull 1) with legal := scopeOk 1, access := true, commit := true } (fun u _ v => u.releaseHeld v 1 ≠ none) ∧
    Meets { req0 (.fenceWb 0) with legal := scopeOk 0, access := true, commit := true } (fun u _ v => u.releaseHeld v 0 = none ∧ u.releaseHeld v 1 = none) :=
  ⟨here hand, here hand, here (pointing (0xFF1 * 2 ^ 52)), here (pointing 0x10041), here hand, here hand, meets (deskStoring hand) hand, here hand,
   meets (deskStoring hand) hand, here hand⟩

/-- The word of an instruction. -/
def wordOf (i : Instr) : Word := BitVec.ofNat 32 (encodeNat i)

/-- A pair may execute at the desk, its second word the word of `i`. -/
def PairMeets (i : Instr) (q : Req) : Prop :=
  decodeMain (wordOf i) = .ok i ∧ ∃ s t th, MayExecute (pairReq q 0x3FFFFFF (wordOf i) s) s t th

theorem pair_meets {i : Instr} {q : Req} (h : (match decodeMain (wordOf i) with | .ok j => j == i | .error _ => false) = true := by decide +kernel)
    (k : allowed (pairReq q 0x3FFFFFF (wordOf i) (desk hand)) (desk hand) 0 hand = true := by decide +kernel) : PairMeets i q := by
  refine ⟨?_, desk hand, 0, hand, may_of k⟩
  split at h
  · rename_i j e; rw [e, beq_iff_eq.mp h]
  · exact absurd h Bool.false_ne_true

/-- An immediate of v4 into v1, in a pair. -/
def ImmediatePair (f : BitVec 7 → BitVec 7 → BitVec 12 → Instr) : Prop := PairMeets (f 1 4 1) (reqDA (f 1 4 1) 1 4)

theorem witness_PairResults :
    ImmediatePair .addi ∧ ImmediatePair .andi ∧ ImmediatePair .ori ∧ ImmediatePair .xori ∧
    PairMeets (.slti 1 4 1) (reqDA (.slti 1 4 1) 1 4) ∧ PairMeets (.movi 1 1) (reqD (.movi 1 1) 1) ∧
    PairMeets (.jmp 1) { req0 (.jmp 1) with flow := true } ∧ PairMeets (.call 1) { req0 (.call 1) with flow := true } ∧
    (∃ e, decodeMain 0xFFFFFFFF = .error e ∧ (desk hand).sched.cur = 0 ∧ (desk hand).thread? 0 = some hand ∧ hand.rob = []) := by
  refine ⟨pair_meets, pair_meets, pair_meets, pair_meets, pair_meets, pair_meets, pair_meets, pair_meets, ?_⟩
  have h : (match decodeMain 0xFFFFFFFF with | .ok _ => false | .error _ => true) = true := by decide +kernel
  split at h
  · exact absurd h Bool.false_ne_true
  · rename_i e he; exact ⟨e, he, by decide +kernel⟩

/-! ### Witnesses: regions -/

/-- A region of rank 1 in i32, with one grant at the page 0x10000, whose node 0 is an empty leaf and the root (R208, R210). -/
def plot : Region :=
  { tenant := 1, rank := 1, ty := 0, extents := [16], die := 0, grqb := 0, root := 0, free := [(1, 15)], grants := [some 0x10000], entries := 0,
    height := 1, broken := false, closing := false, ops := [], found := none }
/-- The page tables that map the page 0x10000. -/
def pageTables : Map Dword :=
  let link (m : Map Dword) (k : Nat) : Map Dword := mput m (setupTable k) (BitVec.ofNat 64 (2 ^ 63 + setupTable (k + 1)))
  mput ((List.range 3).foldl link []) (setupTable 3 + 8 * 16) setupPte
/-- The desk with that region as region 3, its root holding `es`, its page mapped. -/
def deskRegion (th : Thread) (r : Region) (es : List (Nat × Nat) := []) : State :=
  let s := desk th
  { s with
    regions := [(3, r)], tables := { s.tables with ptes := pageTables },
    mem := { cells := place 0x10000 (nodeBytes 3 r (leafNode es noNode)), tags := (List.range 4).map fun k => (1024 + k, s.keyData 1) } }

/-- The coordinate that a region instruction names. -/
def coordIn (v : Thread) : Option (BitVec 7) → Nat
  | some a => (v.V a).toNat % 2 ^ 128
  | none => 0

/-- The operation is carried out, and needs nodes that the region lacks or not. -/
def finishes (short : Bool) (o : RegOut) : Bool := match o with
  | .done p w => p.short.isSome == short && (w.thread? 0).isSome
  | _ => false
/-- The plan of an operation is carried out on region 3 of the tenant. -/
def plans (short cursor : Bool) (coord : Option (BitVec 7)) (plan : State → Region → Thread → Nat → Except RegErr Plan) (u : State) (t : Nat) (v : Thread) : Bool :=
  !u.edge (coreOf t) none && (u.resumeBreak 3 v.who).isNone && match u.regionFor v.tenant 3 with
    | .ok r0 => (coord.bind fun a => regCheck 3 (r0.mine v.who) ((v.V a).toNat % 2 ^ 128) cursor).isNone &&
        finishes short (u.regApply 3 (r0.mine v.who) v.who v.launch (plan u (r0.mine v.who) v (coordIn v coord)))
    | .error _ => false

/-- The clauses of a region instruction on the coordinate in v1: carried out, and of no region. -/
def RegionMeets (q : Req) (cursor : Bool) (coord : Option (BitVec 7)) (plan : State → Region → Thread → Nat → Except RegErr Plan) : Prop :=
  Meets { q with access := true, commit := true } (fun u t v => plans false cursor coord plan u t v = true) ∧
  Meets { q with access := true, commit := true } (fun u t v => u.edge (coreOf t) none = false ∧ (u.resumeBreak 3 v.who).isNone = true ∧
    (match u.regionFor v.tenant 3 with | .error _ => true | _ => false) = true)

/-- A region whose leaf is full and that can grow no further. -/
def fullPlot : Region := { plot with extents := [32], free := [], grants := some 0x10000 :: List.replicate 15 none, entries := 15 }
/-- The plan of an `sst` of v1. -/
def putting (s : State) (r : Region) (th : Thread) (key : Nat) : Except RegErr Plan := s.planWrite 3 r key fun _ => regOperand r.ty (th.S 1)

theorem witness_SparseResults :
    RegionMeets (reqDA (.sld 9 1 3) 9 1) false (some 1) (fun s r _ key => (s.regRead 3 r key).map (answer r)) ∧
    RegionMeets (reqAB (.sst 1 1 3) 1 1) false (some 1) putting ∧
    RegionMeets (reqXA (.sadd 9 1 3) 9 1) false (some 1) (fun s r th key => s.planWrite 3 r key fun old => regAdd r.ty old (regOperand r.ty (th.S 9))) ∧
    RegionMeets (reqDA (.scan 9 1 0 3) 9 1) true (some 1) (fun s r _ cur => (s.regScan 3 r cur ((0 : BitVec 2).toNat + 1)).map fun es => answer r (scanSlots es)) ∧
    RegionMeets (reqD (.scnt 9 3) 9) false none (fun _ r _ _ => .ok (answer r (r.entries % 2 ^ 40 + Nat.min r.freeCount (2 ^ 24 - 1) * 2 ^ 40))) ∧
    Meets { reqAB (.sst 1 1 3) 1 1 with access := true, commit := true } (fun u t v => u.edge (coreOf t) none = false ∧ (u.resumeBreak 3 v.who).isNone = true ∧
      (match u.regionFor v.tenant 3 with | .ok r => (regCheck 3 r ((v.V 1).toNat % 2 ^ 128) false).isSome | .error _ => false) = true) ∧
    Meets { reqAB (.sst 1 1 3) 1 1 with access := true, commit := true } (fun u t v => plans true false (some 1) putting u t v = true) :=
  let at15 : State := deskRegion (pointing 15) plot
  ⟨⟨meets at15 (pointing 15), here (pointing 15)⟩, ⟨meets at15 (pointing 15), here (pointing 15)⟩, ⟨meets at15 (pointing 15), here (pointing 15)⟩,
   ⟨meets at15 (pointing 15), here (pointing 15)⟩, ⟨meets at15 (pointing 15), here (pointing 15)⟩, meets (deskRegion (pointing 16) plot) (pointing 16),
   meets (deskRegion (pointing 31) fullPlot ((List.range 15).map fun j => (j, 1))) (pointing 31)⟩

/-! ### Witnesses: engines -/

/-- A shape of rank 1, of one element, in slot 0 with GEN 1, and its handle. -/
def shapeRecord : Vec := BitVec.ofNat 512 (2 ^ 72 + 2 ^ 80 + 2 ^ 96 + 2 ^ 128 + 2 ^ 160 + 2 ^ 192 + 2 ^ 224)
def shapeHandle : Vec := BitVec.ofNat 512 (2 ^ 20)
def deskShape (th : Thread) : State := (desk th).modTables fun x => { x with shapes := [(0x4000000, shapeRecord)] }

/-- What every clause of an engine command asks before it looks at the operands. -/
def queues (u : State) (t : Nat) (v : Thread) (matrix : Bool) (tiles : Nat) : Bool :=
  u.releaseHeld v 3 == none && u.queueRoom (coreOf t) v.launch matrix && decide ((u.homeThread v).cpOut < 255) && decide ((u.homeThread v).mxOut + tiles ≤ 511)

/-- The clauses of an engine command: it is queued, it is discarded after a failure, and its operands are refused. -/
def EngineMeets (q : Req) (matrix : Bool) (tiles : Thread → Nat) (check : State → Thread → Refusal281) : Prop :=
  let req : Req := { q with access := true, commit := true }
  Meets req (fun u t v => queues u t v matrix (tiles v) = true ∧ check u v = none ∧ (u.ctxOf v.home matrix).failed = none) ∧
  Meets req (fun u t v => queues u t v matrix (tiles v) = true ∧ check u v = none ∧ (u.ctxOf v.home matrix).failed ≠ none) ∧
  Meets req (fun u t v => queues u t v matrix (tiles v) = true ∧ check u v ≠ none)

/-- A hand whose engine contexts have failed at command 1. -/
def failing (rs : Map Vec) : Thread :=
  { hand rs with copy := { Eng.zero with issued := 1, failed := some (1, 1) }, matrix := { Eng.zero with issued := 1, failed := some (1, 1) } }
/-- A hand whose operands are all ones. -/
def ones : Thread := hand ([1, 2, 3].map fun n => (n, BitVec.allOnes 512))

theorem engine_meets {q : Req} {matrix : Bool} {tiles : Thread → Nat} {check : State → Thread → Refusal281} (rs : Map Vec)
    (h : (meet { q with access := true, commit := true } (fun u t v => queues u t v matrix (tiles v) = true ∧ check u v = none ∧
      (u.ctxOf v.home matrix).failed = none) (deskShape (hand rs)) (hand rs) &&
      meet { q with access := true, commit := true } (fun u t v => queues u t v matrix (tiles v) = true ∧ check u v = none ∧
      (u.ctxOf v.home matrix).failed ≠ none) (deskShape (failing rs)) (failing rs) &&
      meet { q with access := true, commit := true } (fun u t v => queues u t v matrix (tiles v) = true ∧ check u v ≠ none) (deskShape ones) ones) = true := by
        decide +kernel) : EngineMeets q matrix tiles check := by
  simp only [Bool.and_eq_true] at h
  exact ⟨meets _ _ h.1.1, meets _ _ h.1.2, meets _ _ h.2⟩

/-- Commands of two and of three operands in v1, v2 and v3. -/
abbrev copies2 (i : BitVec 7 → BitVec 7 → Instr) (check : State → Thread → Refusal281) : Prop := EngineMeets (reqEng (i 1 2) [1, 2]) false (fun _ => 0) check
abbrev copies3 (i : BitVec 7 → BitVec 7 → BitVec 7 → Instr) (check : State → Thread → Refusal281) : Prop :=
  EngineMeets (reqEng (i 1 2 3) [1, 2, 3]) false (fun _ => 0) check

theorem witness_CopyCommands :
    copies2 .cpld (fun s th => firstRefusal [operandRule (placeOk (th.V 1)) (th.V 1), boxRule (th.V 2), staleRule s th (th.V 2)]) ∧
    copies2 .cpst (fun s th => firstRefusal [boxRule (th.V 1), operandRule (placeOk (th.V 2)) (th.V 2), staleRule s th (th.V 1)]) ∧
    copies3 .cpadd (fun s th => firstRefusal [boxRule (th.V 1), operandRule (placeOk (th.V 2)) (th.V 2),
      operandRule (nbits (th.V 3) 1 15 == 0 && nbits (th.V 3) 28 36 == 0) (th.V 3), staleRule s th (th.V 1)]) ∧
    copies3 .cpgat (fun s th => firstRefusal [operandRule (placeOk (th.V 1)) (th.V 1), rowBoxRule (th.V 2), indexRule (th.V 3), staleRule s th (th.V 2)]) ∧
    copies3 .cpsca (fun s th => firstRefusal [rowBoxRule (th.V 1), operandRule (placeOk (th.V 2)) (th.V 2), indexRule (th.V 3), staleRule s th (th.V 1)]) ∧
    copies2 .kvld (fun _ th => firstRefusal [operandRule (placeOk (th.V 1) && placeRing (th.V 1)) (th.V 1), kvRule (th.V 2)]) ∧
    copies3 .dens (fun s th => firstRefusal [boxRule (th.V 1), operandRule (nbits (th.V 2) 4 60 == 0) (th.V 2), staleRule s th (th.V 1)]) ∧
    copies2 .cpfill (fun s th => firstRefusal [boxRule (th.V 1), staleRule s th (th.V 1)]) ∧
    copies3 .cpcopy (fun _ th => operandRule (1 ≤ (th.S 3).toNat && decide ((th.S 3).toNat ≤ 2 ^ 32)) (th.V 3)) ∧
    copies3 .rpush (fun _ th => firstRefusal [operandRule (placeOk (th.V 2)) (th.V 2), ringLenRule (th.V 3)]) ∧
    copies3 .rpop (fun _ th => firstRefusal [operandRule (placeOk (th.V 1)) (th.V 1), ringLenRule (th.V 3)]) :=
  ⟨engine_meets [(2, shapeHandle)], engine_meets [(1, shapeHandle)], engine_meets [(1, shapeHandle)],
   engine_meets [(2, shapeHandle), (3, BitVec.ofNat 512 (2 ^ 32))], engine_meets [(1, shapeHandle), (3, BitVec.ofNat 512 (2 ^ 32))],
   engine_meets [(1, BitVec.ofNat 512 (2 ^ 31)), (2, BitVec.ofNat 512 (2 ^ 128))], engine_meets [(1, shapeHandle)], engine_meets [(1, shapeHandle)],
   engine_meets [(3, BitVec.ofNat 512 (2 ^ 32))], engine_meets [(3, 131072)], engine_meets [(3, 1)]⟩

theorem witness_MatrixCommands :
    EngineMeets (reqEng (.mma 1 2 3) [1, 2, 3]) true (fun th => nbits (th.V 3) 8 8 + 1) (fun _ th =>
      firstRefusal [operandRule (placeOk (th.V 1)) (th.V 1), operandRule (placeOk (th.V 2)) (th.V 2), tileRule false (th.V 3)]) ∧
    EngineMeets (reqEng (.smma 1 2 3) [1, 2, 3]) true (fun th => nbits (th.V 3) 8 8 + 1) (fun _ th =>
      firstRefusal [operandRule (placeOk (th.V 1)) (th.V 1), operandRule (placeOk (th.V 2)) (th.V 2), tileRule true (th.V 3)]) ∧
    EngineMeets (reqEng (.mzero 1) [1]) true (fun _ => 1) (fun _ th => operandRule (nbits (th.V 1) 3 61 == 0) (th.V 1)) ∧
    EngineMeets (reqEng (.mdrain 1 3) [1, 3]) true (fun _ => 1) (fun s th => firstRefusal [boxRule (th.V 1),
      operandRule (nbits (th.V 3) 28 36 == 0 && nbits (th.V 3) 8 8 == 0 && nbits (th.V 3) 3 1 == 0 && nbits (th.V 3) 4 2 != 3) (th.V 3),
      staleRule s th (th.V 1), drainBoxRule s th (th.V 1)]) :=
  ⟨engine_meets [(3, BitVec.ofNat 512 (255 * 2 ^ 8))], engine_meets [(3, BitVec.ofNat 512 (2 ^ 17))], engine_meets [(1, 7)],
   engine_meets [(1, shapeHandle), (3, 7)]⟩

/-- A ring of launch `n` with one slot. -/
def hoop (n : Nat := 0) : Ring :=
  { launch := launchKey 1 n, desc := BitVec.ofNat 64 (2 ^ 63), tail := 0, wptr := 0, head := 0, rptr := 0, filled := [], read := [] }
/-- The desk with a ring 0. -/
def deskRing (r : Ring) : State := (desk hand).modCore 0 fun x => { x with rings := [(0, r)] }

/-- A descriptor that keeps the rules, for a ring that nobody else has and that is not in use. -/
def ringOk (u : State) (t : Nat) (v : Thread) : Bool :=
  let w := (v.S 2).toNat
  field w 30 2 != 3 && decide (field w 26 4 ≤ 8) && field w 12 8 == 0 && field w 32 31 == 0 && (mget (u.core (coreOf t)).rings (nbits (v.S 1) 0 4)).isNone &&
    !u.ringBusy (coreOf t) (nbits (v.S 1) 0 4) v.launch

theorem witness_RingResults :
    Meets { reqAB (.rcfg 1 2) 1 2 with commit := true } (fun u t v => ringOk u t v = true ∧ field (v.S 2).toNat 63 1 = 1 ∧
      field (v.S 2).toNat 0 12 * 2048 + 2 ^ field (v.S 2).toNat 26 4 * ((field (v.S 2).toNat 20 6 + 1) * 2048) ≤ u.grantSize v.launch) ∧
    Meets { reqAB (.rcfg 1 2) 1 2 with commit := true } (fun u t v => ringOk u t v = true ∧ field (v.S 2).toNat 63 1 = 1 ∧
      u.grantSize v.launch < field (v.S 2).toNat 0 12 * 2048 + 2 ^ field (v.S 2).toNat 26 4 * ((field (v.S 2).toNat 20 6 + 1) * 2048)) ∧
    Meets { reqAB (.rcfg 1 2) 1 2 with commit := true } (fun u t v => ringOk u t v = true ∧ field (v.S 2).toNat 63 1 = 0) ∧
    Meets { reqAB (.rcfg 1 2) 1 2 with commit := true } (fun u t v => u.ringBusy (coreOf t) (nbits (v.S 1) 0 4) v.launch = true) ∧
    Meets { reqAB (.rcfg 1 2) 1 2 with commit := true } (fun u t v =>
      ((mget (u.core (coreOf t)).rings (nbits (v.S 1) 0 4)).map Ring.launch).any (fun l => l != v.launch) = true) ∧
    Meets { reqAB (.rcfg 1 2) 1 2 with commit := true } (fun _ _ v => field (v.S 2).toNat 26 4 = 9) ∧
    (hoop.filled.contains (ringNext 0) = false ∧ 0 = hoop.tail) ∧ (1 ≠ hoop.tail ∧ hoop.filled.contains hoop.tail = false) ∧
    (hoop.read.contains (ringNext 0) = false ∧ 0 = hoop.head) ∧ (1 ≠ hoop.head ∧ hoop.read.contains hoop.head = false) ∧
    ({ hoop with tail := 1, wptr := 1 } : Ring).claim.isSome = true := by
  refine ⟨here (hand [(1, 15), (2, BitVec.ofNat 512 (2 ^ 63 + 31))]), here (hand [(2, BitVec.ofNat 512 (2 ^ 63 + 32))]), here hand, meets (deskRing { hoop with wptr := 1 }) hand, meets (deskRing (hoop 1)) hand,
    here (hand [(2, BitVec.ofNat 512 (9 * 2 ^ 26))]), ?_, ?_, ?_, ?_, ?_⟩ <;> decide

/-! ### Witnesses: tables and the machine level -/

/-- A shape record that R333 accepts. -/
def newShape : Vec := BitVec.ofNat 512 (2 ^ 72 + 2 ^ 128 + 2 ^ 160 + 2 ^ 192 + 2 ^ 224)

theorem mget_all {α : Type} (r : α) (a n k : Nat) (h : k < n) : mget ((List.range n).map fun j => (a + 64 * j, r)) (a + 64 * k) = some r := by
  induction n generalizing a k with
  | zero => omega
  | succ n ih =>
    rw [List.range_succ_eq_map]
    simp only [List.map_cons, mget, List.map_map]
    cases k with
    | zero => simp
    | succ k =>
      rw [if_neg (by omega)]
      have := ih (a + 64) k (by omega)
      rw [show a + 64 * (k + 1) = a + 64 + 64 * k by omega, ← this]
      congr 2
      funext j
      simp only [Function.comp, Prod.mk.injEq, and_true]
      omega

/-- The desk with every slot of the shape table taken. -/
def deskShapes (th : Thread) : State := (desk th).modTables fun x => { x with shapes := (List.range 4096).map fun k => (0x4000000 + 64 * k, shapeRecord) }

theorem deskShapes_full (th : Thread) :
    (List.range 4096).find? (fun k => nbits ((deskShapes th).shapeAt ((Tenant.forSetup none).shtb + 64 * k)) 96 8 == 0) = none := by
  rw [List.find?_eq_none]
  intro k hk
  have hs : (Tenant.forSetup none).shtb = 0x4000000 := by decide +kernel
  have : (deskShapes th).shapeAt (0x4000000 + 64 * k) = shapeRecord := by
    simp only [State.shapeAt, mgetD, deskShapes, State.modTables]
    rw [mget_all _ _ _ _ (List.mem_range.mp hk)]
    rfl
  rw [hs, this]
  decide +kernel

/-- What `shdef` of v1 into v2 needs, and `shret` and `shget` of the handle in v1. -/
def reqShape : Req := { word := encodeNat (.shdef 2 1), regs := [2, 1], reads := [1], writes := [2], commit := true }
def reqRet : Req := { word := encodeNat (.shret 1), regs := [1], reads := [1], commit := true }
def reqGet : Req := { reqShape with word := encodeNat (.shget 2 1) }

theorem witness_ShapeResults :
    Meets reqShape (fun u t v => u.departs t v 4 none = none ∧ shapeFault (v.V 1) = none ∧ u.tenant? v.tenant = some (Tenant.forSetup none) ∧
      (List.range 4096).find? (fun k => nbits (u.shapeAt ((Tenant.forSetup none).shtb + 64 * k)) 96 8 == 0) = some 0) ∧
    Meets reqShape (fun u t v => u.departs t v 4 none = none ∧ shapeFault (v.V 1) = none ∧ u.tenant? v.tenant = some (Tenant.forSetup none) ∧
      (List.range 4096).find? (fun k => nbits (u.shapeAt ((Tenant.forSetup none).shtb + 64 * k)) 96 8 == 0) = none) ∧
    Meets reqShape (fun u t v => u.departs t v 4 none = none ∧ shapeFault (v.V 1) = some 9) ∧
    Meets reqRet (fun u t v => u.departs t v 4 none = none ∧ u.handle v (v.S 1) = some (0x4000000, shapeRecord)) ∧
    Meets reqGet (fun u t v => u.departs t v 4 none = none ∧ u.handle v (v.S 1) = some (0x4000000, shapeRecord)) ∧
    Meets reqRet (fun u t v => u.departs t v 4 none = none ∧ u.handle v (v.S 1) = none) ∧
    Meets reqGet (fun u t v => u.departs t v 4 none = none ∧ u.handle v (v.S 1) = none) := by
  let maker : Thread := hand [(1, newShape)]
  let holder : Thread := hand [(1, shapeHandle)]
  have c : allowed reqShape (deskShapes maker) 0 maker = true := by decide +kernel
  have d : (deskShapes maker).departs 0 maker 4 none = none ∧ shapeFault (maker.V 1) = none ∧
      (deskShapes maker).tenant? maker.tenant = some (Tenant.forSetup none) := by decide +kernel
  exact ⟨here maker, meets_when c (.inl rfl) rfl ⟨d.1, d.2.1, d.2.2, deskShapes_full maker⟩, here hand, meets (deskShape holder) holder,
    meets (deskShape holder) holder, here hand, here hand⟩

/-- The desk with a block window of the tenant at 0x40000000, of one entry, and a free block on die 0 (R314, R336). -/
def deskWindow (th : Thread) (e : BitVec 128) (count : Nat) (free : List Nat) : State :=
  (desk th).modTables fun x => { x with
    ptes := [(0x1000000, BitVec.ofNat 64 (2 ^ 63 + 0x1010000)), (0x1010008, blockLeaf)], blks := if e = 0 then [] else [(0x2000000, e)],
    bcount := if count = 0 then [] else [(3, count)], free := if free = [] then [] else [(freeKey 0 1 0, { blocks := free, low := true })] }
/-- A free block of the die, and the entry that maps it. -/
def block3 : BitVec 128 := blkMake 0 0 1 0x30000

/-- What an instruction on blocks needs, with v3 for the answer. -/
def reqBlk (i : Instr) (level : Nat) (reads : List Nat) : Req :=
  { word := encodeNat i, level := level, regs := 3 :: reads, reads := reads, writes := [3], commit := true }
/-- The address in v1 is that of the window's first entry, which nothing is moving; a test of the entry. -/
def onEntry (u : State) (t : Nat) (v : Thread) (P : BitVec 128 → Bool) : Bool :=
  u.departs t v 4 none == none && u.entryOf v.tenant (v.S 1) == some 0x2000000 && !blkWb (u.blk 0x2000000) && P (u.blk 0x2000000)
/-- The control word of a `blkmap` is in order, and there is a free block or none. -/
def mapOk (u : State) (v : Thread) (room : Bool) : Bool :=
  nbits (v.S 2) 14 50 == 0 && u.ownsKey v.tenant (nbits (v.S 2) 0 10) && !(v.S 2).getLsbD 11 &&
    (u.popBlock (nbits (v.S 2) 12 2) v.tenant (nbits (v.S 2) 10 1)).isSome == room

theorem witness_BlockResults :
    Meets (reqBlk (.blkmap 3 1 2) 1 [1, 2]) (fun u t v => mapOk u v false = true ∧ onEntry u t v blkValid = true) ∧
    Meets (reqBlk (.blkmap 3 1 2) 1 [1, 2]) (fun u t v => mapOk u v false = true ∧ onEntry u t v (!blkValid ·) = true) ∧
    Meets (reqBlk (.blkmap 3 1 2) 1 [1, 2]) (fun u t v => mapOk u v true = true ∧ onEntry u t v (!blkValid ·) = true) ∧
    Meets (reqBlk (.blkref 3 1 2) 1 [1, 2]) (fun u t v =>
      u.departs t v 4 none = none ∧ u.entryOf v.tenant (v.S 1) = some 0x2000010 ∧ u.entryOf v.tenant (v.S 2) = some 0x2000000 ∧
      blkWb (u.blk 0x2000010) = false ∧ blkWb (u.blk 0x2000000) = false ∧ blkValid (u.blk 0x2000000) = true ∧ blkValid (u.blk 0x2000010) = false ∧
      u.blkCount (blkBase (u.blk 0x2000000)) < 65535) ∧
    Meets (reqBlk (.blkfree 3 1) 1 [1]) (fun u t v => onEntry u t v (!blkValid ·) = true) ∧
    Meets (reqBlk (.blkfree 3 1) 1 [1]) (fun u t v => onEntry u t v blkValid = true ∧ 1 < u.blkCount (blkBase (u.blk 0x2000000))) ∧
    Meets (reqBlk (.blkmig 3 1 2) 0 [1, 2]) (fun u t v => nbits (v.S 2) 35 29 = 0 ∧ onEntry u t v blkValid = true ∧
      u.blkCount (blkBase (u.blk 0x2000000)) ≤ 1 ∧ (u.die (dieOf (coreOf t))).migQ.length < 64) ∧
    Meets (reqBlk (.blkst 3 1) 0 [1]) (fun u t v => onEntry u t v blkValid = true) := by
  let rs : Map Vec := [(1, 0x40000000), (2, 1)]
  let other : Thread := chief [(1, 0x40010000), (2, 0x40000000)]
  exact ⟨meets (deskWindow (chief rs) block3 1 []) (chief rs), meets (deskWindow (chief rs) 0 0 []) (chief rs),
    meets (deskWindow (chief rs) 0 0 [0x30000]) (chief rs), meets (deskWindow other block3 65534 []) other, meets (deskWindow (chief rs) 0 0 []) (chief rs),
    meets (deskWindow (chief rs) (blkMake 0 1 1 0x30000) 2 []) (chief rs), meets (deskWindow (hand rs) block3 1 []) (hand rs),
    meets (deskWindow (hand rs) block3 1 []) (hand rs)⟩

/-- The control word of a `tlbinv` names one page, and accesses that its translations served are out or not. -/
def invalidates (u : State) (t : Nat) (v : Thread) (out : Bool) : Bool :=
  let z := pageSize (nbits (v.S 2) 0 3)
  let keep (x : Tlb) : Bool := !x.named v.tenant (v.S 1).toNat z ((v.S 2).getLsbD 8)
  let w : State := { u with
    cores := u.cores.map fun (e : Nat × Core) => (e.1, { e.2 with tlb := e.2.tlb.filter keep })
    clusters := u.clusters.map fun (e : Nat × Cluster) => (e.1, { e.2 with l2tlb := e.2.l2tlb.filter keep }) }
  u.departs t v 4 none == none && nbits (v.S 2) 10 54 == 0 && nbits (v.S 2) 3 5 == 0 && decide (nbits (v.S 2) 0 3 < 5) && !(v.S 2).getLsbD 9 &&
    w.accessesOut v.tenant (v.S 1).toNat (Nat.max z (pageSize 4)) ((v.S 2).getLsbD 8) == out
/-- What `tlbinv` and `impset` need of v1 and v2. -/
def reqTbl (i : Instr) (level : Nat) : Req := { word := encodeNat i, level := level, regs := [1, 2], reads := [1, 2], commit := true }
/-- The words of an `impset` are in order, and the change is refused or not. -/
def imposes (u : State) (t : Nat) (v : Thread) (bad : Bool) : Bool :=
  u.departs t v 4 none == none && nbits (v.S 1) 6 58 == 0 && nbits (v.S 2) 6 2 == 0 && nbits (v.S 2) 9 55 == 0 &&
    u.impsetBad t v (nbits (v.S 1) 0 6) (nbits (v.S 2) 0 6) ((v.S 2).getLsbD 8) == bad
/-- The words of a `bcfg` are in order; a test of the barrier that v1 names. -/
def configures (u : State) (t : Nat) (v : Thread) (P : Dword → Bool) : Bool :=
  u.departs t v 4 none == none && decide ((v.S 1).toNat ≤ 39) && nbits (v.S 2) 16 47 == 0 && P (u.barrier (dieOf (coreOf t)) (v.S 1).toNat)

theorem witness_TableResults :
    Meets (reqTbl (.tlbinv 1 2) 1) (fun u t v => invalidates u t v false = true) ∧ Meets (reqTbl (.tlbinv 1 2) 1) (fun u t v => invalidates u t v true = true) ∧
    Meets (reqTbl (.impset 1 2) 0) (fun u t v => imposes u t v false = true ∧ (v.S 2).getLsbD 8 = false) ∧
    Meets (reqTbl (.impset 1 2) 0) (fun u t v => imposes u t v false = true ∧ (v.S 2).getLsbD 8 = true) ∧ Meets (reqTbl (.impset 1 2) 0) (fun u t v => imposes u t v true = true) ∧
    Meets (reqBlk (.bcfg 3 1 2) 0 [1, 2]) (fun u t v => (v.S 2).getLsbD 63 = false ∧ nbits (v.S 2) 0 16 = 32768 ∧ configures u t v (!BitVec.getLsbD · 63) = true) ∧
    Meets (reqBlk (.bcfg 3 1 2) 0 [1, 2]) (fun u t v => (v.S 2).getLsbD 63 = false ∧ nbits (v.S 2) 0 16 = 32768 ∧ configures u t v (BitVec.getLsbD · 63) = true) ∧
    Meets (reqBlk (.bcfg 3 1 2) 0 [1, 2]) (fun u t v => (v.S 2).getLsbD 63 = true ∧ configures u t v (!u.barMine v ·) = true) ∧
    Meets (reqBlk (.bcfg 3 1 2) 0 [1, 2]) (fun u t v => (v.S 2).getLsbD 63 = true ∧ configures u t v (fun w => u.barMine v w && nbits w 8 16 != 0) = true) ∧
    Meets (reqBlk (.bcfg 3 1 2) 0 [1, 2]) (fun u t v => (v.S 2).getLsbD 63 = true ∧ configures u t v (fun w => u.barMine v w && nbits w 8 16 == 0) = true) := by
  let frees : Thread := hand [(1, 39), (2, BitVec.ofNat 512 (2 ^ 63))]
  let sets : Thread := hand [(1, 39), (2, 32768)]
  let away : Thread := { hand with home := 64, rob := loading.rob }
  let gives : Thread := hand [(1, 1), (2, 0x100)]
  exact ⟨here (chief []), meets ((desk (chief [(1, 0x10000)])).setThread 64 away) (chief [(1, 0x10000)]), here hand,
    meets ((desk gives).modCore 0 fun x => { x with imp := [(0, 0xC000), (1, 0xC000), (63, 0xCFFF)] }) gives, here (hand [(1, 63)]), here sets,
    meets (deskBarrier sets (barrierOf 1 0 0)) sets, here frees, meets (deskBarrier frees (barrierOf 2 1 0)) frees,
    meets (deskBarrier frees (barrierOf 2 0 0)) frees⟩

/-- A machine-level thread, with registers; at the desk it holds slot 0. -/
def keeper (rs : Map Vec) : Thread := hand rs 2
/-- A user's thread in slot 1 beside it. -/
def deskTwo (th : Thread) (halted : Bool) : State :=
  (desk th).setThread 1 { hand with home := 1, stopped := halted }

/-- What the machine-level instructions need: of v1 and v2 into v3, and of v1 into v3. -/
def reqSys3 (f : Nat) (writes : List Nat) : Req := sysp (syspWord 3 1 2 f) [3, 1, 2] [1, 2] writes
def reqQsce : Req := sysp (syspWord 3 1 0 4) [3, 1] [1] [3]
/-- The place that v1 names for `ptset` is in order, and the status of the change. -/
def ptStatusOf (u : State) (v : Thread) : Option Nat :=
  if nbits (v.S 1) 0 3 = 0 ∧ nbits (v.S 1) 46 2 = 0 ∧ nbits (v.S 1) 54 2 = 0 ∧ nbits (v.S 1) 58 4 = 0 then
    some (u.ptStatus (nbits (v.S 1) 48 6) (nbits (v.S 1) 3 43 * 8) (nbits (v.S 1) 56 2) ((v.S 1).getLsbD 62) (v.S 2))
  else none
/-- The key that v1 names for `keyld`, whose word is in order. -/
def keyNamed (u : State) (v : Thread) (present : Bool) : Bool :=
  nbits (v.S 1) 10 6 == 0 && nbits (v.S 1) 22 41 == 0 && !(v.S 1).getLsbD 63 && (mget u.tables.keys (nbits (v.S 1) 0 10)).isSome == present
/-- The word of a `qsce` is in order; it lets the row go, or holds it while it is busy or not. -/
def rowNamed (u : State) (v : Thread) (lets busy : Bool) : Bool :=
  let r := nbits (v.S 1) 0 2 * 8 + nbits (v.S 1) 4 3
  nbits (v.S 1) 2 2 == 0 && nbits (v.S 1) 7 1 == 0 && nbits (v.S 1) 9 55 == 0 && (v.S 1).getLsbD 8 == lets &&
    (u.modRow r fun x => { x with held := true }).rowBusy r == busy
/-- The words of an `impw` are in order, and the positions after it are legal or not. -/
def positioning (u : State) (v : Thread) (legal : Bool) : Bool :=
  nbits (v.S 1) 9 7 == 0 && nbits (v.S 1) 22 42 == 0 && nbits (v.S 2) 16 48 == 0 &&
    (u.modCore (nbits (v.S 1) 0 9) fun x => x.setImp (nbits (v.S 1) 16 6) (bits (v.S 2) 0 16)).positionsLegal (nbits (v.S 1) 0 9) == legal
/-- The slot that v1 names for `tstop` and `tresume` is slot 1, with a thread at home that is not ending. -/
def slotNamed (u : State) (v : Thread) : Bool :=
  nbits (v.S 1) 9 7 == 0 && nbits (v.S 1) 22 42 == 0 && nbits (v.S 1) 0 9 * 64 + nbits (v.S 1) 16 6 == 1 &&
    (mget u.threads 1).map Thread.away == some none && (u.thread? 1).map Thread.ending == some false

theorem witness_MachineResults :
    Meets (reqSys3 0 [3]) (fun u _ v => (ptStatusOf u v).any (· != 0) = true) ∧
    Meets (reqSys3 0 [3]) (fun u _ v => ptStatusOf u v = some 0 ∧ (v.S 1).getLsbD 62 = false ∧ (v.S 1).getLsbD 63 = false) ∧
    Meets (reqSys3 1 [3, 2]) (fun u _ v => keyNamed u v false = true ∧ (nbits (v.S 1) 0 10 = 0 → nbits (v.S 1) 16 6 = 0)) ∧
    Meets (reqSys3 1 [3, 2]) (fun u _ v => keyNamed u v true = true) ∧
    Meets (reqSys3 1 [3, 2]) (fun _ _ v => nbits (v.S 1) 10 6 = 0 ∧ nbits (v.S 1) 22 41 = 0 ∧ nbits (v.S 1) 0 10 = 1 ∧ (v.S 1).getLsbD 63 = true) ∧
    Meets (reqSys3 1 [3, 2]) (fun u _ v => keyNamed u v false = true ∧ nbits (v.S 1) 0 10 = 0 ∧ nbits (v.S 1) 16 6 ≠ 0) ∧
    Meets reqQsce (fun u _ v => rowNamed u v true false = true) ∧ Meets reqQsce (fun u _ v => rowNamed u v false false = true) ∧
    Meets reqQsce (fun u _ v => rowNamed u v false true = true) ∧
    Meets (sysp (syspWord 0 1 2 5) [1, 2] [1, 2] []) (fun u _ v => positioning u v true = true) ∧
    Meets (sysp (syspWord 0 1 2 5) [1, 2] [1, 2] []) (fun u _ v => positioning u v false = true) ∧
    Meets (sysp (syspWord 0 1 2 6) [1, 2] [1, 2] []) (fun u t v => slotNamed u v = true ∧ v.S 2 = 0 ∧ t ≠ 1) ∧
    Meets (sysp (syspWord 0 1 2 6) [1, 2] [1, 2] []) (fun u t v => nbits (v.S 1) 9 7 = 0 ∧ nbits (v.S 1) 22 42 = 0 ∧ v.S 2 = 0 ∧
      nbits (v.S 1) 0 9 * 64 + nbits (v.S 1) 16 6 = 1 ∧ (u.thread? 1).map Thread.away = some (some 1) ∧ (u.thread? 1).map Thread.ending = some false ∧ t ≠ 1) ∧
    Meets (sysp (syspWord 0 1 0 7) [1] [1] []) (fun u t v => slotNamed u v = true ∧ t ≠ 1) ∧
    Meets { sysp (syspWord 0 0 0 2) [] [] [] with flow := true } (fun u t _ => (u.core (coreOf t)).mrun = true) ∧
    Meets { sysp (syspWord 0 0 0 2) [] [] [] with flow := true } (fun u t _ => (u.core (coreOf t)).mrun = false) ∧
    Meets (sysp (syspWord 0 0 0 3) [] [] []) (fun u _ _ => u.work.launches ≠ [] ∧ (u.work.launches.all fun l => u.egress (u.hostOf l.2.tenant)) = true) := by
  let entry : Map Vec := [(1, BitVec.ofNat 512 (0x1030000 + 3 * 2 ^ 56 + 2 ^ 48)), (2, setupPte.setWidth 512)]
  let other : Map Vec := [(1, BitVec.ofNat 512 (2 ^ 16))]
  exact ⟨here (keeper [(2, setupPte.setWidth 512)]), here (keeper entry), here (keeper []), here (keeper [(1, 1)]),
    here (keeper [(1, BitVec.ofNat 512 (2 ^ 63 + 1))]), here (keeper [(1, 0x10000)]), here (keeper [(1, 0x100)]), here (keeper [(1, 0x73)]),
    meets (deskStoring (keeper [])) (keeper []), here (keeper []), meets (deskTwo (keeper []) false) (keeper []),
    meets (deskTwo (keeper other) false) (keeper other), meets ((deskTwo (keeper other) false).modThread 1 fun x => { x with away := some 1 }) (keeper other),
    meets (deskTwo (keeper other) true) (keeper other), meets ((desk (keeper [])).modCore 0 fun x => { x with mrun := true }) (keeper []),
    here (keeper []), here (keeper [])⟩

/-! ### Witnesses: events that write registers, power, hosts -/

/-- A user's thread in slot 1 in the upcall state, beside its supervisor's run in slot 0. -/
def deskUpcall : State :=
  let s := (desk (chief [])).setThread 1 { hand with home := 1, upcall := some { kind := 2, code := 6, resume := false } }
  s.modCore 0 fun x => { x with sups := [(1, { slot := 0, utsel := 1, queue := [], notice := false, run := some (launchKey 1 0), resumed := [] })] }
/-- A sample of that thread. -/
def sampled : Sample := { die := 0, core := 0, slot := 0, tenant := 1, launch := 0, image := 0, pc := setupPc, cause := 0 }
/-- A core at the end of a pass and of a sampling period, with a log entry to drain. -/
def deskPass : State :=
  { (desk hand).modCore 0 fun x => { x with passDue := some 1, sampleDue := some sampled, slog := [(0, 0x10000)], slogW := 1 } with
    sched := { State.reset.sched with issue := false } }

theorem witness_RegisterEvents :
    (∃ s : State, s.thread? 0 = some hand ∧ mget (s.core (coreOf 0)).evs 7 = none) ∧
    (∃ s : State, s.thread? 0 = some hand ∧ (mget (s.core (coreOf 0)).evs 0).map Ev.owner = some (some hand.launch)) ∧
    (∃ s : State, s.thread? 0 = some (chief []) ∧ (chief []).pl = 1 ∧ (mget (s.core (coreOf 0)).sups 1).map Sup.utsel = some 1 ∧
      (s.thread? 1).any (fun x => x.tenant == (chief []).tenant && x.pl == 0 && x.upcall.map Upcall.resume == some false) = true) ∧
    (∃ s : State, s.managed = true ∧ s.egress s.manager = true) ∧ (∃ s : State, (s.core 0).passDue = some 1) ∧ (∃ s : State, (s.core 0).slogR < (s.core 0).slogW) ∧
    (∃ s : State, (s.core 0).sampleDue = some sampled ∧ (s.sched.issue && coreOf s.sched.cur == 0) = false) ∧
    (∃ x : Core, 0 ≠ x.sstate ∧ x.slogW < x.slogR + 512) ∧ (∃ x : Core, 3 = x.sstate ∧ x.delta + 1 < 65535) ∧
    (∃ x : Core, 0 ≠ x.sstate ∧ x.slogR + 512 ≤ x.slogW) := by
  let e : Ev := { owner := some (launchKey 1 0), who := 0, tenant := 1, sel := 0, cnt := 0 }
  refine ⟨found (desk hand), found ((desk hand).modCore 0 fun x => { x with evs := [(0, e)] }), found deskUpcall,
    found (State.reset.modHost fun h => { h with sessions := [(1, { remote := 0, endpoint := 3, tenants := [], port := 15 })] }), found deskPass,
    found deskPass, found deskPass, ⟨Core.reset, ?_⟩, ⟨{ Core.reset with delta := 65533 }, ?_⟩, ⟨{ Core.reset with slogW := 512 }, ?_⟩⟩ <;> decide

/-- The device after reset with one row changed, or in another phase. -/
def withRow (r : Row) : State := State.reset.modRow 0 fun _ => r
/-- A sensor that reads `v`, and may be untrusted since `bad`. -/
def reading (v : Int) (bad : Option Nat := none) : Sensor := { value := some v, changed := 0, bad := bad }
/-- The device with those temperature sensors in rows 0 and 1. -/
def withSensors (a b : Map Sensor) : State := (withRow { Row.reset with sensors := a }).modRow 1 fun x => { x with sensors := b }
/-- What a peer offers for a session of the command endpoint. -/
def proposal : Offer := { port := 15, lanes := 8, aiFull := true, modes := [.rod], secured := true }
/-- The recovery phase, with a management session on a port. -/
def recovering (port : Nat) : State := State.reset.modHost fun h =>
  { h with phase := .recovery, sessions := [(1, { remote := 0, endpoint := 3, tenants := [], port := port })] }
def inPhase (p : Phase) : State := State.reset.modHost fun h => { h with phase := p }
/-- The device after reset with a voltage of its own for each step, and a row 0. -/
def stepping (r : Row) : State := (withRow r).modHost fun h => { h with record := { h.record with volts := List.range 55 } }
/-- The device that a fatal error stops, with a store on its way or nothing left to drain. -/
def halting (busy : Bool) : State := (if busy then deskStoring hand else State.reset).modHost fun h => { h with phase := .stopping 0 0 0 }

theorem witness_PowerEvents :
    (∃ s : State, s.host.phase = .off ∧ s.host.flash = none) ∧ (∃ s : State, s.host.phase = .off ∧ s.host.flash = some (0, DeviceRecord.reset)) ∧
    (∃ s : State, s.host.phase = .dumped) ∧
    (∃ s : State, s.host.phase = .stopping 0 0 0 ∧ s.sched.agenda = [] ∧ (firstChange s s.drainWork).isSome = true) ∧
    (∃ s : State, s.host.phase = .stopping 0 0 0 ∧ s.sched.agenda = [] ∧ firstChange s s.drainWork = none) ∧
    (∃ s : State, s.host.phase = .recovery ∧ s.host.sessions.any (fun e => e.2.endpoint == 3 && e.2.port == 0) = true) ∧
    (∃ s : State, s.host.phase = .recovery ∧ s.host.sessions.any (fun e => e.2.endpoint == 3 && e.2.port == 0) = false) ∧
    (∃ s : State, s.host.phase = .running ∧ offerOk proposal 0 = true ∧ offerOk proposal 1 = false ∧ ∀ x ∈ [0, 63], x < 64) ∧
    (∃ s : State, s.host.phase = .running ∧ s.tooHot (rowNo 0 0) = true) ∧
    (∃ s : State, s.work.launches ≠ [] ∧ (s.work.launches.all fun l => s.egress (s.hostOf l.2.tenant)) = true) ∧
    (∃ s : State, (s.row (rowNo 0 0)).clock ≠ 0) ∧ (∃ s : State, s.doubtful 0 0 = true) ∧
    (∃ s : State, s.doubtful 0 0 = false ∧ ((s.row 0).sensor 0).bad = none) ∧
    (∃ s : State, s.doubtful 0 0 = false ∧ ((s.row 0).sensor 0).bad = some 0) ∧
    (∃ s : State, (s.row 0).untrusted 0 = false ∧ ((s.row 0).sensor 0).value = some 40 ∧ ((s.row 0).sensor 1).value = some 50 ∧
      (s.row 0).untrusted 1 = false) ∧
    (∃ s : State, (s.row 0).untrusted 0 = false ∧ ((s.row 0).sensor 0).value = some 40 ∧ ((s.row 0).sensor 1).value = some 50 ∧
      (s.row 0).untrusted 1 = true ∧ s.neighbours 0 1 = [reading 40, reading 60]) ∧
    (∃ s : State, s.mayStep (rowNo 0 0) 54 = true ∧ s.rowBusy (rowNo 0 0) = false) ∧
    (∃ s : State, s.mayStep (rowNo 0 0) 0 = true ∧ s.lowest (rowNo 0 0) = true ∧ s.rowBusy (rowNo 0 0) = true) ∧
    (∃ s : State, (s.row 0).wanted = some 54 ∧ s.lowest 0 = false ∧ s.mayStep 0 54 = true) ∧
    (∃ s : State, (s.row 0).wanted = some 3 ∧ s.lowest 0 = false ∧ s.mayStep 0 3 = false) ∧
    (∃ s : State, s.mayStep (rowNo 0 0) 3 = false) ∧ (∃ s : State, (s.row (rowNo 0 0)).volt < voltOf s.host.record 3) ∧
    (∃ s : State, voltOf s.host.record 3 ≤ (s.row (rowNo 0 0)).volt ∧ s.lowest (rowNo 0 0) = false) ∧
    (∃ s : State, (s.row (rowNo 0 0)).hop = some 2 ∧ (s.row (rowNo 0 0)).frozen = false) ∧
    (∃ s : State, s.thread? (511 * 64 + impSlot ((s.core 511).impView 0)) = none) :=
  ⟨found (inPhase .off), found ((inPhase .off).modHost fun h => { h with flash := some (0, DeviceRecord.reset) }), found (inPhase .dumped),
   found (halting true), found (halting false), found (recovering 0), found (recovering 1), found State.reset,
   found (withSensors [(0, reading 150)] []), found (desk hand), found (withRow { Row.reset with clock := 4, volt := 4 }),
   found (withSensors [(0, reading 151)] []), found (withSensors [(0, reading 40)] []), found (withSensors [(0, reading 40 (some 0))] []),
   found (withSensors [(0, reading 40), (1, reading 50)] []),
   found (withSensors [(0, reading 40), (1, reading 50 (some 0))] [(1, reading 60)]), found State.reset,
   found { deskStoring hand with power := { State.reset.power with forced := true } },
   found (stepping { Row.reset with held := true, wanted := some 54 }), found (stepping { Row.reset with clock := 4, held := true, wanted := some 3 }),
   found (stepping { Row.reset with clock := 4, volt := 4 }), found (stepping Row.reset),
   found (stepping { Row.reset with clock := 4, volt := 4 }), found (withRow { Row.reset with hop := some 2 }), found State.reset⟩

/-- An image without sites. -/
def leaflet : Image :=
  { tenant := 1, imageId := 0, shareable := false, nslots := 16, textBase := 0x10000, sites := [], live := [], kept := [], joined := false }
/-- The device with tenant 1 at work: a session, an image, page tables, a root task record at 0x10040 and a grant record at 0x10100. -/
def office : State :=
  let s := desk hand
  { s with
    tables := { s.tables with ptes := pageTables, images := [leaflet] }, regions := [(3, plot)],
    host := { s.host with sessions := [(0, { remote := 0, endpoint := 0, tenants := [1], port := 0 }),
                                       (1, { remote := 0, endpoint := 3, tenants := [], port := 0 })] },
    mem := { cells := place 0x10040 (lineBytes taskRecord 0 64) ++ place 0x10100 (bytesOf (0x10000 + 16 * 2 ^ 64 + 2 ^ 96) 16),
             tags := [(1025, s.keyData 1), (1028, s.keyData 1)] } }
/-- A launch record with one root task, and its tenant. -/
def rooted : BitVec 1024 := setupRecord ||| BitVec.ofNat 1024 (0x10040 * 2 ^ 192)
/-- A REGION_OPEN of region 4 for tenant 1. -/
def opening : BitVec 256 := BitVec.ofNat 256 (4 + 2 ^ 8 + 2 ^ 16 + 16 * 2 ^ 64 + 0x10100 * 2 ^ 192)
/-- The header of a command of a kind and a length (R384). -/
def headOf (kind len : Nat) : BitVec 128 := BitVec.ofNat 128 (kind + 2 ^ 16 + len * 2 ^ 32)
/-- The message of a LAUNCH of that record. -/
def message : BitVec 1152 := rooted ++ headOf 1 128
/-- A launch that its tenant's queue takes. -/
def takes (s : State) (r : BitVec 1024) : Bool := match s.tenant? (nbits r 16 8) with
  | none => false
  | some x =>
    let u := s.modTenant (nbits r 16 8) fun x => { x with lser := x.lser + 1 }
    let l := newLaunch (nbits r 16 8) x.lser r
    l.fieldsOk && (u.rootTasks 0 l).isSome && (u.imageOf l).isSome && decide ((mgetD s.work.queues (l.cls * 64 + nbits r 16 8) []).length < 64)
/-- The body of a HOSTNOTE for tenant `n`, with a STATUS. -/
def noting (n : Nat) : BitVec 192 := BitVec.ofNat 192 (n + 5 * 2 ^ 8)
/-- The root of a region that is being opened can be written. -/
def opens (s : State) (b : BitVec 256) : Bool :=
  s.mayOpen b && s.grantRecord (openRegion b) 0 == some (0x10000, 16, true) &&
    (match s.regReady (openPlan (nbits b 0 8) (openRegion b) 0x10000 16).region (openPlan (nbits b 0 8) (openRegion b) 0x10000 16).writes with
      | .yes => true
      | _ => false)

theorem witness_CommandEvents :
    (∃ s : State, hdrOk 1 128 (launchHeader message) = true ∧ s.commands 0 = true ∧ s.bound 0 (nbits rooted 16 8) = true ∧ takes s (launchRecord message) = true) ∧
    (∃ s : State, s.commands 0 = true ∧ kindOf (launchHeader message) = 1 ∧ s.tenant? (nbits (launchRecord message) 16 8) = none ∧
      s.egress (s.hostOf (nbits (launchRecord message) 16 8)) = true) ∧
    (∃ s : State, s.commands 0 = true ∧ kindOf (launchHeader 0) ≠ 1) ∧
    (∃ s : State, s.commands 0 = true ∧ hdrOk 4 24 (headOf 4 24 ||| 0x1000000) = false) ∧
    (∃ s : State, s.commands 0 = true ∧ hdrOk 4 24 (headOf 4 24) = true ∧ nbits (BitVec.ofNat 192 (2 ^ 63)) 16 48 ≠ 0 ∧ nbits (noting 2) 16 48 = 0 ∧
      s.bound 0 (nbits (noting 2) 0 8) = false ∧ s.bound 0 (nbits (noting 1) 0 8) = true ∧ s.faultRoom (nbits (noting 1) 0 8) = true) ∧
    (∃ s : State, s.commands 0 = true ∧ s.bound 0 (nbits (noting 1) 0 8) = true ∧ s.faultRoom (nbits (noting 1) 0 8) = false) ∧
    (∃ s : State, s.commands 0 = true ∧ hdrOk 5 12 (headOf 5 12) = true ∧ s.bound 0 1 = true ∧ s.bound 0 2 = false ∧ s.addable 1 3 0 [3, 3] = false ∧
      s.addable 1 3 0 [3] = true) ∧
    (∃ s : State, s.commands 0 = true ∧ hdrOk 2 32 (headOf 2 32) = true ∧ nbits (opening ||| 2 ^ 63) 40 24 ≠ 0 ∧ nbits opening 40 24 = 0 ∧ s.bound 0 (openRegion opening).tenant = true ∧
      opens s opening = true) ∧
    (∃ s : State, s.commands 0 = true ∧ s.bound 0 (openRegion (BitVec.ofNat 256 (3 + 2 ^ 8))).tenant = true ∧ s.mayOpen (BitVec.ofNat 256 (3 + 2 ^ 8)) = false) ∧
    (∃ s : State, s.commands 0 = true ∧ hdrOk 3 8 (headOf 3 8) = true ∧ nbits (3 : BitVec 64) 8 56 = 0 ∧
      (mget s.regions (nbits (3 : BitVec 64) 0 8)).any (fun r => !r.closing && s.bound 0 r.tenant) = true) ∧
    (∃ s : State, (mget s.host.sessions 0).any (fun x => x.tenants.contains 1) = true ∧ mget s.host.hostDest 1 = some 5 ∧ s.egress 5 = true) ∧
    (∃ s : State, s.commands 0 = true ∧ nbits (15 : BitVec 64) 8 56 = 0 ∧ mget s.regions (nbits (15 : BitVec 64) 0 8) = none) ∧
    (∃ s : State, (mget s.regions 3).any (fun r => r.closing && !r.waiting) = true) :=
  let full : List Note := List.replicate 16 { kind := 0x10, die := 0xFF, status := 0, p0 := 0, p1 := 0, launch := 0 }
  ⟨found office, found (office.modTables fun x => { x with tenants := [] }), found office, found office, found office,
   found (office.modTenant 1 fun x => { x with waiting := full }), found office, found office,
   found office, found office, found (office.modHost fun h => { h with hostDest := [(1, 5)], record := { h.record with dests := [0, 5] } }), found office, found { office with regions := [(3, { plot with closing := true })] }⟩

/-- The device with one export of tenant 1 and no launch. -/
def exporting : State :=
  { office with
    work := State.reset.work,
    host := { office.host with
      sessions := (2, { remote := 5, endpoint := 2, tenants := [1], port := 0 }) :: office.host.sessions,
      record := { office.host.record with dests := [0, 5] },
      exports := [(255, { remote := 5, tenant := 1, base := 0x10000, units := 1, perm := 7, key := 1 })] } }
/-- A checkpoint is in progress while a forme has two threads. -/
def kept (live : Bool) : State := (pairOf leading 3).modHost fun h =>
  { h with ckpt := some { tag := 1, live := live, targets := [0] }, sessions := office.host.sessions }
/-- Export 255 exists, and a test of it. -/
def exported (s : State) (P : Export → Bool) : Bool := s.host.phase == .running && (mget s.host.exports 255).any P
/-- Key `k` is the tenant's, and management has a session. -/
def keyed (s : State) (k : Nat) : Bool := s.managed && (mget s.tables.keys k).map Key.tenant == some 1
/-- Management may take a checkpoint to target 0, and is answered. -/
def keeps (s : State) : Bool := s.managed && s.host.ckpt.isNone && [0].all s.egress
/-- The reply to a checkpoint has a session to go to. -/
def answers (s : State) (live : Bool) : Bool := (s.host.ckpt.any fun k => k.live == live && k.targets == [0] && k.targets.all s.egress) &&
  (s.host.sessions.find? fun e => e.2.endpoint == 3) == some (1, { remote := 0, endpoint := 3, tenants := [], port := 0 }) &&
  mget s.host.sessions 1 == some { remote := 0, endpoint := 3, tenants := [], port := 0 } && s.egress 0

theorem witness_HostEvents :
    (∃ s : State, keyed s 1 = true ∧ 0x10000 % 65536 = 0) ∧
    (∃ s : State, keyed s (nbits setupEntry 256 16) = true ∧ s.hasLaunch 1 = false ∧ nbits setupEntry 272 1 = 1) ∧
    (∃ s : State, keyed s (nbits setupEntry 256 16) = true ∧ s.hasLaunch 1 = false ∧ s.tenant? 1 = none) ∧
    (∃ s : State, s.managed = true ∧ s.hasLaunch 1 = false ∧ nbits (0 : Vec) 272 1 = 0 ∧ (s.tenant? 1).isSome = true) ∧
    (∃ s : State, s.hasLaunch 1 = true) ∧ (∃ s : State, s.managed = true ∧ s.egress s.manager = true) ∧ (∃ s : State, keeps s = true) ∧
    (∃ s : State, [7].all s.egress = false) ∧ (∃ s : State, answers s true = true) ∧ (∃ s : State, answers s false = true ∧ s.quiet = false) ∧
    (∃ s : State, exported s (fun e => !e.allows 6 0 0 1) = true) ∧ (∃ s : State, exported s (fun e => !s.exportBound 6 e.tenant) = true) ∧
    (∃ s : State, exported s (fun e => let pa := s.movedTo (e.base + 8)
      e.allows 5 0xFFC0 0 64 && e.allows 5 0 1 64 && e.allows 5 8 3 8 && s.exportBound 5 e.tenant && s.egress 5 && s.keyValid e.key &&
      (isHbm pa || isLpddr pa) && !s.badAt pa 8 && !s.zeroing (pa / 64)) = true) :=
  ⟨found office, found exporting, found (exporting.modTables fun x => { x with tenants := [] }), found exporting, found office, found office, found office,
   found office, found (kept true), found (kept false), found exporting, found exporting, found exporting⟩

/-! ### Witnesses: events of messages and work -/

/-- A packet from core 1 to slot `n` of core 0, for register, handler or counter 5. -/
def parcel (n : Nat) : Packet :=
  { id := 7, who := 64, launch := launchKey 1 0, tenant := 1, srcCore := 1, srcSlot := 0, core := 0, slot := n, k := 5, payload := 9 }
/-- The desk with that packet as a message, a deposit and a decrement. -/
def deskParcel (th : Thread) (n : Nat) : State :=
  (desk th).modFlight fun f => { f with msgs := [parcel n], deposits := [parcel n], decs := [parcel n] }
/-- A task of the launch whose record names core 0. -/
def errand : Task := { chore with addr := 0x10040, record := taskRecord }
/-- Counter 5 of core 0 armed for that task at `n`, for tenant 1. -/
def deskCounter (n : Nat) : State :=
  (deskParcel hand 0).modCore 0 fun x => { x with counters := [(5, BitVec.ofNat 64 (1 + n * 2 ^ 52))], armed := [(5, errand)] }
/-- Where a packet goes: to a live thread in slot 0, or to nobody. -/
def reachesHand (a : Target) (th : Thread) : Bool := match a with
  | .live 0 x => x == th
  | _ => false
def reachesNone (a : Target) : Bool := match a with
  | .nobody => true
  | _ => false
/-- The message and the deposit under way are packet 7, and no older one of the same thread goes the same way. -/
def oldest (s : State) (p : Packet) : Bool :=
  s.flight.msgs.find? (fun p => p.id == 7) == some p && !overtakes s.flight.msgs p (s.sameMail p) && s.flight.deposits.find? (fun p => p.id == 7) == some p &&
    !overtakes s.flight.deposits p (s.sameThread p)
/-- Decrement 7 meets its counter at `n`. -/
def counting (s : State) (n : Nat) : Bool :=
  s.flight.decs.find? (fun p => p.id == 7) == some (parcel 0) && (mget (s.core 0).counters 5).any (fun w => nbits w 0 6 == 1 && nbits w 52 12 == n) &&
    mget (s.core 0).armed 5 == some errand

/-- A thread on its way home from core 1, whose old core has settled or not. -/
def homing (s : State) (settled : Bool) : Bool := (s.flight.returns.find? (fun r => r.id == 7)).any fun r =>
  (s.thread? r.thread.home).any fun h => s.steady r.core == settled && (s.recordWaits h).isNone

theorem witness_MessageEvents :
    (∃ s : State, oldest s (parcel 0) = true ∧ reachesHand (s.mailTarget (parcel 0)) hand = true) ∧
    (∃ s : State, oldest s (parcel 9) = true ∧ reachesNone (s.mailTarget (parcel 9)) = true) ∧
    hand.mailbox.length < 8 ∧ (∃ th : Thread, 8 ≤ th.mailbox.length ∧ th.overflow = none) ∧
    (∃ s : State, (s.thread? 0).any (fun th => th.overflow.isSome && s.atBoundary 0 th) = true) ∧
    (∃ s : State, (s.thread? 0).any (fun th => th.mailbox == [letter] && th.wait != .wfm && s.enters 0 th && !s.mailBad 0) = true) ∧
    (∃ s : State, (s.thread? 0).any (fun th => th.mailbox == [letter] && th.wait != .wfm && s.enters 0 th && s.mailBad 0) = true) ∧
    (∃ s : State, (s.thread? 0).any (fun th => th.mailbox == [letter] && th.wait == .wfm && s.enters 0 th && !s.mailBad 0) = true) ∧
    (∃ s : State, oldest s (parcel 0) = true ∧ (s.thread? 0).any (fun th => reachesHand (s.target (parcel 0)) th && (th.refuses 5).isNone &&
      !th.stored 5) = true) ∧
    (∃ s : State, oldest s (parcel 0) = true ∧ (s.thread? 0).any (fun th => reachesHand (s.target (parcel 0)) th && (th.refuses 5).isNone &&
      th.stored 5 && (s.recordWaits th).isNone) = true) ∧
    (∃ s : State, oldest s (parcel 0) = true ∧ reachesHand (s.target (parcel 0)) hand = true ∧ hand.refuses (parcel 0).k = some 0 ∧ hand.guest = false) ∧
    (∃ s : State, counting s 4095 = true) ∧
    (∃ s : State, counting s 1 = true ∧ taskHome errand.record = (parcel 0).core ∧ (s.core 0).runList.length < 512 ∧ (s.core 0).waitTasks = []) ∧
    (∃ s : State, (s.nextMigrant 1 [] [] (s.core 1).migrants).any (fun m => (s.recordWaits m.2.1.thread).isNone) = true) ∧
    (∃ s : State, homing s true = true) ∧ (∃ s : State, homing s false = true) ∧
    (∃ s : State, (s.thread? 0).map Thread.wait = some (.yield 0)) ∧
    (∃ s : State, (s.thread? 0).any (fun th => th.ctx.mskd && th.ctx.rem == 0) = true) := by
  let guests : State := deskOffer hand 0 1
  let back : State := (desk hand).modFlight fun f => { f with returns := [{ id := 7, core := 1, thread := hand }] }
  exact ⟨found (deskParcel hand 0), found (deskParcel hand 9), by decide, ⟨{ hand with mailbox := List.replicate 8 letter }, by decide, rfl⟩,
    found (desk { hand with overflow := some 1 }), found (desk { called with wait := .none }), found (deskSmudged { called with wait := .none }), found (desk called),
    found (deskParcel (handAt fun x => { x with armed := 0x20 }) 0),
    found (deskParcel { handAt fun x => { x with armed := 0x20 } with res0 := false } 0), found (deskParcel hand 0), found (deskCounter 4095), found (deskCounter 1),
    found guests, found back, found (back.modFlight fun f => { f with stores := [{ underWay with core := 1, seen := true }] }), found (desk { hand with wait := .yield 0 }), found (desk (masking 0))⟩

/-- The office with the launch record queued, or taken, and no launch placed. -/
def lobby : State := { exporting with
  threads := [], cores := [], work := { State.reset.work with queues := [(1, [(0, rooted)])], deficit := [(1, 100)] } }
/-- A launch of the office without threads. -/
def idling (prev : Option (Nat × Nat)) (ended : Bool) : State :=
  { exporting with threads := [], work := { State.reset.work with launches := [(launchKey 1 0, { setupLaunch with prev := prev, ended := ended })] } }
/-- A forme of one thread, the one in slot 0. -/
def solo (preempted : Bool) : Forme :=
  { launch := launchKey 1 0, task := errand, f := 1, t := 1, tids := [0], ended := [], tdone := false, preempted := preempted }
/-- The desk with that forme, under a checkpoint that wants every core. -/
def deskSolo (th : Thread) : State :=
  let s := (desk { th with forme := 1 }).modWork fun w => { w with formes := [(1, solo false)] }
  s.modHost fun h => { h with quiesced := true }
/-- The forme in its save record. -/
def deskSaved : State :=
  let s := (desk hand).modWork fun w => { w with formes := [(1, solo true)] }
  { s with threads := [], saved := [(2 ^ 32, { hand with forme := 1 })] }.modCore 0 fun x => { x with imp := [(0, 0x8000), (63, 0xCFFF)] }
/-- A forme that is to be taken, whose threads may all be taken or not. -/
def taking (s : State) (may : Bool) : Bool := (mget s.work.formes 1).any fun f =>
  (s.unit 1 f).all (fun e => !e.2.preempted) && s.due (s.unit 1 f) &&
    (s.recordsWait ((s.unit 1 f).flatMap fun e => (s.standing e.2).map Prod.snd)).isNone &&
    ((s.unit 1 f).all fun e => (s.standing e.2).all fun x => s.mayTake x.2) == may
/-- A forme that has been taken, that nobody keeps from its cores, and whose places are free. -/
def seats (s : State) : Bool := (mget s.work.formes 1).any fun f => (s.launch? f.launch).any fun l =>
  f.preempted && !(l.cores.any fun c => s.wanted l c) && (s.saved.all fun e => (s.recordWaits e.2).isNone && s.steady (coreOf e.2.ranIn)) &&
    ((s.unit 1 f).foldlM (fun s e => s.seatForme l e.1 e.2) s : Option State).any fun w =>
      ((s.unit 1 f).foldlM (fun (s : State) e => (s.stored e.1 true).foldlM State.seatGuest s) w).isSome
/-- The state of the launch that is ending: idle or not, and its last sums. -/
def sweeps (s : State) (idle : Bool) (prev : Option (Nat × Nat)) (ended : Bool) : Bool := (s.launch? (launchKey 1 0)).any fun l =>
  l.ended == ended && s.idleFor (launchKey 1 0) == idle && sumOf l.sent == sumOf l.recvd && l.prev == prev
/-- A launch that has ended may leave, or records of it still wait. -/
def leaves (s : State) (waits : Bool) : Bool := (s.launch? (launchKey 1 0)).any fun l =>
  l.ended && (s.freeOf (launchKey 1 0) l).endWaits (launchKey 1 0) l.tenant == waits
/-- A bank that is not resident may be claimed, from fresh or from the record. -/
def claims (s : State) (fresh : Bool) : Bool := (s.thread? 0).any fun th => th.pl == 0 && !th.res0 && !th.res1 && th.fresh0 == fresh && th.fresh1 == fresh

/-- The launch that is taken in class 0 is placed. -/
def placing (s : State) : Bool := (mget s.work.taken 0).any fun e =>
  let l := newLaunch (nbits e.2 16 8) e.1 e.2
  let key := launchKey l.tenant e.1
  (s.rootTasks key l).isSome && !l.gang && (s.freeIdx key l).any fun i =>
    (l.rows.foldlM (fun s c => s.giveCore key c) (s.enterLaunch key i l) : Option State).isSome
/-- The launch of a record with those FLAGS enters, with its image joined to the shared margin or not. -/
def entering (s : State) (flags : Nat) (joined : Bool) : Bool :=
  let l := newLaunch 1 0 (rooted ||| BitVec.ofNat 1024 (flags * 2 ^ 24))
  l.frozen == (flags / 2 % 2 == 1) && nbits l.record 26 1 == flags / 4 && (s.imageOf l).any fun i => i.joined == joined
/-- A launch is given core 0, where it holds nothing. -/
def giving (s : State) : Bool := (s.launch? (launchKey 1 0)).any fun l =>
  !l.cores.contains 0 && (mget l.lsBase 0).isNone && (mget l.savedLs 0).isNone && (mget l.accBase 0).isNone && (s.giveCore (launchKey 1 0) 0).isSome

/-- A place behind a stack is a place for a stack, wherever the pools begin (log 19). -/
theorem freeStack_isSome {s : State} {n b : Nat} (h : b ∈ s.stacks.map fun r => r.1 + r.2)
    (k : (b + n ≤ 0x005F80000000 && s.stacks.all fun r => b + n ≤ r.1 || r.1 + r.2 ≤ b) = true) : (s.freeStack n).isSome = true := by
  rw [State.freeStack, Option.isSome_iff_ne_none, ne_eq, List.min?_eq_none_iff]
  exact List.ne_nil_of_mem (List.mem_filter.mpr ⟨List.mem_cons_of_mem _ h, k⟩)

/-- A task of a launch is formed where its places and its stacks are there. -/
theorem form_isSome {s : State} {task : Task} {l : Launch} {c : Nat} {recs : List Nat} (h : s.launch? task.launch = some l)
    (i : s.span task.launch (taskPart task.record 16 1) (taskPart task.record 17 1) (taskPart task.record 18 1) l.pos (taskHome task.record) = some c)
    (j : (s.tenant? l.tenant).bind (Tenant.freeRecs · (taskPart task.record 16 1 * taskPart task.record 17 1)) = some recs)
    (k : (s.freeStack (taskPart task.record 16 1 * taskPart task.record 17 1 * (l.part 39 1 * 4096))).isSome = true) : (s.form task).isSome = true := by
  obtain ⟨b, e⟩ := Option.isSome_iff_exists.mp k
  simp only [State.form, h, i, j, e, Option.isSome_some]

/-- The desk with a task of the launch on core 0's list, and a position for it. -/
def deskErrand : State := (desk hand).modCore 0 fun x => { x with imp := (1, 0x8000) :: x.imp, runList := [errand] }

theorem deskErrand_forms : (deskErrand.form errand).isSome = true := by
  have e : deskErrand.launch? errand.launch = some setupLaunch := by decide +kernel
  refine form_isSome (c := 0) (recs := [1]) e (by decide +kernel) (by decide +kernel) (freeStack_isSome (b := 0x2001000) ?_ ?_) <;> decide +kernel

theorem witness_WorkEvents :
    (∃ s : State, s.work.paused = false ∧ s.host.phase = .running ∧
      (List.range 4).find? (fun k => s.work.queues.any fun e => e.1 / 64 == k && !e.2.isEmpty) = some 0 ∧ mget s.work.taken 0 = none ∧
      s.nextTenant 0 (mgetD s.work.visited 0 0) = some 1 ∧ mget s.work.queues (0 * 64 + 1) = some [(0, rooted)] ∧
      (newLaunch 1 0 rooted).cost ≤ mgetD s.work.deficit (0 * 64 + 1) 0 + (match s.tenant? 1 with | some x => x.quantum | none => 1)) ∧
    (∃ s : State, s.host.phase = .running ∧ s.vacateAll.work.paused = false ∧ ((List.range 4).findSome? (fun k => s.vacateAll.placeClass k)).isSome = true) ∧
    (∃ s : State, s.host.phase = .running ∧ s.vacateAll.work.paused = true) ∧
    (∃ s : State, s.host.phase = .running ∧ s.vacateAll.work.paused = false ∧ ((List.range 4).findSome? (fun k => s.vacateAll.placeClass k)).isNone = true) ∧
    (∃ s : State, placing s = true) ∧ (∃ s : State, entering s 2 false = true) ∧ (∃ s : State, entering s 0 false = true) ∧
    (∃ s : State, entering s 4 true = true) ∧ (∃ s : State, giving s = true) ∧
    (∃ s : State, (s.launch? (launchKey 1 0)).any (fun l => mget l.savedLs 0 == some (1024, [7]) &&
      (s.ranges 0 Launch.lsBase Launch.lsBytes).all (fun r => 1024 + l.lsBytes ≤ r.1 || r.1 + r.2 ≤ 1024)) = true) ∧
    (∃ s : State, (s.launch? (launchKey 1 0)).any (fun l => mget l.savedLs 0 == some (1024, [7]) &&
      !(s.ranges 0 Launch.lsBase Launch.lsBytes).all (fun r => 1024 + l.lsBytes ≤ r.1 || r.1 + r.2 ≤ 1024)) = true) ∧
    (∃ s : State, (s.launch? (launchKey 1 0)).any (fun l => mget l.lsBase 0 == some 0 && l.lsBytes != 0) = true) ∧
    (∃ s : State, s.host.quiesced = true) ∧
    (∃ s : State, s.host.quiesced = false ∧ (s.core 0).runList.find? (fun k => k.launch == launchKey 1 0) = some errand ∧ (s.form errand).isSome = true) ∧
    (∃ s : State, sweeps s false none false = true) ∧ (∃ s : State, sweeps s true none false = true) ∧ (∃ s : State, sweeps s true (some (0, 0)) false = true) ∧
    (∃ s : State, leaves s true = true) ∧ (∃ s : State, leaves s false = true ∧ s.egress (s.hostOf 1) = true) ∧ (∃ s : State, taking s true = true) ∧ (∃ s : State, taking s false = true) ∧
    (∃ s : State, seats s = true) ∧ (∃ s : State, claims s true = true ∧ s.saved = []) ∧ (∃ s : State, claims s false = true ∧ s.saved = []) ∧
    (∃ s : State, (mget s.work.batches 0).map Batch.state = some 2) := by
  let late : Note := { kind := 0x11, die := 0xFF, status := 0, p0 := 0, p1 := 0, launch := launchKey 1 0 }
  exact ⟨found lobby, found { lobby with work := { lobby.work with queues := [], taken := [(0, (0, rooted))] } },
    found { lobby with work := { lobby.work with paused := true } }, found { lobby with work := { lobby.work with queues := [] } },
    found { lobby with work := { lobby.work with queues := [], taken := [(0, (0, rooted))] } }, found office, found office,
    found (office.modTables fun x => { x with images := [{ leaflet with joined := true }] }),
    found { lobby with work := { lobby.work with launches := [(launchKey 1 0, newLaunch 1 0 rooted)] } },
    found ((desk hand).modLaunch (launchKey 1 0) fun l => { l with lsBase := [], savedLs := [(0, (1024, [7]))] }),
    found (deskSolo hand |>.modLaunch (launchKey 1 0) fun l => { l with lsBase := [(0, 1024)], savedLs := [(0, (1024, [7]))] }),
    found (desk hand), found (deskSolo hand), ⟨deskErrand, by decide +kernel, by decide +kernel, deskErrand_forms⟩,
    found (desk hand), found (idling none false), found (idling (some (0, 0)) false),
    found ((idling none true).modTenant 1 fun x => { x with waiting := [late] }), found (idling none true),
    found (deskSolo hand), found (deskSolo { hand with stOut := 1 }), found deskSaved, found (desk { hand with res0 := false, res1 := false, fresh0 := true, fresh1 := true }),
    found (desk { hand with res0 := false, res1 := false }), found (deskBatch hand 2)⟩

/-! ### Witnesses: events of engines, blocks, supervisors -/

/-- The shape record of one element of a type at an address, as a command has read it. -/
def shaped (base ty : Nat) : Vec := shapeRecord ||| BitVec.ofNat 512 (base + ty * 2 ^ 64)
/-- A fill of the one element of the shape at 0x10000 (R288), and a command like it of another kind. -/
def fill (op : Nat) (started moved : Bool) : CopyCmd :=
  { id := 9, home := 0, who := 0, launch := launchKey 1 0, tenant := 1, n := 1, op := op, a := shapeHandle, b := 0, c := 0, started := started,
    slots := [], read := [], pos := 0, peer := false, moved := moved, shape := shaped 0x10000 7 }
/-- The desk with a shape of the region's type at `base`, and a copy command queued. -/
def deskCopy (m : CopyCmd) (base : Nat) : State :=
  ((deskRegion hand plot).modTables fun x => { x with shapes := [(0x4000000, shaped base 7)] }).modCore 0 fun x => { x with copyQ := [m] }
/-- A matrix command in f32, of two tiles at the start of the grant, or of one accumulator. -/
def tiles (op granted : Nat) : MatCmd :=
  { id := 9, home := 0, who := 0, launch := launchKey 1 0, tenant := 1, n := 1, op := op, a := if op = 12 then shapeHandle else 0, b := 0, c := 0,
    fmta := 4, fmtb := 4, scla := 0, sclb := 0, rnd := 0, granted := granted, retired := 0, slots := [], peer := false, drained := false, sent := 0,
    moved := false, shape := shaped 0x10000 6 }
/-- The desk with that command and with credit for core 0. -/
def deskMatrix (m : MatCmd) : State :=
  let s := (desk hand).modTables fun x => { x with shapes := [(0x4000000, shaped 0x10000 6)] }
  (s.modCore 0 fun x => { x with matQ := [m] }).modCluster 0 fun x =>
    { x with credit := [(0, 1)], drains := [{ core := 0, id := 9, data := List.replicate 1024 0 }] }
/-- An ordered entry that has its one slice. -/
def entry : Ord := { launch := launchKey 1 0, pa := 0x10000, va := 0x10000, key := 1, ty := 6, slices := [(0, 0)], adds := 1, closer := none }
/-- A copy of 512 bytes, which is two units. -/
def copyLong : CopyCmd := { fill 8 true false with a := 0x10200, b := 0x10000, c := 512 }

/-- The command that the copy engine starts next. -/
def starting (s : State) : Option CopyCmd :=
  (s.copyPick 0 fun l => (s.nextStart 0 l (s.core 0).copyQ).isSome).bind fun l => s.nextStart 0 l (s.core 0).copyQ
/-- A command may start, and fails as it does or not. -/
def startable (s : State) (fails : Bool) : Bool :=
  !s.rowHeld 0 && s.copyRoom 0 && (starting s).any fun m => (s.startFails 0 m).isSome == fails
/-- Command 9 has its turn, its slots are published, and its data have moved or not; a test of it. -/
def turning (s : State) (moved : Bool) (P : CopyCmd → Bool) : Bool :=
  (s.copyTurn 0 9).any fun m => s.copyPublished 0 m && m.moved == moved && P m
/-- Its launch has the turn to move a unit. -/
def picked (s : State) (m : CopyCmd) : Bool := s.copyPick 0 (fun l => (s.core 0).copyQ.any fun x => x.launch == l && s.canMove 0 x) == some m.launch
/-- What becomes of a unit: the last one, or one of more, or a failure. -/
def movesAll (m : Moving) (P : State → Bool) : Bool := match m with
  | .moved w => P w
  | _ => false
def movesMore (m : Moving) : Bool := match m with
  | .more _ w => (w.core 0).copyQ.any fun x => x.id == 9
  | _ => false
def movesNot (m : Moving) (P : State → Bool) : Bool := match m with
  | .fail _ w => P w
  | _ => false
/-- An ordered entry that is full is at its home in reach. -/
def completes (s : State) (d : Nat) : Bool :=
  ((s.die d).ordered.find? fun e => e.launch == launchKey 1 0 && e.pa == 0x10000 && s.ordFull e).any fun e =>
    s.reach (match s.launch? (launchKey 1 0) with | some x => x.tenant | none => 0) e.va 2 == .at_ 0x10000 1 none && !s.zeroing (0x10000 / 64)
/-- A `dens` that has elements to read of an open region. -/
def reads9 (s : State) : Bool := (s.copyTurn 0 9).any fun m =>
  m.op == 6 && decide (m.read.length < boxCount m.a (shapeRank m.shape)) && (s.resumeBreak (nbits m.b 0 4) (2 ^ 40 + cmdTag m.id)).isNone &&
    match s.regionFor m.tenant (nbits m.b 0 4) with
    | .ok g =>
      let at_ := keyOf (densCoords g m m.read.length)
      (match s.regScan (nbits m.b 0 4) g (if at_ = 0 then 2 ^ 127 else at_ - 1) 15 with | .ok _ => true | .error _ => false)
    | .error _ => false
/-- The unit of cluster 0 grants a tile of core 0, or its drain. -/
def granting (s : State) (drain : Bool) : Bool :=
  let u := s.modCluster 0 fun x => { x with credit := mput x.credit 0 (mgetD x.credit 0 0 - 1), at_ := (0 % 8 + 1) % 8 }
  s.nextGrant 0 (s.cluster 0).at_ (fun c => mgetD (s.cluster 0).credit c 0) == some 0 &&
    (u.readyTile 0).any fun m => (m.op == 12) == drain &&
      if drain then (u.drainFails m).isNone else (u.tileFails 0 m).isNone && (u.claimSlots 0 m m.rings).isSome
/-- A drain of core 0 with its accumulator in a buffer writes its last elements, or some of more. -/
def draining (s : State) (last : Bool) : Bool := (s.matCmd? 0 9).any fun m => (s.drainData 0 9).any fun data =>
  !s.drainBehind m && !m.refused && !m.moved && match s.moveDrain 0 m data with
    | (.moved w, k, _) => if last then decide ((drainTargets m).length ≤ k) && w.settled (m.owner 0) else decide (k < (drainTargets m).length)
    | _ => false

/-- The clauses of a ring's WPTR and RPTR: a command starts that pushes, or pops. -/
theorem witness_RingResults_start :
    (∃ s : State, startable s false = true ∧ (starting s).map CopyCmd.ringUse = some (some (0, true)) ∧ (s.ring? 0 (launchKey 1 0) 0).isSome = true) ∧
    (∃ s : State, startable s false = true ∧ (starting s).map CopyCmd.ringUse = some (some (0, false)) ∧ (s.ring? 0 (launchKey 1 0) 0).isSome = true) := by
  let ringed (op : Nat) (r : Ring) : State := (deskCopy { fill op false false with a := 0, c := 1 } 0x10000).modCore 0 fun x => { x with rings := [(0, r)] }
  exact ⟨found (ringed 14 hoop), found (ringed 15 { hoop with tail := 1, wptr := 1 })⟩

theorem witness_EngineEvents :
    (∃ s : State, startable s true = true) ∧ (∃ s : State, startable s false = true) ∧
    (∃ s : State, turning s true (fun m => !m.refused && s.settled (m.owner 0)) = true) ∧
    (∃ s : State, turning s false (fun m => picked s m && !m.refused && movesAll (s.moveCopy 0 m) (fun w => w.settled (m.owner 0))) = true) ∧
    (∃ s : State, turning s false (fun m => picked s m && !m.paid && movesMore (s.moveCopy 0 m)) = true) ∧
    (∃ s : State, turning s false (fun m => m.paid && movesMore (s.moveCopy 0 m)) = true) ∧
    (∃ s : State, turning s false (fun m => movesNot (s.moveCopy 0 m) (fun w => w.faultRoom m.tenant && (mget w.threads m.home).isSome &&
      decide ((w.ctxOf m.home false).cnt < m.n) && (w.ctxOf m.home false).failed.isNone)) = true) ∧
    (Eng.zero.done = [] ∧ Eng.zero.cnt + 1 < 2) ∧ (∃ s : State, completes s 0 = true) ∧ (∃ s : State, reads9 s = true) ∧ (∃ s : State, granting s true = true) ∧
    (∃ s : State, granting s false = true) ∧
    (∃ s : State, s.nextGrant 0 (s.cluster 0).at_ (fun c => mgetD (s.cluster 0).credit c 0) = none ∧ s.nextGrant 0 0 s.matWeight = none) ∧
    (∃ s : State, (s.matCmd? 0 9).any (fun m => m.op == 11 && s.matTurn m && decide (m.acc < s.accCount m.launch)) = true) ∧
    (∃ s : State, (s.matCmd? 0 9).any (fun m => m.op != 11 && m.tile && decide (m.retired < m.granted) && !s.tileBehind m && !s.tileBad 0 m &&
      !scaledOp m.fmta && !scaledOp m.fmtb) = true) ∧
    (∃ s : State, (s.matCmd? 0 9).any (fun m => m.op == 12 && !m.drained && m.granted != 0 && !s.rowHeld 0 && s.drainFails m == none &&
      !s.accBad 0 (s.accIndex 0 m.launch m.acc)) = true) ∧
    (∃ s : State, draining s true = true) ∧ (∃ s : State, draining s false = true) := by
  let long : MatCmd := { tiles 12 1 with drained := true, a := shapeHandle ||| BitVec.ofNat 512 (127 * 2 ^ 128),
                                         shape := shaped 0x10000 6 ||| BitVec.ofNat 512 (127 * 2 ^ 128) }
  let lost : CopyCmd := { fill 7 true false with shape := shaped 0x50000000 7 }
  let dense : CopyCmd := { fill 6 true false with b := 3 }
  exact ⟨found (deskCopy (fill 3 false false) 0x10000), found (deskCopy (fill 7 false false) 0x10000), found (deskCopy (fill 7 true true) 0x10000),
    found (deskCopy (fill 7 true false) 0x10000), found (deskCopy copyLong 0x10000), found (deskCopy { copyLong with paid := true } 0x10000), found (deskCopy lost 0x50000000), by decide,
    found ((deskRegion hand plot).modDie 0 fun x => { x with ordered := [entry] }), found (deskCopy dense 0x10000), found (deskMatrix (tiles 12 0)), found (deskMatrix (tiles 9 0)), found (desk hand),
    found (deskMatrix (tiles 11 0)), found (deskMatrix (tiles 9 1)), found (deskMatrix (tiles 12 1)),
    found (deskMatrix { tiles 12 1 with drained := true }), found (deskMatrix long)⟩

/-- A migration of block 3 from HBM to LPDDR, in a state. -/
def moving (st : MigState) : Mig :=
  { id := 9, cow := false, entry := 0x2000000, va := 0x40000000, tenant := 1, die := 0, tier := 1, tag := 0, state := st, newBlk := 0x100000000000,
    oldBlk := 0x30000, waiters := [] }
/-- The device with that migration on die 0, with an entry and a free LPDDR block. -/
def deskMoving (st : MigState) (e : BitVec 128) : State :=
  let s := (deskWindow hand e 1 []).modTables fun x => { x with free := [(freeKey 0 1 1, { blocks := [0x100000000000], low := true })] }
  s.modDie 0 fun x => { x with migQ := [moving st] }
/-- The list to which block 3 goes back has room, and nothing uses the block. -/
def returns (s : State) : Bool :=
  !s.blockInUse 0x30000 && decide ((s.freeList (freeKey (mgetD s.tables.bdie (0x30000 / 65536) 0) 1 (if isHbm 0x30000 then 0 else 1))).length < 2 ^ 22)
/-- The oldest migration that the engine has not taken is that one, and a test of its entry. -/
def queued (s : State) (P : BitVec 128 → Bool) : Bool :=
  decide (((s.die 0).migQ.filter fun m => m.state != .queued).length < 4) && (s.die 0).migQ.find? (fun m => m.state == .queued) == some (moving .queued) &&
    P (s.blk (moving .queued).entry)
/-- A record that waits for its place. -/
def note : Note := { kind := 0x10, die := 0xFF, status := 1, p0 := 0, p1 := 0, launch := 0 }
/-- The office whose tenant has that record waiting as number 901, its queue so that the place of the record and the consumer's word lie in
the page. -/
def deskNote (read : Nat) : State :=
  let s := office.modTenant 1 fun x => { x with waiting := [note], fnqb := 0x8FC0, fq := { seq := 900, dropped := 0 } }
  { s with mem := { cells := place 0x10FC0 (bytesOf read 8), tags := [(1087, s.keyData 1)] } }
/-- The record that waits is written, or finds the queue full. -/
def writes (s : State) (full : Bool) : Bool := (s.tenant? 1).any fun x => x.waiting == [note] && x.tierWait == [] && match s.writeNote 1 x.fnqb (x.fq.seq + 1) 0 note with
  | .written _ => !full
  | .full => full
  | _ => false
/-- A record on its way to slot 15, and the slot's contents. -/
def marked : MRec := { id := 9, core := 0, who := 0, launch := launchKey 1 0, pc := 0x10004, site := .pick 15 0 1, waits := false }
def deskMark (n : Nat) : State :=
  ((office.modTables fun x => { x with images := [{ leaflet with live := [(15, BitVec.ofNat 128 n)] }] }).modFlight fun f => { f with margins := [marked] })
/-- That record finds its slot, where it is dropped or not. -/
def marks (s : State) (drops : Bool) : Bool :=
  s.flight.margins.find? (fun r => r.id == 9) == some marked && (s.launch? marked.launch).any fun l => (s.imageOf l).any fun x =>
    (siteSlot x l.textBase marked.pc marked.site).any fun k => dropsRecord (s.marginSlot l x k) marked.site == drops

theorem witness_BlockEvents :
    (∃ s : State, queued s (!blkValid ·) = true) ∧
    (∃ s : State, queued s (fun e => blkValid e && !blkWb e && decide (s.blkCount (blkBase e) ≤ 1) && blkTier e != 1) = true ∧ (s.popBlock 0 1 1).isSome = true) ∧
    (∃ s : State, (s.die 0).migQ.find? (fun m => m.id == 9 && m.state == .copy) = some (moving .copy)) ∧
    (∃ s : State, (s.die 0).migQ.find? (fun m => m.id == 9 && m.state == .release) = some (moving .release) ∧ returns s = true) ∧
    (∃ s : State, s.tables.returning.find? (fun r => r.2 == 0x30000) = some (1, 0x30000) ∧ returns s = true) ∧
    (∃ s : State, (s.thread? 0).any (fun th => th.held.map Held.applied == some false) = true) ∧
    (∃ s : State, (s.power.zeroing.filter (dueIn 1087)).getLast? = some (1024, 64, 1)) ∧
    (∃ s : State, writes s false = true) ∧ (∃ s : State, writes s true = true) ∧ (∃ s : State, marks s false = true) ∧ (∃ s : State, marks s true = true) ∧
    (∃ s : State, (s.flight.walks.find? (fun w => w.id == 9)).any (fun w => match s.walk w.tenant w.va with | .leaf _ _ _ => true | _ => false) = true) := by
  let h : Held := { req := { loc := .mem 0x30000 1 none, writes := [] }, atom := none, va := 0x40000000, applied := false, old := 0, pair := false }
  exact ⟨found (deskMoving .queued 0), found (deskMoving .queued block3), found (deskMoving .copy 0), found (deskMoving .release 0),
    found ((desk hand).modTables fun x => { x with returning := [(1, 0x30000)] }), found (desk { hand with held := some h }),
    found { desk hand with power := { State.reset.power with zeroing := [(1087, 1, 2), (1024, 64, 1)] } }, found (deskNote 900), found (deskNote 902),
    found (deskMark 4), found (deskMark 1),
    found ((deskRegion hand plot).modFlight fun f => { f with walks := [{ id := 9, die := 0, tenant := 1, va := 0x10FFF, waiters := [0, 64] }] })⟩

/-- Core 0 with a supervisor slot of tenant 1 in slot 2, which has an entry for slot 0. -/
def deskEntry : State :=
  let s := ((desk { hand with upcall := some { kind := 2, code := 6, resume := false } }).setThread 2 { chief [] with home := 2 }).modLaunch (launchKey 1 0) fun l => { l with upcv := 0x10000 }
  s.modCore 0 fun x => { x with sups := [(1, { slot := 2, utsel := 0, queue := [{ slot := 0, kind := 2, code := 6 }], notice := false, run := none, resumed := [] })] }
/-- A supervisor's run may start. -/
def runsNext (s : State) : Bool := (mget (s.core 0).sups 1).any fun u => u.run.isNone && (s.thread? (0 * 64 + u.slot)).isSome &&
  (u.queue.head?).any fun e => e.kind != 1 && (s.thread? (0 * 64 + e.slot)).any fun th => th.inUpcall && (s.launchOf th).isSome
/-- An entry of the machine slot of core 0, of the thread in slot 0: its fault, or a breakpoint's. -/
def deskMachine (th : Thread) (w : Dword) : State := (desk th).modCore 0 fun x => { x with mq := [(w, th.who)] }
/-- The machine slot's next entry is a breakpoint's, or its thread has ended; or it is a fault of the thread in slot 0, of the privilege `pl`. -/
def machineNext (s : State) (pl : Option Nat) : Bool := (s.core 0).mq.head?.any fun e =>
  !(s.core 0).mrun && (s.thread? 63).any fun th => match pl with
    | none => e.1.getLsbD 23 || (th.who != e.2 && (s.threads.all fun x => x.2.who != e.2) && s.saved.all fun x => x.2.who != e.2)
    | some n => !e.1.getLsbD 23 && th.who != e.2 && (mget s.threads 0).any fun y => y.pl == n && y.who == e.2 && (y.guest || y.away.isNone) &&
        s.threads.all fun x => x.2.who != e.2 || x == (0, y)
/-- The watchdog of the thread in slot 0 has run out, with instructions out or not. -/
def watches (s : State) (out : Bool) : Bool := (s.thread? 0).any fun th => s.runOut 0 th && th.expired.isNone && (th.rob == []) == !out
/-- A breakpoint stops the thread in slot 0, of the privilege `pl`. -/
def breaks (s : State) (pl : Nat) : Bool := (s.thread? 0).any fun th => th.pl == pl &&
  (s.breakpointAt 0 th).isSome && !th.stopped && th.upcall.isNone && th.away.isNone && th.rob == []

theorem witness_SupervisorEvents :
    (∃ s : State, runsNext s = true) ∧ (∃ s : State, machineNext s none = true) ∧ (∃ s : State, machineNext s none = true ∧ s.threads = []) ∧
    (∃ s : State, machineNext s (some 0) = true) ∧
    (∃ s : State, machineNext s (some 1) = true) ∧ (∃ s : State, breaks s 2 = true) ∧ (∃ s : State, breaks s 0 = true) ∧ (∃ s : State, watches s false = true) ∧ (∃ s : State, watches s true = true) ∧
    (∃ s : State, s.sched.issue = false ∧ s.host.phase = .running ∧ (s.core 0).halted = false) ∧
    (∃ s : State, s.sched.issue = false ∧ s.host.phase = .running ∧ (s.core 0).halted = true) ∧
    (∃ s : State, (reservedBy 0xFFFFFFFF).isSome = true ∧ (s.thread? s.sched.cur).any (fun th => th.rob == []) = true) :=
  ⟨found deskEntry, found (deskMachine hand (BitVec.ofNat 64 (0x21 + 2 ^ 23))),
   found { deskMachine hand 6 with threads := [] }, found (deskMachine hand 6), found (deskMachine (chief []) 6),
   found ((desk { hand [] 2 with bkSkip := false }).modCore 0 fun x => { x with bkpc := [(3, 0x10001)], bkmsk := [(3, 1)] }),
   found ((desk { hand with bkSkip := false }).modCore 0 fun x => { x with bkpc := [(3, 0x10001)], bkmsk := [(3, 1)] }),
   found ((desk { hand with wdog := 1, idle := 1 }).modCore 0 fun x => { x with wdog := 1 }),
   found ((desk { loading with wdog := 1, idle := 1 }).modCore 0 fun x => { x with wdog := 1 }),
   found State.reset, found (State.reset.modCore 0 fun x => { x with coreclk := 4 }), found (desk hand)⟩

/-! ### Witnesses: the machine as a whole -/

/-- The thread of a launch with an upcall vector, or without. -/
def upcalls (s : State) (th : Thread) (vector : Bool) : Bool := s.thread? 0 == some th && (s.launchOf th).any fun l => (l.upcv != 0) == vector

theorem witness_FaultTaken :
    (∃ s : State, upcalls s hand true = true ∧ hand.pl = 0 ∧ 255 < 256) ∧ (∃ s : State, upcalls s { hand with forme := 1, midx := 1 } false = true ∧
      ({ hand with forme := 1, midx := 1 } : Thread).attached = true) ∧
    (∃ s : State, s.thread? 0 = some (chief []) ∧ (chief []).pl = 1) ∧ (∃ s : State, s.thread? 0 = some (keeper []) ∧ (keeper []).pl = 2) :=
  ⟨found ((desk hand).modLaunch (launchKey 1 0) fun l => { l with upcv := 0x10000 }), found (desk { hand with forme := 1, midx := 1 }),
   found (desk (chief [])), found (desk (keeper []))⟩

/-- What each clause asks of an instruction and the thread that has the turn. -/
def meeting (s : State) (th : Thread) (q : Req) (legal : Bool) : Bool := s.sched.cur == 0 && s.thread? 0 == some th && q.legal == legal
/-- The leader whose member is too many words behind. -/
def racing : Thread := { leading with ctx := hand.ctx }
def deskRacing : State :=
  (pairOf racing 3).modThread 64 fun m => { m with det := false, join := none, ribbon := List.replicate 8 { pc := 0, w0 := 0, w1 := 0, next := 0, taken := false } }

/-- A thread with an armed register and all the stores under way that it may have. -/
def full : Thread := { handAt fun x => { x with armed := 8 } with stOut := 255 }

theorem witness_StopsBeforeExecution :
    (∃ s : State, meeting s hand { word := 0, legal := false } false = true ∧ hand.rob = []) ∧
    (∃ s : State, meeting s loading { word := 0, legal := false } false = true ∧ loading.rob ≠ []) ∧
    (∃ s : State, meeting s loading { word := 0, reads := [9] } true = true ∧ loading.badReg [] = none ∧ loading.absent 9 = false ∧
      loading.pending 9 = true ∧ loading.heldBy { word := 0, reads := [9] } = some 4) ∧
    (∃ s : State, meeting s loading { word := 0, writes := [9] } true = true ∧ loading.absent 9 = false ∧ loading.pending 9 = true) ∧
    (∃ s : State, meeting s racing { word := 0 } true = true ∧ s.paced racing = true) ∧
    (∃ s : State, meeting s hand { word := 0, level := 1 } true = true ∧ hand.casts = false ∧ s.paced hand = false ∧ hand.pl < 1) ∧
    (∃ s : State, meeting s { hand with w := 8 } { word := 0, regs := [7, 8] } true = true ∧ ({ hand with w := 8 } : Thread).badReg [7, 8] = some 8) ∧
    (∃ s : State, meeting s (handAt fun x => { x with armed := 8 }) { word := 0, reads := [3] } true = true ∧
      (handAt fun x => { x with armed := 8 }).heldBy { word := 0, reads := [3] } = some 10) ∧
    (∃ s : State, meeting s (handAt fun x => { x with armed := 8 }) { word := 0, reads := [3], early := [.stores] } true = true ∧
      s.holdsEarly 0 (handAt fun x => { x with armed := 8 }) .stores = none) ∧
    (∃ s : State, meeting s full { word := 0, reads := [3], early := [.stores] } true = true ∧ s.holdsEarly 0 full .stores = some 5) ∧
    (∃ s : State, meeting s { hand with res0 := false } { word := 0, reads := [99] } true = true ∧
      ({ hand with res0 := false } : Thread).heldBy { word := 0, reads := [99] } = some 3) ∧
    (∃ s : State, meeting s hand { word := 0 } true = true ∧ hand.badReg [] = none ∧ hand.heldBy { word := 0 } = none) :=
  ⟨found (desk hand), found (desk loading), found (desk loading), found (desk loading), found deskRacing, found (desk hand), found (desk { hand with w := 8 }), found (desk (handAt fun x => { x with armed := 8 })),
   found (desk (handAt fun x => { x with armed := 8 })), found (desk full), found (desk { hand with res0 := false }), found (desk hand)⟩

/-- The thread of slot 0 may step. -/
def turns (s : State) (th : Thread) : Bool :=
  s.host.phase == .running && s.sched.agenda == [] && s.sched.issue && s.sched.cur == 0 && s.thread? 0 == some th && s.mayTry 0 && !th.ending &&
    !s.toResume 0 th && th.expired.isNone && th.refused.isNone && !(th.overflow.isSome && s.atBoundary 0 th) && !s.yields th && !s.enters 0 th && (s.breakpointAt 0 th).isNone
/-- It meets `w` at its pc, and `v` behind it. -/
def steps (s : State) (th : Thread) (w v : Word) : Bool :=
  turns s th && !th.attached && !th.ctx.framed &&
    (match s.fetch 0 th th.ctx.pc with
      | .word x u => x == w && (match u.fetch 0 th (th.ctx.pc + 4) with | .word y _ => y == v | _ => false)
      | _ => false)
/-- A thread in a frame that has captured an addition, and an attached member to whom it has been sent. -/
def framed : Thread := handAt fun x => { x with rpts := BitVec.ofNat 64 (2 ^ 15), frame := [0x04081060] }
def follower : Thread :=
  { hand with forme := 1, midx := 1, ribbon := [{ pc := hand.ctx.pc, w0 := 0x04081060, w1 := 0, next := hand.ctx.pc + 4, taken := false }] }

theorem witness_StepRunsDecoded :
    (steps (desk hand 0x04081060) hand 0x04081060 0 = true ∧ isExt 0x04081060 = false ∧ (reservedBy 0x04081060).isNone = true) ∧
    (steps (desk hand (0x38000001 + 0x04081060 * 2 ^ 32)) hand 0x38000001 0x04081060 = true ∧ isExt 0x38000001 = true) ∧
    (turns (desk framed) framed = true ∧ framed.ctx.framed = true ∧ framed.ctx.frame[nbits framed.ctx.rpts 0 4]? = some 0x04081060 ∧
      isExt (framed.wordAt 0x04081060) = false) ∧
    (turns (desk follower) follower = true ∧ follower.attached = true ∧ follower.ribbon.head?.map Ribbon.pc = some follower.ctx.pc) := by
  decide +kernel

theorem witness_DecodeEncode : Instr.encodable (.ldx 127 126 125 6 7) = true ∧ Instr.wf (.ldx 127 126 125 6 7) = true := by decide

theorem witness_DormantStays : ∃ s s' : State, s.dormant ∧ step s = .next s' := by
  let s : State := { inPhase .dumped with sched := { State.reset.sched with agenda := [.powerCeiling] } }
  have h : (match step s with | .next _ => true | _ => false) = true := by decide +kernel
  have d : s.dormant := ⟨by decide +kernel, fun c k x hx => by simp [s, inPhase, State.modHost] at hx, by
    intro i hi _
    simp only [s, List.mem_singleton] at hi
    subst hi; rfl⟩
  split at h
  · rename_i s' e; exact ⟨s, s', d, e⟩
  · exact absurd h Bool.false_ne_true

/-! ### Terms that are no instructions -/

/-- Every check of WellFormed refuses a term: a field at its first reserved value, and a name the device does not have. -/
theorem test_wf_refuses_fields :
    ([.sext 1 2 3, .zext 1 2 3, .kcmp 1 2 3 6, .ctlr 1 1023, .ctlw 1 1023, .ctls 1 1023, .ctlc 1 1023, .bf 0 4, .loopi 0 3 0,
      .loop 1 3 0, .pick 1 4 0, .mread 1 13 0, .arrive 1 40, .await 1 40, .arwt 1 40, .bstat 1 40, .msk 65] : List Instr).all
      (fun i => !i.wf) = true := by decide +kernel

theorem test_wf_refuses_formats :
    ([.vfadd 1 2 3 3, .vfsub 1 2 3 3, .vfmul 1 2 3 3, .vfma 1 2 3 3, .vfmin 1 2 3 3, .vfmax 1 2 3 3, .vfdiv 1 2 3 3, .vfsqrt 1 2 3,
      .vfrcp 1 2 3, .vfrsq 1 2 3, .vfexp2 1 2 3, .vflog2 1 2 3, .vfabs 1 2 3, .vfneg 1 2 3, .vfclt 1 2 3 3, .vfceq 1 2 3 3,
      .cvtBf16F32 1 2 0 6, .cvtF16F32 1 2 0 6, .cvtF32Bf16 1 2 0 6, .cvtF32F16 1 2 0 6, .cvtE4m3F32 1 2 0 6, .cvtE5m2F32 1 2 0 6,
      .cvtF32E4m3 1 2 0 6, .cvtF32E5m2 1 2 0 6, .cvtI32F32 1 2 0 6, .cvtF32I32 1 2 0 6, .cvtI8I32 1 2 0 6, .cvtI32I8 1 2 0 6,
      .q4pack 1 2 0 6 0, .q4unpk 1 2 0 6, .ld 1 2 7 0, .st 1 2 4 0, .ldx 1 2 3 7 0, .stx 1 2 3 4 0, .lda 1 2 7 0 0, .lda 1 2 0 6 0,
      .stl 1 2 4 0 0, .stl 1 2 0 6 0, .fenceAcq 6, .fenceRel 6, .fenceFull 6, .fenceWb 6] : List Instr).all
      (fun i => !i.wf) = true := by decide +kernel

theorem test_wf_refuses_names :
    ([.uresmWrite 32768, .coreclkWrite 512 0, .evselWrite 32768 0 0, .wdogWrite 512 0, .lpcWrite 32768 false 0,
      .exportCfg 0 true 0 64 0 0 0 0, .peerWindow 0 true 64 0 ⟨0, 0, 0⟩, .tenantTableChange 64 0, .proofingClear 4 none, .thermalTrip 4 0,
      .sensorUntrusted 4 0 ⟨0, 0⟩, .sensorTrusted 4 0 ⟨0, 0⟩, .voltageStep 4 0 0, .clockHop 4 0 0, .droop 4 0 true, .powerBubble 512 0 true,
      .formeCreation 512 0, .bankClaim 32768 false, .mailboxOverflow 32768, .handlerEntry 32768, .guestAdmission 512,
      .copyCommandStart 512, .copyCommandComplete 512 0, .engineFailed 512 0 0, .tileRetirement 512 0, .drainTurn 512 0,
      .drainComplete 512 0, .orderedEntryCompletion 4 0 0, .take 4, .remap 4 0, .release 4 0, .blockBusy 32768,
      .notificationRecord 64, .regionPoint 512 0, .loadDataReturn 32768 0, .dirtyLogMerge 512, .upcallRun 512 0, .upcallRun 0 64,
      .machineEntry 512, .breakpoint 32768, .fatalError 512 0 0, .watchdog 32768, .yieldExpiry 32768, .maskBoundExpiry 32768,
      .stateChangePass 512, .logDrain 512, .proofingSample 512, .barrelIssue 512, .rdcInvalidation 4 0,
      .dieEventCounterWrite 4 0 0 0] : List Instr).all (fun i => !i.wf) = true := by decide +kernel

/-! ### Words -/

/-- The decoder reads `w` as `i`, and `i` is written as `w`. -/
noncomputable def reads (p : Word × Instr) : Bool := (decodeWord p.1 == .ok p.2) && (encode p.2 == p.1) && p.2.wf


/-- Words that the text of chapters 03 to 09 writes out beside their assembly. -/
theorem test_words_text_core :
    ([
      (0x04081040, .add 1 1 2), (0x08102001, .addi 2 2 1), (0x000000A2, .trap 5), (0x1868C006, .shli 13 12 6),
      (0x1C2037FF, .slti 4 3 1023), (0x242EBEEF, .movk 5 3 0xBEEF), (0x28082064, .sel 1 2 3 4), (0x2C10C203, .kcmp 2 12 16 3),
      (0x30082060, .kand 1 2 3), (0x34002410, .ctlw 2 16), (0x40C00008, .bt 1 8), (0x4140006D, .bt 2 109), (0x41800006, .bf 3 6),
      (0x44000040, .jmp 64), (0x4C003000, .jr 3), (0x51028002, .loopi 0 10 2), (0x54C71100, .rpt 3 7 1 1 0),
      (0x580000E1, .join 7), (0x58600003, .fidx 12), (0x5C181005, .pick 3 1 5), (0x603CBC00, .wait 0 15 2 15),
      (0x64018320, .tlwait 24 25), (0x64298001, .tlread 5 24), (0x680030A1, .await 3 5), (0x681800A0, .arrive 3 5),
      (0x68180402, .arwt 3 32), (0x6C1840A0, .send 3 4 5), (0x6C300001, .rcv 6), (0x6C000202, .msk 16),
      (0x6C6040A4, .dep 12 4 5), (0x6C600005, .arm 12), (0x6C300006, .probe 6), (0x7000F000, .mig 15), (0x70184002, .migst 3 4),
      (0x742050C0, .spawn 4 5 6), (0x74004001, .dec 4), (0x74200003, .tself 4), (0x78D9A000, .rtopen 27 26),
      (0x7840C003, .rtget 8 12 0)] : List (Word × Instr)).all reads = true := by decide +kernel

/-- Words that the text of chapters 03 to 09 writes out beside their assembly. -/
theorem test_words_text_vector :
    ([
      (0x801840A2, .vadd 3 4 5 2), (0x84409155, .vshr 8 9 10 1), (0x88103088, .vclt 2 3 4 0), (0x8C48A16E, .vfma 9 10 11 2),
      (0x901840BA, .vfclt 3 4 5 2), (0x94184804, .cvtE4m3F32 3 4 1 0), (0x9440A04C, .q4pack 8 10 0 0 1),
      (0x98286001, .vrsum 5 6 1), (0x9C205012, .vcomp 4 5 2), (0xA0A02080, .ixdot 20 2 4), (0xA0302001, .bmpfx 6 2),
      (0xA4487102, .vmrg 9 7 8)] : List (Word × Instr)).all reads = true := by decide +kernel

/-- Words that the text of chapters 03 to 09 writes out beside their assembly. -/
theorem test_words_text_memory :
    ([
      (0xC0382403, .ld 7 2 2 3), (0xC01849FF, .ld 3 4 4 511), (0xC4482602, .st 9 2 3 2), (0xC818E001, .vld 3 14 1),
      (0xCC397000, .vst 7 23 0), (0xD02860EA, .ldx 5 6 7 2 2), (0xD42860E5, .stx 5 6 7 1 1), (0xD8208133, .atomCas 4 8 9 1),
      (0xDCC8B302, .atomoAdd 25 11 24 0), (0xE0286502, .lda 5 6 2 4 2), (0xE4286501, .stl 5 6 2 4 1), (0xE8000500, .fenceFull 4),
      (0xE80002C0, .fenceRel 3), (0xEC286060, .sld 5 6 3), (0xEC286061, .sst 5 6 3), (0xEC409663, .scan 8 9 3 3),
      (0xF0004002, .pref 4 2), (0xF0004400, .l1inv 4 0), (0xF0004600, .zline 4 0)] : List (Word × Instr)).all reads = true := by decide +kernel

/-- Words that the text of chapters 03 to 09 writes out beside their assembly. -/
theorem test_words_text_engine :
    ([
      (0xF4103000, .cpld 2 3), (0xF4202122, .cpadd 4 2 9), (0xF42860E4, .cpsca 5 6 7), (0xF460D005, .kvld 12 13),
      (0xF42050C6, .dens 4 5 6), (0xF4103088, .cpcopy 2 3 4), (0xF4B902C9, .mma 23 16 22), (0xF4B0000B, .mzero 22),
      (0xF4C8030C, .mdrain 25 24), (0xF410300D, .rcfg 2 3), (0xF410308E, .rpush 2 3 4), (0xF8F9A000, .shdef 31 26),
      (0xF81840A3, .blkmap 3 4 5), (0xF81840A6, .blkmig 3 4 5), (0xF8304007, .blkst 6 4), (0xF80040A8, .tlbinv 4 5),
      (0xF80040A9, .impset 4 5), (0xF81840AA, .bcfg 3 4 5), (0xFC1840A0, .ptset 3 4 5), (0xFC1840A1, .keyld 3 4 5),
      (0xFC000002, .sysret), (0xFC184004, .qsce 3 4), (0xFC0040A6, .tstop 4 5)] : List (Word × Instr)).all reads = true := by decide +kernel

/-- Every row of these majors of R51, a word with its fields at the places that R44 to R47 give them. -/
theorem test_words_scalar0 :
    ([
      (0x00000000, .nop), (0x00000001, .halt), (0x000000A2, .trap 5), (0x00000003, .brk), (0x00000004, .yield),
      (0x00000005, .wfm), (0x04289220, .add 5 9 17), (0x04289221, .sub 5 9 17), (0x04289222, .mul 5 9 17),
      (0x04289223, .mulh 5 9 17), (0x04289224, .mulhn 5 9 17), (0x04289225, .div 5 9 17), (0x04289226, .divn 5 9 17),
      (0x04289227, .rem 5 9 17), (0x04289228, .remn 5 9 17), (0x04289229, .and 5 9 17), (0x0428922A, .or 5 9 17),
      (0x0428922B, .xor 5 9 17), (0x0428922C, .andn 5 9 17), (0x0428922D, .shl 5 9 17), (0x0428922E, .shr 5 9 17),
      (0x0428922F, .sra 5 9 17), (0x04289230, .rotr 5 9 17), (0x04289231, .min 5 9 17), (0x04289232, .max 5 9 17),
      (0x04289233, .minn 5 9 17), (0x04289234, .maxn 5 9 17), (0x04289235, .cmpeq 5 9 17), (0x04289236, .cmplt 5 9 17),
      (0x04289237, .cmpltn 5 9 17), (0x04289018, .clz 5 9), (0x04289019, .ctz 5 9), (0x0428901A, .popc 5 9),
      (0x0428903B, .sext 5 9 1), (0x0428905C, .zext 5 9 2), (0x08289011, .addi 5 9 17), (0x0C289011, .andi 5 9 17),
      (0x10289011, .ori 5 9 17), (0x14289011, .xori 5 9 17), (0x18289011, .shli 5 9 17), (0x18289411, .shri 5 9 17),
      (0x18289811, .srai 5 9 17), (0x18289C11, .roti 5 9 17), (0x1C289011, .seqi 5 9 17), (0x1C289411, .slti 5 9 17),
      (0x1C289811, .sltni 5 9 17), (0x2029BCDE, .movi 5 113886), (0x242A68AC, .movk 5 1 26796), (0x28289222, .sel 5 9 17 2),
      (0x2C309225, .kcmp 6 9 17 5), (0x30303020, .kand 6 3 1), (0x30303021, .kor 6 3 1), (0x30303022, .kxor 6 3 1),
      (0x30303023, .kandn 6 3 1), (0x30303004, .knot 6 3), (0x30303005, .kmov 6 3), (0x30309006, .vtok 6 9),
      (0x30283007, .ktov 5 3), (0x30283008, .kpopc 5 3), (0x30309049, .vmask 6 9 2), (0x3030300A, .kfirst 6 3),
      (0x34280010, .ctlr 5 16), (0x34005410, .ctlw 5 16), (0x34005811, .ctls 5 17), (0x34005C12, .ctlc 5 18)] : List (Word × Instr)).all reads = true := by decide +kernel

/-- Every row of these majors of R51, a word with its fields at the places that R44 to R47 give them. -/
theorem test_words_control0 :
    ([
      (0x4341BCDE, .bt 6 113886), (0x4301BCDE, .bf 6 113886), (0x44002345, .jmp 9029), (0x48002345, .call 9029),
      (0x4C005000, .jr 5), (0x4C005001, .callr 5), (0x4C000002, .ret), (0x530268AC, .loopi 1 9 10412),
      (0x520268AC, .loop 1 9 10412), (0x5649C350, .rpt 9 9 12 3 5), (0x58000000, .detach), (0x580000A1, .join 5),
      (0x58280002, .fstat 5), (0x58280003, .fidx 5), (0x5C283011, .pick 5 3 17), (0x5C2AC011, .mread 5 12 17),
      (0x5C040005, .mnote 5), (0x625B0C00, .wait 9 6 12 3), (0x64005120, .tlwait 5 9), (0x64289001, .tlread 5 9),
      (0x64289002, .tlnext 5 9), (0x682804E0, .arrive 5 39), (0x680050A1, .await 5 5), (0x68280402, .arwt 5 32),
      (0x682800E3, .bstat 5 7), (0x6C489220, .send 9 9 17), (0x6C280001, .rcv 5), (0x6C0000A2, .msk 5), (0x6C000003, .rti),
      (0x6C289224, .dep 5 9 17), (0x6C280005, .arm 5), (0x6C280006, .probe 5), (0x70005000, .mig 5), (0x70000001, .migret),
      (0x70289002, .migst 5 9), (0x74289220, .spawn 5 9 17), (0x74005001, .dec 5), (0x74000002, .tdone), (0x74280003, .tself 5),
      (0x78289000, .rtopen 5 9), (0x78289221, .rtsub 5 9 17), (0x78289002, .rtclose 5 9), (0x78289223, .rtget 5 9 17),
      (0x78289004, .rtstat 5 9)] : List (Word × Instr)).all reads = true := by decide +kernel

/-- Every row of these majors of R51, a word with its fields at the places that R44 to R47 give them. -/
theorem test_words_vector0 :
    ([
      (0x80289221, .vadd 5 9 17 1), (0x80289229, .vmul 5 9 17 1), (0x80289231, .vmin 5 9 17 1), (0x80289239, .vminn 5 9 17 1),
      (0x84289221, .vand 5 9 17 1), (0x84289229, .vxor 5 9 17 1), (0x84289231, .vshl 5 9 17 1), (0x84289239, .vsra 5 9 17 1),
      (0x88309221, .vceq 6 9 17 1), (0x88309229, .vclt 6 9 17 1), (0x88309231, .vcltn 6 9 17 1), (0x8C289222, .vfadd 5 9 17 2),
      (0x8C28922A, .vfmul 5 9 17 2), (0x8C289232, .vfmin 5 9 17 2), (0x8C28923A, .vfdiv 5 9 17 2), (0x90289002, .vfrcp 5 9 2),
      (0x9028900A, .vfexp2 5 9 2), (0x90289012, .vfabs 5 9 2), (0x9030923A, .vfclt 6 9 17 2), (0x94289B00, .cvtBf16F32 5 9 1 3),
      (0x94289B02, .cvtF32Bf16 5 9 1 3), (0x94289B04, .cvtE4m3F32 5 9 1 3), (0x94289B06, .cvtF32E4m3 5 9 1 3),
      (0x94289B08, .cvtI32F32 5 9 1 3), (0x94289B0A, .cvtI8I32 5 9 1 3), (0x94289A8C, .q4pack 5 9 1 2 2),
      (0x98289002, .vrsum 5 9 2), (0x9828900A, .vrmin 5 9 2), (0x98289231, .vrdot 5 9 17 1), (0x9C289225, .vshuf 5 9 17 1),
      (0x9C28922D, .vsldn 5 9 17 1), (0x9C289016, .vexpd 5 9 2), (0x9C28923D, .vunzip 5 9 17 1), (0xA0289001, .bmpfx 5 9),
      (0xA4289220, .vtopk 5 9 17), (0xA4289222, .vmrg 5 9 17)] : List (Word × Instr)).all reads = true := by decide +kernel

/-- Every row of these majors of R51, a word with its fields at the places that R44 to R47 give them. -/
theorem test_words_vector1 :
    ([
      (0x80289225, .vsub 5 9 17 1), (0x8028922D, .vmac 5 9 17 1), (0x80289235, .vmax 5 9 17 1), (0x8028923D, .vmaxn 5 9 17 1),
      (0x84289225, .vor 5 9 17 1), (0x8428922D, .vandn 5 9 17 1), (0x84289235, .vshr 5 9 17 1), (0x8428901E, .vpopc 5 9 2),
      (0x88309225, .vcne 6 9 17 1), (0x8830922D, .vcge 6 9 17 1), (0x88309235, .vcgen 6 9 17 1), (0x8C289226, .vfsub 5 9 17 2),
      (0x8C28922E, .vfma 5 9 17 2), (0x8C289236, .vfmax 5 9 17 2), (0x8C28901E, .vfsqrt 5 9 2), (0x90289006, .vfrsq 5 9 2),
      (0x9028900E, .vflog2 5 9 2), (0x90289016, .vfneg 5 9 2), (0x9030923E, .vfceq 6 9 17 2), (0x94289B01, .cvtF16F32 5 9 1 3),
      (0x94289B03, .cvtF32F16 5 9 1 3), (0x94289B05, .cvtE5m2F32 5 9 1 3), (0x94289B07, .cvtF32E5m2 5 9 1 3),
      (0x94289B09, .cvtF32I32 5 9 1 3), (0x94289B0B, .cvtI32I8 5 9 1 3), (0x94289A0D, .q4unpk 5 9 1 2),
      (0x98289006, .vrmax 5 9 2), (0x9828900E, .vrarg 5 9 2), (0x9C289002, .vsplat 5 9 2), (0x9C289229, .vslup 5 9 17 1),
      (0x9C289012, .vcomp 5 9 2), (0x9C289239, .vzip 5 9 17 1), (0xA0289220, .ixdot 5 9 17), (0xA0289222, .ixcnt 5 9 17),
      (0xA4289001, .vsort 5 9)] : List (Word × Instr)).all reads = true := by decide +kernel

/-- Every row of these majors of R51, a word with its fields at the places that R44 to R47 give them. -/
theorem test_words_memory0 :
    ([
      (0xC0289621, .ld 5 9 3 33), (0xC4289421, .st 5 9 2 33), (0xC8289011, .vld 5 9 17), (0xCC289011, .vst 5 9 17),
      (0xD028922A, .ldx 5 9 17 2 2), (0xD428922A, .stx 5 9 17 2 2), (0xD8289221, .atomSwap 5 9 17 1),
      (0xD8289223, .atomAdd 5 9 17 1), (0xD8289225, .atomAnd 5 9 17 1), (0xD8289227, .atomOr 5 9 17 1),
      (0xD8289229, .atomXor 5 9 17 1), (0xD828922B, .atomMin 5 9 17 1), (0xD828922D, .atomMax 5 9 17 1),
      (0xD828922F, .atomMinn 5 9 17 1), (0xD8289231, .atomMaxn 5 9 17 1), (0xD8289233, .atomCas 5 9 17 1),
      (0xD8289234, .atomFaddF32 5 9 17), (0xD8289236, .atomFaddBf16 5 9 17), (0xDC289221, .atomoSwap 5 9 17 1),
      (0xDC289223, .atomoAdd 5 9 17 1), (0xDC289225, .atomoAnd 5 9 17 1), (0xDC289227, .atomoOr 5 9 17 1),
      (0xDC289229, .atomoXor 5 9 17 1), (0xDC28922B, .atomoMin 5 9 17 1), (0xDC28922D, .atomoMax 5 9 17 1),
      (0xDC28922F, .atomoMinn 5 9 17 1), (0xDC289231, .atomoMaxn 5 9 17 1), (0xDC289233, .atomoCas 5 9 17 1),
      (0xDC289234, .atomoFaddF32 5 9 17), (0xDC289236, .atomoFaddBf16 5 9 17), (0xE0289502, .lda 5 9 2 4 2),
      (0xE4289502, .stl 5 9 2 4 2), (0xE8000100, .fenceAcq 4), (0xE8000300, .fenceRel 4), (0xE8000500, .fenceFull 4),
      (0xE8000700, .fenceWb 4), (0xEC289180, .sld 5 9 12), (0xEC289181, .sst 5 9 12), (0xEC289182, .sadd 5 9 12),
      (0xEC289463, .scan 5 9 2 3), (0xEC2800C4, .scnt 5 6), (0xF0005009, .pref 5 9), (0xF0005209, .prefl2 5 9),
      (0xF0005409, .l1inv 5 9), (0xF0005609, .zline 5 9)] : List (Word × Instr)).all reads = true := by decide +kernel

/-- Every row of these majors of R51, a word with its fields at the places that R44 to R47 give them. -/
theorem test_words_machine0 :
    ([
      (0xF4289000, .cpld 5 9), (0xF4289001, .cpst 5 9), (0xF4289222, .cpadd 5 9 17), (0xF4289223, .cpgat 5 9 17),
      (0xF4289224, .cpsca 5 9 17), (0xF4289005, .kvld 5 9), (0xF4289226, .dens 5 9 17), (0xF4289007, .cpfill 5 9),
      (0xF4289228, .cpcopy 5 9 17), (0xF4289229, .mma 5 9 17), (0xF428922A, .smma 5 9 17), (0xF428000B, .mzero 5),
      (0xF428012C, .mdrain 5 9), (0xF428900D, .rcfg 5 9), (0xF428922E, .rpush 5 9 17), (0xF428922F, .rpop 5 9 17),
      (0xF8289000, .shdef 5 9), (0xF8005001, .shret 5), (0xF8289002, .shget 5 9), (0xF8289223, .blkmap 5 9 17),
      (0xF8289224, .blkref 5 9 17), (0xF8289005, .blkfree 5 9), (0xF8289226, .blkmig 5 9 17), (0xF8289007, .blkst 5 9),
      (0xF8005128, .tlbinv 5 9), (0xF8005129, .impset 5 9), (0xF828922A, .bcfg 5 9 17), (0xFC289220, .ptset 5 9 17),
      (0xFC289221, .keyld 5 9 17), (0xFC000002, .sysret), (0xFC000003, .dump), (0xFC289004, .qsce 5 9), (0xFC005125, .impw 5 9),
      (0xFC005126, .tstop 5 9), (0xFC005007, .tresume 5)] : List (Word × Instr)).all reads = true := by decide +kernel

/-- R55: a reserved major, a reserved fn, a nonzero bit of a zero field, a reserved operand, the all-ones word. -/
theorem test_words_refused :
    decodeWord 0x3C000000 = .error .major ∧ decodeWord 0x0408105F = .error .function ∧ decodeWord 0x18081040 = .error .zeroField ∧
    decodeWord 0x6818050B = .error .function ∧ decodeWord 0x68180500 = .error .operand ∧ (decodeWord 0xFFFFFFFF).toOption = none := by
  decide +kernel

/-- R49: `ext #0x2468` and the word after it are one instruction of 64 bits; the table's numbering has the first word lowest. -/
theorem test_words_pair :
    decodeTableWord 32 0x38002468 = some (.ext 0x2468 0) ∧ decodeTableWord 64 0x0810200138002468 = some (.ext 0x2468 0x08102001) ∧
    decodeTableWord 32 0x04081040 = some (.add 1 1 2) ∧ decodeBytes [0x40, 0x10, 0x08] = .error .tooShort := by decide +kernel

/-! ### Single steps, with values worked from the rules by hand -/

/-- One step of a thread at `w` with those registers leaves that value in the register `d`, and its pc on the next word. -/
noncomputable def gives (p : Nat × Map Vec × Nat × Vec) : Bool :=
  match step (desk (hand p.2.1) p.1) with
  | .next s => match s.thread? 0 with
    | some th => th.ctx.reg p.2.2.1 == p.2.2.2 && th.ctx.pc == BitVec.ofNat 64 setupPc + 4
    | none => false
  | _ => false

/-- R113: wraps, signs, a zero divisor, a shift amount above 63. -/
theorem test_steps_integers :
    ([(0x04081040, [(1, 0xFFFFFFFFFFFFFFFF), (2, 0x2)], 1, 0x1),
      (0x04181041, [(1, 0x0), (2, 0x1)], 3, 0xFFFFFFFFFFFFFFFF),
      (0x04181042, [(1, 0x8000000000000003), (2, 0x2)], 3, 0x6),
      (0x04181043, [(1, 0xFFFFFFFFFFFFFFFF), (2, 0x5)], 3, 0xFFFFFFFFFFFFFFFF),
      (0x04181044, [(1, 0xFFFFFFFFFFFFFFFF), (2, 0xFFFFFFFFFFFFFFFF)], 3, 0xFFFFFFFFFFFFFFFE),
      (0x04181045, [(1, 0xFFFFFFFFFFFFFFF9), (2, 0x2)], 3, 0xFFFFFFFFFFFFFFFD),
      (0x04181046, [(1, 0x7)], 3, 0xFFFFFFFFFFFFFFFF),
      (0x04181047, [(1, 0xFFFFFFFFFFFFFFF9), (2, 0x2)], 3, 0xFFFFFFFFFFFFFFFF),
      (0x04181047, [(1, 0x8000000000000000), (2, 0xFFFFFFFFFFFFFFFF)], 3, 0x0),
      (0x04181048, [(1, 0x7)], 3, 0x7),
      (0x0418104C, [(1, 0xFF), (2, 0xF)], 3, 0xF0),
      (0x0418104D, [(1, 0x1), (2, 0x41)], 3, 0x2),
      (0x0418104F, [(1, 0x8000000000000000), (2, 0x3F)], 3, 0xFFFFFFFFFFFFFFFF),
      (0x04181050, [(1, 0x1), (2, 0x1)], 3, 0x8000000000000000),
      (0x04181051, [(1, 0xFFFFFFFFFFFFFFFF), (2, 0x1)], 3, 0xFFFFFFFFFFFFFFFF),
      (0x04181054, [(1, 0xFFFFFFFFFFFFFFFF), (2, 0x1)], 3, 0xFFFFFFFFFFFFFFFF),
      (0x04181056, [(1, 0xFFFFFFFFFFFFFFFF), (2, 0x1)], 3, 0x1),
      (0x04181057, [(1, 0xFFFFFFFFFFFFFFFF), (2, 0x1)], 3, 0x0),
      (0x04181018, [], 3, 0x40),
      (0x04181019, [(1, 0x8)], 3, 0x3),
      (0x0418101A, [(1, 0xF0F)], 3, 0x8),
      (0x0418101B, [(1, 0x80)], 3, 0xFFFFFFFFFFFFFF80),
      (0x0418105C, [(1, 0xFFFFFFFFFFFFFFFF)], 3, 0xFFFFFFFF)] : List (Nat × Map Vec × Nat × Vec)).all gives = true := by decide +kernel

/-- R114 to R117: the signs of immediates, and movk, which clears what is above bit 63. -/
theorem test_steps_immediates :
    ([(0x08181FFF, [(1, 0x1)], 3, 0x0),
      (0x10181FFF, [(1, 0xFFFFFFFFFFFFF000)], 3, 0xFFFFFFFFFFFFFFFF),
      (0x1868C006, [(12, 0x3)], 13, 0xC0),
      (0x1C2037FF, [(3, 0xFFFFFFFFFFFFFFFE)], 4, 0x1),
      (0x1C181BFF, [(1, 0xFFFFFFFFFFFFFFFF)], 3, 0x0),
      (0x201FFFFF, [], 3, 0xFFFFFFFFFFFFFFFF),
      (0x242EBEEF, [(5, 0x71111222233334444)], 5, 0xBEEF222233334444)] : List (Nat × Map Vec × Nat × Vec)).all gives = true := by decide +kernel

/-- R139, R140, R100, R143, R142, and the worked examples of chapters 04 and 06 (cvt.e4m3.f32:sat, q4pack, vrsum, ixdot). -/
theorem test_steps_lanes :
    ([(0x801840A2, [(4, 0x1FFFFFFFF), (5, 0xFFFFFFFD00000001)], 3, 0xFFFFFFFE00000000),
      (0x84409155, [(9, 0x80008000800080008000800080008000800080008000800080008000800080008000800080008000800080008000800080008000800080008000800080008000), (10, 0x11000F0001)], 8, 0x80008000800080008000800080008000800080008000800080008000800080008000800080008000800080008000800080008000800080008000400000014000),
      (0x98286001, [(6, 0x3F8000003F8000003F8000004B800000)], 5, 0x4B800001),
      (0x94184804, [(4, 0x7F80000043EB000043E8000043E60000)], 3, 0x7E7E7E7E),
      (0x9440A04C, [(10, 0x3E99999AC020000040A00000)], 8, 0x60000000000000000000000000000001C6),
      (0xA0A02080, [(20, 0x64), (2, 0xB), (3, 0x5FE03), (4, 0x6), (5, 0x407)], 20, 0x56),
      (0x9010300A, [(3, 0x7F8000007F8000007F8000007F8000007F8000007F8000007F8000007F8000007F8000007F8000007F8000007F8000007F8000007F8000000000000040400000)], 2, 0x7F8000007F8000007F8000007F8000007F8000007F8000007F8000007F8000007F8000007F8000007F8000007F8000007F8000007F8000003F80000041000000),
      (0x8C10309A, [(3, 0x3F8000003F8000003F8000003F8000003F8000003F8000003F8000003F8000003F8000003F8000003F8000003F8000003F8000003F8000003F8000003F800000), (4, 0x40400000404000004040000040400000404000004040000040400000404000004040000040400000404000004040000040400000404000004040000040400000)], 2, 0x3EAAAAAB3EAAAAAB3EAAAAAB3EAAAAAB3EAAAAAB3EAAAAAB3EAAAAAB3EAAAAAB3EAAAAAB3EAAAAAB3EAAAAAB3EAAAAAB3EAAAAAB3EAAAAAB3EAAAAAB3EAAAAAB)] : List (Nat × Map Vec × Nat × Vec)).all gives = true := by decide +kernel

/-- R119: the result of kcmp fills all 128 bits; R119 and R45: k0 keeps all ones. -/
theorem test_step_kcmp :
    (match step (desk (hand [(12, 5), (16, 7)]) 0x2C10C203) with
      | .next s => (s.thread? 0).map (fun th => th.ctx.mask 2) | _ => none) = some 0 ∧
    (match step (desk (hand [(12, 7), (16, 7)]) 0x2C10C203) with
      | .next s => (s.thread? 0).map (fun th => th.ctx.mask 2) | _ => none) = some (BitVec.allOnes 128) := by decide +kernel

/-- R97: cvt.e4m3.f32:sat of 470.0 raises OF and NX, and nothing else. -/
theorem test_step_flags :
    (match step (desk (hand [(4, 0x43EB0000)]) 0x94184804) with
      | .next s => (s.thread? 0).map (fun th => th.ctx.flg.toNat) | _ => none) = some 0b10100 := by decide +kernel

/-- R150: `vcomp.i32` packs the active lanes 1 and 3 into lanes 0 and 1, and clears the rest. -/
theorem test_step_vcomp :
    (match step (desk (let h := hand [(5, 0x00000004_00000003_00000002_00000001)]
        { h with ctx := { h.ctx with vmsk := 1, masks := [(1, 0x1010)] } }) 0x9C205012) with
      | .next s => (s.thread? 0).map (fun th => th.ctx.reg 4) | _ => none) = some 0x00000004_00000002 := by decide +kernel

/-- R123: jmp adds its word displacement to its own address; bt goes on when bit 0 of the mask is clear. -/
theorem test_step_branch :
    (match step (desk (hand []) 0x44000040) with
      | .next s => (s.thread? 0).map (fun th => th.ctx.pc) | _ => none) = some (BitVec.ofNat 64 setupPc + 256) ∧
    (match step (desk (hand []) 0x40C00008) with
      | .next s => (s.thread? 0).map (fun th => th.ctx.pc) | _ => none) = some (BitVec.ofNat 64 setupPc + 4) := by decide +kernel


/-- R167: AES-256 on the example of its standard (FIPS 197, C.3): key 00 01 … 1f, block 00 11 … ff. -/
theorem test_aes :
    ofBytes (((aesBlock (roundKeys (List.range 32)) ((List.range 16).map fun i => 17 * i)).reverse).map (BitVec.ofNat 8)) =
      0x8ea2b7ca516745bfeafc49904b496089 := by decide +kernel

/-- R269: a ninth unread message is dropped, and the sequence number goes on. -/
theorem test_mailbox_full :
    (({ hand with mailbox := List.replicate 8 letter } : Thread).deliver 0 3 1 2 7).mailbox.length = 8 ∧
    (({ hand with mailbox := List.replicate 8 letter } : Thread).deliver 0 3 1 2 7).seq = 1 := by decide +kernel

/-- R82, R293: a drain of an f32 accumulator into f32 makes the quiet NaN of a signalling one, and raises NV. -/
theorem test_drain_nan : drainConvert false 6 0 false 0x7F800001 = some (0x7FC00000, flNV) := by decide +kernel

end Sys2Proof.Tests
end

/-! Proofs about single operations of threads: what completing an instruction leaves of its thread, of the threads beside it, and of the
device; `yield`, `wfm`, `detach` (R111, R112, R22), the end of threads (R16, R305), and `join` (R23, R129). -/

section
namespace Sys2Proof.Machine

/-! ### What completing an instruction leaves of the threads -/

/-- An entry that neither stores nor merges flags changes of the threads, as it commits, its own alone: that one is detached if it
leaves its leader there (R22, R229). -/
theorem commit_threads (s : State) (t : Nat) (e : Rob) (hs : e.store = none) (hm : e.merge = none) :
    (s.commit t e).threads = (if e.leaves then s.modThread t Thread.detach else s).threads := by
  unfold State.commit
  cases h : s.thread? t with
  | none => simp [State.modThread, h]
  | some th => simp only [hs, hm, State.count_threads, State.record_threads]

/-- The thread with an entry that has not committed. -/
def Thread.queue (y : Thread) (e : Rob) : Thread := { y with det := y.det || e.leaves, rob := y.rob ++ [e] }

/-- The thread after the entry `e`: it commits, and leaves its leader if it has diverged there, or waits to (R22, R229). -/
def Thread.settle (y : Thread) (e : Rob) (commits : Prop) [Decidable commits] : Thread :=
  if commits then (if e.leaves then y.detach else y) else y.queue e

section
variable (y : Thread) (e : Rob) (commits : Prop) [Decidable commits]

@[simp] theorem Thread.settle_ctx : (y.settle e commits).ctx = y.ctx := by unfold Thread.settle; split_ifs <;> rfl
@[simp] theorem Thread.settle_wait : (y.settle e commits).wait = y.wait := by unfold Thread.settle; split_ifs <;> rfl

/-- A thread that does not leave its leader keeps its attach state. -/
theorem Thread.settle_det (h : e.leaves = false) : (y.settle e commits).det = y.det := by
  unfold Thread.settle Thread.queue
  split_ifs <;> simp_all

/-- A detached thread stays detached. -/
theorem Thread.settle_detached (h : y.det = true) : (y.settle e commits).det = true := by
  unfold Thread.settle Thread.queue
  split_ifs <;> simp [h, Thread.detach]

/-- A thread whose buffer is empty receives nothing. -/
theorem Thread.settle_ribbon (h : y.ribbon = []) : (y.settle e commits).ribbon = [] := by
  unfold Thread.settle Thread.queue
  split_ifs <;> simp [h, Thread.detach]

end

@[simp] theorem Thread.afterwards_wait (th pre : Thread) (x : Ctx) (w : Nat) : (th.afterwards pre x w).wait = th.wait := rfl
@[simp] theorem Thread.afterwards_det (th pre : Thread) (x : Ctx) (w : Nat) : (th.afterwards pre x w).det = th.det := rfl

theorem Thread.afterwards_ribbon {th pre : Thread} {x : Ctx} {w : Nat} (h : th.ribbon = []) : (th.afterwards pre x w).ribbon = [] := by
  simp [Thread.afterwards, h]

/-- The entry of an instruction that completes: its multicast word, and whether it leaves its leader. -/
def Thread.entryOf (th pre : Thread) (q : Req) (nx : Next) (e : Rob) : Rob :=
  { e with rib := pre.wordOf (ribbonOf q th.ctx.pc (advance th.ctx q.pair nx).pc nx.taken),
           leaves := pre.diverges (advance th.ctx q.pair nx) nx.taken }

/-- Only an attached member leaves its leader. -/
theorem Thread.entryOf_leaves {th pre : Thread} {q : Req} {nx : Next} {e : Rob} (h : pre.attached = false) :
    (th.entryOf pre q nx e).leaves = false := by
  unfold Thread.entryOf Thread.diverges
  dsimp only
  split <;> simp [h]

/-- A leader sends a word that it has not sent ahead (R20). -/
def State.sendLate (s : State) (pre : Thread) (w : Ribbon) : State := if pre.casts && pre.sent == 0 then s.multicast pre w else s

theorem sameBut_sendLate (s : State) (pre : Thread) (w : Ribbon) : SameBut s (s.sendLate pre w) := by
  unfold State.sendLate
  split
  · exact sameBut_multicast _ _ _
  · exact SameBut.refl s

theorem complete_eq (s : State) (t : Nat) (th : Thread) (q : Req) (nx : Next) (e : Rob) :
    complete s t th q nx e =
      (let pre := (s.thread? t).getD th
       let x := advance th.ctx q.pair nx
       let u := s.sendLate pre (ribbonOf q th.ctx.pc x.pc nx.taken)
       let y := th.afterwards pre x (u.core (coreOf t)).wdog
       if th.rob = [] ∧ e.load = none then (u.setThread t y).commit t (th.entryOf pre q nx e)
       else u.setThread t (y.queue (th.entryOf pre q nx e))) := rfl

/-- The threads after an instruction that neither stores nor merges flags: those to which words have been sent, and its own. -/
theorem complete_threads (s : State) (t : Nat) (th : Thread) (q : Req) (nx : Next) (e : Rob) (hs : e.store = none) (hm : e.merge = none) :
    let pre := (s.thread? t).getD th
    ∃ u w, SameBut s u ∧ ∀ k, (complete s t th q nx e).thread? k = if k = t then
      some ((th.afterwards pre (advance th.ctx q.pair nx) w).settle (th.entryOf pre q nx e) (th.rob = [] ∧ e.load = none)) else u.thread? k := by
  rw [complete_eq]
  dsimp only
  generalize (s.thread? t).getD th = pre
  have hu := sameBut_sendLate s pre (ribbonOf q th.ctx.pc (advance th.ctx q.pair nx).pc nx.taken)
  generalize s.sendLate _ _ = u at hu
  refine ⟨u, (u.core (coreOf t)).wdog, hu, fun k => ?_⟩
  generalize th.afterwards pre (advance th.ctx q.pair nx) (u.core (coreOf t)).wdog = y
  unfold Thread.settle
  by_cases hc : th.rob = [] ∧ e.load = none
  · rw [if_pos hc, if_pos hc, State.thread?_congr (commit_threads _ t (th.entryOf pre q nx e) hs hm)]
    split
    · rw [State.thread?_modThread, State.thread?_setThread_self, State.thread?_setThread]
      split_ifs <;> rfl
    · rw [State.thread?_setThread]
  · rw [if_neg hc, if_neg hc, State.thread?_setThread]

/-- The same with the instruction's issue counted. -/
theorem finish_threads (s : State) (t : Nat) (th : Thread) (q : Req) (nx : Next) (e : Rob) (hs : e.store = none) (hm : e.merge = none) :
    let pre := (s.thread? t).getD th
    ∃ u w, SameBut (s.issuedBy t th) u ∧ ∀ k, (finish s t th q nx e).thread? k = if k = t then
      some ((th.afterwards pre (advance th.ctx q.pair nx) w).settle (th.entryOf pre q nx e) (th.rob = [] ∧ e.load = none)) else u.thread? k := by
  have h := complete_threads (s.issuedBy t th) t th q nx e hs hm
  rwa [State.thread?_congr (State.issuedBy_threads s t th) t] at h

/-! ### An instruction that may execute -/

/-- An instruction that issues only when every earlier one has committed finds none that has not. -/
theorem MayExecute.rob_nil {q : Req} {s : State} {t : Nat} {th : Thread} (h : MayExecute q s t th) (hq : q.commit = true) : th.rob = [] := by
  have hf := h.free
  unfold Thread.heldBy at hf
  by_contra hr
  simp only [hq, hr, ne_eq, not_false_eq_true, and_self, true_or, or_true, if_true] at hf
  split at hf <;> cases hf

theorem runner_eq {q : Req} {s : State} {t : Nat} {th : Thread} (h : s.thread? t = some th) :
    ∃ r n, (s.begun t th q).thread? t = some { th with ribbon := r, sent := n } ∧
      s.runner t th q = { th.counted with ribbon := r, sent := n } := by
  obtain ⟨r, n, e, v⟩ := begun_thread (q := q) h
  exact ⟨r, n, e, v.trans (Thread.counted_with th r n)⟩

/-- An instruction whose meaning completes the thread `y` in the state that it found; of the thread that goes on, `P` is to hold. -/
theorem MayExecute.endsAs {q : Req} {i : Instr} {s : State} {t : Nat} {th y : Thread} {nx : Next} {P : Thread → Prop}
    {k : State → Nat → Thread → Out} (h : MayExecute q s t th) (hi : exec i s = begin q s k)
    (hk : k (s.begun t th q) t (s.runner t th q) = .next (finish (s.begun t th q) t y q nx))
    (hP : ∀ r n w, let pre : Thread := { th with ribbon := r, sent := n }
      P ((y.afterwards pre (advance y.ctx q.pair nx) w).settle (y.entryOf pre q nx Rob.none) (y.rob = [] ∧ Rob.none.load = none))) :
    EndsAs i s t (advance y.ctx q.pair nx) s P := by
  obtain ⟨r, n, e, -⟩ := begun_thread (q := q) h.live
  obtain ⟨-, hu⟩ := finish_spec (s.begun t th q) t y q nx Rob.none rfl
  obtain ⟨u, w, -, hth⟩ := finish_threads (s.begun t th q) t y q nx Rob.none rfl rfl
  refine ⟨_, _, by rw [hi, h.runs, hk], by rw [hth, if_pos rfl], by simp, ?_, (untouched_begun s t th q).trans hu⟩
  rw [e]
  exact hP r n w

/-! ### yield, wfm and detach (R111, R112, R22) -/

@[simp] theorem Thread.counted_attached (th : Thread) : th.counted.attached = th.attached := by
  unfold Thread.counted; split <;> rfl
@[simp] theorem Thread.counted_det (th : Thread) : th.counted.det = th.det := by unfold Thread.counted; split <;> rfl

/-- The runner is attached as the thread that had the turn is. -/
theorem runner_attached {q : Req} {s : State} {t : Nat} {th : Thread} (h : s.thread? t = some th) :
    (s.runner t th q).attached = th.attached ∧ (s.runner t th q).det = th.det := by
  obtain ⟨r, n, -, v⟩ := begun_thread (q := q) h
  rw [v]
  exact ⟨Thread.counted_attached _, Thread.counted_det _⟩

/-- R111: `yield`. -/
theorem yield_endsAs {s : State} {t : Nat} {th : Thread} (h : MayExecute (req0 .yield) s t th) :
    EndsAs .yield s t (advance (s.runner t th (req0 .yield)).ctx false .seq) s fun y => y.wait = .yield 64 :=
  h.endsAs (y := { s.runner t th (req0 .yield) with wait := .yield 64 }) rfl rfl fun r n w => by simp

/-- The message that a `wfm` has waited for is to enter the handler. -/
theorem comes_iff (u : State) (t : Nat) (v : Thread) :
    (v.wait = .wfm ∧ (u.thread? t).any (fun y => u.enters t { y with rob := [] })) ↔
      v.wait = .wfm ∧ ∃ y, u.thread? t = some y ∧ u.enters t { y with rob := [] } = true := by
  cases u.thread? t <;> simp

/-- R111, R112: a `wfm` that finds a message goes on, or lets it enter the handler. -/
theorem wfm_unread {s : State} {t : Nat} {th : Thread} (h : MayExecute (req0 .wfm) s t th) :
    let u := s.begun t th (req0 .wfm); let v := s.runner t th (req0 .wfm); (u.homeThread v).mailbox ≠ [] →
    let comes : Prop := v.wait = .wfm ∧ ∃ y, u.thread? t = some y ∧ u.enters t { y with rob := [] } = true
    (¬ comes → EndsAs .wfm s t (advance v.ctx false .seq) s fun y => y.wait = .none) ∧ (comes → Waits .wfm s t 4 u) := by
  intro u v hm comes
  have hc := comes_iff u t v
  refine ⟨fun hn => ?_, fun hy => ?_⟩
  · exact h.endsAs (y := { v with wait := .none }) rfl ((if_neg hm).trans (if_neg (hc.not.mpr hn))) fun r n w => by simp
  · exact h.waits rfl ((if_neg hm).trans (if_pos (hc.mpr hy)))

/-- R112: a `wfm` that finds none waits. -/
theorem wfm_empty {s : State} {t : Nat} {th : Thread} (h : MayExecute (req0 .wfm) s t th) :
    let u := s.begun t th (req0 .wfm); let v := s.runner t th (req0 .wfm); (u.homeThread v).mailbox = [] →
    Waits .wfm s t 9 (u.modThread t fun y => { y with wait := .wfm }) := by
  intro u v hm
  exact h.waits rfl (if_pos hm)

/-- R22: an attached member detaches, and its buffer is discarded. -/
theorem detach_attached {s : State} {t : Nat} {th : Thread} (h : MayExecute { req0 .detach with commit := true } s t th) :
    let v := s.runner t th { req0 .detach with commit := true }; v.attached = true →
    EndsAs .detach s t (advance v.ctx false .seq) s fun y => y.det = true ∧ y.ribbon = [] := by
  intro v hv
  refine h.endsAs (y := v.detach) rfl (congrArg (fun y => Host.Outcome.next (finish _ t y _ .seq)) (if_pos hv)) fun r n w => ⟨?_, ?_⟩
  · exact Thread.settle_detached _ _ _ rfl
  · exact Thread.settle_ribbon _ _ _ (Thread.afterwards_ribbon rfl)

/-- R22: `detach` has no effect on any other thread. -/
theorem detach_other {s : State} {t : Nat} {th : Thread} (h : MayExecute { req0 .detach with commit := true } s t th) :
    let v := s.runner t th { req0 .detach with commit := true }; v.attached = false →
    EndsAs .detach s t (advance v.ctx false .seq) s fun y => y.det = th.det := by
  intro v hv
  obtain ⟨ha, hd⟩ := runner_attached (q := { req0 .detach with commit := true }) h.live
  refine h.endsAs (y := v) rfl (congrArg (fun y => Host.Outcome.next (finish _ t y _ .seq)) (if_neg (by simp [v, hv]))) fun r n w => ?_
  refine (Thread.settle_det _ _ (v.rob = [] ∧ Rob.none.load = none) ?_).trans hd
  exact Thread.entryOf_leaves (ha.symm.trans hv)

/-- Settles O13: each form either completes with its thread as R111, R112 and R22 leave it, or holds it. -/
theorem threadPauses : Obligations.ThreadPauses :=
  ⟨fun _ _ _ h => yield_endsAs h, fun _ _ _ h => wfm_unread h, fun _ _ _ h => wfm_empty h, fun _ _ _ h => detach_attached h,
    fun _ _ _ h => detach_other h⟩

/-! ### The end of a thread (R16, R111, R112, R305, R368) -/

/-- What holds an instruction before its own conditions holds it in the state in which it would start (R17, R229). -/
theorem waits_heldBy {q : Req} {i : Instr} {k : State → Nat → Thread → Out} {s : State} {t c : Nat} {th : Thread}
    (hi : exec i s = begin q s k) (ht : s.sched.cur = t) (hl : s.thread? t = some th) (hd : s.paced th = false)
    (hq : q.legal = true) (hp : q.level ≤ th.pl) (hb : th.badReg q.regs = none) (hh : th.heldBy q = some c) (h3 : c ≠ 3) (h10 : c ≠ 10) :
    Waits i s t c (s.begun t th q) := by
  obtain ⟨r, n, e⟩ := sendAhead_thread q hl
  obtain ⟨a, b⟩ := hold_spec (s.begun t th q) t c
  refine ⟨_, ?_, a, b⟩
  subst ht
  have hp' : ¬ ({ th with ribbon := r, sent := n } : Thread).pl < q.level := Nat.not_lt.mpr hp
  have hb' : ({ th with ribbon := r, sent := n } : Thread).badReg q.regs = none := hb
  have hh' : ({ th with ribbon := r, sent := n } : Thread).heldBy q = some c := hh
  have hg : (!q.legal) = false := by simp [hq]
  simp only [hi, begin, hl, hg, hd, e, if_neg hp', hb', hh', State.lowestHold, if_neg h10, State.heldFor, if_neg h3, State.begun]
  rfl

/-- A thread with instructions that have not committed does not end (R111). -/
theorem end_waits_commit {i : Instr} {k : State → Nat → Thread → Out} {s : State} {t : Nat} {th : Thread}
    (hi : exec i s = begin { req0 i with commit := true } s k)
    (ht : s.sched.cur = t) (hl : s.thread? t = some th) (hd : s.paced th = false) (hr : th.rob ≠ []) :
    Waits i s t 4 (s.begun t th { req0 i with commit := true }) :=
  waits_heldBy hi ht hl hd rfl (Nat.zero_le _) rfl (by simp [Thread.heldBy, req0, hr]) (by decide) (by decide)

/-- The thread that runs `halt` or `tdone` has no instruction that has not committed: only its stores can hold its end (R111). -/
theorem runner_endHeld {q : Req} {s : State} {t : Nat} {th : Thread} (h : MayExecute q s t th) (hq : q.commit = true) :
    (s.runner t th q).endHeld = if th.stOut ≠ 0 then some 5 else none := by
  obtain ⟨r, n, -, v⟩ := runner_eq (q := q) h.live
  rw [v]
  simp [Thread.endHeld, h.rob_nil hq]

/-- `halt` runs: it waits for the thread's stores, or ends the thread. -/
theorem halt_runs {s : State} {t : Nat} {th : Thread} (h : MayExecute { req0 .halt with commit := true } s t th) (hs : th.stOut = 0) :
    let q : Req := { req0 .halt with commit := true }
    exec .halt s = .next (((s.begun t th q).issuedBy t (s.runner t th q)).endThread t false) := by
  intro q
  have he := runner_endHeld h rfl
  rw [if_neg (by simp [hs])] at he
  refine (h.runs _).trans ?_
  rw [he]

/-- `tdone` runs, once what it releases is done: it ends the thread. -/
theorem tdone_runs {s : State} {t : Nat} {th : Thread} (h : MayExecute { req0 .tdone with commit := true } s t th) (hs : th.stOut = 0) :
    let q : Req := { req0 .tdone with commit := true }; (s.begun t th q).releaseHeld (s.runner t th q) 4 = none →
    exec .tdone s = .next (((s.begun t th q).issuedBy t (s.runner t th q)).endThread t true) := by
  intro q hr
  have he := runner_endHeld h rfl
  rw [if_neg (by simp [hs])] at he
  refine (h.runs _).trans ?_
  rw [he]
  dsimp only
  rw [hr]

/-- A fold of changes that each leave a part of the state alone leaves it alone. -/
theorem foldl_keeps {α β : Type} (p : State → β) (f : State → α → State) (h : ∀ s x, p (f s x) = p s) (l : List α) (s : State) :
    p (l.foldl f s) = p s := by
  induction l generalizing s with
  | nil => rfl
  | cons x l ih => exact (ih _).trans (h s x)

@[simp] theorem State.countFor_mem (s : State) (c w l n src k : Nat) : (s.countFor c w l n src k).mem = s.mem := by
  unfold State.countFor; split <;> rfl
@[simp] theorem State.countFor_saved (s : State) (c w l n src k : Nat) : (s.countFor c w l n src k).saved = s.saved := by
  unfold State.countFor; split <;> rfl
@[simp] theorem State.countSent_threads (s : State) (c w l n : Nat) : (s.countSent c w l n).threads = s.threads := by
  simp [State.countSent]
@[simp] theorem State.countSent_mem (s : State) (c w l n : Nat) : (s.countSent c w l n).mem = s.mem := by simp [State.countSent]
@[simp] theorem State.countSent_saved (s : State) (c w l n : Nat) : (s.countSent c w l n).saved = s.saved := by simp [State.countSent]

@[simp] theorem State.sendDec_threads (s : State) (w l n a c k : Nat) : (s.sendDec w l n a c k).threads = s.threads := by
  simp [State.sendDec]
@[simp] theorem State.sendDec_mem (s : State) (w l n a c k : Nat) : (s.sendDec w l n a c k).mem = s.mem := by simp [State.sendDec]
@[simp] theorem State.sendDec_saved (s : State) (w l n a c k : Nat) : (s.sendDec w l n a c k).saved = s.saved := by simp [State.sendDec]

/-- The end of a forme's thread changes the work, and sends decrements (R16). -/
theorem formeEnd_keeps {β : Type} (p : State → β) (hw : ∀ s f, p (State.modWork s f) = p s)
    (hd : ∀ s w l n a c k, p (State.sendDec s w l n a c k) = p s) (s : State) (who src id home : Nat) (tdone : Bool) :
    p (s.formeEnd who src id home tdone) = p s := by
  unfold State.formeEnd
  split
  · rfl
  · dsimp only
    split_ifs
    · exact hw _ _
    · exact (foldl_keeps p _ (fun s d => hd s _ _ _ _ _ _) _ _).trans (hw _ _)
    · exact hw _ _

/-- A user thread ends: its slot and its home slot are free, and memory and the contexts that are saved stay (R16, R111). -/
theorem endThread_user {s : State} {t : Nat} {th : Thread} (h : s.thread? t = some th) (hp : th.pl = 0) (b : Bool) :
    let u := s.endThread t b; u.threads = mdel (mdel s.threads t) th.home ∧ u.mem = s.mem ∧ u.saved = s.saved := by
  unfold State.endThread
  simp only [h, hp, if_neg (show ¬ (0 = 1) by decide), if_neg (show ¬ (0 = 2) by decide)]
  refine ⟨?_, ?_, ?_⟩
  · exact formeEnd_keeps State.threads (fun _ _ => rfl) State.sendDec_threads _ _ _ _ _ _
  · exact formeEnd_keeps State.mem (fun _ _ => rfl) State.sendDec_mem _ _ _ _ _ _
  · exact formeEnd_keeps State.saved (fun _ _ => rfl) State.sendDec_saved _ _ _ _ _ _

@[simp] theorem State.modThread_cores (s : State) (t : Nat) (f : Thread → Thread) : (s.modThread t f).cores = s.cores := by
  unfold State.modThread; split <;> rfl
@[simp] theorem State.modThread_mem (s : State) (t : Nat) (f : Thread → Thread) : (s.modThread t f).mem = s.mem := by
  unfold State.modThread; split <;> rfl
@[simp] theorem State.modThread_core (s : State) (t : Nat) (f : Thread → Thread) (c : Nat) : (s.modThread t f).core c = s.core c :=
  congrArg (mgetD · c Core.reset) (State.modThread_cores s t f)

/-- The end of the machine slot's run (R375; log 42). -/
theorem endThread_machine {s : State} {t : Nat} {th : Thread} (h : s.thread? t = some th) (hp : th.pl = 2) (b : Bool) :
    let u := s.endThread t b; (u.core (coreOf t)).mrun = false ∧ u.mem = s.mem := by
  unfold State.endThread
  simp only [h, hp, if_neg (show ¬ (2 = 1) by decide), if_pos]
  exact ⟨by rw [State.core_modCore_self], by simp⟩

/-- The end of a supervisor's run (R368). -/
theorem endRun_ends {s : State} {c n : Nat} {x : Sup} (h : mget (s.core c).sups n = some x) :
    let u := s.endRun c n; (∃ y, mget (u.core c).sups n = some y ∧ y.run = none) ∧ u.mem = s.mem := by
  unfold State.endRun
  simp only [h]
  have hc := foldl_keeps (fun s => s.core c) (fun (s : State) k => s.modThread (c * 64 + k) fun th => { th with wdog := (s.core c).wdog, idle := 0 })
    (fun s k => by simp) x.resumed s
  have hm := foldl_keeps State.mem (fun (s : State) k => s.modThread (c * 64 + k) fun th => { th with wdog := (s.core c).wdog, idle := 0 })
    (fun s k => by simp) x.resumed s
  generalize List.foldl _ s x.resumed = u at hc hm
  refine ⟨⟨{ x with run := none, resumed := [] }, ?_, rfl⟩, hm⟩
  rw [State.modSup, State.core_modCore_self]
  dsimp only
  rw [mget_mmod, if_pos rfl, hc, h]
  rfl

/-- A supervisor's thread ends with its run (R368; log 42). -/
theorem endThread_supervisor {s : State} {t : Nat} {th : Thread} {x : Sup} (h : s.thread? t = some th) (hp : th.pl = 1)
    (hx : mget (s.core (coreOf t)).sups th.tenant = some x) (b : Bool) :
    let u := s.endThread t b; (∃ y, mget (u.core (coreOf t)).sups th.tenant = some y ∧ y.run = none) ∧ u.mem = s.mem := by
  unfold State.endThread
  simp only [h, hp, if_pos]
  obtain ⟨hr, hm⟩ := endRun_ends (s := ({ s with sched := { s.sched with issue := false } } : State).modThread t
    (fun y : Thread => { y with ending := false, ctx := { y.ctx with pick := none } })) (c := coreOf t) (n := th.tenant) (x := x)
    (by rw [State.modThread_core]; exact hx)
  exact ⟨hr, hm.trans (State.modThread_mem _ _ _)⟩

/-- The state in which a thread ends that runs `halt` or `tdone`: nothing that its end depends on differs from the state before. -/
theorem ends_in {q : Req} {s : State} {t : Nat} {th : Thread} (h : MayExecute q s t th) :
    let u := (s.begun t th q).issuedBy t (s.runner t th q)
    (∃ y, u.thread? t = some y ∧ y.pl = th.pl ∧ y.home = th.home ∧ y.tenant = th.tenant) ∧
      (u.core (coreOf t)).sups = (s.core (coreOf t)).sups ∧ u.mem = s.mem ∧ u.saved = s.saved := by
  intro u
  obtain ⟨r, n, e, -⟩ := begun_thread (q := q) h.live
  have hu := (untouched_begun s t th q).trans (untouched_issuedBy _ t (s.runner t th q))
  refine ⟨⟨_, (State.thread?_congr (State.issuedBy_threads _ _ _) t).trans e, rfl, rfl, rfl⟩, ?_, hu.mem, hu.saved⟩
  have hs := congrArg Core.sups (hu.cores (coreOf t))
  exact hs

section
variable {i : Instr} {q : Req} {s : State} {t : Nat} {th : Thread} {b : Bool} (h : MayExecute q s t th)
  (he : exec i s = .next (((s.begun t th q).issuedBy t (s.runner t th q)).endThread t b))
include h he

/-- An instruction that ends a user thread (R16, R111). -/
theorem ends_user (hp : th.pl = 0) :
    ∃ s', exec i s = .next s' ∧ mget s'.threads t = none ∧ mget s'.threads th.home = none ∧ s'.mem = s.mem ∧ s'.saved = s.saved := by
  obtain ⟨⟨y, hy, hpl, hhome, -⟩, -, hm, hsv⟩ := ends_in h
  obtain ⟨et, em, es⟩ := endThread_user hy (hpl.trans hp) b
  refine ⟨_, he, ?_, ?_, em.trans hm, es.trans hsv⟩
  · rw [et, mget_mdel, mget_mdel, if_pos rfl, ite_self]
  · rw [et, mget_mdel, hhome, if_pos rfl]

/-- One that ends a supervisor's run (R368). -/
theorem ends_supervisor {x : Sup} (hp : th.pl = 1) (hx : mget (s.core (coreOf t)).sups th.tenant = some x) :
    ∃ s' y, exec i s = .next s' ∧ mget (s'.core (coreOf t)).sups th.tenant = some y ∧ y.run = none ∧ s'.mem = s.mem := by
  obtain ⟨⟨y, hy, hpl, -, hten⟩, hsup, hm, -⟩ := ends_in h
  obtain ⟨⟨z, hz, hrun⟩, em⟩ := endThread_supervisor hy (hpl.trans hp) (by rw [hten, hsup]; exact hx) b
  exact ⟨_, z, he, hten ▸ hz, hrun, em.trans hm⟩

/-- One that ends the machine slot's run (R375; log 42). -/
theorem ends_machine (hp : th.pl = 2) : ∃ s', exec i s = .next s' ∧ (s'.core (coreOf t)).mrun = false ∧ s'.mem = s.mem := by
  obtain ⟨⟨y, hy, hpl, -, -⟩, -, hm, -⟩ := ends_in h
  obtain ⟨er, em⟩ := endThread_machine hy (hpl.trans hp) b
  exact ⟨_, he, er, em.trans hm⟩

end

/-- R111: `halt` waits for the thread's stores. -/
theorem halt_waits {s : State} {t : Nat} {th : Thread} (h : MayExecute { req0 .halt with commit := true } s t th) (hs : th.stOut ≠ 0) :
    Waits .halt s t 5 (s.begun t th { req0 .halt with commit := true }) := by
  have he := (runner_endHeld h rfl).trans (if_pos hs)
  refine h.waits rfl ?_
  rw [he]

/-- R111, R305: so does `tdone`. -/
theorem tdone_waits {s : State} {t : Nat} {th : Thread} (h : MayExecute { req0 .tdone with commit := true } s t th) (hs : th.stOut ≠ 0) :
    Waits .tdone s t 5 (s.begun t th { req0 .tdone with commit := true }) := by
  have he := (runner_endHeld h rfl).trans (if_pos hs)
  refine h.waits rfl ?_
  rw [he]

/-- R305: `tdone` waits for its release. -/
theorem tdone_releases {s : State} {t c : Nat} {th : Thread} (h : MayExecute { req0 .tdone with commit := true } s t th) (hs : th.stOut = 0) :
    let q : Req := { req0 .tdone with commit := true }
    (s.begun t th q).releaseHeld (s.runner t th q) 4 = some c → Waits .tdone s t c (s.begun t th q) := by
  intro q hr
  have he := (runner_endHeld h rfl).trans (if_neg (not_not.mpr hs))
  refine h.waits rfl ?_
  rw [he]
  dsimp only
  rw [hr]

/-- Settles O15: a thread with nothing outstanding ends as its level says, and one with something outstanding waits. -/
theorem threadEnds : Obligations.ThreadEnds := by
  refine ⟨?_, ?_, ?_, ?_, ?_, ?_, ?_, ?_, ?_⟩
  · rintro i s t th (rfl | rfl) ht hl hd hr
    · exact end_waits_commit rfl ht hl hd hr
    · exact end_waits_commit rfl ht hl hd hr
  · rintro i s t th (rfl | rfl) q h u v hs hp hr
    · exact ends_machine h (halt_runs h hs) hp
    · exact ends_machine h (tdone_runs h hs (hr rfl)) hp
  · exact fun s t th x h hs hp hr hx => ends_supervisor h (tdone_runs h hs hr) hp hx
  · exact fun s t th h hs => tdone_waits h hs
  · exact fun s t th h hs hp => ends_user h (halt_runs h hs) hp
  · exact fun s t th h hs => halt_waits h hs
  · exact fun s t th x h hs hp hx => ends_supervisor h (halt_runs h hs) hp hx
  · exact fun s t th h hs hp hr => ends_user h (tdone_runs h hs hr) hp
  · exact fun s t th h hs hr => tdone_releases h hs hr

/-! ### join (R23, R129) -/

/-- What `join` asks of the core (R129). -/
def joinReq (i : BitVec 7) : Req := { req0 (.join i) with commit := true }

/-- The width of a thread's forme; 1 for a thread of no forme (R129; log 137). -/
def State.widthOf (s : State) (th : Thread) : Nat := match mget s.work.formes th.forme with | some f => f.f | none => 1

theorem widthOf_ne {s : State} {th : Thread} {f : Forme} (hf : mget s.work.formes th.forme = some f) (h1 : f.f ≠ 1) (hg : th.guest = false) :
    ¬ (s.widthOf th = 1 ∨ th.guest = true) := by
  simp [State.widthOf, hf, h1, hg]

section
variable {i : BitVec 7} {s : State} {t : Nat} {th : Thread} (h : MayExecute (joinReq i) s t th)
include h

/-- A `join` without effect completes. -/
theorem join_passes (hw : (s.begun t th (joinReq i)).widthOf (s.runner t th (joinReq i)) = 1 ∨ (s.runner t th (joinReq i)).guest = true) :
    Completes (.join i) s t (advance (s.runner t th (joinReq i)).ctx false .seq) :=
  h.completes (y := { s.runner t th (joinReq i) with join := none }) (r := Rob.none) rfl (if_pos hw) rfl

section
variable (hw : ¬ ((s.begun t th (joinReq i)).widthOf (s.runner t th (joinReq i)) = 1 ∨ (s.runner t th (joinReq i)).guest = true))
include hw

/-- So does that of an attached member. -/
theorem join_attached (hm : (s.runner t th (joinReq i)).midx ≠ 0) (hd : (s.runner t th (joinReq i)).det = false) :
    Completes (.join i) s t (advance (s.runner t th (joinReq i)).ctx false .seq) :=
  h.completes (y := { s.runner t th (joinReq i) with join := none }) (r := Rob.none) rfl
    ((if_neg hw).trans ((if_neg hm).trans (if_pos (by simp [hd])))) rfl

/-- A leader waits for its detached members (R23). -/
theorem join_leader_waits (hm : (s.runner t th (joinReq i)).midx = 0)
    (ha : ((s.begun t th (joinReq i)).detachedFrom (s.runner t th (joinReq i))).all (fun k => (s.begun t th (joinReq i)).joinsAt i.toNat k) = false) :
    Waits (.join i) s t 12 ((s.begun t th (joinReq i)).modThread t fun y => { y with join := some i.toNat }) :=
  h.waits rfl ((if_neg hw).trans ((if_pos hm).trans (if_neg (by simp [ha]))))

/-- A leader whose detached members all wait at this `join` goes on with them re-attached (R23). -/
theorem join_leader_runs (hm : (s.runner t th (joinReq i)).midx = 0)
    (ha : ((s.begun t th (joinReq i)).detachedFrom (s.runner t th (joinReq i))).all (fun k => (s.begun t th (joinReq i)).joinsAt i.toNat k) = true) :
    exec (.join i) s = .next (finish ((s.begun t th (joinReq i)).reattach (s.runner t th (joinReq i))
      (advance (s.runner t th (joinReq i)).ctx false .seq).pc) t { s.runner t th (joinReq i) with join := none } (joinReq i) .seq) :=
  (h.runs _).trans ((if_neg hw).trans ((if_pos hm).trans (if_pos ha)))

/-- A detached member goes by its leader's `join` (R23): it passes where the leader has ended, waits, or faults. -/
theorem join_detached (hm : (s.runner t th (joinReq i)).midx ≠ 0) (hd : (s.runner t th (joinReq i)).det = true) :
    let u := s.begun t th (joinReq i); let v := s.runner t th (joinReq i)
    (u.leaderOf v = none → Completes (.join i) s t (advance v.ctx false .seq)) ∧
    (∀ k, u.leaderOf v = some k → ((u.thread? k).bind Thread.join = none ∨ (u.thread? k).bind Thread.join = some i.toNat) →
      Waits (.join i) s t 12 (u.modThread t fun y => { y with join := some i.toNat })) ∧
    (∀ k j, u.leaderOf v = some k → (u.thread? k).bind Thread.join = some j → j ≠ i.toNat →
      Faults (.join i) s (joinReq i) (u.modThread t fun y => { y with join := none }) t v 0x0D (BitVec.ofNat 64 (i.toNat + j * 2 ^ 8))) := by
  intro u v
  have hn : ¬ ((!v.det) = true) := by simp [v, hd]
  refine ⟨fun hl => ?_, fun k hl hj => ?_, fun k j hl hj hji => ?_⟩
  · refine h.completes (y := { v with join := none }) (r := Rob.none) rfl ((if_neg hw).trans ((if_neg hm).trans ((if_neg hn).trans ?_))) rfl
    rw [hl]
    rfl
  · refine h.waits rfl ((if_neg hw).trans ((if_neg hm).trans ((if_neg hn).trans ?_)))
    rw [hl]
    dsimp only
    rcases hj with hj | hj
    · rw [hj]
    · rw [hj]
      exact if_pos rfl
  · refine (h.runs _).trans ((if_neg hw).trans ((if_neg hm).trans ((if_neg hn).trans ?_)))
    rw [hl]
    dsimp only
    rw [hj]
    refine (if_neg hji).trans ?_
    obtain ⟨r, n, e, hv⟩ := begun_thread (q := joinReq i) h.live
    have hv' : v = _ := hv
    unfold raise
    rw [State.thread?_modThread, if_pos rfl, e, Option.map_some, hv']
    simp only [Thread.counted_rob, Thread.counted_pc]
    split <;> rfl

end
end

/-- A fold that changes some threads: of each of them that is live holds what a change makes of every thread. -/
theorem foldl_modThread (f : Thread → Thread) (P : Thread → Prop) (hf : ∀ x, P (f x)) (l : List Nat) (s : State) {k : Nat}
    (hl : (s.thread? k).isSome) (hk : k ∈ l ∨ ∃ x, s.thread? k = some x ∧ P x) :
    ∃ m, (l.foldl (fun s j => s.modThread j f) s).thread? k = some m ∧ P m := by
  induction l generalizing s with
  | nil => exact hk.resolve_left List.not_mem_nil
  | cons j l ih =>
    obtain ⟨x, hx⟩ := Option.isSome_iff_exists.mp hl
    by_cases hj : k = j
    · exact ih _ (by simp [State.thread?_modThread, ← hj, hx])
        (.inr ⟨f x, by simp [State.thread?_modThread, ← hj, hx], hf x⟩)
    · have hs : (s.modThread j f).thread? k = s.thread? k := by rw [State.thread?_modThread, if_neg hj]
      refine ih _ (hs ▸ hl) ?_
      rcases hk with hk | hk
      · exact .inl ((List.mem_cons.mp hk).resolve_left hj)
      · exact .inr (hs ▸ hk)

/-- A detached member of a leader is live (R23). -/
theorem detachedFrom_live {s : State} {v : Thread} {k : Nat} (hk : k ∈ s.detachedFrom v) : (s.thread? k).isSome := by
  unfold State.detachedFrom at hk
  split at hk
  · cases hk
  · obtain ⟨-, hk⟩ := List.mem_filter.mp hk
    cases h : s.thread? k with
    | none => simp [h] at hk
    | some m => rfl

/-- The detached members of a leader re-attach at its next instruction (R23). -/
theorem reattach_member {s : State} {v : Thread} (pc : Dword) {k : Nat} (hk : k ∈ s.detachedFrom v) :
    ∃ m, (s.reattach v pc).thread? k = some m ∧ m.det = false ∧ m.join = none ∧ m.ctx.pc = pc :=
  foldl_modThread _ (fun m => m.det = false ∧ m.join = none ∧ m.ctx.pc = pc) (fun _ => ⟨rfl, rfl, rfl⟩) _ s
    (detachedFrom_live hk) (.inl hk)

/-- What completing a leader's `join` leaves of another thread: its attach state, its `join` and its pc. -/
theorem finish_other {s : State} {t k : Nat} {th m : Thread} {q : Req} {nx : Next} (hk : k ≠ t) (hm : s.thread? k = some m) :
    ∃ m', (finish s t th q nx).thread? k = some m' ∧ m'.det = m.det ∧ m'.join = m.join ∧ m'.ctx = m.ctx := by
  obtain ⟨u, w, hu, hth⟩ := finish_threads s t th q nx Rob.none rfl rfl
  obtain ⟨g, hg, e⟩ := hu.2 k
  obtain ⟨r, n, hx⟩ := hg m
  refine ⟨g m, ?_, ?_⟩
  · rw [hth, if_neg hk, e, State.thread?_congr (State.issuedBy_threads s t th), hm, Option.map_some]
  · rw [hx]
    exact ⟨rfl, rfl, rfl⟩

/-- Settles O16: by the role of the thread, `join` passes, waits under cause 12, faults, or re-attaches the members. -/
theorem joinResults : Obligations.JoinResults := by
  refine ⟨?_, ?_, ?_, ?_, ?_⟩
  · exact fun i s t th h hw => join_passes h hw.symm
  · exact fun i s t th f h hf h1 hg hm hd => join_attached h (widthOf_ne hf h1 hg) hm hd
  · intro i s t th f q h u v hf h1 hg hm ha
    refine ⟨_, join_leader_runs h (widthOf_ne hf h1 hg) hm ha, (finish_spec _ _ _ _ _ _ rfl).1, fun k hk hkt => ?_⟩
    obtain ⟨m, hm, hd, hj, hpc⟩ := reattach_member (advance v.ctx false .seq).pc hk
    obtain ⟨m', hm', hd', hj', hx'⟩ := finish_other hkt hm
    exact ⟨m', hm', hd'.trans hd, hj'.trans hj, (congrArg Ctx.pc hx').trans hpc⟩
  · exact fun i s t th f h hf h1 hg hm hd => join_detached h (widthOf_ne hf h1 hg) hm hd
  · exact fun i s t th f h hf h1 hg hm ha => join_leader_waits h (widthOf_ne hf h1 hg) hm ha

end Sys2Proof.Machine
end

/-! Proofs about what arrives at a home: what accounting and the caches leave alone, and stores, invalidations and peer writes
(R162, R230, R29, R203). -/

section
namespace Sys2Proof.Machine

/-! ### What accounting and the caches leave alone (R160, R162, R228, R350) -/

@[simp] theorem State.modThread_flight (s : State) (t : Nat) (f : Thread → Thread) : (s.modThread t f).flight = s.flight := by
  unfold State.modThread; split <;> rfl
@[simp] theorem State.modThread_clusters (s : State) (t : Nat) (f : Thread → Thread) : (s.modThread t f).clusters = s.clusters := by
  unfold State.modThread; split <;> rfl
@[simp] theorem State.modThread_cluster (s : State) (t : Nat) (f : Thread → Thread) (k : Nat) : (s.modThread t f).cluster k = s.cluster k :=
  congrArg (mgetD · k Cluster.reset) (State.modThread_clusters s t f)

/-- Nothing differs but the model's bookkeeping, the cores, the dies, the channels' copies and which lines hold errors. -/
structure Kept (s s' : State) : Prop where
  threads : s'.threads = s.threads
  saved : s'.saved = s.saved
  clusters : s'.clusters = s.clusters
  mem : s'.mem = s.mem
  tables : s'.tables = s.tables
  flight : s'.flight = s.flight
  work : s'.work = s.work
  regions : s'.regions = s.regions
  host : s'.host = s.host

theorem Kept.refl (s : State) : Kept s s := ⟨rfl, rfl, rfl, rfl, rfl, rfl, rfl, rfl, rfl⟩

theorem Kept.trans {a b c : State} (h : Kept a b) (k : Kept b c) : Kept a c :=
  ⟨k.threads.trans h.threads, k.saved.trans h.saved, k.clusters.trans h.clusters, k.mem.trans h.mem, k.tables.trans h.tables,
    k.flight.trans h.flight, k.work.trans h.work, k.regions.trans h.regions, k.host.trans h.host⟩

theorem Kept.thread? {s s' : State} (h : Kept s s') (t : Nat) : s'.thread? t = s.thread? t := State.thread?_congr h.threads t
theorem Kept.cluster {s s' : State} (h : Kept s s') (k : Nat) : s'.cluster k = s.cluster k := congrArg (mgetD · k Cluster.reset) h.clusters

theorem kept_modCore (s : State) (c : Nat) (f : Core → Core) : Kept s (s.modCore c f) := ⟨rfl, rfl, rfl, rfl, rfl, rfl, rfl, rfl, rfl⟩
theorem kept_modDie (s : State) (d : Nat) (f : Die → Die) : Kept s (s.modDie d f) := ⟨rfl, rfl, rfl, rfl, rfl, rfl, rfl, rfl, rfl⟩
theorem kept_tick (s : State) : Kept s s.tick := ⟨rfl, rfl, rfl, rfl, rfl, rfl, rfl, rfl, rfl⟩
theorem kept_newId (s : State) : Kept s s.newId := ⟨rfl, rfl, rfl, rfl, rfl, rfl, rfl, rfl, rfl⟩

theorem kept_ite {s a b : State} {p : Prop} [Decidable p] (ha : Kept s a) (hb : Kept s b) : Kept s (if p then a else b) := by
  split
  · exact ha
  · exact hb

theorem kept_foldl {α : Type} (f : State → α → State) (h : ∀ s x, Kept s (f s x)) (l : List α) (s : State) : Kept s (l.foldl f s) := by
  induction l generalizing s with
  | nil => exact Kept.refl s
  | cons x l ih => exact (h s x).trans (ih _)

theorem kept_mend (s : State) (line : Nat) (offs : List Nat) : Kept s (s.mend line offs) :=
  kept_ite ⟨rfl, rfl, rfl, rfl, rfl, rfl, rfl, rfl, rfl⟩ (Kept.refl s)

theorem kept_countFor (s : State) (c w l n src k : Nat) : Kept s (s.countFor c w l n src k) :=
  kept_ite (Kept.refl s) (kept_modCore s _ _)

theorem kept_countDie (s : State) (d src n : Nat) : Kept s (s.countDie d src n) :=
  kept_ite (Kept.refl s) (kept_modDie s _ _)

theorem kept_corrected (s : State) (c w l n : Nat) : Kept s (s.corrected c w l n) :=
  kept_ite (Kept.refl s) ((kept_tick s).trans
    (kept_ite ((kept_countFor _ _ _ _ _ _ _).trans (kept_countDie _ _ _ _)) (Kept.refl _)))

theorem kept_traffic (s : State) (c w l n pa : Nat) (m r : Bool) : Kept s (s.traffic c w l n pa m r) := by
  have count (u : State) (src d k : Nat) : Kept u ((u.countFor c w l n src 1).countDie d k n) :=
    (kept_countFor _ _ _ _ _ _ _).trans (kept_countDie _ _ _ _)
  have counted (u : State) (b : Bool) (src d k : Nat) : Kept u (if b then (u.countFor c w l n src 1).countDie d k n else u) :=
    kept_ite (count u _ _ _) (Kept.refl u)
  unfold State.traffic
  refine kept_ite (Kept.refl s) ?_
  extract_lets free d s1 s2 s3
  have h3 : Kept s s3 := ((kept_tick s).trans (counted s1 _ _ _ _)).trans (counted s2 _ _ _ _)
  split
  · exact h3
  · rename_i home _
    extract_lets s4
    have h4 : Kept s3 s4 := kept_ite (kept_countDie _ _ _ _) ((kept_countDie _ _ _ _).trans (kept_countDie _ _ _ _))
    exact h3.trans (h4.trans (kept_ite (Kept.refl _) (kept_foldl _ (fun s _ => kept_countDie s _ _ _) _ _)))

theorem kept_patchL1 (s : State) (c : Nat) (l : Loc) (ws : List (Nat × Byte)) : Kept s (s.patchL1 c l ws) := by
  unfold State.patchL1
  split
  · exact (kept_mend _ _ _).trans (kept_modCore _ _ _)
  · exact Kept.refl s

theorem kept_settleL1 (s : State) (x : Store) : Kept s (s.settleL1 x) := kept_patchL1 _ _ _ _

theorem kept_dirtyLine (s : State) (line : Nat) : Kept s (s.dirtyLine line) := by
  unfold State.dirtyLine
  split
  · exact kept_ite (Kept.refl s) ⟨rfl, rfl, rfl, rfl, rfl, rfl, rfl, rfl, rfl⟩
  · exact Kept.refl s

/-! ### A store at its home (R162, R190, R198, R230) -/

@[simp] theorem Kept.keyData {s s' : State} (h : Kept s s') (k : Nat) : s'.keyData k = s.keyData k := by
  unfold State.keyData; rw [h.tables]

/-- The home's write changes the line's bytes in memory, and of the rest only what `Kept` leaves open. -/
theorem homeWrite_spec (s : State) (key : Nat) (ws : List (Nat × Byte)) :
    Kept { s with mem := s.mem.puts (s.keyData key) ws } (s.homeWrite key ws) := by
  cases ws with
  | nil => exact Kept.refl s
  | cons w rest =>
    have hd := kept_dirtyLine s (w.1 / 64)
    unfold State.homeWrite
    refine Kept.trans ?_ (kept_mend _ _ _)
    exact ⟨hd.threads, hd.saved, hd.clusters, by rw [hd.mem, hd.keyData], hd.tables, hd.flight, hd.work, hd.regions, hd.host⟩

/-- The home, and the copy in the RDC of the writer's die, have taken a write of the line of `a` (R162). -/
def State.written (s : State) (d key a : Nat) (ws : List (Nat × Byte)) : State :=
  ((s.homeWrite key ws).mend (sramLine 3 d (a / 64)) (ws.map Prod.fst)).modDie d
    fun x => { x with rdc := mmod x.rdc (cacheTag a key) (patch · ws) }

theorem written_spec (s : State) (d key a : Nat) (ws : List (Nat × Byte)) :
    Kept { s with mem := s.mem.puts (s.keyData key) ws } (s.written d key a ws) :=
  (homeWrite_spec s key ws).trans ((kept_mend _ _ _).trans (kept_modDie _ _ _))

theorem performWrite_cons (s : State) (tid d key : Nat) (w : Nat × Byte) (ws : List (Nat × Byte)) :
    s.performWrite tid d key (w :: ws) =
      (let u := s.written d key w.1 (w :: ws)
       if (u.rdcCopies d (w.1 / 64)).isEmpty then u else (u.modFlight fun f =>
        { f with invals := f.invals ++ [{ id := u.sched.nextId, tid := tid, line := w.1 / 64, dies := u.rdcCopies d (w.1 / 64) }] }).newId) := rfl

/-- A write performed at its home: memory takes the bytes, and the invalidations that it causes are on their way (R162). -/
theorem performWrite_spec (s : State) (tid d key : Nat) (ws : List (Nat × Byte)) :
    let u := s.performWrite tid d key ws
    u.mem = s.mem.puts (s.keyData key) ws ∧ u.threads = s.threads ∧ u.flight.stores = s.flight.stores := by
  cases ws with
  | nil => exact ⟨rfl, rfl, rfl⟩
  | cons w ws =>
    have h := written_spec s d key w.1 (w :: ws)
    rw [performWrite_cons]
    generalize s.written d key w.1 (w :: ws) = u at h
    have hf := congrArg Flight.stores h.flight
    dsimp only
    split
    · exact ⟨h.mem, h.threads, hf⟩
    · exact ⟨h.mem, h.threads, hf⟩

theorem State.runSlot_congr {s s' : State} (h : s'.threads = s.threads) (k : Nat) : s'.runSlot k = s.runSlot k := by
  unfold State.runSlot; rw [State.thread?_congr h]

/-- The store `id` has left the list of those on their way. -/
def State.arrived (s : State) (id : Nat) : State := s.modFlight fun f => { f with stores := f.stores.filter fun y => y.id != id }

/-- The store waits for its line to be zeroed (R166). -/
def State.storeWaits (s : State) (x : Store) : Bool := match x.req.loc with | .mem pa _ _ => s.zeroing (pa / 64) | _ => false

/-- What is counted of a store that is performed (R351, R353). -/
def State.countStore (s : State) (x : Store) : State :=
  match x.req.loc, s.thread? (s.runSlot x.tid) with
  | .mem pa _ _, some th => s.traffic x.core th.who x.launch th.tenant pa false
  | .peer _ _, _ => s
  | _, some th => s.corrected x.core th.who x.launch th.tenant
  | _, none => s

theorem kept_countStore (s : State) (x : Store) : Kept s (s.countStore x) := by
  unfold State.countStore
  split
  · exact kept_traffic _ _ _ _ _ _ _ _
  · exact Kept.refl s
  · exact kept_corrected _ _ _ _ _
  · exact Kept.refl s

theorem exec_storeAcknowledgement {s : State} {id : Nat} {x : Store} (hx : s.flight.stores.find? (fun y => y.id == id) = some x) :
    exec (.storeAcknowledgement id) s = if s.storeWaits x || !storeFirst id x s.flight.stores then .next s else
      .next ((((s.arrived id).performStore x.tid x.core x.launch x.req).settleL1 x |>.countStore x).modThread
        (((s.arrived id).performStore x.tid x.core x.launch x.req).settleL1 x |>.countStore x |>.runSlot x.tid)
        fun th => { th with stOut := th.stOut - 1 }) := by
  show execStoreAcknowledgement id s = _
  unfold execStoreAcknowledgement
  rw [hx]
  rfl

/-- An acknowledgement performs its store where it lies, and lowers the count of the thread whose it is. -/
theorem storeAck_performs {s : State} {id : Nat} {x : Store} (hx : s.flight.stores.find? (fun y => y.id == id) = some x)
    (hz : s.storeWaits x = false) (hf : storeFirst id x s.flight.stores = true) :
    ∃ u, Kept ((s.arrived id).performStore x.tid x.core x.launch x.req) u ∧
      exec (.storeAcknowledgement id) s = .next (u.modThread (u.runSlot x.tid) fun th => { th with stOut := th.stOut - 1 }) := by
  refine ⟨_, (kept_settleL1 _ x).trans (kept_countStore _ x), ?_⟩
  rw [exec_storeAcknowledgement hx, hz, hf]
  rfl

theorem storeWaits_mem {s : State} {x : Store} {pa key : Nat} {b : Option Nat} (h : x.req.loc = .mem pa key b) :
    s.storeWaits x = s.zeroing (pa / 64) := by
  unfold State.storeWaits; rw [h]

/-- A store that may not be performed yet changes nothing (R166, R190, R198). -/
theorem storeAck_waits {s : State} {id : Nat} {x : Store} (hx : s.flight.stores.find? (fun y => y.id == id) = some x)
    (hw : s.storeWaits x = true ∨ storeFirst id x s.flight.stores = false) : exec (.storeAcknowledgement id) s = .next s := by
  rw [exec_storeAcknowledgement hx, if_pos]
  rcases hw with hw | hw <;> simp [hw]

/-- R162, R230: a store to memory. -/
theorem storeAck_mem {s : State} {id : Nat} {x : Store} {pa key : Nat} {b : Option Nat}
    (hx : s.flight.stores.find? (fun y => y.id == id) = some x) (hl : x.req.loc = .mem pa key b)
    (hz : s.zeroing (pa / 64) = false) (hf : storeFirst id x s.flight.stores = true) :
    ∃ s', exec (.storeAcknowledgement id) s = .next s' ∧ s'.mem = s.mem.puts (s.keyData key) x.req.writes ∧
      s'.flight.stores = s.flight.stores.filter (fun y => y.id != id) ∧
      s'.thread? (s.runSlot x.tid) = (s.thread? (s.runSlot x.tid)).map fun th => { th with stOut := th.stOut - 1 } := by
  obtain ⟨u, hu, he⟩ := storeAck_performs hx ((storeWaits_mem hl).trans hz) hf
  obtain ⟨hm, ht, hs⟩ := performWrite_spec (s.arrived id) x.tid (dieOf x.core) key x.req.writes
  have hp : (s.arrived id).performStore x.tid x.core x.launch x.req = (s.arrived id).performWrite x.tid (dieOf x.core) key x.req.writes := by
    unfold State.performStore; rw [hl]
  rw [← hp] at hm ht hs
  have htu : u.threads = s.threads := hu.threads.trans ht
  refine ⟨_, he, ?_, ?_, ?_⟩
  · rw [State.modThread_mem, hu.mem, hm]; rfl
  · rw [State.modThread_flight, hu.flight, hs]; rfl
  · rw [State.runSlot_congr htu, State.thread?_modThread, if_pos rfl, State.thread?_congr htu]

/-- R162, R171: a store to a scratchpad. -/
theorem storeAck_scratch {s : State} {id : Nat} {x : Store} {k off : Nat}
    (hx : s.flight.stores.find? (fun y => y.id == id) = some x) (hl : x.req.loc = .scratch k off)
    (hf : storeFirst id x s.flight.stores = true) :
    ∃ s', exec (.storeAcknowledgement id) s = .next s' ∧ s'.mem = s.mem ∧
      (s'.cluster k).scratch = x.req.writes.foldl (fun m w => mput m w.1 w.2) (s.cluster k).scratch ∧
      s'.flight.stores = s.flight.stores.filter (fun y => y.id != id) := by
  obtain ⟨u, hu, he⟩ := storeAck_performs hx (by unfold State.storeWaits; rw [hl]) hf
  have hp : Kept ((s.arrived id).putScratch k x.req.writes) ((s.arrived id).performStore x.tid x.core x.launch x.req) := by
    unfold State.performStore; rw [hl]; exact kept_mend _ _ _
  have hk := hp.trans hu
  refine ⟨_, he, ?_, ?_, ?_⟩
  · rw [State.modThread_mem, hk.mem]; rfl
  · rw [State.modThread_cluster, hk.cluster, State.putScratch, State.cluster_modCluster, if_pos rfl]; rfl
  · rw [State.modThread_flight, hk.flight]; rfl

/-! ### Invalidations and peer writes (R29, R162, R203, R387) -/

@[simp] theorem State.countDie_rdc (s : State) (d src n e : Nat) : ((s.countDie d src n).die e).rdc = (s.die e).rdc := by
  unfold State.countDie
  dsimp only
  split
  · rfl
  · rw [State.die_modDie]
    split
    · subst e; rfl
    · rfl

/-- R162: an invalidation takes the line out of one die's RDC. -/
theorem rdcInvalidation_drops {s : State} {die line : Nat} (h : (s.flight.invals.any fun x => x.line == line && x.dies.contains die) = true) :
    ∃ s', exec (.rdcInvalidation die line) s = .next s' ∧ (s'.die die).rdc = dropLine (s.die die).rdc line ∧ s'.mem = s.mem ∧
      s'.threads = s.threads ∧ ∀ x ∈ s'.flight.invals, x.line = line → die ∉ x.dies := by
  have hk : Kept s (s.dropRdc die line) := (kept_modDie _ _ _).trans (kept_countDie _ _ _ _)
  refine ⟨_, (if_pos h : execRdcInvalidation die line s = _), ?_, hk.mem, hk.threads, ?_⟩
  · show ((s.dropRdc die line).die die).rdc = _
    rw [State.dropRdc, State.countDie_rdc, State.die_modDie, if_pos rfl]
  · intro x hx hl
    obtain ⟨y, -, rfl⟩ := List.mem_map.mp hx
    split
    · simp
    · rename_i hy
      rw [if_neg hy] at hl
      exact absurd hl hy

/-- What a peer's refusal leaves alone. -/
theorem peerRefuses_keeps (s : State) (x : PeerOp) : (s.peerRefuses x).flight = s.flight ∧ (s.peerRefuses x).mem = s.mem := by
  unfold State.peerRefuses
  dsimp only
  split_ifs
  · exact ⟨rfl, rfl⟩
  · exact ⟨State.modThread_flight _ _ _, State.modThread_mem _ _ _⟩
  · exact ⟨rfl, rfl⟩

@[simp] theorem State.countFor_flight (s : State) (c w l n src k : Nat) : (s.countFor c w l n src k).flight = s.flight :=
  (kept_countFor s c w l n src k).flight
@[simp] theorem State.countRecvd_threads (s : State) (c w l n : Nat) : (s.countRecvd c w l n).threads = s.threads := by
  simp [State.countRecvd]
@[simp] theorem State.countRecvd_mem (s : State) (c w l n : Nat) : (s.countRecvd c w l n).mem = s.mem := by simp [State.countRecvd]
@[simp] theorem State.countRecvd_flight (s : State) (c w l n : Nat) : (s.countRecvd c w l n).flight = s.flight := by simp [State.countRecvd]

/-- A peer write that is answered, counted if it is a message of its own (R28, R29). -/
def State.answered (s : State) (x : PeerOp) : State := if x.counted then s.countRecvd x.core x.who x.launch 1 else s

theorem answered_keeps (s : State) (x : PeerOp) :
    (s.answered x).threads = s.threads ∧ (s.answered x).mem = s.mem ∧ (s.answered x).flight = s.flight := by
  unfold State.answered
  split
  · simp
  · exact ⟨rfl, rfl, rfl⟩

/-- R29, R203, R387: a peer's answer ends its write; one that it refuses leaves the fault with the thread. -/
theorem peerPlacement_answers {s : State} {id : Nat} {x : PeerOp} (hx : s.flight.peers.find? (fun y => y.id == id) = some x)
    (hm : s.mute x.window = false) :
    let ok := x.writes.all fun w => s.peerAllows x.window w.1 1 1
    ∃ s', exec (.peerPlacement id) s = .next s' ∧ s'.flight = { s.flight with peers := s.flight.peers.filter fun y => y.id != id } ∧
      s'.mem = s.mem ∧ (ok = true → s'.threads = s.threads) ∧
      (ok = false → x.tid < 65536 → x.who < 32768 → ∀ y, s.thread? x.who = some y →
        ∃ z, s'.thread? x.who = some z ∧ z.refused = y.refused.or (some (BitVec.ofNat 64 x.va))) := by
  intro ok
  let p := s.modFlight fun f => { f with peers := f.peers.filter fun y => y.id != id }
  have he : exec (.peerPlacement id) s = .next ((if ok then p else p.peerRefuses x).answered x) := by
    show execPeerPlacement id s = _
    unfold execPeerPlacement
    rw [hx]
    exact if_neg (by simp [hm])
  obtain ⟨at_, am, af⟩ := answered_keeps (if ok then p else p.peerRefuses x) x
  obtain ⟨rf, rm⟩ := peerRefuses_keeps p x
  refine ⟨_, he, af.trans ?_, am.trans ?_, fun ho => at_.trans ?_, fun ho ht hw y hy => ?_⟩
  · split
    · rfl
    · exact rf
  · split
    · rfl
    · exact rm
  · rw [if_pos ho]; rfl
  · rw [State.thread?_congr at_, if_neg (by simp [ho]), State.peerRefuses, if_neg (by omega), if_pos hw, State.thread?_modThread, if_pos rfl]
    exact ⟨_, by rw [show p.thread? x.who = some y from hy]; rfl, rfl⟩

/-- Settles O32: each answer performs what it says of memory, of what is in flight and of the thread that waits. -/
theorem storesArrive : Obligations.StoresArrive := by
  refine ⟨?_, ?_, ?_, ?_, ?_⟩
  · exact fun s id x pa key blk hx hl => ⟨fun hz hf => storeAck_mem hx hl hz hf,
      fun hw => storeAck_waits hx (by rwa [storeWaits_mem hl])⟩
  · exact fun s id x k off hx hl hf => storeAck_scratch hx hl hf
  · exact fun s die line h => rdcInvalidation_drops h
  · exact fun s id => ⟨_, rfl, rfl, rfl⟩
  · exact fun s id x hx hm => peerPlacement_answers hx hm

end Sys2Proof.Machine
end

/-! Proofs about a step: the instruction of the thread whose turn it is, from its word (R17, R20, R43, R44, R127), and the state after
reset (R13, R325, R345, R389). -/

section
namespace Sys2Proof.Machine

/-! ### The word of an instruction (R43, R44, R55) -/

theorem ofNat_field (w lo n : Nat) : BitVec.ofNat n (field w lo n) = BitVec.ofNat n (w / 2 ^ lo) := by
  apply BitVec.eq_of_toNat_eq
  simp [field]

theorem bits_eq_field (w : Word) (lo n : Nat) : bits w lo n = BitVec.ofNat n (field w.toNat lo n) := (ofNat_field _ _ _).symm

theorem checked_ok {x : Except Reject Instr} {i : Instr} (h : checked x = .ok i) : x = .ok i := by
  unfold checked at h
  split at h
  · split at h
    · exact h
    · cases h
  · cases h

theorem zeroed_ok {w : Nat} {fs : List (Nat × Nat)} {i j : Instr} (h : zeroed w fs i = .ok j) : zeros w fs = true ∧ i = j := by
  unfold zeroed at h
  split at h
  · exact ⟨‹_›, Except.ok.inj h⟩
  · cases h

theorem zeroed_runs {w : Nat} {fs : List (Nat × Nat)} {i j : Instr} {o : Out} {s : State} (h : zeroed w fs i = .ok j) (ho : o = exec i s) :
    zeros w fs = true ∧ o = exec j s := by
  obtain ⟨hz, rfl⟩ := zeroed_ok h
  exact ⟨hz, ho⟩

/-- A row of major 0x3F that has operands runs as the instruction that its word decodes to (R377 to R380). -/
theorem runHigh_decodeHigh {w : Word} {i : Instr} (hw : decodeHigh w.toNat = .ok i) (s : State) :
    zeros w.toNat (highZeros w.toNat) = true ∧ runHigh w s = exec i s := by
  have hn : nbits w 0 5 = field w.toNat 0 5 := rfl
  unfold decodeHigh at hw
  unfold runHigh
  simp only [bits_eq_field, hn]
  split at hw <;> rename_i hf <;> simp only [hf]
  iterate 6 · exact zeroed_runs hw rfl
  · cases hw

/-- A word that the decoder reads as an instruction runs as that instruction. -/
theorem runWord_decodeWord {w : Word} {i : Instr} (hx : isExt w = false) (hw : decodeWord w = .ok i) (p : Word) (s : State) :
    runWord w p s = exec i s := by
  unfold decodeWord at hw
  unfold runWord reservedBy
  rw [hx]
  split at hw <;> rename_i hh
  · obtain ⟨hz, hr⟩ := runHigh_decodeHigh (checked_ok hw) s
    simp [hh, hz, hr]
  · simp [hh, hw]

/-- An `ext` runs with the word after it (R49). -/
theorem runWord_ext {w : Word} (hx : isExt w = true) (v : Word) (s : State) : runWord w v s = exec (.ext (bits w 0 26) v) s := by
  unfold runWord
  rw [if_pos hx]
  rfl

/-! ### The step of the thread that has the turn (R17, R20, R127) -/

/-- A thread that has the turn, and whose boundary holds nothing, runs its next instruction: that of a frame's replay, that of its
buffer, or that at its pc. -/
theorem step_runs {s : State} {t : Nat} {th : Thread} (hphase : s.host.phase = .running) (hagenda : s.sched.agenda = [])
    (hissue : s.sched.issue = true) (hcur : s.sched.cur = t) (hlive : s.thread? t = some th) (htry : s.mayTry t = true)
    (hend : th.ending = false) (hresume : s.toResume t th = false) (hexp : th.expired = none) (href : th.refused = none)
    (hover : (th.overflow.isSome && s.atBoundary t th) = false) (hyield : s.yields th = false) (henter : s.enters t th = false)
    (hbreak : s.breakpointAt t th = none) :
    step s = if th.ctx.framed then frameRun s t th else if th.attached then ribbonRun s t th else fetchRun s t th := by
  subst hcur
  have hstep : step s = takeTurn s := by
    unfold step stepOnce stepAlone
    simp [hagenda, hphase, hissue]
  rw [hstep, takeTurn]
  simp [hlive, htry, hend, hresume, hexp, href, hover, hyield, henter, hbreak]

theorem fetchRun_word {s u : State} {t : Nat} {th : Thread} {w : Word} {i : Instr} (hf : s.fetch t th th.ctx.pc = .word w u)
    (hx : isExt w = false) (hw : decodeWord w = .ok i) : fetchRun s t th = exec i u := by
  unfold fetchRun
  rw [hf]
  simp only [hx]
  exact runWord_decodeWord hx hw 0 u

theorem fetchRun_ext {s u x : State} {t : Nat} {th : Thread} {w v : Word} (hf : s.fetch t th th.ctx.pc = .word w u)
    (hx : isExt w = true) (hv : u.fetch t th (th.ctx.pc + 4) = .word v x) : fetchRun s t th = exec (.ext (bits w 0 26) v) x := by
  unfold fetchRun
  rw [hf]
  simp only [hx, if_true, hv]
  exact runWord_ext hx v x

theorem frameRun_word {s : State} {t : Nat} {th : Thread} {w : Word} {i : Instr} (hf : th.ctx.frame[nbits th.ctx.rpts 0 4]? = some w)
    (hx : isExt (th.wordAt w) = false) (hw : decodeWord (th.wordAt w) = .ok i) : frameRun s t th = exec i s := by
  unfold frameRun
  simp only [hf]
  exact runWord_decodeWord hx hw 0 s

theorem ribbonRun_word {s : State} {t : Nat} {th : Thread} {r : Ribbon} {rest : List Ribbon} {i : Instr} (hr : th.ribbon = r :: rest)
    (hpc : r.pc = th.ctx.pc) (hx : isExt r.w0 = false) (hw : decodeWord r.w0 = .ok i) :
    ribbonRun s t th = exec i (s.setThread t { th with lead := some (r.next, r.taken) }) := by
  unfold ribbonRun
  rw [hr]
  simp only [hpc, ne_eq, not_true_eq_false, if_false]
  exact runWord_decodeWord hx hw r.w1 _

/-- Settles O57: the step is the turn of the thread, its turn is the word that it meets, and the word runs as it decodes. -/
theorem stepRunsDecoded : Obligations.StepRunsDecoded := by
  intro s t th hphase hagenda hissue hcur hlive htry hend hresume hexp href hover hyield henter hbreak
  have hs := step_runs hphase hagenda hissue hcur hlive htry hend hresume hexp href hover hyield henter hbreak
  refine ⟨fun w u i hframe hatt hf => ⟨fun hx hw => ?_, fun v x hx hv => ?_⟩, fun w i hframe hf hx hw => ?_,
    fun r rest i hframe hatt hr hpc hx hw => ?_⟩
  · rw [hs, hframe, hatt]
    exact fetchRun_word hf hx hw
  · rw [hs, hframe, hatt]
    exact fetchRun_ext hf hx hv
  · rw [hs, hframe]
    exact frameRun_word hf hx hw
  · rw [hs, hframe, hatt]
    exact ribbonRun_word hr hpc hx hw

/-! ### The state after reset (R13, R325, R345, R389) -/

/-- Settles O56: each field of the state after reset is as the rules and the log name it; a machine slot that nothing has changed holds the
machine thread. -/
theorem resetState : Obligations.ResetState := by
  refine ⟨rfl, rfl, rfl, rfl, rfl, rfl, State.reset_memWf, fun c => ⟨rfl, rfl, rfl⟩, fun c hc => ?_⟩
  have hslot : slotOf (c * 64 + 63) = 63 ∧ tidOk (c * 64 + 63) = true := by
    constructor
    · unfold slotOf; omega
    · simp only [tidOk, decide_eq_true_eq]; omega
  exact ⟨machineThread (c * 64 + 63), if_pos hslot, rfl, rfl, rfl⟩

end Sys2Proof.Machine
end

/-! A machine entry of a supervisor slot's fault (R368), in a state whose list of launches names one of them twice. -/

section
namespace Sys2Proof.Machine

/-! ### A machine entry in a state whose launch list names a launch twice -/

/-- A thread of a supervisor slot of tenant 7, in slot 0 of core 0. -/
def doubledSup : Thread := { Thread.blank with pl := 1, tenant := 7 }

/-- The list names launch 1 twice: as a launch of tenant 1 that runs, which is the one that it is read as, and as one of tenant 7 that has
ended. The machine slot of core 0 has an entry of the thread of slot 0. -/
def doubledState : State :=
  { State.reset with
    threads := [(0, doubledSup)], cores := [(0, { Core.reset with mq := [(0, 0)] })],
    work := { State.reset.work with launches := [(1, setupLaunch), (1, { setupLaunch with tenant := 7, ended := true })] } }

/-- No launch of tenant 7 is left to end, so that the entry leaves the launches as they are. -/
theorem doubledState_entry : ∃ s', exec (.machineEntry 0) doubledState = .next s' ∧ s'.launch? 1 = some setupLaunch :=
  ⟨_, rfl, rfl⟩

/-- Refutes O53, in its clause of a supervisor slot's fault: where the list of launches, of which a state does not require that it names a
launch once, has an ended launch of the tenant behind another tenant's running one of the same number, that one goes on. -/
theorem not_supervisorEvents : ¬ Obligations.SupervisorEvents := by
  rintro ⟨-, hentry, -⟩
  obtain ⟨s', he, -, -, -, -, hends⟩ := (hentry doubledState 0 0 0 [] (machineThread 63) (by decide) rfl rfl rfl).2
    0 doubledSup rfl (by decide) (by decide) List.mem_cons_self rfl (.inr rfl) (fun e he _ => List.mem_singleton.mp he)
  obtain ⟨s'', he', hl⟩ := doubledState_entry
  obtain rfl : s' = s'' := Host.Outcome.next.inj (he.symm.trans he')
  have := hends (by decide) (1, { setupLaunch with tenant := 7, ended := true }) (by simp [doubledState]) rfl setupLaunch hl
  exact absurd this (by decide)

end Sys2Proof.Machine
end

/-! A pre-emption of a GANG launch (R25, R371) whose first forme's guest stands in the second forme's home slot. -/

section
namespace Sys2Proof.Machine

/-- A GANG launch without cores or memory. -/
def gangLaunch : Launch := newLaunch 0 0 (BitVec.ofNat 1024 (2 ^ 24))

/-- A root forme of launch 1 with one thread, of that home slot. -/
def gangForme (home : Nat) : Forme :=
  { launch := 1, task := { launch := 1, addr := 0, record := 0, root := true }, f := 1, t := 1, tids := [home], ended := [],
    tdone := false, preempted := false }

/-- A home thread in slot 0, its guest in slot 1, and a thread in slot 2, to which the guest's own `away` leads. -/
def gangThreads : Map Thread :=
  [(0, { Thread.blank with away := some 1 }), (1, { Thread.blank with guest := true, away := some 2 }), (2, Thread.blank)]

/-- The home slot of forme 2 is the slot in which the guest of forme 1 stands. A quiesced checkpoint wants both formes off the device. -/
def gangState : State :=
  { State.reset with
    threads := gangThreads, host := { State.reset.host with quiesced := true },
    work := { State.reset.work with launches := [(1, gangLaunch)], formes := [(1, gangForme 0), (2, gangForme 1)] } }

/-- The pre-emption of the unit is due. -/
theorem gangState_due : gangState.due (gangState.unit 1 (gangForme 0)) = true := by decide +kernel

/-- None of its threads keeps the unit from it. -/
theorem gangState_mayTake : ∀ e ∈ gangState.unit 1 (gangForme 0),
    e.2.preempted = false ∧ ∀ x ∈ gangState.standing e.2, gangState.mayTake x.2 = true := by decide +kernel

/-- Nor does a record, which no translation reaches. -/
theorem gangState_recordsWait :
    (gangState.recordsWait ((gangState.unit 1 (gangForme 0)).flatMap fun e => (gangState.standing e.2).map Prod.snd)).isNone = true := by
  decide +kernel

/-- The thread in slot 2 stands for forme 2, which is of the unit. -/
theorem gangState_standing :
    (2, gangForme 1) ∈ gangState.unit 1 (gangForme 0) ∧ (2, Thread.blank) ∈ gangState.standing (gangForme 1) := by decide +kernel

/-- A step goes on with a thread in that slot. -/
def leavesThread (t : Nat) : Out → Bool
  | .next s => (mget s.threads t).isSome
  | _ => false

/-- Forme 1 takes its guest out of slot 1, and then nothing stands for forme 2 any more. -/
theorem gangState_preEmption : leavesThread 2 (exec (.preEmption 1) gangState) = true := by decide +kernel

/-- Refutes O50, in its clause of pre-emption: the threads that stand for a forme of a unit are found only after the formes before it are
out, and where a forme's home slot holds another forme's guest, which no hypothesis rules out, what stood for it before is left. -/
theorem not_workEvents : ¬ Obligations.WorkEvents := by
  rintro ⟨-, -, -, -, -, -, -, -, -, -, -, -, -, hpre, -⟩
  obtain ⟨s', he, hgone⟩ := hpre gangState 1 (gangForme 0) rfl (fun e h => (gangState_mayTake e h).1) gangState_due
    (fun e h => (gangState_mayTake e h).2) (Option.isNone_iff_eq_none.mp gangState_recordsWait)
  obtain ⟨hunit, hstanding⟩ := gangState_standing
  have hleft : (mget s'.threads 2).isSome = true := by simpa [he, leavesThread] using gangState_preEmption
  simp [(hgone _ hunit).2 _ hstanding] at hleft

end Sys2Proof.Machine
end

/-! The instruction word, written and read back (R44 to R55). -/

section
namespace Sys2Proof
open Sys2Proof.Machine

/-! ### Fields of a word (R44 to R47) -/

/-- A field is read back at its place, where the rest of the word is zero. -/
theorem field_enc1_same {base lo n : Nat} {x : BitVec n} (h : field base lo n = 0) : field (enc1 base x lo) lo n = x.toNat := by
  unfold field at h ⊢
  unfold enc1
  rw [Nat.add_mul_div_right _ _ (by positivity), Nat.add_mod, h, Nat.zero_add, Nat.mod_mod, Nat.mod_eq_of_lt x.isLt]

/-- The bits below a field are those of the rest of the word. -/
theorem field_enc1_below {base lo l k n : Nat} {x : BitVec n} (h : l + k ≤ lo) : field (enc1 base x lo) l k = field base l k := by
  obtain ⟨c, rfl⟩ := Nat.exists_eq_add_of_le h
  unfold field enc1
  rw [pow_add, pow_add, show x.toNat * (2 ^ l * 2 ^ k * 2 ^ c) = x.toNat * 2 ^ c * 2 ^ k * 2 ^ l by ring,
    Nat.add_mul_div_right _ _ (by positivity), Nat.add_mul_mod_self_right]

/-- So are the bits above it: a field in a place that is zero does not carry. -/
theorem field_enc1_above {base lo l k n : Nat} {x : BitVec n} (h : lo + n ≤ l) (h0 : field base lo n = 0) :
    field (enc1 base x lo) l k = field base l k := by
  obtain ⟨c, rfl⟩ := Nat.exists_eq_add_of_le h
  obtain ⟨m, hm⟩ := Nat.dvd_of_mod_eq_zero h0
  have hd : (base + x.toNat * 2 ^ lo) / 2 ^ (lo + n) = base / 2 ^ (lo + n) := by
    rw [pow_add, ← Nat.div_div_eq_div_mul, ← Nat.div_div_eq_div_mul, Nat.add_mul_div_right _ _ (by positivity), hm,
      Nat.mul_add_div (by positivity), Nat.div_eq_of_lt x.isLt, Nat.mul_div_cancel_left _ (by positivity), Nat.add_zero]
  unfold field enc1
  rw [pow_add, ← Nat.div_div_eq_div_mul, hd, Nat.div_div_eq_div_mul]

/-- A word of 32 bits holds the fields of a number that lie within it. -/
theorem field_word {n l k : Nat} (h : l + k ≤ 32) : field (BitVec.ofNat 32 n).toNat l k = field n l k := by
  unfold field
  rw [BitVec.toNat_ofNat]
  apply Nat.eq_of_testBit_eq
  intro i
  simp only [Nat.testBit_mod_two_pow, Nat.testBit_div_two_pow]
  by_cases hi : i < k
  · simp [hi, show i + l < 32 by omega]
  · simp [hi]

/-! ### Words with several fields -/

/-- Two runs of bits have none in common. -/
def apart (l k l' k' : Nat) : Bool := l + k ≤ l' || l' + k' ≤ l

theorem apart_comm (l k l' k' : Nat) : apart l k l' k' = apart l' k' l k := Bool.or_comm _ _

theorem field_enc1_apart {base lo l k n : Nat} {x : BitVec n} (h : apart l k lo n = true) (h0 : field base lo n = 0) :
    field (enc1 base x lo) l k = field base l k := by
  simp only [apart, Bool.or_eq_true, decide_eq_true_eq] at h
  rcases h with h | h
  · exact field_enc1_below h
  · exact field_enc1_above h h0

/-- A field with its place: its lowest bit, and its width. -/
structure Placed where
  {width : Nat}
  val : BitVec width
  lo : Nat

/-- The place of a field. -/
def Placed.place (f : Placed) : Nat × Nat := (f.lo, f.width)

/-- `base` with the fields, the last of the list placed first. -/
def placedIn (base : Nat) : List Placed → Nat
  | [] => base
  | f :: fs => enc1 (placedIn base fs) f.val f.lo

/-- The bits are in none of the places. -/
def clears (l k : Nat) (ps : List (Nat × Nat)) : Bool := ps.all fun p => apart l k p.1 p.2

/-- Each field has a place of its own within the word, at which the base is zero. -/
def tidy (base : Nat) : List (Nat × Nat) → Bool
  | [] => true
  | p :: ps => field base p.1 p.2 == 0 && p.1 + p.2 ≤ 32 && clears p.1 p.2 ps && tidy base ps

theorem tidy_cons {base : Nat} {f : Placed} {fs : List Placed} (h : tidy base ((f :: fs).map Placed.place) = true) :
    field base f.lo f.width = 0 ∧ f.lo + f.width ≤ 32 ∧ clears f.lo f.width (fs.map Placed.place) = true ∧
      tidy base (fs.map Placed.place) = true := by
  simpa [tidy, Placed.place, and_assoc] using h

/-- Bits that no field has are the base's. -/
theorem field_placedIn_clears {base l k : Nat} {fs : List Placed} (ht : tidy base (fs.map Placed.place) = true)
    (hc : clears l k (fs.map Placed.place) = true) : field (placedIn base fs) l k = field base l k := by
  induction fs generalizing l k with
  | nil => rfl
  | cons f fs ih =>
    obtain ⟨h0, -, hf, ht⟩ := tidy_cons ht
    simp only [clears, List.map_cons, List.all_cons, Bool.and_eq_true] at hc
    exact (field_enc1_apart hc.1 ((ih ht hf).trans h0)).trans (ih ht hc.2)

/-- The bits of a field are that field's. -/
theorem field_placedIn_mem {base : Nat} {fs : List Placed} (ht : tidy base (fs.map Placed.place) = true) {g : Placed} (hg : g ∈ fs) :
    field (placedIn base fs) g.lo g.width = g.val.toNat ∧ g.lo + g.width ≤ 32 := by
  induction fs with
  | nil => cases hg
  | cons f fs ih =>
    obtain ⟨h0, hw, hf, ht⟩ := tidy_cons ht
    have hz : field (placedIn base fs) f.lo f.width = 0 := (field_placedIn_clears ht hf).trans h0
    rcases List.mem_cons.mp hg with rfl | hg
    · exact ⟨field_enc1_same hz, hw⟩
    · have ha : apart f.lo f.width g.lo g.width = true :=
        List.all_eq_true.mp hf g.place (List.mem_map_of_mem hg)
      exact ⟨(field_enc1_apart (by rwa [apart_comm]) hz).trans (ih ht hg).1, (ih ht hg).2⟩

/-! ### The rows of the decoder (R51) -/

/-- The instruction of a word before its operand fields are checked, for every row. -/
noncomputable def decodeRow (w : Nat) : Except Reject Instr := if isHigh w then decodeHigh w else decodeLow w

theorem decodeWord_eq (w : Word) : decodeWord w = checked (decodeRow w.toNat) := by
  unfold decodeWord decodeRow decodeMain
  split <;> rfl

/-- The functions of major 0x3F with operands are read by `decodeHigh`. -/
theorem decodeRow_high {base : Nat} (hb : isHigh base = true) (w : Nat) (hM : field w 26 6 = field base 26 6)
    (hF : field w 0 5 = field base 0 5) : decodeRow w = decodeHigh w :=
  if_pos (by rwa [isHigh, hM, hF])

/-- The word of an instruction is read as that instruction. -/
def Reads (i : Instr) : Prop := decodeRow (encode i).toNat = .ok i

/-- In the word of a row the major, the function of `L` and `K`, and the zero fields are the base's, and each operand has its own place. -/
def fieldsOk (base L K : Nat) (zs ps : List (Nat × Nat)) : Bool :=
  tidy base ps && clears 26 6 ps && clears L K ps && L + K ≤ 32 &&
    zs.all fun z => clears z.1 z.2 ps && z.1 + z.2 ≤ 32 && field base z.1 z.2 == 0

/-- The row whose word is `base` with fields at `ps`: `dec` reads it, and its fields are as they must be. The major chooses `dec`, but for the
rows of `decodeHigh`. -/
structure RowFits (dec : Nat → Except Reject Instr) (base L K : Nat) (zs ps : List (Nat × Nat)) : Prop where
  chosen : ∀ w, field w 26 6 = field base 26 6 → field w L K = field base L K → decodeRow w = dec w := by
    intro w h _
    rw [decodeRow, isHigh, decodeLow, h]
    rfl
  placed : fieldsOk base L K zs ps = true := by decide

theorem zeros_eq_true {w : Nat} {zs : List (Nat × Nat)} (h : ∀ z ∈ zs, field w z.1 z.2 = 0) : zeros w zs = true := by
  induction zs with
  | nil => rfl
  | cons z zs ih =>
    obtain ⟨hz, hzs⟩ := List.forall_mem_cons.mp h
    simp [zeros, hz, ih hzs]

/-- A row that `dec` reads, and whose reading the function chooses, reads its word with the fields in it. -/
theorem decodeRow_placedIn {base L K : Nat} {zs : List (Nat × Nat)} {fs : List Placed} {i : Instr} {dec : Nat → Except Reject Instr}
    {r : Nat → Instr} (hfit : RowFits dec base L K zs (fs.map Placed.place))
    (hrow : ∀ w, field w L K = field base L K → dec w = zeroed w zs (r w))
    (hops : ∀ w, (∀ f ∈ fs, BitVec.ofNat f.width (field w f.lo f.width) = f.val) → r w = i) :
    decodeRow (BitVec.ofNat 32 (placedIn base fs)).toNat = .ok i := by
  have hok := hfit.placed
  simp only [fieldsOk, Bool.and_eq_true, List.all_eq_true, beq_iff_eq, decide_eq_true_eq] at hok
  obtain ⟨⟨⟨⟨ht, hM⟩, hF⟩, hLK⟩, hz⟩ := hok
  have hbase {l k : Nat} (h : l + k ≤ 32) (hc : clears l k (fs.map Placed.place) = true) :
      field (BitVec.ofNat 32 (placedIn base fs)).toNat l k = field base l k :=
    (field_word h).trans (field_placedIn_clears ht hc)
  rw [hfit.chosen _ (hbase (by decide) hM) (hbase hLK hF), hrow _ (hbase hLK hF), hops]
  · exact if_pos (zeros_eq_true fun z h => (hbase (hz z h).1.2 (hz z h).1.1).trans (hz z h).2)
  · intro f hf
    obtain ⟨hv, hw⟩ := field_placedIn_mem ht hf
    rw [field_word hw, hv, BitVec.ofNat_toNat, BitVec.setWidth_eq]

/-! ### Rows of one to five operands -/

section
variable {base n m k j p : Nat} {x : BitVec n} {y : BitVec m} {z : BitVec k} {u : BitVec j} {v : BitVec p} {lo lo' lo'' l3 l4 : Nat}
  (dec : Nat → Except Reject Instr) (L K : Nat) (zs : List (Nat × Nat))

theorem reads1 {i : BitVec n → Instr}
    (hfit : RowFits dec base L K zs [(lo, n)])
    (hrow : ∀ w, field w L K = field base L K → dec w = zeroed w zs (i (BitVec.ofNat n (field w lo n)))) :
    decodeRow (BitVec.ofNat 32 (enc1 base x lo)).toNat = .ok (i x) :=
  decodeRow_placedIn (fs := [⟨x, lo⟩]) hfit hrow fun w h => by
    simp only [List.forall_mem_cons] at h
    rw [h.1]

theorem reads2 {i : BitVec n → BitVec m → Instr}
    (hfit : RowFits dec base L K zs [(lo', m), (lo, n)])
    (hrow : ∀ w, field w L K = field base L K → dec w = zeroed w zs (i (BitVec.ofNat n (field w lo n)) (BitVec.ofNat m (field w lo' m)))) :
    decodeRow (BitVec.ofNat 32 (enc2 base x lo y lo')).toNat = .ok (i x y) :=
  decodeRow_placedIn (fs := [⟨y, lo'⟩, ⟨x, lo⟩]) hfit hrow fun w h => by
    simp only [List.forall_mem_cons] at h
    obtain ⟨hy, hx, -⟩ := h
    rw [hx, hy]

theorem reads3 {i : BitVec n → BitVec m → BitVec k → Instr}
    (hfit : RowFits dec base L K zs [(lo'', k), (lo', m), (lo, n)])
    (hrow : ∀ w, field w L K = field base L K → dec w = zeroed w zs
      (i (BitVec.ofNat n (field w lo n)) (BitVec.ofNat m (field w lo' m)) (BitVec.ofNat k (field w lo'' k)))) :
    decodeRow (BitVec.ofNat 32 (enc3 base x lo y lo' z lo'')).toNat = .ok (i x y z) :=
  decodeRow_placedIn (fs := [⟨z, lo''⟩, ⟨y, lo'⟩, ⟨x, lo⟩]) hfit hrow fun w h => by
    simp only [List.forall_mem_cons] at h
    obtain ⟨hz, hy, hx, -⟩ := h
    rw [hx, hy, hz]

theorem reads4 {i : BitVec n → BitVec m → BitVec k → BitVec j → Instr}
    (hfit : RowFits dec base L K zs [(l3, j), (lo'', k), (lo', m), (lo, n)])
    (hrow : ∀ w, field w L K = field base L K → dec w = zeroed w zs
      (i (BitVec.ofNat n (field w lo n)) (BitVec.ofNat m (field w lo' m)) (BitVec.ofNat k (field w lo'' k)) (BitVec.ofNat j (field w l3 j)))) :
    decodeRow (BitVec.ofNat 32 (enc4 base x lo y lo' z lo'' u l3)).toNat = .ok (i x y z u) :=
  decodeRow_placedIn (fs := [⟨u, l3⟩, ⟨z, lo''⟩, ⟨y, lo'⟩, ⟨x, lo⟩]) hfit hrow fun w h => by
    simp only [List.forall_mem_cons] at h
    obtain ⟨hu, hz, hy, hx, -⟩ := h
    rw [hx, hy, hz, hu]

theorem reads5 {i : BitVec n → BitVec m → BitVec k → BitVec j → BitVec p → Instr}
    (hfit : RowFits dec base L K zs [(l4, p), (l3, j), (lo'', k), (lo', m), (lo, n)])
    (hrow : ∀ w, field w L K = field base L K → dec w = zeroed w zs
      (i (BitVec.ofNat n (field w lo n)) (BitVec.ofNat m (field w lo' m)) (BitVec.ofNat k (field w lo'' k)) (BitVec.ofNat j (field w l3 j))
        (BitVec.ofNat p (field w l4 p)))) :
    decodeRow (BitVec.ofNat 32 (enc5 base x lo y lo' z lo'' u l3 v l4)).toNat = .ok (i x y z u v) :=
  decodeRow_placedIn (fs := [⟨v, l4⟩, ⟨u, l3⟩, ⟨z, lo''⟩, ⟨y, lo'⟩, ⟨x, lo⟩]) hfit hrow fun w h => by
    simp only [List.forall_mem_cons] at h
    obtain ⟨hv, hu, hz, hy, hx, -⟩ := h
    rw [hx, hy, hz, hu, hv]

end

/-- Every row but `ext` reads its word, each through the decoder of its major, its function's field and its zero fields (R51). -/
theorem reads_encode {i : Instr} (h : i.encodable = true) (hp : partnerOf i = none) : Reads i := by
  unfold Reads
  cases i
  case ext => cases hp
  case trap =>
    exact reads1 decode00 0 5 [(12, 14)] {} fun w h => by rw [decode00, h]; rfl
  case add | sub | mul | mulh | mulhn | div | divn | rem | remn | and | or | xor | andn | shl | shr | sra | rotr | min | max | minn
      | maxn | cmpeq | cmplt | cmpltn | sext | zext =>
    exact reads3 decode01 0 5 [] {} fun w h => by rw [decode01, h]; rfl
  case clz | ctz | popc =>
    exact reads2 decode01 0 5 [(5, 7)] {} fun w h => by rw [decode01, h]; rfl
  case addi | andi | ori | xori =>
    exact reads3 decodeLow 26 6 [] {} fun w h => by rw [decodeLow, h]; rfl
  case shli | shri | srai | roti =>
    exact reads3 decode06 10 2 [(6, 4)] {} fun w h => by rw [decode06, h]; rfl
  case seqi | slti | sltni =>
    exact reads3 decode07 10 2 [] {} fun w h => by rw [decode07, h]; rfl
  case movi =>
    exact reads2 decodeLow 26 6 [] {} fun w h => by rw [decodeLow, h]; rfl
  case movk =>
    exact reads3 decodeLow 26 6 [(16, 1)] {} fun w h => by rw [decodeLow, h]; rfl
  case sel =>
    exact reads4 decodeLow 26 6 [(3, 2)] {} fun w h => by rw [decodeLow, h]; rfl
  case kcmp =>
    exact reads4 decodeLow 26 6 [(3, 2), (22, 4)] {} fun w h => by rw [decodeLow, h]; rfl
  case kand | kor | kxor | kandn =>
    exact reads3 decode0C 0 5 [(8, 4), (15, 4), (22, 4)] {} fun w h => by rw [decode0C, h]; rfl
  case knot | kmov | kfirst =>
    exact reads2 decode0C 0 5 [(5, 7), (15, 4), (22, 4)] {} fun w h => by rw [decode0C, h]; rfl
  case vtok =>
    exact reads2 decode0C 0 5 [(5, 7), (22, 4)] {} fun w h => by rw [decode0C, h]; rfl
  case ktov | kpopc =>
    exact reads2 decode0C 0 5 [(5, 7), (15, 4)] {} fun w h => by rw [decode0C, h]; rfl
  case vmask =>
    exact reads3 decode0C 0 5 [(7, 5), (22, 4)] {} fun w h => by rw [decode0C, h]; rfl
  case ctlr =>
    exact reads2 decode0D 10 2 [(12, 7)] {} fun w h => by rw [decode0D, h]; rfl
  case ctlw | ctls | ctlc =>
    exact reads2 decode0D 10 2 [(19, 7)] {} fun w h => by rw [decode0D, h]; rfl
  case bt | bf =>
    exact reads2 decode10 22 1 [] {} fun w h => by rw [decode10, h]; rfl
  case jmp | call =>
    exact reads1 decodeLow 26 6 [] {} fun w h => by rw [decodeLow, h]; rfl
  case jr | callr =>
    exact reads1 decode13 0 5 [(5, 7), (19, 7)] {} fun w h => by rw [decode13, h]; rfl
  case loopi =>
    exact reads3 decode14 24 1 [] {} fun w h => by rw [decode14, h]; rfl
  case loop =>
    exact reads3 decode14 24 1 [(21, 3)] {} fun w h => by rw [decode14, h]; rfl
  case rpt =>
    exact reads5 decodeLow 26 6 [(0, 4)] {} fun w h => by rw [decodeLow, h]; rfl
  case join =>
    exact reads1 decode16 0 5 [(12, 14)] {} fun w h => by rw [decode16, h]; rfl
  case fstat | fidx =>
    exact reads1 decode16 0 5 [(5, 14)] {} fun w h => by rw [decode16, h]; rfl
  case pick | mread =>
    exact reads3 decode17 17 2 [] {} fun w h => by rw [decode17, h]; rfl
  case mnote =>
    exact reads1 decode17 17 2 [(12, 5), (19, 7)] {} fun w h => by rw [decode17, h]; rfl
  case wait =>
    exact reads4 decodeLow 26 6 [(0, 10)] {} fun w h => by rw [decodeLow, h]; rfl
  case tlwait =>
    exact reads2 decode19 0 5 [(19, 7)] {} fun w h => by rw [decode19, h]; rfl
  case tlread | tlnext =>
    exact reads2 decode19 0 5 [(5, 7)] {} fun w h => by rw [decode19, h]; rfl
  case arrive | arwt | bstat =>
    exact reads2 decode1A 0 5 [(12, 7)] {} fun w h => by rw [decode1A, h]; rfl
  case await =>
    exact reads2 decode1A 0 5 [(19, 7)] {} fun w h => by rw [decode1A, h]; rfl
  case send =>
    exact reads3 decode1B 0 5 [(23, 3)] {} fun w h => by rw [decode1B, h]; rfl
  case rcv | arm | probe =>
    exact reads1 decode1B 0 5 [(5, 14)] {} fun w h => by rw [decode1B, h]; rfl
  case msk =>
    exact reads1 decode1B 0 5 [(12, 14)] {} fun w h => by rw [decode1B, h]; rfl
  case dep =>
    exact reads3 decode1B 0 5 [] {} fun w h => by rw [decode1B, h]; rfl
  case mig =>
    exact reads1 decode1C 0 5 [(5, 7), (19, 7)] {} fun w h => by rw [decode1C, h]; rfl
  case migst =>
    exact reads2 decode1C 0 5 [(5, 7)] {} fun w h => by rw [decode1C, h]; rfl
  case spawn =>
    exact reads3 decode1D 0 5 [] {} fun w h => by rw [decode1D, h]; rfl
  case dec =>
    exact reads1 decode1D 0 5 [(5, 7), (19, 7)] {} fun w h => by rw [decode1D, h]; rfl
  case tself =>
    exact reads1 decode1D 0 5 [(5, 14)] {} fun w h => by rw [decode1D, h]; rfl
  case rtopen | rtclose | rtstat =>
    exact reads2 decode1E 0 5 [(5, 7)] {} fun w h => by rw [decode1E, h]; rfl
  case rtsub | rtget =>
    exact reads3 decode1E 0 5 [] {} fun w h => by rw [decode1E, h]; rfl
  case vadd | vsub | vmul | vmac | vmin | vmax | vminn | vmaxn =>
    exact reads4 decode20 2 3 [] {} fun w h => by rw [decode20, h]; rfl
  case vand | vor | vxor | vandn | vshl | vshr | vsra =>
    exact reads4 decode21 2 3 [] {} fun w h => by rw [decode21, h]; rfl
  case vpopc =>
    exact reads3 decode21 2 3 [(5, 7)] {} fun w h => by rw [decode21, h]; rfl
  case vceq | vcne | vclt | vcge | vcltn | vcgen =>
    exact reads4 decode22 2 3 [(22, 4)] {} fun w h => by rw [decode22, h]; rfl
  case vfadd | vfsub | vfmul | vfma | vfmin | vfmax | vfdiv =>
    exact reads4 decode23 2 3 [] {} fun w h => by rw [decode23, h]; rfl
  case vfsqrt =>
    exact reads3 decode23 2 3 [(5, 7)] {} fun w h => by rw [decode23, h]; rfl
  case vfrcp | vfrsq | vfexp2 | vflog2 | vfabs | vfneg =>
    exact reads3 decode24 2 3 [(5, 7)] {} fun w h => by rw [decode24, h]; rfl
  case vfclt | vfceq =>
    exact reads4 decode24 2 3 [(22, 4)] {} fun w h => by rw [decode24, h]; rfl
  case cvtBf16F32 | cvtF16F32 | cvtF32Bf16 | cvtF32F16 | cvtE4m3F32 | cvtE5m2F32 | cvtF32E4m3 | cvtF32E5m2 | cvtI32F32 | cvtF32I32
      | cvtI8I32 | cvtI32I8 | q4unpk =>
    exact reads4 decode25 0 5 [(5, 3)] {} fun w h => by rw [decode25, h]; rfl
  case q4pack =>
    exact reads5 decode25 0 5 [(5, 1)] {} fun w h => by rw [decode25, h]; rfl
  case vrsum | vrmax | vrmin | vrarg =>
    exact reads3 decode26 2 3 [(5, 7)] {} fun w h => by rw [decode26, h]; rfl
  case vrdot =>
    exact reads4 decode26 2 3 [] {} fun w h => by rw [decode26, h]; rfl
  case vsplat | vcomp | vexpd =>
    exact reads3 decode27 2 3 [(5, 7)] {} fun w h => by rw [decode27, h]; rfl
  case vshuf | vslup | vsldn | vzip | vunzip =>
    exact reads4 decode27 2 3 [] {} fun w h => by rw [decode27, h]; rfl
  case ixdot | ixcnt =>
    exact reads3 decode28 0 5 [] {} fun w h => by rw [decode28, h]; rfl
  case bmpfx =>
    exact reads2 decode28 0 5 [(5, 7)] {} fun w h => by rw [decode28, h]; rfl
  case vtopk | vmrg =>
    exact reads3 decode29 0 5 [] {} fun w h => by rw [decode29, h]; rfl
  case vsort =>
    exact reads2 decode29 0 5 [(5, 7)] {} fun w h => by rw [decode29, h]; rfl
  case ld | st =>
    exact reads4 decodeLow 26 6 [] {} fun w h => by rw [decodeLow, h]; rfl
  case vld | vst =>
    exact reads3 decodeLow 26 6 [(9, 3)] {} fun w h => by rw [decodeLow, h]; rfl
  case ldx | stx | lda | stl =>
    exact reads5 decodeLow 26 6 [] {} fun w h => by rw [decodeLow, h]; rfl
  case atomSwap | atomAdd | atomAnd | atomOr | atomXor | atomMin | atomMax | atomMinn | atomMaxn | atomCas =>
    exact reads4 decode36 1 4 [] {} fun w h => by rw [decode36, h]; rfl
  case atomFaddF32 | atomFaddBf16 =>
    exact reads3 decode36 1 4 [(0, 1)] {} fun w h => by rw [decode36, h]; rfl
  case atomoSwap | atomoAdd | atomoAnd | atomoOr | atomoXor | atomoMin | atomoMax | atomoMinn | atomoMaxn | atomoCas =>
    exact reads4 decode37 1 4 [] {} fun w h => by rw [decode37, h]; rfl
  case atomoFaddF32 | atomoFaddBf16 =>
    exact reads3 decode37 1 4 [(0, 1)] {} fun w h => by rw [decode37, h]; rfl
  case fenceAcq | fenceRel | fenceFull | fenceWb =>
    exact reads1 decode3A 9 3 [(0, 6), (12, 14)] {} fun w h => by rw [decode3A, h]; rfl
  case sld | sst | sadd =>
    exact reads3 decode3B 0 5 [(9, 3)] {} fun w h => by rw [decode3B, h]; rfl
  case scan =>
    exact reads4 decode3B 0 5 [(11, 1)] {} fun w h => by rw [decode3B, h]; rfl
  case scnt =>
    exact reads2 decode3B 0 5 [(9, 10)] {} fun w h => by rw [decode3B, h]; rfl
  case pref | prefl2 | l1inv | zline =>
    exact reads2 decode3C 9 3 [(19, 7)] {} fun w h => by rw [decode3C, h]; rfl
  case cpld | cpst | kvld | cpfill | rcfg =>
    exact reads2 decode3D 0 5 [(5, 7)] {} fun w h => by rw [decode3D, h]; rfl
  case cpadd | cpgat | cpsca | dens | cpcopy | mma | smma | rpush | rpop =>
    exact reads3 decode3D 0 5 [] {} fun w h => by rw [decode3D, h]; rfl
  case mzero =>
    exact reads1 decode3D 0 5 [(5, 14)] {} fun w h => by rw [decode3D, h]; rfl
  case mdrain =>
    exact reads2 decode3D 0 5 [(12, 7)] {} fun w h => by rw [decode3D, h]; rfl
  case shdef | shget | blkfree | blkst =>
    exact reads2 decode3E 0 5 [(5, 7)] {} fun w h => by rw [decode3E, h]; rfl
  case shret =>
    exact reads1 decode3E 0 5 [(5, 7), (19, 7)] {} fun w h => by rw [decode3E, h]; rfl
  case blkmap | blkref | blkmig | bcfg =>
    exact reads3 decode3E 0 5 [] {} fun w h => by rw [decode3E, h]; rfl
  case tlbinv | impset =>
    exact reads2 decode3E 0 5 [(19, 7)] {} fun w h => by rw [decode3E, h]; rfl
  case ptset | keyld =>
    exact reads3 decodeHigh 0 5 [] ⟨decodeRow_high rfl, by decide⟩ fun w h => by rw [decodeHigh, highZeros, h]; rfl
  case qsce =>
    exact reads2 decodeHigh 0 5 [(5, 7)] ⟨decodeRow_high rfl, by decide⟩ fun w h => by rw [decodeHigh, highZeros, h]; rfl
  case impw | tstop =>
    exact reads2 decodeHigh 0 5 [(19, 7)] ⟨decodeRow_high rfl, by decide⟩ fun w h => by rw [decodeHigh, highZeros, h]; rfl
  case tresume =>
    exact reads1 decodeHigh 0 5 [(5, 7), (19, 7)] ⟨decodeRow_high rfl, by decide⟩ fun w h => by rw [decodeHigh, highZeros, h]; rfl
  case nop | halt | brk | yield | wfm | ret | detach | rti | migret | tdone | sysret | dump =>
    rfl
  all_goals exact absurd h Bool.false_ne_true

/-! ### The bytes of an instruction (R5, R43, R49) -/

/-- The four bytes of a word are the word's. -/
theorem wordOfBytes_bytesOfWord (w : Word) :
    wordOfBytes (BitVec.ofNat 8 w.toNat) (BitVec.ofNat 8 (w.toNat / 2 ^ 8)) (BitVec.ofNat 8 (w.toNat / 2 ^ 16))
      (BitVec.ofNat 8 (w.toNat / 2 ^ 24)) = w := by
  apply BitVec.eq_of_toNat_eq
  simp only [wordOfBytes, BitVec.toNat_ofNat]
  have := w.isLt
  omega


theorem decodeBytes_word {w : Word} (hw : isExt w = false) (rest : List Byte) :
    decodeBytes (bytesOfWord w ++ rest) = (decodeWord w).map fun i => (i, rest) := by
  simp only [bytesOfWord, List.cons_append, List.nil_append, decodeBytes, wordOfBytes_bytesOfWord, hw, Bool.false_eq_true, if_false]

theorem decodeBytes_pair {w : Word} (hw : isExt w = true) (v : Word) (rest : List Byte) :
    decodeBytes (bytesOfWord w ++ bytesOfWord v ++ rest) = .ok (.ext (BitVec.ofNat 26 w.toNat) v, rest) := by
  simp only [bytesOfWord, List.cons_append, List.nil_append, decodeBytes, wordOfBytes_bytesOfWord, hw, if_true, decodePair]
  rfl

/-! ### Instructions of one and of two words -/

/-- A word of major 0x0E is read as an `ext`. -/
theorem isExt_false {i : Instr} (h : Reads i) (hp : partnerOf i = none) : isExt (encode i) = false := by
  by_contra hx
  have hM : field (encode i).toNat 26 6 = 0x0E := by simpa [isExt] using hx
  have hr : decodeRow (encode i).toNat = decode0E (encode i).toNat := by rw [decodeRow, isHigh, decodeLow, hM]; rfl
  have hi := congrArg partnerOf (Except.ok.inj (h.symm.trans hr))
  rw [hp] at hi
  cases hi

/-- The first word of a pair has the 26 bits of `ext` in its field (R48). -/
theorem encode_ext (x : BitVec 26) (v : Word) :
    isExt (encode (.ext x v)) = true ∧ BitVec.ofNat 26 (encode (.ext x v)).toNat = x := by
  have ht : tidy 0x38000000 [(0, 26)] = true := by decide
  have hM : field (encode (.ext x v)).toNat 26 6 = 0x0E :=
    (field_word (by decide)).trans (field_placedIn_clears (fs := [⟨x, 0⟩]) ht rfl)
  have hx : field (encode (.ext x v)).toNat 0 26 = x.toNat :=
    (field_word (by decide)).trans (field_placedIn_mem (fs := [⟨x, 0⟩]) ht List.mem_cons_self).1
  refine ⟨beq_iff_eq.mpr hM, ?_⟩
  have ho := ofNat_field (encode (.ext x v)).toNat 0 26
  rw [hx, BitVec.ofNat_toNat, BitVec.setWidth_eq, pow_zero, Nat.div_one] at ho
  exact ho.symm

/-- The word of a well-formed instruction of one word decodes to it. -/
theorem decodeWord_encode {i : Instr} (h : Reads i) (hw : i.wf = true) : decodeWord (encode i) = .ok i := by
  rw [decodeWord_eq, h]
  exact if_pos hw

/-- Settles O59: an instruction of one word is read through its row's decoder, and an `ext` with the word after it. -/
theorem decodeEncode : Obligations.DecodeEncode := by
  intro i rest he hw
  unfold encodeBytes
  cases hp : partnerOf i with
  | none =>
    have hr := reads_encode he hp
    rw [decodeBytes_word (isExt_false hr hp), decodeWord_encode hr hw]
    rfl
  | some v =>
    obtain ⟨x, rfl⟩ : ∃ x, i = .ext x v := by
      unfold partnerOf at hp
      split at hp
      · exact ⟨_, by rw [Option.some.inj hp]⟩
      · cases hp
    obtain ⟨hx, hi⟩ := encode_ext x v
    rw [decodeBytes_pair hx, hi]

/-- A word that an instruction is written as decodes to it (R55). -/
theorem decodeWord_of_encode {w : Word} {i : Instr} (h : encode i = w) (he : i.encodable = true) (hp : partnerOf i = none)
    (hw : i.wf = true) : decodeWord w = .ok i :=
  h ▸ decodeWord_encode (reads_encode he hp) hw

/-- Settles O58: each word is what its instruction is written as, and the last one has a reserved function. -/
theorem decodedWords : Obligations.DecodedWords :=
  ⟨decodeWord_of_encode (by decide) rfl rfl rfl, decodeWord_of_encode (by decide) rfl rfl rfl,
    decodeWord_of_encode (by decide) rfl rfl rfl, decodeWord_of_encode (by decide) rfl rfl rfl,
    decodeWord_of_encode (by decide) rfl rfl rfl, decodeWord_of_encode (by decide) rfl rfl rfl,
    decodeWord_of_encode (by decide) rfl rfl rfl, by rw [decodeWord_eq]; rfl⟩

end Sys2Proof
end

/-! What an instruction meets before it executes (R55, R56, R60, R110, R229, R230). -/

section
namespace Sys2Proof.Machine

/-! ### Raising and holding -/

/-- A fault is taken once every earlier instruction has committed, and waits for them before (R229). -/
theorem raise_live {s : State} {t : Nat} {th : Thread} (h : s.thread? t = some th) (q : Req) (code : Nat) (v : Dword) (tcode : Nat) :
    raise s t q code v tcode = .next (if th.rob = [] then takeFault s t code tcode q.pair v th.ctx.pc else hold s t 4) := by
  unfold raise
  rw [h]
  dsimp only
  split <;> rfl

/-- What holds an instruction early is its stores, cause 5, or an engine's queue, cause 6. -/
theorem holdsEarly_cause {s : State} {t : Nat} {th : Thread} {e : Early} {d : Nat} (h : s.holdsEarly t th e = some d) : d = 5 ∨ d = 6 := by
  have hr {scope : Nat} (h : s.releaseHeld th scope = some d) : d = 5 := by
    unfold State.releaseHeld at h
    split_ifs at h <;> exact (Option.some.inj h).symm
  unfold State.holdsEarly at h
  split at h
  case h_1 => exact .inl (hr h)
  case h_2 =>
    dsimp only at h
    split_ifs at h <;> exact .inr (Option.some.inj h).symm
  case h_3 | h_4 => split_ifs at h; exact .inl (Option.some.inj h).symm
  case h_5 =>
    dsimp only at h
    split_ifs at h
    exact .inl (Option.some.inj h).symm

/-- The fold of `Nat.min` is the least of the numbers. -/
theorem foldl_min (l : List Nat) (c : Nat) : l.foldl Nat.min c ∈ c :: l ∧ ∀ d ∈ c :: l, l.foldl Nat.min c ≤ d :=
  List.min?_eq_some_iff.mp rfl

section
variable (s : State) (t : Nat) (th : Thread) (q : Req)

/-- Only with an armed source do an instruction's own conditions count (R349). -/
theorem lowestHold_of_ne {c : Nat} (h : c ≠ 10) : s.lowestHold t th q c = c := if_neg h

theorem lowestHold_armed : s.lowestHold t th q 10 = (q.early.filterMap (s.holdsEarly t th)).foldl Nat.min 10 := if_pos rfl

/-- With an armed source the cause is at most 10, and at most each cause that holds the instruction besides. -/
theorem lowestHold_armed_le :
    s.lowestHold t th q 10 ≤ 10 ∧ ∀ e d, e ∈ q.early → s.holdsEarly t th e = some d → s.lowestHold t th q 10 ≤ d := by
  rw [lowestHold_armed]
  obtain ⟨-, hall⟩ := foldl_min (q.early.filterMap (s.holdsEarly t th)) 10
  exact ⟨hall 10 List.mem_cons_self, fun e d he hd => hall d (List.mem_cons_of_mem _ (List.mem_filterMap.mpr ⟨e, he, hd⟩))⟩

/-- A lower cause is never that of a bank. -/
theorem lowestHold_ne_bank {c : Nat} (h : c ≠ 3) : s.lowestHold t th q c ≠ 3 := by
  by_cases hc : c = 10
  · subst hc
    rw [lowestHold_armed]
    obtain ⟨hmem, -⟩ := foldl_min (q.early.filterMap (s.holdsEarly t th)) 10
    rcases List.mem_cons.mp hmem with hmem | hmem
    · omega
    · obtain ⟨e, -, he⟩ := List.mem_filterMap.mp hmem
      have := holdsEarly_cause he
      omega
  · rwa [lowestHold_of_ne s t th q hc]

/-- A cause that is no bank's holds the thread and changes nothing else of it. -/
theorem heldFor_of_ne {c : Nat} (h : c ≠ 3) : s.heldFor t th q c = hold s t c := by
  unfold State.heldFor
  rw [if_neg h]

/-- A thread that a bank holds claims that of the first register that is absent (R76). -/
theorem heldFor_bank (h : (q.reads ++ q.writes).any th.absent = true) :
    ∃ n ∈ q.reads ++ q.writes, th.absent n = true ∧
      s.heldFor t th q 3 = hold (s.modThread t fun x => { x with claim := some (th.inSecond n) }) t 3 := by
  cases hf : (q.reads ++ q.writes).find? th.absent with
  | none =>
    obtain ⟨n, hn, ha⟩ := List.any_eq_true.mp h
    exact absurd ha (List.find?_eq_none.mp hf n hn)
  | some n =>
    refine ⟨n, List.mem_of_find?_eq_some hf, List.find?_some hf, ?_⟩
    unfold State.heldFor
    rw [if_pos rfl, hf]

end

/-! ### What holds an instruction before its own conditions -/

theorem heldBy_bank {th : Thread} {q : Req} (h : th.heldBy q = some 3) : (q.reads ++ q.writes).any th.absent = true := by
  by_contra ha
  unfold Thread.heldBy at h
  rw [if_neg ha] at h
  split_ifs at h <;> simp at h

/-- A source or destination that waits for a load holds an instruction whose banks are resident (R17, R230). -/
theorem heldBy_pending {th : Thread} {q : Req} {n : Nat} (hn : n ∈ q.reads ++ q.writes) (ha : (q.reads ++ q.writes).any th.absent = false)
    (hp : th.pending n = true) : th.heldBy q = some 4 := by
  unfold Thread.heldBy
  rw [if_neg (by simp [ha]), if_pos (.inl (List.any_eq_true.mpr ⟨n, hn, hp⟩))]

/-- Cause 10 is that of an armed source (R63). -/
theorem heldBy_armed {th : Thread} {q : Req} (h : th.heldBy q = some 10) : ∃ n ∈ q.reads, th.ctx.armed.getLsbD n = true := by
  have ha : (q.reads.any fun n => !th.shadowed n && th.ctx.armed.getLsbD n) = true := by
    by_contra ha
    unfold Thread.heldBy at h
    rw [if_neg ha] at h
    split_ifs at h <;> simp at h
  obtain ⟨n, hn, hb⟩ := List.any_eq_true.mp ha
  exact ⟨n, hn, (Bool.and_eq_true_iff.mp hb).2⟩

/-- The register that the window does not reach is one of those asked for (R60). -/
theorem badReg_spec {th : Thread} {ns : List Nat} {n : Nat} (h : th.badReg ns = some n) : n ∈ ns ∧ th.limit ≤ n := by
  have hb := List.find?_some h
  simp only [Bool.and_eq_true, decide_eq_true_eq] at hb
  exact ⟨List.mem_of_find?_eq_some h, hb.2⟩

/-! ### The checks, in their order (R56) -/

/-- The checks after that of the word: privilege, window, and what holds the instruction. -/
def State.checks (s : State) (t : Nat) (th : Thread) (q : Req) (k : State → Nat → Thread → Out) : Out :=
  if th.pl < q.level then raise s t q 0x02 (BitVec.ofNat 64 q.word)
  else match th.badReg q.regs with
    | some n => raise s t q 0x03 (BitVec.ofNat 64 n)
    | none => match th.heldBy q with
      | some c => .next (s.heldFor t th q (s.lowestHold t th q c))
      | none => k s t th.counted

section
variable {q : Req} {s : State} {t : Nat} {th : Thread} (k : State → Nat → Thread → Out)

section
variable (ht : s.sched.cur = t) (hl : s.thread? t = some th)
include ht hl

/-- A word that is not legal is ILLEGAL_INSTRUCTION (R55). -/
theorem begin_illegal (hq : q.legal = false) : begin q s k = raise s t q 0x01 (BitVec.ofNat 64 q.word) := by
  subst ht
  simp only [begin, hl, hq, Bool.not_false, if_true]

/-- A leader whose members are too far behind is held (R20). -/
theorem begin_paced (hq : q.legal = true) (hp : s.paced th = true) : begin q s k = .next (hold s t (s.pacedCause t th q k)) := by
  subst ht
  simp only [begin, hl, hq, hp, Bool.not_true, Bool.false_eq_true, if_false, if_true]

/-- A thread that sends no words meets the checks where it stands. -/
theorem begin_checks (hq : q.legal = true) (hc : th.casts = false) (hp : s.paced th = false) : begin q s k = s.checks t th q k := by
  subst ht
  have hs : s.sendAhead s.sched.cur th q = s := by simp [State.sendAhead, hc]
  simp only [begin, hl, hq, hp, hs, Bool.not_true, Bool.false_eq_true, if_false]
  rfl

end

/-- A privilege too low is PRIVILEGE_FAULT with the word (R56). -/
theorem checks_level (hv : th.pl < q.level) : s.checks t th q k = raise s t q 0x02 (BitVec.ofNat 64 q.word) := if_pos hv

variable (hv : q.level ≤ th.pl)
include hv

theorem checks_window {n : Nat} (hb : th.badReg q.regs = some n) : s.checks t th q k = raise s t q 0x03 (BitVec.ofNat 64 n) := by
  unfold State.checks
  rw [if_neg (Nat.not_lt.mpr hv), hb]

theorem checks_held {c : Nat} (hb : th.badReg q.regs = none) (hh : th.heldBy q = some c) :
    s.checks t th q k = .next (s.heldFor t th q (s.lowestHold t th q c)) := by
  unfold State.checks
  rw [if_neg (Nat.not_lt.mpr hv), hb, hh]

/-- A cause that is no bank's holds the thread, under the lowest cause. -/
theorem checks_holds {c : Nat} (hb : th.badReg q.regs = none) (hh : th.heldBy q = some c) (h3 : c ≠ 3) :
    s.checks t th q k = .next (hold s t (s.lowestHold t th q c)) := by
  rw [checks_held k hv hb hh, heldFor_of_ne s t th q (lowestHold_ne_bank s t th q h3)]

/-- A register that waits for a load holds the instruction under cause 4 (R230). -/
theorem checks_pending {n : Nat} (hb : th.badReg q.regs = none) (hn : n ∈ q.reads ++ q.writes)
    (ha : (q.reads ++ q.writes).any th.absent = false) (hp : th.pending n = true) : s.checks t th q k = .next (hold s t 4) := by
  rw [checks_holds k hv hb (heldBy_pending hn ha hp) (by decide), lowestHold_of_ne s t th q (by decide)]

theorem checks_bank (hb : th.badReg q.regs = none) (hh : th.heldBy q = some 3) :
    ∃ n ∈ q.reads ++ q.writes, th.absent n = true ∧
      s.checks t th q k = .next (hold (s.modThread t fun x => { x with claim := some (th.inSecond n) }) t 3) := by
  obtain ⟨n, hn, ha, hf⟩ := heldFor_bank s t th q (heldBy_bank hh)
  exact ⟨n, hn, ha, by rw [checks_held k hv hb hh, lowestHold_of_ne s t th q (by decide), hf]⟩

theorem checks_free (hb : th.badReg q.regs = none) (hh : th.heldBy q = none) : s.checks t th q k = k s t th.counted := by
  unfold State.checks
  rw [if_neg (Nat.not_lt.mpr hv), hb, hh]

end

/-- Settles O55: the word, the drift bound, then privilege, window and holds in the order of R56. -/
theorem stopsBeforeExecution : Obligations.StopsBeforeExecution := by
  intro q s t th k ht hl
  have hstop (code : Nat) (v : Dword) := raise_live hl q code v 0
  refine ⟨fun hq => (begin_illegal k ht hl hq).trans (hstop _ _), begin_paced k ht hl, fun hq hc hp => ?_, fun ns n => badReg_spec⟩
  rw [begin_checks k ht hl hq hc hp]
  obtain ⟨hle, hall⟩ := lowestHold_armed_le s t th q
  exact ⟨fun hv => (checks_level k hv).trans (hstop _ _), fun n hv hb => (checks_window k hv hb).trans (hstop _ _),
    fun n hv hb hn ha hp => checks_pending k hv hb hn ha hp, fun c hv hb hh h3 => checks_holds k hv hb hh h3,
    fun c hc => lowestHold_of_ne s t th q hc, hle, hall, fun hv hb hh => checks_bank k hv hb hh, fun hv hb hh => checks_free k hv hb hh, heldBy_armed⟩

end Sys2Proof.Machine
end

/-! `ext` pairs (R48 to R50). -/

section
namespace Sys2Proof.Machine

/-- An instruction that only computes completes with `f` applied to its thread, whatever the state says of its requirements. -/
theorem MayExecute.completes_simple {q : Req} {i : Instr} {s : State} {t : Nat} {th : Thread} {f : Thread → Thread}
    (h : MayExecute q s t th) (hi : exec i s = simple q s f)
    (hf : ∀ r n, (f { th.counted with ribbon := r, sent := n }).ctx = (f th.counted).ctx) :
    Completes i s t (advance (f th.counted).ctx q.pair .seq) := by
  obtain ⟨r, n, -, v⟩ := runner_eq (q := q) h.live
  have hc := h.completes (y := f (s.runner t th q)) (r := Rob.none) hi rfl rfl
  rwa [v, hf] at hc

/-- A second word that decodes gives the pair its meaning. -/
theorem exec_ext {x : BitVec 26} {w : Word} {i : Instr} (hd : decodeMain w = .ok i) (s : State) : exec (.ext x w) s = execPair x w i s := by
  change execExt x w s = _
  rw [execExt, hd]

/-- A second word that decodes to no instruction makes the pair illegal (R50). -/
theorem exec_ext_error {x : BitVec 26} {w : Word} {e : Reject} (hd : decodeMain w = .error e) (s : State) :
    exec (.ext x w) s = badPair x w s := by
  change execExt x w s = _
  rw [execExt, hd]

/-- A pair that writes `f` of a source to `d` (R114, R116). -/
theorem pair_alu2 {x : BitVec 26} {w : Word} {i : Instr} {s : State} {t : Nat} {th : Thread} {d a : BitVec 7} {f : Dword → Dword} {q : Req}
    (hd : decodeMain w = .ok i) (hi : execPair x w i s = alu2 (pairReq q x w s) d a f s) (h : MayExecute (pairReq q x w s) s t th) :
    Completes (.ext x w) s t (advance (th.counted.setS d (f (th.counted.S a))).ctx true .seq) :=
  h.completes_simple (f := fun v => v.setS d (f (v.S a))) ((exec_ext hd s).trans hi) fun _ _ => rfl

theorem setLink_ctx (v : Thread) (link : Bool) (p : Dword) :
    (if link then v.setCtx fun x => { x with lnk := p } else v).ctx = if link then { v.ctx with lnk := p } else v.ctx := by
  cases link <;> rfl

/-- A pair that jumps goes on at its displacement from its second word; a call links to the word after the pair (R57, R123). -/
theorem pair_jump {x : BitVec 26} {w : Word} {i : Instr} {s : State} {t : Nat} {th : Thread} {link : Bool} {disp : Dword} {q : Req}
    (hd : decodeMain w = .ok i) (hi : execPair x w i s = jump (pairReq q x w s) link disp s) (h : MayExecute (pairReq q x w s) s t th) :
    Completes (.ext x w) s t
      { (if link then { th.counted.ctx with lnk := th.ctx.pc + 8 } else th.counted.ctx) with pc := th.ctx.pc + 4 + disp <<< 2 } := by
  have hv := runner_ctx (q := pairReq q x w s) h.live
  have hPC : (s.runner t th (pairReq q x w s)).PC (pairReq q x w s) = th.ctx.pc + 4 := by
    change (s.runner t th (pairReq q x w s)).ctx.pc + 4 = _
    rw [hv, Thread.counted_pc]
  have hlnk : th.ctx.pc + 4 + 4 = th.ctx.pc + 8 := BitVec.add_assoc _ _ _
  have hc := h.completes (r := Rob.none) ((exec_ext hd s).trans hi) rfl rfl
  rw [hPC, hlnk, setLink_ctx, hv] at hc
  exact hc

/-- A compare of a register with the wide immediate (R116). -/
theorem aluCmplt_eq (x y : Dword) : aluCmplt x y = if x.toInt < y.toInt then 1 else 0 := by
  simp [aluCmplt, truth]

/-- A pair with a second word that decodes to no instruction is ILLEGAL_INSTRUCTION with both words in TRAPV (R50). -/
theorem pair_illegal {x : BitVec 26} {w : Word} {e : Reject} {s : State} {t : Nat} {th : Thread} (hd : decodeMain w = .error e)
    (ht : s.sched.cur = t) (hl : s.thread? t = some th) (hr : th.rob = []) :
    exec (.ext x w) s = .next (takeFault s t 0x01 0 true (BitVec.ofNat 64 ((0x0E * 2 ^ 26 + x.toNat) * 2 ^ 32 + w.toNat)) th.ctx.pc) := by
  rw [exec_ext_error hd, badPair, begin_illegal _ ht hl rfl, raise_live hl, if_pos hr]
  rfl

/-- Settles O36: a pair's meaning is its second word's with the widened immediate, at the address of the second word. -/
theorem pairResults : Obligations.PairResults := by
  refine ⟨?_, ?_, ?_, ?_, ?_, ?_, ?_, ?_, ?_⟩
  · exact fun x w d a i s hd t th h => pair_alu2 (f := (· + (wide x i).signExtend 64)) hd rfl h
  · exact fun x w d a i s hd t th h => pair_alu2 (f := (· &&& (wide x i).signExtend 64)) hd rfl h
  · exact fun x w d a i s hd t th h => pair_alu2 (f := (· ||| (wide x i).setWidth 64)) hd rfl h
  · exact fun x w d a i s hd t th h => pair_alu2 (f := (· ^^^ (wide x i).setWidth 64)) hd rfl h
  · intro x w d a i s hd t th h
    rw [← aluCmplt_eq]
    exact pair_alu2 (f := (aluCmplt · ((wide x i).signExtend 64))) hd rfl h
  · exact fun x w d i s hd t th h => h.completes_simple (f := fun v => v.setS d ((wide x i).signExtend 64)) (exec_ext hd s) fun _ _ => rfl
  · exact fun x w d s hd t th h => pair_jump (link := false) hd rfl h
  · exact fun x w d s hd t th h => pair_jump (link := true) hd rfl h
  · exact fun x w e s t th hd ht hl hr => pair_illegal hd ht hl hr

end Sys2Proof.Machine
end

/-! Repeat frames (R47, R50, R127). -/

section
namespace Sys2Proof.Machine

/-! What a frame's position and replay number in RPTS become (R73). -/

/-- The next position of a frame is in bits 3:0 of RPTS, and its ACT stays. -/
theorem nbits_next_position {r : Dword} (h : nbits r 0 4 < nbits r 16 4) :
    nbits (setBits r 0 4 (nbits r 0 4 + 1)) 0 4 = nbits r 0 4 + 1 ∧ nbits (setBits r 0 4 (nbits r 0 4 + 1)) 15 1 = nbits r 15 1 := by
  simp only [nbits, setBits, field, BitVec.toNat_ofNat] at h ⊢
  omega

/-- The next replay of a frame is in bits 9:4 of RPTS, at position 0, and its ACT stays. -/
theorem nbits_next_replay {r : Dword} (h : nbits r 4 6 < nbits r 20 6) :
    nbits (setBits (setBits r 0 4 0) 4 6 (nbits r 4 6 + 1)) 0 4 = 0 ∧
    nbits (setBits (setBits r 0 4 0) 4 6 (nbits r 4 6 + 1)) 4 6 = nbits r 4 6 + 1 ∧
    nbits (setBits (setBits r 0 4 0) 4 6 (nbits r 4 6 + 1)) 15 1 = nbits r 15 1 := by
  simp only [nbits, setBits, field, BitVec.toNat_ofNat] at h ⊢
  omega

theorem framed_iff (x : Ctx) : x.framed = true ↔ nbits x.rpts 15 1 = 1 := beq_iff_eq

/-- The end test leaves RPTS alone. -/
theorem endTest_rpts (x : Ctx) (a : Dword) : (endTest x a).rpts = x.rpts := by
  unfold endTest
  dsimp only
  split_ifs <;> rfl

/-- Within a replay control goes on to the next captured word. -/
theorem frameNext_word {x : Ctx} (h : nbits x.rpts 0 4 < nbits x.rpts 16 4) :
    frameNext x = { x with pc := x.pc + 4, rpts := setBits x.rpts 0 4 (nbits x.rpts 0 4 + 1) } := if_pos h

/-- After the last word of a replay the next one begins at the first word. -/
theorem frameNext_replay {x : Ctx} (hp : ¬ nbits x.rpts 0 4 < nbits x.rpts 16 4) (h : nbits x.rpts 4 6 < nbits x.rpts 20 6) :
    frameNext x = { x with pc := x.pc - BitVec.ofNat 64 (4 * nbits x.rpts 0 4),
                           rpts := setBits (setBits x.rpts 0 4 0) 4 6 (nbits x.rpts 4 6 + 1) } :=
  (if_neg hp).trans (if_pos h)

/-- After the last replay the frame is over, and the end test follows (R126). -/
theorem frameNext_end {x : Ctx} (hp : ¬ nbits x.rpts 0 4 < nbits x.rpts 16 4) (h : ¬ nbits x.rpts 4 6 < nbits x.rpts 20 6) :
    frameNext x = endTest { x with rpts := 0, frame := [] } x.pc :=
  (if_neg hp).trans (if_neg h)

theorem framed_frameNext_end {x : Ctx} (hp : ¬ nbits x.rpts 0 4 < nbits x.rpts 16 4) (h : ¬ nbits x.rpts 4 6 < nbits x.rpts 20 6) :
    (frameNext x).framed = false := by
  rw [frameNext_end hp h, Ctx.framed, endTest_rpts]
  exact (by decide : (nbits (0 : Dword) 15 1 == 1) = false)

/-! What `rpt` does with the words that it captures. -/

/-- The requirements of `rpt`. -/
def reqRpt (n : BitVec 4) (r : BitVec 6) (d a b : BitVec 4) : Req := { req0 (.rpt n r d a b) with flow := true }

/-- The register number that a captured word's second check finds. -/
def Captured.window? : Captured → Option Nat
  | .window n => some n
  | _ => none

/-- The first captured word that may not be captured. -/
def badWord? (v : Thread) (rpts : Dword) (ws : List Word) : Option Nat := ws.findIdx? fun z => capturedCheck v rpts z == .illegal

/-- What `rpt` does once it has captured the words `ws` (log 24). -/
def captured (q : Req) (rpts : Dword) (ws : List Word) (s : State) (t : Nat) (v : Thread) : Out :=
  match badWord? v rpts ws with
  | some i => if isExt (ws.getD i 0) then frameExt s t v ws i else raise s t q 0x01 ((ws.getD i 0).setWidth 64)
  | none =>
    if frameSplits v.ctx (v.ctx.pc + 4) ws.length then raise s t q 0x01 (BitVec.ofNat 64 q.word)
    else match ws.findSome? fun z => (capturedCheck v rpts z).window? with
      | some m => raise s t q 0x03 (BitVec.ofNat 64 m)
      | none => .next (finish s t (v.setCtx fun x => { x with rpts := rpts, frame := ws }) q (.to (v.ctx.pc + 4)))

section
variable {n : BitVec 4} {r : BitVec 6} {d a b : BitVec 4} {s w : State} {t : Nat} {th v : Thread} {ws : List Word} {q : Req} {rpts : Dword}

/-- An `rpt` that may execute and whose words are all fetched goes on with them. -/
theorem exec_rpt_words (h : MayExecute (reqRpt n r d a b) s t th)
    (hf : (s.begun t th (reqRpt n r d a b)).fetchFrame t (s.runner t th (reqRpt n r d a b))
      ((s.runner t th (reqRpt n r d a b)).ctx.pc + 4) (n.toNat + 1) = .words ws w) :
    exec (.rpt n r d a b) s = captured (reqRpt n r d a b) (rptsOf n r d a b) ws w t (s.runner t th (reqRpt n r d a b)) := by
  change execRpt n r d a b s = _
  unfold execRpt
  refine (h.runs _).trans ?_
  dsimp only
  rw [hf]
  rfl

theorem badWord?_eq_none (h : ∀ x ∈ ws, capturedCheck v rpts x ≠ .illegal) : badWord? v rpts ws = none :=
  List.findIdx?_eq_none_iff.mpr fun x hx => beq_false_of_ne (h x hx)

/-- Words that are all good start the frame at the first of them. -/
theorem captured_good (hg : ∀ x ∈ ws, capturedCheck v rpts x = .good) (hs : frameSplits v.ctx (v.ctx.pc + 4) ws.length = false) :
    captured q rpts ws w t v = .next (finish w t (v.setCtx fun x => { x with rpts := rpts, frame := ws }) q (.to (v.ctx.pc + 4))) := by
  have hi : badWord? v rpts ws = none := badWord?_eq_none fun x hx => by rw [hg x hx]; decide
  have hw : (ws.findSome? fun z => (capturedCheck v rpts z).window?) = none :=
    List.findSome?_eq_none_iff.mpr fun x hx => by rw [hg x hx]; rfl
  rw [captured, hi, hs, hw]
  rfl

/-- An `rpt` that goes on with words that are all good begins its frame and changes nothing else. -/
theorem ends_captured_good {i : Instr} (hrun : exec i s = captured q rpts ws w t v) (hg : ∀ x ∈ ws, capturedCheck v rpts x = .good)
    (hs : frameSplits v.ctx (v.ctx.pc + 4) ws.length = false) :
    Ends i s t { v.ctx with rpts := rpts, frame := ws, pc := v.ctx.pc + 4 } w := by
  obtain ⟨hc, hu⟩ := finish_spec w t (v.setCtx fun x => { x with rpts := rpts, frame := ws }) q (.to (v.ctx.pc + 4)) .none rfl
  exact ⟨_, hrun.trans (captured_good hg hs), hc, hu⟩

/-- An `ext` among the words is the frame's fault (R50). -/
theorem captured_ext {i : Nat} (hi : badWord? v rpts ws = some i) (he : isExt (ws.getD i 0) = true) :
    captured q rpts ws w t v = frameExt w t v ws i := by
  rw [captured, hi]
  exact if_pos he

/-- A word that may not be captured raises a fault with itself. -/
theorem captured_illegal {x : Word} (hx : ws.find? (fun z => capturedCheck v rpts z == .illegal) = some x) (he : isExt x = false) :
    captured q rpts ws w t v = raise w t q 0x01 (x.setWidth 64) := by
  obtain ⟨i, hi, hxi⟩ := Option.bind_eq_some_iff.mp (List.find?_eq_bind_findIdx?_getElem?.symm.trans hx)
  have hx0 : ws.getD i 0 = x := by rw [List.getD_eq_getElem?_getD, hxi, Option.getD_some]
  rw [captured, badWord?, hi]
  dsimp only
  rw [hx0, he]
  rfl

/-- A register beyond the window raises a fault with its number (R60). -/
theorem captured_window {m : Nat} (hg : ∀ x ∈ ws, capturedCheck v rpts x ≠ .illegal)
    (hs : frameSplits v.ctx (v.ctx.pc + 4) ws.length = false) (hm : (ws.findSome? fun z => (capturedCheck v rpts z).window?) = some m) :
    captured q rpts ws w t v = raise w t q 0x03 (BitVec.ofNat 64 m) := by
  rw [captured, badWord?_eq_none hg, hs, hm]
  rfl

/-- The first register number that the words' checks find, however a statement writes the check's result out. -/
theorem findSome?_window {f : Word → Option Nat} {c : Word → Captured} {m : Nat} (h : ws.findSome? f = some m)
    (hf : ∀ z, f z = (c z).window?) : (ws.findSome? fun z => (c z).window?) = some m :=
  funext hf ▸ h

/-- The fault of an `ext` in a frame names it with the word that follows it, captured or fetched after the frame. -/
theorem frameExt_pair {i : Nat} {x : Word} {y : State}
    (hx : (ws[i + 1]? = some x ∧ y = w) ∨
      (ws[i + 1]? = none ∧ w.fetch t v (v.ctx.pc + BitVec.ofNat 64 (4 * (i + 1)) + 4) = .word x y)) :
    frameExt w t v ws i = .next (if v.rob = [] then
      takeFault y t 0x01 0 true (ws.getD i 0 ++ x : Dword) (v.ctx.pc + BitVec.ofNat 64 (4 * (i + 1))) else hold y t 4) := by
  unfold frameExt
  dsimp only
  obtain ⟨hc, rfl⟩ | ⟨hc, hf⟩ := hx
  · rw [hc]
  · rw [hc]
    dsimp only
    rw [hf]

end

/-- Settles O12: RPTS counts the words and the replays, and `rpt` begins a frame or faults by the first captured word that is wrong. -/
theorem frameResults : Obligations.FrameResults := by
  refine ⟨fun x hx => ⟨fun h => ?_, fun hp h => ?_, fun hp h => ⟨framed_frameNext_end hp h, frameNext_end hp h⟩⟩, ?_⟩
  · obtain ⟨hpos, hact⟩ := nbits_next_position h
    rw [frameNext_word h]
    exact ⟨rfl, hpos, (framed_iff _).mpr (hact.trans ((framed_iff x).mp hx))⟩
  · obtain ⟨hpos, hrep, hact⟩ := nbits_next_replay h
    rw [frameNext_replay hp h]
    exact ⟨rfl, hpos, hrep, (framed_iff _).mpr (hact.trans ((framed_iff x).mp hx))⟩
  · intro n r d a b s t th q h u v ws w hf
    have hrun := exec_rpt_words h hf
    refine ⟨fun hg hs => ?_, fun i x hi he y hx => ?_, fun x y hx he hy => ?_, fun m y hg hs hm hy => ?_⟩
    · exact ends_captured_good hrun hg hs
    · exact hrun.trans ((captured_ext hi he).trans (frameExt_pair hx))
    · exact hrun.trans ((captured_illegal hx he).trans (raise_live hy _ _ _ _))
    · have hw := findSome?_window (c := capturedCheck v (rptsOf n r d a b)) hm fun z => by
        generalize capturedCheck v (rptsOf n r d a b) z = c
        cases c <;> rfl
      exact hrun.trans ((captured_window hg hs hw).trans (raise_live hy _ _ _ _))

end Sys2Proof.Machine
end

/-! Control registers of the context, read back after a write (R69, R71, R73). -/

section
namespace Sys2Proof.Machine

/-! ### Replaced bits of a word (R2) -/

/-- Replacing `n` bits of a number from `lo` leaves its other bits. -/
theorem testBit_replaceBits (x lo n v j : Nat) :
    (x - field x lo n * 2 ^ lo + v % 2 ^ n * 2 ^ lo).testBit j = if lo ≤ j ∧ j < lo + n then v.testBit (j - lo) else x.testBit j := by
  have hx : x = 2 ^ lo * (2 ^ n * (x / 2 ^ lo / 2 ^ n) + field x lo n) + x % 2 ^ lo := by
    rw [field, Nat.div_add_mod, Nat.div_add_mod]
  have hr : x - field x lo n * 2 ^ lo + v % 2 ^ n * 2 ^ lo = 2 ^ lo * (2 ^ n * (x / 2 ^ lo / 2 ^ n) + v % 2 ^ n) + x % 2 ^ lo := by
    have hsub : x = field x lo n * 2 ^ lo + (2 ^ lo * (2 ^ n * (x / 2 ^ lo / 2 ^ n)) + x % 2 ^ lo) := by
      conv_lhs => rw [hx]
      ring
    rw [Nat.sub_eq_of_eq_add' hsub]
    ring
  have hlo : x % 2 ^ lo < 2 ^ lo := Nat.mod_lt _ (by positivity)
  have hn (k : Nat) : k % 2 ^ n < 2 ^ n := Nat.mod_lt _ (by positivity)
  rw [hr]
  conv_rhs => rw [hx]
  rw [field, Nat.testBit_two_pow_mul_add _ hlo, Nat.testBit_two_pow_mul_add _ hlo, Nat.testBit_two_pow_mul_add _ (hn _),
    Nat.testBit_two_pow_mul_add _ (hn _), Nat.testBit_mod_two_pow]
  by_cases h1 : j < lo
  · rw [if_pos h1, if_neg (by omega), if_pos h1]
  · by_cases h2 : j - lo < n
    · simp [h1, h2, show lo ≤ j ∧ j < lo + n by omega]
    · simp [h1, h2, show ¬ (lo ≤ j ∧ j < lo + n) by omega]

/-- A bit of a word in which `n` bits from `lo` have been replaced. -/
theorem getLsbD_setBits {m : Nat} (w : BitVec m) (lo n v j : Nat) :
    (setBits w lo n v).getLsbD j = (decide (j < m) && if lo ≤ j ∧ j < lo + n then v.testBit (j - lo) else w.getLsbD j) := by
  rw [setBits, BitVec.getLsbD_ofNat, testBit_replaceBits]
  rfl

theorem nbits_all (w : Dword) : nbits w 0 64 = w.toNat := by
  have := w.isLt
  unfold nbits
  omega

theorem setBits_all (w : Dword) (v : Nat) : setBits w 0 64 v = BitVec.ofNat 64 v := by
  have := w.isLt
  apply BitVec.eq_of_toNat_eq
  simp only [setBits, field, BitVec.toNat_ofNat]
  omega

/-! ### The registers that the context holds (R69, R71) -/

/-- The registers that `ctlOwn` names. -/
theorem ctlOwn_iff (n : Nat) : ctlOwn n = true ↔ n ∈ [0x001, 0x008, 0x010, 0x011, 0x012, 0x018, 0x019, 0x01A, 0x01B, 0x020, 0x021,
    0x022, 0x023, 0x024, 0x025, 0x030, 0x032] := by
  simp only [ctlOwn, Bool.or_eq_true, Bool.and_eq_true, beq_iff_eq, decide_eq_true_eq, List.mem_cons, List.not_mem_nil, or_false]
  omega

/-- The control registers of the context, by number (R71). -/
def Ctx.ctls (x : Ctx) : Map Dword :=
  [(0x000, x.pc), (0x001, x.lnk), (0x008, x.argp), (0x010, x.rnd), (0x011, x.flg), (0x012, x.vmsk), (0x018, x.fmta), (0x019, x.fmtb),
   (0x01A, x.scla), (0x01B, x.sclb), (0x020, x.lpc0), (0x021, x.lpe0), (0x022, x.lps0), (0x023, x.lpc1), (0x024, x.lpe1), (0x025, x.lps1),
   (0x026, x.rpts), (0x030, x.msgv), (0x032, x.msgpc), (0x040, x.trapc), (0x041, x.trapv), (0x042, x.trappc)]

theorem Ctx.ctl_eq (x : Ctx) (m : Nat) : x.ctl m = mgetD x.ctls m 0 := by
  unfold Ctx.ctl
  split
  case h_23 => simp_all [Ctx.ctls, mgetD, mget]
  all_goals rfl

/-- A register that `ctlOwn` names has an entry, and a write of it changes that entry alone. -/
theorem Ctx.ctls_setCtl (x : Ctx) {n : Nat} (v : Dword) (h : ctlOwn n = true) :
    (mget x.ctls n).isSome = true ∧ (x.setCtl n v).ctls = mmod x.ctls n fun _ => v := by
  simp only [ctlOwn_iff, List.mem_cons, List.not_mem_nil, or_false] at h
  rcases h with rfl | rfl | rfl | rfl | rfl | rfl | rfl | rfl | rfl | rfl | rfl | rfl | rfl | rfl | rfl | rfl | rfl
  all_goals exact ⟨rfl, rfl⟩

/-- A control register of the context after a write of one of them. -/
theorem Ctx.ctl_setCtl (x : Ctx) {n : Nat} (m : Nat) (v : Dword) (h : ctlOwn n = true) :
    (x.setCtl n v).ctl m = if m = n then v else x.ctl m := by
  obtain ⟨hn, hset⟩ := x.ctls_setCtl v h
  obtain ⟨u, hu⟩ := Option.isSome_iff_exists.mp hn
  rw [Ctx.ctl_eq, Ctx.ctl_eq, hset, mgetD, mget_mmod, hu]
  split <;> rfl

/-- Of the context a write of a control register changes no register, no mask and no arm. -/
theorem Ctx.setCtl_frame (x : Ctx) (n : Nat) (v : Dword) :
    (x.setCtl n v).regs = x.regs ∧ (x.setCtl n v).masks = x.masks ∧ (x.setCtl n v).armed = x.armed := by
  unfold Ctx.setCtl
  split <;> exact ⟨rfl, rfl, rfl⟩

/-- A register whose only field is all of it takes what the kind of write makes of it (R69). -/
theorem ctlNew_whole (kind : Nat) (old v : Dword) :
    ctlNew kind [(0, 64, anyCode)] old v = BitVec.ofNat 64 (ctlOp kind old.toNat v.toNat) := by
  simp only [ctlNew, List.foldl_cons, List.foldl_nil, nbits_all, setBits_all]
  rfl

/-- Settles O19: the register that a write names takes `ctlNew`, and the map of the context's registers has no other entry changed. -/
theorem controlRegistersReadBack : Obligations.ControlRegistersReadBack := by
  intro x n kind v h
  let w := if n = 0x018 ∨ n = 0x019 then fmtNew kind (x.ctl n) v else ctlNew kind (ctlFields n) (x.ctl n) v
  have hctl (m : Nat) : (x.writeCtl n kind v).ctl m = if m = n then w else x.ctl m := x.ctl_setCtl m w h
  obtain ⟨hr, hk, ha⟩ := x.setCtl_frame n w
  refine ⟨fun h18 h19 => ?_, fun m hm => (hctl m).trans (if_neg hm), hr, hk, ha, ?_, ?_⟩
  · exact (hctl n).trans ((if_pos rfl).trans (if_neg (by simp [h18, h19])))
  · exact (ctlNew_whole 1 x.argp v).trans (by simp [ctlOp])
  · exact (ctlNew_whole 2 x.argp v).trans (by apply BitVec.eq_of_toNat_eq; simp [ctlOp, BitVec.toNat_or])

end Sys2Proof.Machine
end

/-! Control registers written (R69, R70, R121), `arm` and `dep` (R63, R64, R133, R134). -/

section
namespace Sys2Proof.Machine

/-! ### ctlw, ctls and ctlc (R69, R70, R121) -/

@[simp] theorem Thread.returnsTo_ctx (th old : Thread) (n : Nat) : (th.returnsTo n old).ctx = th.ctx := by
  unfold Thread.returnsTo
  split <;> rfl

/-- What `ctlw`, `ctls` and `ctlc` ask of the core (R69, R121, R229). -/
def reqCtl (i : Instr) (a : BitVec 7) (n : BitVec 10) : Req :=
  { reqA i a with legal := ctlAssigned n.toNat, level := ctlWrite n.toNat, flow := true, commit := !ctlOwn n.toNat && !ctlReadOnly n.toNat }

section
variable {kind : Nat} {i : Instr} {a : BitVec 7} {n : BitVec 10} {s : State} {t : Nat} {th : Thread}
  (hi : exec i s = ctlWriteBy kind i a n s) (h : MayExecute (reqCtl i a n) s t th)
include hi h

/-- A register of the thread's own context is written (R69). -/
theorem ctlWriteBy_own (ho : ctlOwn n.toNat = true) :
    let v := s.runner t th (reqCtl i a n)
    Completes i s t (advance (v.ctx.writeCtl n.toNat kind (v.S a)) false .seq) := by
  intro v
  have hc := h.completes (y := (v.setCtx fun x => x.writeCtl n.toNat kind (v.S a)).returnsTo n.toNat v) hi (if_pos ho) rfl
  rwa [Thread.returnsTo_ctx] at hc

/-- A register without a write level keeps its value (R69). -/
theorem ctlWriteBy_readOnly (ho : ctlOwn n.toNat = false) (hr : ctlReadOnly n.toNat = true) :
    Completes i s t (advance (s.runner t th (reqCtl i a n)).ctx false .seq) :=
  h.completes hi ((if_neg (by simp [ho])).trans (if_pos hr)) rfl

/-- Any other register is shared, and what it stands for is written (R70). -/
theorem ctlWriteBy_shared (ho : ctlOwn n.toNat = false) (hr : ctlReadOnly n.toNat = false) :
    let v := s.runner t th (reqCtl i a n)
    Ends i s t (advance v.ctx false .seq) (writeShared (s.begun t th (reqCtl i a n)) t v n.toNat kind (v.S a)) :=
  h.ends hi ((if_neg (by simp [ho])).trans (if_neg (by simp [hr]))) rfl

end

/-- Settles O18: the three kinds of write differ in what `ctlNew` makes of a field alone. -/
theorem controlWrites : Obligations.ControlWrites := by
  intro i kind hk a n s t th req h u v
  have hi : exec (i a n) s = ctlWriteBy kind (i a n) a n s := by
    rcases hk with ⟨rfl, rfl⟩ | ⟨rfl, rfl⟩ | ⟨rfl, rfl⟩ <;> rfl
  exact ⟨ctlWriteBy_own hi h, ctlWriteBy_readOnly hi h, ctlWriteBy_shared hi h⟩

/-! ### arm and dep (R63, R64, R133, R134) -/

/-- R63, R133: `arm` of a register that no migration still brings. -/
theorem arm_completes {d : BitVec 7} {s : State} {t : Nat} {th : Thread} (h : MayExecute (reqD (.arm d) d) s t th) :
    let v := s.runner t th (reqD (.arm d) d); v.shadowed d.toNat = false → (v.coming.any fun e => e.1 == d.toNat) = false →
    Completes (.arm d) s t (advance { v.ctx with armed := setBits v.ctx.armed d.toNat 1 1 } false .seq) := by
  intro v hs hc
  exact h.completes (y := v.setCtx fun x => { x with armed := setBits x.armed d.toNat 1 1 }) rfl
    ((if_neg (by simp [v, hs])).trans (if_neg (by simp [v, hc]))) rfl

/-- What `dep` asks of the core (R134). -/
def reqDep (d a b : BitVec 7) : Req := { reqAB (.dep d a b) a b with commit := true, early := [.edge (some a) true] }

/-- What else may hold an instruction decides nothing of whether it may execute. -/
theorem MayExecute.withEarly {q : Req} {s : State} {t : Nat} {th : Thread} (h : MayExecute q s t th) (e : List Early) :
    MayExecute { q with early := e } s t th :=
  ⟨h.turn, h.live, h.legal, h.drift, h.level, h.window, h.free⟩

section
variable {d a b : BitVec 7} {s : State} {t : Nat} {th : Thread} (h : MayExecute (reqDep d a b) s t th)
include h

/-- R379: a deposit waits at the edge of its row. -/
theorem dep_waits : let u := s.begun t th (reqDep d a b); let v := s.runner t th (reqDep d a b);
    neighbours (coreOf t) (nbits (v.S a) 0 9) = true → u.edge (coreOf t) (some (nbits (v.S a) 0 9)) = true → Waits (.dep d a b) s t 5 u := by
  intro u v hn he
  exact h.waits rfl ((if_neg (by simp [v, hn])).trans (if_pos he))

/-- R134: a deposit goes to a neighbour only. -/
theorem dep_faults : let u := s.begun t th (reqDep d a b); let v := s.runner t th (reqDep d a b);
    neighbours (coreOf t) (nbits (v.S a) 0 9) = false → Faults (.dep d a b) s (reqDep d a b) u t v 0x06 (v.S a) := by
  intro u v hn
  exact h.faults rfl (if_pos (by simp [v, hn]))

/-- R64, R134: a deposit is on its way once `dep` has completed. -/
theorem dep_sends : let u := s.begun t th (reqDep d a b); let v := s.runner t th (reqDep d a b);
    neighbours (coreOf t) (nbits (v.S a) 0 9) = true → u.edge (coreOf t) (some (nbits (v.S a) 0 9)) = false →
    ∃ s', exec (.dep d a b) s = .next s' ∧ (s'.thread? t).map Thread.ctx = some (advance v.ctx false .seq) ∧ s'.mem = s.mem ∧
        s'.flight.deposits = u.flight.deposits ++
          [packetFrom u t v (nbits (v.S a) 0 9) (nbits (v.S a) 16 6) d.toNat ((v.S b).setWidth 512)] := by
  intro u v hn he
  obtain ⟨s', hx, hc, hu⟩ := h.ends (i := .dep d a b) (nx := .seq) rfl ((if_neg (by simp [v, hn])).trans (if_neg (by simp [u, v, he]))) rfl
  refine ⟨s', hx, hc, ?_, ?_⟩
  · rw [hu.mem, State.countSent_mem]
    exact (untouched_begun s t th (reqDep d a b)).mem
  · have hf := congrArg Flight.deposits hu.flight
    refine hf.trans ?_
    simp only [Flight.still, State.countSent, State.countFor_flight, State.modLaunch_flight, State.newId_flight, State.modFlight_flight]
    rfl

end

/-- The bit of an armed register is set, or cleared, by itself (R63). -/
theorem getLsbD_setArm (x : Mask) (n m v : Nat) (hm : m < 128) :
    (setBits x n 1 v).getLsbD m = if m = n then v.testBit 0 else x.getLsbD m := by
  rw [getLsbD_setBits, decide_eq_true hm, Bool.true_and]
  by_cases h : m = n
  · rw [if_pos (by omega), if_pos h, h, Nat.sub_self]
  · rw [if_neg (by omega), if_neg h]

/-- A write of a register of the window makes it present (R63). -/
theorem Ctx.armed_setReg (x : Ctx) {n : Nat} (w : Vec) (hn : n < 128) : (x.setReg n w).armed = setBits x.armed n 1 0 := by
  rw [Ctx.setReg, if_neg (by omega)]

/-- Settles O21: an arm lasts until its register is written, and a deposit leaves only across an edge that is not held. -/
theorem depositResults : Obligations.DepositResults := by
  refine ⟨?_, fun x n w => ⟨?_, ?_, fun m hm hne => ?_⟩, ?_⟩
  · exact fun d s t th h => arm_completes h
  · exact (getLsbD_setArm x.armed _ _ _ n.isLt).trans (if_pos rfl)
  · rw [x.armed_setReg w n.isLt]
    exact (getLsbD_setArm x.armed _ _ _ n.isLt).trans (if_pos rfl)
  · rw [x.armed_setReg w n.isLt]
    exact (getLsbD_setArm x.armed _ _ _ hm).trans (if_neg hne)
  · intro d a b s t th q h
    have h' : MayExecute (reqDep d a b) s t th := h.withEarly _
    exact ⟨dep_waits h', dep_sends h', dep_faults h'⟩

end Sys2Proof.Machine
end

/-! Taking a fault (R73, R110, R365, R366, R368, R381). -/

section
namespace Sys2Proof.Machine

/-! ### The thread that has taken a fault, and the cycle that it loses -/

/-- TRAPC (R73). -/
def Thread.trapcOf (th : Thread) (code tcode : Nat) (pair : Bool) : Dword :=
  BitVec.ofNat 64 (code + tcode * 2 ^ 8 + th.pl * 2 ^ 16 + (if pair then 2 ^ 18 else 0) + (if th.attached then 2 ^ 19 else 0))

/-- The thread as a fault leaves it, but for its delivery (R110, R24). -/
def Thread.faulted (th : Thread) (code tcode : Nat) (pair : Bool) (v pc : Dword) : Thread :=
  let th1 := if th.attached then th.detach else th
  { th1 with ctx := { th1.ctx with trapc := th.trapcOf code tcode pair, trapv := v, trappc := pc }, cause := none, reply := false,
             claim := none, expired := none, uresm := false, bar := none }

/-- A thread that takes a fault in its turn loses its cycle (R349). -/
def State.lostTurn (s : State) (t : Nat) (th : Thread) : State :=
  let turn := s.sched.issue && s.sched.cur == t
  let s := if turn then s.wasted t th else s
  { s with sched := { s.sched with issue := s.sched.issue && !turn } }

/-- UPCV of a thread's launch; 0 without one (R415). -/
def State.upcvOf (s : State) (th : Thread) : Dword := match s.launchOf th with | some l => l.upcv | none => 0

theorem upcvOf_ne_zero_iff (s : State) (th : Thread) : s.upcvOf th ≠ 0 ↔ ∃ l, s.launchOf th = some l ∧ l.upcv ≠ 0 := by
  unfold State.upcvOf
  cases s.launchOf th <;> simp

theorem upcvOf_eq_zero_iff (s : State) (th : Thread) : s.upcvOf th = 0 ↔ ∀ l, s.launchOf th = some l → l.upcv = 0 := by
  unfold State.upcvOf
  cases s.launchOf th <;> simp

theorem takeFault_eq {s : State} {t : Nat} {th : Thread} (h : s.thread? t = some th) (code tcode : Nat) (pair : Bool) (v pc : Dword) :
    takeFault s t code tcode pair v pc =
      (let u := s.lostTurn t th
       let y := th.faulted code tcode pair v pc
       let kind := if isUpcall code then 0 else 2
       if th.pl = 2 then fatalError (u.setThread t y) (coreOf t) (slotOf t) code
       else if th.pl = 1 ∨ u.upcvOf th = 0 then
         machineEntry (u.setThread t { y with stopped := true }) (coreOf t) (mcauseOf t th code 0) th.who
       else (u.setThread t { y with upcall := some { kind := kind, code := code, resume := false } }).modSup (coreOf t) th.tenant
         fun x => { x with queue := x.queue ++ [{ slot := slotOf t, kind := kind, code := code }] }) := by
  unfold takeFault
  rw [h]
  rfl

/-- What a core holds besides its counters, its sample and its issue mark is left untouched. -/
theorem Untouched.core {s s' : State} {t : Nat} (h : Untouched s s' t) {β : Type} (p : Core → β) (hp : ∀ x, p x.still = p x) (c : Nat) :
    p (s'.core c) = p (s.core c) := by
  rw [← hp, h.cores, hp]

/-- The cycle that is lost changes counters and the turn alone. -/
theorem untouched_lostTurn (s : State) (t : Nat) (th : Thread) : Untouched s (s.lostTurn t th) t ∧ (s.lostTurn t th).threads = s.threads := by
  have idle (u : State) (b : Bool) : Untouched u { u with sched := { u.sched with issue := b } } t := by constructor <;> intros <;> rfl
  unfold State.lostTurn State.wasted
  dsimp only
  split_ifs
  · exact ⟨((untouched_count s t t th 0x1F 1).trans (untouched_sampled _ t t 15)).trans (idle _ _), by simp⟩
  · exact ⟨(untouched_stall s t _).trans (idle _ _), State.stall_threads s _⟩
  · exact ⟨idle s _, rfl⟩

theorem lostTurn_upcvOf (s : State) (t : Nat) (th : Thread) : (s.lostTurn t th).upcvOf th = s.upcvOf th := by
  unfold State.upcvOf State.launchOf State.launch?
  rw [(untouched_lostTurn s t th).1.work]

/-! ### What TRAPC and MCAUSE hold (R73, R375) -/

theorem trapcOf_fields (th : Thread) {code tcode : Nat} (pair : Bool) (hc : code < 256) (ht : tcode < 256) (hp : th.pl < 2) :
    nbits (th.trapcOf code tcode pair) 0 8 = code ∧ nbits (th.trapcOf code tcode pair) 8 8 = tcode ∧
    nbits (th.trapcOf code tcode pair) 16 2 = th.pl ∧ nbits (th.trapcOf code tcode pair) 18 1 = (if pair then 1 else 0) ∧
    nbits (th.trapcOf code tcode pair) 19 1 = (if th.attached then 1 else 0) := by
  unfold Thread.trapcOf nbits
  rw [BitVec.toNat_ofNat]
  split_ifs <;> omega

theorem mcauseOf_code (t : Nat) (th : Thread) {code : Nat} (bk : Nat) (hc : code < 256) : nbits (mcauseOf t th code bk) 0 8 = code := by
  unfold mcauseOf nbits
  rw [BitVec.toNat_ofNat]
  split_ifs <;> omega

@[simp] theorem Thread.faulted_ctx (th : Thread) (code tcode : Nat) (pair : Bool) (v pc : Dword) :
    (th.faulted code tcode pair v pc).ctx = { th.ctx with trapc := th.trapcOf code tcode pair, trapv := v, trappc := pc } := by
  unfold Thread.faulted
  dsimp only
  split <;> rfl
@[simp] theorem Thread.faulted_stopped (th : Thread) (code tcode : Nat) (pair : Bool) (v pc : Dword) :
    (th.faulted code tcode pair v pc).stopped = th.stopped := by
  unfold Thread.faulted
  dsimp only
  split <;> rfl
@[simp] theorem Thread.faulted_upcall (th : Thread) (code tcode : Nat) (pair : Bool) (v pc : Dword) :
    (th.faulted code tcode pair v pc).upcall = th.upcall := by
  unfold Thread.faulted
  dsimp only
  split <;> rfl

/-- An attached member detaches (R24). -/
theorem Thread.faulted_det (th : Thread) (code tcode : Nat) (pair : Bool) (v pc : Dword) (h : th.attached = true) :
    (th.faulted code tcode pair v pc).det = true := by
  unfold Thread.faulted
  rw [if_pos h]
  rfl

/-! ### The three deliveries (R366, R368, R381) -/

section
variable {s : State} {t : Nat} {th : Thread} (h : s.thread? t = some th) (code tcode : Nat) (pair : Bool) (v pc : Dword)
include h

/-- A fault of a thread whose launch has an upcall vector goes to the supervisor of its tenant (R368). -/
theorem takeFault_upcall (hp : th.pl = 0) (hu : s.upcvOf th ≠ 0) :
    let y := th.faulted code tcode pair v pc
    let kind := if isUpcall code then 0 else 2
    let f := takeFault s t code tcode pair v pc
    f.thread? t = some { y with upcall := some { kind := kind, code := code, resume := false } } ∧
    ∀ u, mget (s.core (coreOf t)).sups th.tenant = some u →
      mget (f.core (coreOf t)).sups th.tenant = some { u with queue := u.queue ++ [{ slot := slotOf t, kind := kind, code := code }] } := by
  intro y kind f
  have hd : ¬ (th.pl = 1 ∨ (s.lostTurn t th).upcvOf th = 0) := by
    rw [lostTurn_upcvOf]
    exact not_or.mpr ⟨by omega, hu⟩
  have he : f = _ := (takeFault_eq h code tcode pair v pc).trans ((if_neg (by omega)).trans (if_neg hd))
  have hs : ((s.lostTurn t th).core (coreOf t)).sups = (s.core (coreOf t)).sups :=
    (untouched_lostTurn s t th).1.core Core.sups (fun _ => rfl) _
  rw [he]
  refine ⟨State.thread?_setThread_self _ t _, fun u hx => ?_⟩
  rw [State.modSup, State.core_modCore_self]
  dsimp only
  rw [mget_mmod, if_pos rfl]
  exact congrArg (Option.map _) ((congrArg (mget · th.tenant) hs).trans hx)

/-- A fault of a supervisor's thread, or of one whose launch has no upcall vector, stops the thread (R366, R368; log 50). -/
theorem takeFault_stops (hp : th.pl ≠ 2) (hd : th.pl = 1 ∨ s.upcvOf th = 0) :
    let f := takeFault s t code tcode pair v pc
    f.thread? t = some { th.faulted code tcode pair v pc with stopped := true } ∧
    (f.core (coreOf t)).mq = (s.core (coreOf t)).mq ++ [(mcauseOf t th code 0, th.who)] := by
  intro f
  have he : f = _ := (takeFault_eq h code tcode pair v pc).trans ((if_neg hp).trans (if_pos (by rwa [lostTurn_upcvOf])))
  have hq : ((s.lostTurn t th).core (coreOf t)).mq = (s.core (coreOf t)).mq :=
    (untouched_lostTurn s t th).1.core Core.mq (fun _ => rfl) _
  rw [he]
  refine ⟨State.thread?_setThread_self _ t _, ?_⟩
  rw [machineEntry, State.core_modCore_self]
  exact congrArg (· ++ _) hq

/-- A fault of the machine slot is fatal (R381). -/
theorem takeFault_fatal (hp : th.pl = 2) :
    (takeFault s t code tcode pair v pc).host.phase = .stopping (coreOf t) (slotOf t) code := by
  rw [takeFault_eq h]
  dsimp only
  rw [if_pos hp]
  rfl

/-- However it is delivered, memory, the tables and the other threads stay as they are. -/
theorem takeFault_frame :
    let f := takeFault s t code tcode pair v pc
    f.mem = s.mem ∧ f.tables = s.tables ∧ ∀ u, u ≠ t → f.thread? u = s.thread? u := by
  obtain ⟨hu, ht⟩ := untouched_lostTurn s t th
  have other (y : Thread) (u : Nat) (hne : u ≠ t) : ((s.lostTurn t th).setThread t y).thread? u = s.thread? u := by
    rw [State.thread?_setThread, if_neg hne, State.thread?_congr ht]
  rw [takeFault_eq h]
  dsimp only
  split_ifs
  · exact ⟨hu.mem, hu.tables, other _⟩
  · exact ⟨hu.mem, hu.tables, other _⟩
  · exact ⟨hu.mem, hu.tables, other _⟩
  · exact ⟨hu.mem, hu.tables, other _⟩

end

/-- Settles O54: the thread is saved in TRAPC, TRAPV and TRAPPC, whichever of the three deliveries follows. -/
theorem faultTaken : Obligations.FaultTaken := by
  intro s t th code tcode pair v pc h hc ht
  obtain ⟨hm, htab, hoth⟩ := takeFault_frame h code tcode pair v pc
  refine ⟨fun hp => ?_, hm, htab, hoth, takeFault_fatal h code tcode pair v pc⟩
  obtain ⟨f0, f1, f2, f3, f4⟩ := trapcOf_fields th pair hc ht hp
  have hdet := th.faulted_det code tcode pair v pc
  have hctx := th.faulted_ctx code tcode pair v pc
  by_cases hd : th.pl = 1 ∨ s.upcvOf th = 0
  · obtain ⟨hy, hq⟩ := takeFault_stops h code tcode pair v pc (by omega) hd
    refine ⟨_, hy, f0, f1, f2, f3, f4, hdet, rfl, rfl, hctx, fun h0 hl => ?_, fun _ => ⟨rfl, by simp, _, hq, mcauseOf_code t th 0 hc⟩⟩
    exact absurd hd (not_or.mpr ⟨by omega, (upcvOf_ne_zero_iff s th).mpr hl⟩)
  · obtain ⟨h1, hv⟩ := not_or.mp hd
    obtain ⟨hy, hq⟩ := takeFault_upcall h code tcode pair v pc (by omega) hv
    refine ⟨_, hy, f0, f1, f2, f3, f4, hdet, rfl, rfl, hctx, fun _ _ => ⟨rfl, by simp, hq⟩, fun hs => ?_⟩
    exact absurd (hs.imp_right (upcvOf_eq_zero_iff s th).mpr) hd

end Sys2Proof.Machine
end

/-! Registers written from outside, state-change logs and the proofing engine (R72, R121, R353 to R358, R369, R392). -/

section
namespace Sys2Proof.Machine

/-! ### Changes of one core, one die, one thread -/

theorem onlyCore_modCore (s : State) (c : Nat) (f : Core → Core) : OnlyCore s (s.modCore c f) c :=
  ⟨rfl, fun d hd => by rw [State.core_modCore, if_neg hd]⟩

theorem onlyDie_modDie (s : State) (d : Nat) (f : Die → Die) : OnlyDie s (s.modDie d f) d :=
  ⟨rfl, fun e he => by rw [State.die_modDie, if_neg he]⟩

theorem onlyThread_modThread (s : State) (t : Nat) (f : Thread → Thread) : OnlyThread s (s.modThread t f) t := by
  refine ⟨?_, fun u hu => by rw [State.thread?_modThread, if_neg hu]⟩
  unfold State.modThread
  split <;> rfl

@[simp] theorem State.core_modDie (s : State) (d : Nat) (f : Die → Die) (c : Nat) : (s.modDie d f).core c = s.core c := rfl
@[simp] theorem State.die_modCore (s : State) (c : Nat) (f : Core → Core) (d : Nat) : (s.modCore c f).die d = s.die d := rfl
@[simp] theorem State.die_modDie_self (s : State) (d : Nat) (f : Die → Die) : (s.modDie d f).die d = f (s.die d) := by
  rw [State.die_modDie, if_pos rfl]

/-- A map whose entries of some keys have been changed. -/
theorem mget_mapKeys {α : Type} (m : Map α) (p : Nat → Prop) [DecidablePred p] (f : α → α) (k : Nat) :
    mget (m.map fun e => if p e.1 then (e.1, f e.2) else e) k = (mget m k).map fun x => if p k then f x else x := by
  induction m with
  | nil => rfl
  | cons e rest ih =>
    obtain ⟨j, u⟩ := e
    rw [List.map_cons]
    by_cases hk : k = j
    · subst hk
      by_cases hp : p k <;> simp [mget, hp]
    · by_cases hp : p j <;> simp [mget, hk, hp, ih]

/-! ### Registers (R72, R121, R353, R354, R369, R392) -/

/-- R392: CORECLK. -/
theorem coreclkWrite_sets (s : State) {c : Nat} (v : Dword) (hc : c < 512) :
    ∃ s', exec (.coreclkWrite c v) s = .next s' ∧ OnlyCore s s' c ∧
      s'.core c = { s.core c with clkNext := some (ctlNew 1 (ctlFields 0x320) ((s.core c).clkNext.getD (s.core c).coreclk) v) } :=
  ⟨_, congrArg Host.Outcome.next (if_pos (decide_eq_true hc)), onlyCore_modCore _ _ _, State.core_modCore_self _ _ _⟩

/-- R354: WDOG; 0 stops every timer of the core. -/
theorem wdogWrite_sets (s : State) {c : Nat} (v : Dword) (hc : c < 512) :
    let n := (ctlNew 1 (ctlFields 0x330) (BitVec.ofNat 64 (s.core c).wdog) v).toNat
    ∃ s', exec (.wdogWrite c v) s = .next s' ∧ s' = { s with cores := s'.cores, threads := s'.threads } ∧
      (∀ d, d ≠ c → s'.core d = s.core d) ∧ s'.core c = { s.core c with wdog := n } ∧ (n ≠ 0 → s'.threads = s.threads) ∧
      (n = 0 → ∀ t, mget s'.threads t = (mget s.threads t).map fun x => if coreOf t = c then { x with wdog := 0 } else x) := by
  intro n
  let u := s.modCore c fun x => { x with wdog := (ctlNew 1 (ctlFields 0x330) (BitVec.ofNat 64 x.wdog) v).toNat }
  have hx : exec (.wdogWrite c v) s = .next (writeWdog s c 1 v) := congrArg Host.Outcome.next (if_pos (decide_eq_true hc))
  have hu : u.core c = { s.core c with wdog := n } := State.core_modCore_self _ _ _
  have hn : (u.core c).wdog = n := congrArg Core.wdog hu
  obtain ⟨-, ho⟩ : OnlyCore s u c := onlyCore_modCore _ _ _
  by_cases h0 : n = 0
  · have hw : writeWdog s c 1 v = _ := if_neg (not_not.mpr (hn.trans h0))
    rw [hx, hw]
    exact ⟨_, rfl, rfl, ho, hu, fun h => absurd h0 h, fun _ t =>
      mget_mapKeys s.threads (fun k => coreOf k = c) (fun x => { x with wdog := 0 }) t⟩
  · have hw : writeWdog s c 1 v = u := if_pos (hn.trans_ne h0)
    rw [hx, hw]
    exact ⟨_, rfl, rfl, ho, hu, fun _ => rfl, fun h => absurd h h0⟩

/-- R72: EVSEL. -/
theorem evselWrite_sets {s : State} {t n : Nat} (v : Dword) {th : Thread} (h : s.thread? t = some th) (hn : n < 8)
    (hf : ∀ e, mget (s.core (coreOf t)).evs n = some e → e.owner = none ∨ e.owner = some th.launch) :
    ∃ s' e, exec (.evselWrite t n v) s = .next s' ∧ OnlyCore s s' (coreOf t) ∧ mget (s'.core (coreOf t)).evs n = some e ∧
      e.owner = some th.launch ∧ e.who = th.who ∧ e.tenant = th.tenant ∧
      e.sel = ctlNew 1 (ctlFields 0x108) ((mget (s.core (coreOf t)).evs n).elim 0 Ev.sel) v ∧
      e.cnt = (mget (s.core (coreOf t)).evs n).elim 0 Ev.cnt := by
  let e0 := mgetD (s.core (coreOf t)).evs n Ev.free
  have hx : exec (.evselWrite t n v) s = .next (writeEvsel s t th n 1 v) := by
    change execEvselWrite t n v s = _
    rw [execEvselWrite, h]
    exact congrArg Host.Outcome.next (if_pos hn)
  have hfree : (e0.owner.isNone || e0.owner == some th.launch) = true := by
    cases he : mget (s.core (coreOf t)).evs n with
    | none => simp [e0, mgetD, he, Ev.free]
    | some e => rcases hf e he with h1 | h1 <;> simp [e0, mgetD, he, h1]
  refine ⟨_, { e0 with owner := some th.launch, who := th.who, tenant := th.tenant, sel := ctlNew 1 (ctlFields 0x108) e0.sel v }, hx,
    onlyCore_modCore _ _ _, ?_, rfl, rfl, rfl, ?_, ?_⟩
  · rw [writeEvsel, State.core_modCore_self]
    dsimp only
    rw [if_pos hfree]
    exact mget_mput_self _ _ _
  · dsimp only [e0, mgetD]
    cases mget (s.core (coreOf t)).evs n <;> rfl
  · dsimp only [e0, mgetD]
    cases mget (s.core (coreOf t)).evs n <;> rfl

/-- R121: LPC. -/
theorem lpcWrite_sets {s : State} {t : Nat} (lvl : Bool) (v : Dword) {th : Thread} (h : s.thread? t = some th) :
    ∃ s', exec (.lpcWrite t lvl v) s = .next s' ∧ OnlyThread s s' t ∧
      s'.thread? t = some { th with ctx := th.ctx.writeCtl (if lvl then 0x023 else 0x020) 1 v } :=
  ⟨_, rfl, onlyThread_modThread _ _ _, by rw [State.thread?_modThread, if_pos rfl, h]; rfl⟩

/-- URESM resumes a user thread that is in an upcall (R368, R369). -/
theorem resumeUpcall_upcall {s : State} {c n : Nat} {x : Thread} {u : Sup} {w : Upcall} (hu : mget (s.core c).sups n = some u)
    (hx : s.thread? (c * 64 + u.utsel) = some x) (hw : x.upcall = some w) (ht : x.tenant = n) (h0 : x.pl = 0) (hr : w.resume = false) :
    resumeUpcall s c n =
      (s.setThread (c * 64 + u.utsel) { x with upcall := some { w with resume := true }, uresm := true }).modSup c n fun u =>
        { u with queue := u.queue.filter (fun e => e.kind == 1 || e.slot != u.utsel),
                 resumed := if u.resumed.contains u.utsel then u.resumed else u.resumed ++ [u.utsel] } := by
  unfold resumeUpcall
  rw [hu]
  dsimp only
  rw [hx]
  dsimp only
  rw [hw]
  exact if_pos ⟨ht, h0, by simp [hr]⟩

/-- R369: URESM. -/
theorem uresmWrite_resumes {s : State} {t : Nat} {th x : Thread} {u : Sup} {w : Upcall} (h : s.thread? t = some th) (hp : th.pl = 1)
    (hu : mget (s.core (coreOf t)).sups th.tenant = some u) (hx : s.thread? (coreOf t * 64 + u.utsel) = some x)
    (ht : x.tenant = th.tenant) (h0 : x.pl = 0) (hw : x.upcall = some w) (hr : w.resume = false) :
    ∃ s' y, exec (.uresmWrite t) s = .next s' ∧ s' = { s with threads := s'.threads, cores := s'.cores } ∧
      s'.thread? (coreOf t * 64 + u.utsel) = some { x with upcall := some { w with resume := true }, uresm := true } ∧
      mget (s'.core (coreOf t)).sups th.tenant = some y ∧ u.utsel ∈ y.resumed ∧
      y.queue = u.queue.filter (fun e => e.kind == 1 || e.slot != u.utsel) := by
  have he : exec (.uresmWrite t) s = .next (resumeUpcall s (coreOf t) th.tenant) := by
    change execUresmWrite t s = _
    rw [execUresmWrite, h]
    exact congrArg Host.Outcome.next (if_pos hp)
  rw [he, resumeUpcall_upcall hu hx hw ht h0 hr]
  refine ⟨_, { u with queue := u.queue.filter (fun e => e.kind == 1 || e.slot != u.utsel),
                      resumed := if u.resumed.contains u.utsel then u.resumed else u.resumed ++ [u.utsel] }, rfl, rfl,
    State.thread?_setThread_self _ _ _, ?_, ?_, rfl⟩
  · rw [State.modSup, State.core_modCore_self]
    dsimp only
    rw [mget_mmod, if_pos rfl]
    exact congrArg (Option.map _) hu
  · dsimp only
    split_ifs with hc
    · exact List.contains_iff_mem.mp hc
    · simp

/-- R353: a die event counter. -/
theorem dieEventCounterWrite_sets (s : State) {d n : Nat} (sel : BitVec 16) (v : Dword) (hd : d < 4) (hn : n < 16) :
    ∃ s', exec (.dieEventCounterWrite d n sel v) s = .next s' ∧ OnlyDie s s' d ∧
      mget (s'.die d).devs n = some (devSel (mgetD (s.die d).devs n (0, 0)).1 sel, v) := by
  refine ⟨_, if_neg (by simp [dieOk, hd, hn]), onlyDie_modDie _ _ _, ?_⟩
  rw [State.die_modDie_self]
  exact mget_mput_self _ _ _

/-! ### The proofing engine (R357, R358) -/

/-- R357, R358: the settings of every die. -/
theorem proofingSettings_sets {s : State} {n k : Nat} (hm : s.managed = true) (h1 : 10 ≤ n) (h2 : n ≤ 24) (h3 : 2 ≤ k) (h4 : k ≤ 16) :
    ∃ s', exec (.proofingSettings n k) s = .next s' ∧ s' = { s with dies := s'.dies } ∧
      ∀ d < 4, s'.die d = { s.die d with sampleExp := n, shift := k } := by
  have hr : List.range 4 = [0, 1, 2, 3] := rfl
  refine ⟨_, if_neg (by simp [hm]; omega), rfl, fun d hd => ?_⟩
  rw [hr]
  simp only [List.foldl_cons, List.foldl_nil, State.die_modDie]
  interval_cases d <;> rfl

/-- R358: the host reads what the engine of a die holds, and clears it. -/
theorem proofingClear_whole {s : State} {d : Nat} (hd : d < 4) (hm : s.managed = true) (he : s.egress s.manager = true) :
    ∃ s', exec (.proofingClear d none) s = .next s' ∧ s'.host.posted = s.host.posted ++
        [.proofing d none (s.die d).bins (s.die d).others (s.die d).totals (s.die d).dropped (s.die d).changesDropped] ∧
      s'.die d = { s.die d with bins := [], others := [], totals := [], dropped := 0, changesDropped := 0 } := by
  refine ⟨_, if_neg (by simp [dieOk, hd, hm]), ?_, ?_⟩
  · simp [State.post, he]
  · simp

/-! ### State-change logs and samples (R355 to R358) -/

theorem logPass_eq {s : State} {c st : Nat} (h : (s.core c).passDue = some st) :
    s.logPass c = if ((s.core c).endPass st).2
      then (s.modCore c fun _ => ((s.core c).endPass st).1).modDie (dieOf c) fun d => { d with changesDropped := d.changesDropped + 1 }
      else s.modCore c fun _ => ((s.core c).endPass st).1 := by
  unfold State.logPass
  rw [h]

/-- R355: a pass that has ended. -/
theorem stateChangePass_logs {s : State} {c st : Nat} (h : (s.core c).passDue = some st) :
    ∃ s', exec (.stateChangePass c) s = .next s' ∧ s'.core c = ((s.core c).endPass st).1 ∧ s'.threads = s.threads ∧ s'.mem = s.mem ∧
      (s'.die (dieOf c)).changesDropped = (s.die (dieOf c)).changesDropped + (if ((s.core c).endPass st).2 then 1 else 0) := by
  refine ⟨_, congrArg Host.Outcome.next (logPass_eq h), ?_⟩
  split_ifs <;> simp

/-- R356: the proofing engine reads a core's log. -/
theorem logDrain_reads {s : State} {c : Nat} (hc : c < 512) (h : (s.core c).slogR < (s.core c).slogW) :
    ∃ s', exec (.logDrain c) s = .next s' ∧ s'.core c = { s.core c with slogR := (s.core c).slogW } ∧
      s'.die (dieOf c) = (s.core c).unread.foldl (fun d e => d.readEntry c e) (s.die (dieOf c)) := by
  have hne : ¬ (s.core c).unread.isEmpty = true := by
    simp [Core.unread]
    omega
  refine ⟨_, (if_neg (by simp [coreOk, hc])).trans (if_neg hne), by simp, by simp⟩

theorem fileSample_eq {s : State} {c : Nat} {x : Sample} (h : (s.core c).sampleDue = some x) :
    s.fileSample c = (s.modCore c fun y => { y with sampleDue := none }).modDie (dieOf c) fun d => d.file x := by
  unfold State.fileSample
  rw [h]

/-- R357: a sample is filed once its cycle is over. -/
theorem proofingSample_files {s : State} {c : Nat} {x : Sample} (h : (s.core c).sampleDue = some x)
    (ho : (s.sched.issue && coreOf s.sched.cur == c) = false) :
    ∃ s', exec (.proofingSample c) s = .next s' ∧ s'.core c = { s.core c with sampleDue := none } ∧
      s'.die (dieOf c) = (s.die (dieOf c)).file x := by
  exact ⟨_, (if_neg (by simp [ho])).trans (congrArg Host.Outcome.next (fileSample_eq h)), by simp, by simp⟩

/-- What an entry of the log holds (R355). -/
theorem logEntry_fields (delta : Nat) {st : Nat} (lost keep : Bool) (h : st < 4) :
    nbits (logEntry delta st lost keep) 16 16 = Nat.min delta 65535 ∧ nbits (logEntry delta st lost keep) 14 2 = st := by
  have hm : Nat.min delta 65535 ≤ 65535 := Nat.min_le_right _ _
  unfold logEntry nbits
  rw [BitVec.toNat_ofNat]
  generalize Nat.min delta 65535 = n at hm
  split_ifs <;> omega

/-- A change enters the log while the ring has room (R355). -/
theorem endPass_change {x : Core} {st : Nat} (h4 : st < 4) (hs : st ≠ x.sstate) (hr : x.slogW < x.slogR + 512) :
    ∃ w, (x.endPass st).1.slog = mput x.slog (x.slogW % 512) w ∧ (x.endPass st).1.slogW = x.slogW + 1 ∧
      nbits w 16 16 = Nat.min (x.delta + 1) 65535 ∧ nbits w 14 2 = st ∧ (x.endPass st).1.delta = 0 ∧ (x.endPass st).2 = false := by
  obtain ⟨hd, ht⟩ := logEntry_fields (x.delta + 1) x.lostEntry (!(st != x.sstate)) h4
  have he : x.endPass st = _ := (if_neg (by simp [hs])).trans (if_pos (show x.slogW - x.slogR < 512 by omega))
  rw [he]
  exact ⟨_, rfl, rfl, hd, ht, rfl, rfl⟩

/-- A pass without a change is counted (R355). -/
theorem endPass_same {x : Core} {st : Nat} (hs : st = x.sstate) (hn : x.delta + 1 < 65535) :
    (x.endPass st).1.slog = x.slog ∧ (x.endPass st).1.slogW = x.slogW ∧ (x.endPass st).1.delta = x.delta + 1 := by
  have he : x.endPass st = _ := if_pos (by simp [hs, hn])
  rw [he]
  exact ⟨rfl, rfl, rfl⟩

/-- A change that finds the ring full is dropped (R356). -/
theorem endPass_full {x : Core} {st : Nat} (hs : st ≠ x.sstate) (hr : x.slogR + 512 ≤ x.slogW) :
    (x.endPass st).1.slog = x.slog ∧ (x.endPass st).1.slogW = x.slogW ∧ (x.endPass st).1.lostEntry = true ∧ (x.endPass st).2 = true := by
  have he : x.endPass st = _ := (if_neg (by simp [hs])).trans (if_neg (show ¬ x.slogW - x.slogR < 512 by omega))
  rw [he]
  exact ⟨rfl, rfl, by simp [hs], by simp [hs]⟩

/-- Settles O45: each write and each log event sets what its register, die or ring says, and nothing else. -/
theorem registerEvents : Obligations.RegisterEvents := by
  refine ⟨?_, ?_, ?_, ?_, ?_, ?_, ?_, ?_, ?_, ?_, ?_, fun x st h4 => ⟨endPass_change h4, endPass_same, endPass_full⟩⟩
  · exact fun s c v hc => coreclkWrite_sets s v hc
  · exact fun s c v hc => wdogWrite_sets s v hc
  · exact fun s t n v th h hn hf => evselWrite_sets v h hn hf
  · exact fun s t lvl v th h => lpcWrite_sets lvl v h
  · exact fun s t th u x w h hp hu hx ht h0 hw hr => uresmWrite_resumes h hp hu hx ht h0 hw hr
  · exact fun s d n sel v hd hn => dieEventCounterWrite_sets s sel v hd hn
  · exact fun s n k hm h1 h2 h3 h4 => proofingSettings_sets hm h1 h2 h3 h4
  · exact fun s d hd hm he => proofingClear_whole hd hm he
  · exact fun s c st h => stateChangePass_logs h
  · exact fun s c hc h => logDrain_reads hc h
  · exact fun s c x h ho => proofingSample_files h ho

end Sys2Proof.Machine
end

/-! Writes of hardware to a tenant's memory: what they leave alone (R162, R166, R177, R368, R388). -/

section
namespace Sys2Proof.Machine

/-- The threads, the deposits on their way and every core's migrants stay as they are. -/
structure SameArrivals (s s' : State) : Prop where
  threads : s'.threads = s.threads
  deposits : s'.flight.deposits = s.flight.deposits
  migrants : ∀ c, (s'.core c).migrants = (s.core c).migrants

theorem SameArrivals.refl (s : State) : SameArrivals s s := ⟨rfl, rfl, fun _ => rfl⟩

theorem SameArrivals.trans {a b c : State} (h : SameArrivals a b) (k : SameArrivals b c) : SameArrivals a c :=
  ⟨k.threads.trans h.threads, k.deposits.trans h.deposits, fun d => (k.migrants d).trans (h.migrants d)⟩

theorem sameArrivals_ite {s a b : State} {p : Prop} [Decidable p] (ha : SameArrivals s a) (hb : SameArrivals s b) :
    SameArrivals s (if p then a else b) := by
  split
  · exact ha
  · exact hb

theorem sameArrivals_modDie (s : State) (d : Nat) (f : Die → Die) : SameArrivals s (s.modDie d f) := ⟨rfl, rfl, fun _ => rfl⟩
theorem sameArrivals_newId (s : State) : SameArrivals s s.newId := ⟨rfl, rfl, fun _ => rfl⟩
theorem sameArrivals_setBlk (s : State) (a : Nat) (e : BitVec 128) : SameArrivals s (s.setBlk a e) := ⟨rfl, rfl, fun _ => rfl⟩

theorem sameArrivals_mend (s : State) (line : Nat) (offs : List Nat) : SameArrivals s (s.mend line offs) :=
  sameArrivals_ite ⟨rfl, rfl, fun _ => rfl⟩ (SameArrivals.refl s)

/-! ### Writes at their home (R162, R166) -/

theorem sameArrivals_dirtyLine (s : State) (line : Nat) : SameArrivals s (s.dirtyLine line) := by
  unfold State.dirtyLine
  split
  · exact sameArrivals_ite (SameArrivals.refl s) ⟨rfl, rfl, fun _ => rfl⟩
  · exact SameArrivals.refl s

theorem sameArrivals_homeWrite (s : State) (key : Nat) (ws : List (Nat × Byte)) : SameArrivals s (s.homeWrite key ws) := by
  cases ws with
  | nil => exact SameArrivals.refl s
  | cons w rest =>
    have hd := sameArrivals_dirtyLine s (w.1 / 64)
    unfold State.homeWrite
    refine SameArrivals.trans ?_ (sameArrivals_mend _ _ _)
    exact ⟨hd.threads, hd.deposits, hd.migrants⟩

theorem sameArrivals_performWrite (s : State) (tid d key : Nat) (ws : List (Nat × Byte)) :
    SameArrivals s (s.performWrite tid d key ws) := by
  cases ws with
  | nil => exact SameArrivals.refl s
  | cons w ws =>
    have hw : SameArrivals s (s.written d key w.1 (w :: ws)) :=
      (sameArrivals_homeWrite s key _).trans ((sameArrivals_mend _ _ _).trans (sameArrivals_modDie _ _ _))
    rw [performWrite_cons]
    generalize s.written d key w.1 (w :: ws) = u at hw
    exact hw.trans (sameArrivals_ite (SameArrivals.refl u) ⟨rfl, rfl, fun _ => rfl⟩)

theorem mget_mapValues {α β : Type} (m : Map α) (f : α → β) (k : Nat) : mget (m.map fun e => (e.1, f e.2)) k = (mget m k).map f := by
  induction m with
  | nil => rfl
  | cons e rest ih =>
    by_cases hk : k = e.1
    · simp [mget, hk]
    · simp [mget, hk, ih]

/-- A core without the copies of `n` lines from `lo`. -/
def Core.purged (lo n : Nat) (x : Core) : Core :=
  { x with l1d := x.l1d.filter fun e => e.1 / 1024 < lo || lo + n ≤ e.1 / 1024,
           l1i := x.l1i.filter fun e => e.1 / 1024 < lo || lo + n ≤ e.1 / 1024 }

theorem State.purge_core (s : State) (lo n c : Nat) : (s.purge lo n).core c = (s.core c).purged lo n := by
  have hm : mget (s.purge lo n).cores c = (mget s.cores c).map (Core.purged lo n) := mget_mapValues s.cores (Core.purged lo n) c
  unfold State.core mgetD
  rw [hm]
  cases mget s.cores c <;> rfl

theorem sameArrivals_purge (s : State) (lo n : Nat) : SameArrivals s (s.purge lo n) :=
  ⟨rfl, rfl, fun c => by rw [s.purge_core]; rfl⟩

theorem sameArrivals_zeroNow (s : State) (line : Nat) : SameArrivals s (s.zeroNow line) := by
  unfold State.zeroNow
  split
  · exact SameArrivals.refl s
  · refine SameArrivals.trans ?_ ((sameArrivals_homeWrite _ _ _).trans (sameArrivals_purge _ _ _))
    exact ⟨rfl, rfl, fun _ => rfl⟩

/-! ### Writes through a translation (R177, R178, R388) -/

theorem sameArrivals_writeBytes (s : State) (d key pa va : Nat) (bs : List Byte) : SameArrivals s (s.writeBytes d key pa va bs) := by
  unfold State.writeBytes
  split
  · exact ⟨rfl, rfl, fun _ => rfl⟩
  · exact sameArrivals_performWrite _ _ _ _ _

theorem blockWrite_held {s y : State} {d a va tenant w : Nat} (h : s.blockWrite d a va tenant w = .held y) : SameArrivals s y := by
  have join (d : Nat) : SameArrivals s (s.joinWaiters d a w) := sameArrivals_modDie _ _ _
  unfold State.blockWrite at h
  dsimp only at h
  split_ifs at h
  · split at h
    · exact BlockWrite.held.inj h ▸ join _
    · exact BlockWrite.held.inj h ▸ SameArrivals.refl s
  · split at h
    · exact BlockWrite.held.inj h ▸ join _
    · cases h
  · split at h
    · exact BlockWrite.held.inj h ▸ join _
    · exact BlockWrite.held.inj h ▸ (sameArrivals_newId s).trans (sameArrivals_modDie _ _ _)

theorem hwHeld_some {s y : State} {tenant va : Nat} (h : s.hwHeld tenant va = some y) : SameArrivals s y := by
  unfold State.hwHeld at h
  split at h
  · split at h
    · cases h
    · next hb => exact Option.some.inj h ▸ blockWrite_held hb
    · exact Option.some.inj h ▸ SameArrivals.refl s
  · cases h

/-- Whatever becomes of a write of hardware, it changes no thread, no deposit and no migrant. -/
theorem sameArrivals_hwWrite (s : State) (tenant va : Nat) (bs : List Byte) : SameArrivals s ((s.hwWrite tenant va bs).orElse s) := by
  unfold State.hwWrite
  split
  · next h => exact hwHeld_some h
  · split
    · change SameArrivals s (State.writeBytes (if _ then _ else State.zeroNow _ _) _ _ _ _ _)
      refine SameArrivals.trans ?_ ((sameArrivals_ite (SameArrivals.refl _) (sameArrivals_zeroNow _ _)).trans (sameArrivals_writeBytes _ _ _ _ _ _))
      split
      · exact sameArrivals_setBlk _ _ _
      · exact SameArrivals.refl s
    · exact SameArrivals.refl s

/-! ### Save records (R64, R76, R77, R373) -/

theorem sameArrivals_writePresence (s : State) (th : Thread) : SameArrivals s (s.writePresence th) :=
  sameArrivals_ite (SameArrivals.refl s) (sameArrivals_hwWrite _ _ _ _)

theorem sameArrivals_intoRecord (s : State) (th : Thread) (n : Nat) : SameArrivals s (s.intoRecord th n) :=
  sameArrivals_ite ((sameArrivals_hwWrite _ _ _ _).trans (sameArrivals_writePresence _ _)) (SameArrivals.refl s)

end Sys2Proof.Machine
end

/-! Messages, handlers, deposits, decrements and migrants as they arrive (R64, R111, R190, R266, R268 to R272, R296, R301, R304). -/

section
namespace Sys2Proof.Machine

/-! ### Where a packet goes depends on the threads, live and pre-empted (R64, R269) -/

section
variable {s s' : State} (ht : s'.threads = s.threads) (hs : s'.saved = s.saved) (p : Packet)
include ht hs

theorem State.target_congr : s'.target p = s.target p := by
  unfold State.target
  rw [ht, hs]

theorem State.mailHome_congr (th : Thread) : s'.mailHome th = s.mailHome th := by
  unfold State.mailHome
  rw [State.thread?_congr ht, hs]

theorem State.mailTarget_congr : s'.mailTarget p = s.mailTarget p := by
  unfold State.mailTarget
  rw [State.target_congr ht hs]
  simp only [State.mailHome_congr ht hs]

end

/-- The mailbox of a thread at home is its own. -/
theorem mailTarget_home {s : State} {p : Packet} {t : Nat} {th : Thread} (h : s.target p = .live t th) (hg : th.guest = false) :
    s.mailTarget p = .live t th := by
  unfold State.mailTarget
  rw [h]
  exact if_neg (by simp [hg])

@[simp] theorem State.countRecvd_saved (s : State) (c w l n : Nat) : (s.countRecvd c w l n).saved = s.saved := by simp [State.countRecvd]

/-- Receipts are counted in the launch, and in the cores' counters. -/
theorem countRecvd_core (s : State) (c w l n : Nat) {β : Type} (p : Core → β) (hp : ∀ x, p x.still = p x) (d : Nat) :
    p ((s.countRecvd c w l n).core d) = p (s.core d) :=
  (untouched_countFor (s.modLaunch l fun x => { x with recvd := mupd x.recvd c 0 (· + n) }) 0 c w l _ 0x31 n).core p hp d

/-! ### Mailboxes (R268, R269) -/

theorem kept_mendLines (s : State) (lo n : Nat) : Kept s (s.mendLines lo n) :=
  kept_ite (Kept.refl s) ⟨rfl, rfl, rfl, rfl, rfl, rfl, rfl, rfl, rfl⟩

/-- A payload for a live thread changes that thread, and which lines hold errors. -/
theorem deliverTo_live (s : State) (t : Nat) (th : Thread) (kind k c sl : Nat) (v : Vec) :
    Kept (s.setThread t (th.deliver kind k c sl v)) (s.deliverTo (.live t th) kind k c sl v) :=
  kept_ite (kept_mendLines _ _ _) (Kept.refl _)

/-- A message has left the network, and counts as received (R28, R269). -/
def State.gotMessage (s : State) (i : Nat) (p : Packet) : State :=
  (s.modFlight fun f => { f with msgs := f.msgs.filter fun y => y.id != i }).countRecvd p.core (s.mailTarget p).who p.launch 1

section
variable {s : State} {i : Nat} {p : Packet} (hp : s.flight.msgs.find? (fun p => p.id == i) = some p)
  (ho : overtakes s.flight.msgs p (s.sameMail p) = false)
include hp ho

theorem exec_messageArrival :
    exec (.messageArrival i) s = .next ((s.gotMessage i p).deliverTo (s.mailTarget p) 0 p.k p.srcCore p.srcSlot p.payload) := by
  have hm : (s.gotMessage i p).mailTarget p = s.mailTarget p := State.mailTarget_congr (by simp [State.gotMessage]) (by simp [State.gotMessage]) p
  rw [← hm]
  change execMessageArrival i s = _
  rw [execMessageArrival, hp]
  exact if_neg (by simp [ho])

/-- R269: a message for a live thread. -/
theorem messageArrival_live {t : Nat} {th : Thread} (hx : s.mailTarget p = .live t th) :
    ∃ s', exec (.messageArrival i) s = .next s' ∧ s'.thread? t = some (th.deliver 0 p.k p.srcCore p.srcSlot p.payload) ∧ s'.mem = s.mem ∧
      s'.saved = s.saved ∧ s'.flight.msgs = s.flight.msgs.filter fun y => y.id != i := by
  have hk := deliverTo_live (s.gotMessage i p) t th 0 p.k p.srcCore p.srcSlot p.payload
  refine ⟨_, exec_messageArrival hp ho, ?_⟩
  rw [hx, hk.thread?, hk.mem, hk.saved, hk.flight]
  simp [State.gotMessage]

/-- R269: a message for nobody. -/
theorem messageArrival_nobody (hx : s.mailTarget p = .nobody) :
    ∃ s', exec (.messageArrival i) s = .next s' ∧ s'.threads = s.threads ∧ s'.saved = s.saved ∧
      s'.flight.msgs = s.flight.msgs.filter fun y => y.id != i := by
  refine ⟨_, exec_messageArrival hp ho, ?_⟩
  rw [hx]
  simp [State.gotMessage, State.deliverTo, State.atTarget]

end

/-- R269: an arrival at a mailbox with room. -/
theorem Thread.deliver_room (th : Thread) (kind k c sl : Nat) (v : Vec) (h : th.mailbox.length < 8) :
    th.deliver kind k c sl v =
      { th with seq := (th.seq + 1) % 65536, mailbox := th.mailbox ++ [{ header := headerOf kind k c sl ((th.seq + 1) % 65536), payload := v }] } :=
  if_pos h

/-- R269: an arrival at a full mailbox. -/
theorem Thread.deliver_full (th : Thread) (kind k c sl : Nat) (v : Vec) (h : 8 ≤ th.mailbox.length) :
    (th.deliver kind k c sl v).mailbox = th.mailbox ∧
      (th.overflow = none → (th.deliver kind k c sl v).overflow = some (headerOf kind k c sl ((th.seq + 1) % 65536))) := by
  unfold Thread.deliver
  dsimp only
  rw [if_neg (by omega)]
  cases th.overflow <;> simp

/-- R269: the fault of an overflow. -/
theorem mailboxOverflow_faults {s : State} {t : Nat} {th : Thread} {h : Dword} (ht : s.thread? t = some th) (hv : th.overflow = some h)
    (hb : s.atBoundary t th = true) :
    exec (.mailboxOverflow t) s = .next (takeFault (s.setThread t { th with overflow := none }) t 0x0F 0 false h th.ctx.pc) := by
  change execMailboxOverflow t s = _
  unfold execMailboxOverflow
  rw [ht]
  dsimp only
  rw [hv]
  exact if_pos hb

/-! ### Handlers (R169, R270) -/

/-- The context in which a handler starts (R270). -/
theorem enter_ctx (th : Thread) (m : Msg) (rest : List Msg) :
    let y := th.enter m rest
    y.mailbox = rest ∧ y.ctx.hnd = true ∧ y.ctx.pc = th.ctx.msgv + BitVec.ofNat 64 (64 * nbits m.header 48 4) ∧
      y.ctx.msgpc = (if th.wait = .wfm then (advance th.ctx false .seq).pc else th.ctx.pc) ∧ y.ctx.reg 128 = m.payload ∧
      y.ctx.reg 129 = m.header.setWidth 512 := by
  intro y
  let x := if th.wait == .wfm then advance th.ctx false .seq else th.ctx
  have hreg (r : Nat) : y.ctx.reg r = ((x.setReg 128 m.payload).setReg 129 (m.header.setWidth 512)).reg r := rfl
  refine ⟨rfl, rfl, rfl, ?_, ?_, ?_⟩
  · change x.pc = _
    by_cases hw : th.wait = .wfm <;> simp [x, hw]
  · rw [hreg, Ctx.reg_setReg_ne _ _ (by decide), Ctx.reg_setReg]
  · rw [hreg, Ctx.reg_setReg]

/-- An acquire at device scope empties the core's L1 data cache, and counts (R188). -/
theorem acquire_device (s : State) (t : Nat) (th : Thread) :
    Kept s (s.acquire t th 4) ∧ ((s.acquire t th 4).core (coreOf t)).l1d = [] := by
  have he : s.acquire t th 4 = (s.flashL1 (coreOf t)).count t th 0x26 1 := if_pos (by decide)
  have hl : ((s.flashL1 (coreOf t)).core (coreOf t)).l1d = [] := by rw [State.flashL1, State.core_modCore_self]
  rw [he]
  exact ⟨(kept_modCore _ _ _).trans (kept_countFor _ _ _ _ _ _ _),
    ((untouched_count (s.flashL1 (coreOf t)) t t th 0x26 1).core Core.l1d (fun _ => rfl) _).trans hl⟩

theorem shiftMail_keeps (s : State) (h : Nat) : (s.shiftMail h).threads = s.threads ∧ (s.shiftMail h).cores = s.cores := by
  unfold State.shiftMail
  split <;> exact ⟨rfl, rfl⟩

section
variable {s : State} {t : Nat} {th : Thread} {m : Msg} {rest : List Msg} (ht : s.thread? t = some th) (hm : th.mailbox = m :: rest)
  (he : s.enters t th = true)
include ht hm he

theorem exec_handlerEntry : exec (.handlerEntry t) s =
    if s.mailBad t then .next (takeFault s t 0x07 0 false (mailAddr t) th.ctx.pc)
    else .next (((s.setThread t (th.enter m rest)).acquire t th 4).shiftMail t) := by
  change execHandlerEntry t s = _
  unfold execHandlerEntry
  rw [ht]
  dsimp only
  rw [hm]
  exact if_neg (by simp [he])

/-- R270: a handler starts. -/
theorem handlerEntry_enters (hb : s.mailBad t = false) : ∃ s' y, exec (.handlerEntry t) s = .next s' ∧
    s'.thread? t = some y ∧ y.mailbox = rest ∧ y.ctx.hnd = true ∧ y.ctx.pc = th.ctx.msgv + BitVec.ofNat 64 (64 * nbits m.header 48 4) ∧
    y.ctx.msgpc = (if th.wait = .wfm then (advance th.ctx false .seq).pc else th.ctx.pc) ∧ y.ctx.reg 128 = m.payload ∧
    y.ctx.reg 129 = m.header.setWidth 512 ∧ (s'.core (coreOf t)).l1d = [] := by
  obtain ⟨e1, e2, e3, e4, e5, e6⟩ := enter_ctx th m rest
  obtain ⟨hk, hl⟩ := acquire_device (s.setThread t (th.enter m rest)) t th
  obtain ⟨hth, hco⟩ := shiftMail_keeps ((s.setThread t (th.enter m rest)).acquire t th 4) t
  refine ⟨_, th.enter m rest, (exec_handlerEntry ht hm he).trans (if_neg (by simp [hb])), ?_, e1, e2, e3, e4, e5, e6, ?_⟩
  · rw [State.thread?_congr hth, hk.thread?, State.thread?_setThread_self]
  · rw [State.core, hco]
    exact hl

end

/-! ### Deposits (R64 to R66) -/

@[simp] theorem Ctx.land_hnd (x : Ctx) (n : Nat) (v : Vec) : (x.land n v).hnd = x.hnd := by
  unfold Ctx.land Ctx.setReg
  split_ifs <;> rfl

/-- A deposit changes nothing of which banks hold the thread's registers. -/
theorem Thread.stored_land (th : Thread) (n k : Nat) (v : Vec) : (th.land n v).stored k = th.stored k := by
  simp [Thread.stored, Thread.absent, Thread.inSecond, Thread.shadowed, Thread.land]

/-- A deposit has left the network, and counts as received (R28, R64). -/
def State.gotDeposit (s : State) (i : Nat) (p : Packet) : State :=
  (s.modFlight fun f => { f with deposits := f.deposits.filter fun y => y.id != i }).countRecvd p.core (s.target p).who p.launch 1

section
variable {s : State} {i : Nat} {p : Packet} {t : Nat} {th : Thread} (hp : s.flight.deposits.find? (fun p => p.id == i) = some p)
  (ho : overtakes s.flight.deposits p (s.sameThread p) = false) (hx : s.target p = .live t th)
include hp ho hx

/-- A deposit that lands. -/
theorem exec_depositArrival_lands (hw : s.landWaits (.live t th) p.k = none) (hr : th.refuses p.k = none) :
    exec (.depositArrival i) s =
      .next (((s.gotDeposit i p).setThread t (th.land p.k p.payload)).intoRecord (th.land p.k p.payload) p.k) := by
  have hland : (s.gotDeposit i p).landAt (.live t th) p.k p.payload =
      ((s.gotDeposit i p).setThread t (th.land p.k p.payload)).intoRecord (th.land p.k p.payload) p.k := by
    unfold State.landAt
    dsimp only [State.atTarget]
    rw [State.thread?_setThread_self]
  rw [← hland]
  change execDepositArrival i s = _
  unfold execDepositArrival State.gotDeposit
  rw [hp]
  dsimp only
  rw [if_neg (by simp [ho]), hx, hw]
  dsimp only
  rw [hr]

/-- A deposit that is refused (R65). -/
theorem exec_depositArrival_refused (hw : s.landWaits (.live t th) p.k = none) {r : Nat} (hr : th.refuses p.k = some r) :
    let u := (s.gotDeposit i p).countFor p.core th.who th.launch th.tenant 0x32 1
    exec (.depositArrival i) s = .next (u.deliverTo (u.mailTarget p) 1 0 p.srcCore p.srcSlot (refusedPayload p r)) := by
  change execDepositArrival i s = _
  unfold execDepositArrival State.gotDeposit
  rw [hp]
  dsimp only
  rw [if_neg (by simp [ho]), hx, hw]
  dsimp only
  rw [hr]

/-- R64: a deposit lands, in the file or in the record. -/
theorem depositArrival_lands (hr : th.refuses p.k = none) (hw : th.stored p.k = false ∨ s.recordWaits th = none) :
    ∃ s', exec (.depositArrival i) s = .next s' ∧ s'.thread? t = some (th.land p.k p.payload) ∧ (th.stored p.k = false → s'.mem = s.mem) ∧
      s'.flight.deposits = s.flight.deposits.filter fun y => y.id != i := by
  have hl : s.landWaits (.live t th) p.k = none := by rcases hw with hw | hw <;> simp [State.landWaits, hw]
  have hk := sameArrivals_intoRecord ((s.gotDeposit i p).setThread t (th.land p.k p.payload)) (th.land p.k p.payload) p.k
  refine ⟨_, exec_depositArrival_lands hp ho hx hl hr, ?_, fun hs => ?_, ?_⟩
  · rw [State.thread?_congr hk.threads, State.thread?_setThread_self]
  · rw [State.intoRecord, if_neg (by simp [Thread.stored_land, hs])]
    simp [State.gotDeposit]
  · rw [hk.deposits]
    simp [State.gotDeposit]

/-- R65: a refused deposit becomes a message. -/
theorem depositArrival_refused {r : Nat} (hr : th.refuses p.k = some r) (hg : th.guest = false) :
    ∃ s', exec (.depositArrival i) s = .next s' ∧ s'.thread? t = some (th.deliver 1 0 p.srcCore p.srcSlot (refusedPayload p r)) ∧
      s'.mem = s.mem := by
  let u := (s.gotDeposit i p).countFor p.core th.who th.launch th.tenant 0x32 1
  have hm : u.mailTarget p = .live t th :=
    (State.mailTarget_congr (by simp [u, State.gotDeposit]) (by simp [u, State.gotDeposit]) p).trans (mailTarget_home hx hg)
  have hk := deliverTo_live u t th 1 0 p.srcCore p.srcSlot (refusedPayload p r)
  refine ⟨_, exec_depositArrival_refused hp ho hx (by simp [State.landWaits, hr]) hr, ?_⟩
  rw [hm, hk.thread?, hk.mem, State.thread?_setThread_self]
  simp [u, State.gotDeposit]

end

/-! ### Dependence counters (R266) -/

/-- A decrement has left the network, and counts as received (R28, R266). -/
def State.gotDec (s : State) (i : Nat) (p : Packet) : State :=
  (s.modFlight fun f => { f with decs := f.decs.filter fun y => y.id != i }).countRecvd p.core nobody p.launch 1

theorem gotDec_core (s : State) (i : Nat) (p : Packet) {β : Type} (q : Core → β) (hq : ∀ x, q x.still = q x) (d : Nat) :
    q ((s.gotDec i p).core d) = q (s.core d) :=
  countRecvd_core (s.modFlight fun f => { f with decs := f.decs.filter fun y => y.id != i }) p.core nobody p.launch 1 q hq d

section
variable {s : State} {i : Nat} {p : Packet} {w : Dword} {k : Task} (hp : s.flight.decs.find? (fun p => p.id == i) = some p)
  (hw : mget (s.core p.core).counters p.k = some w) (hk : mget (s.core p.core).armed p.k = some k) (ht : nbits w 0 6 = p.tenant)

include hp hw hk ht

theorem exec_decrement : exec (.decrement i) s =
    (let u := s.gotDec i p
     let n := nbits w 52 12
     if n = 0 then .next u
     else if 1 < n then .next (u.modCore p.core fun x => { x with counters := mput x.counters p.k (setBits w 52 12 (n - 1)) })
     else if (u.core p.core).runList.length < 512 && (u.core p.core).waitTasks.isEmpty then
       .next ((u.enlist k).modCore p.core fun x => { x with counters := mdel x.counters p.k, armed := mdel x.armed p.k })
     else .next ((u.enlist k).modCore p.core fun x => { x with counters := mput x.counters p.k (setBits w 52 12 0) })) := by
  have hc : mget ((s.gotDec i p).core p.core).counters p.k = some w :=
    (congrArg (mget · p.k) (gotDec_core s i p Core.counters (fun _ => rfl) p.core)).trans hw
  have ha : mget ((s.gotDec i p).core p.core).armed p.k = some k :=
    (congrArg (mget · p.k) (gotDec_core s i p Core.armed (fun _ => rfl) p.core)).trans hk
  change execDecrement i s = _
  unfold execDecrement
  rw [hp]
  dsimp only
  rw [show (s.modFlight _).countRecvd _ _ _ _ = s.gotDec i p from rfl, hc, ha]
  simp only [ht, ne_eq, not_true_eq_false, false_or]

/-- R266: a counter falls. -/
theorem decrement_falls (h : 1 < nbits w 52 12) :
    ∃ s', exec (.decrement i) s = .next s' ∧ mget (s'.core p.core).counters p.k = some (setBits w 52 12 (nbits w 52 12 - 1)) ∧
      (s'.core p.core).runList = (s.core p.core).runList := by
  refine ⟨_, (exec_decrement hp hw hk ht).trans ((if_neg (by omega)).trans (if_pos h)), ?_, ?_⟩
  · rw [State.core_modCore_self]
    exact mget_mput_self _ _ _
  · rw [State.core_modCore_self]
    exact gotDec_core s i p Core.runList (fun _ => rfl) p.core

/-- R266: at 0 the task joins the run list of its home. -/
theorem decrement_enlists (h : nbits w 52 12 = 1) (hh : taskHome k.record = p.core) (hr : (s.core p.core).runList.length < 512)
    (hq : (s.core p.core).waitTasks = []) :
    ∃ s', exec (.decrement i) s = .next s' ∧ mget (s'.core p.core).counters p.k = none ∧
      (s'.core p.core).runList = (s.core p.core).runList ++ [k] := by
  have hl : ((s.gotDec i p).core p.core).runList = (s.core p.core).runList := gotDec_core s i p Core.runList (fun _ => rfl) p.core
  have hwt : ((s.gotDec i p).core p.core).waitTasks = [] := (gotDec_core s i p Core.waitTasks (fun _ => rfl) p.core).trans hq
  have hroom : (((s.gotDec i p).core p.core).runList.length < 512 && ((s.gotDec i p).core p.core).waitTasks.isEmpty) = true := by
    simp [hl, hwt, hr]
  refine ⟨_, (exec_decrement hp hw hk ht).trans ((if_neg (by omega)).trans ((if_neg (by omega)).trans (if_pos hroom))), ?_, ?_⟩
  · rw [State.core_modCore_self]
    exact (mget_mdel _ _ _).trans (if_pos rfl)
  · rw [State.core_modCore_self, State.enlist, hh, State.core_modCore_self, if_pos hroom]
    exact congrArg (· ++ [k]) hl

end

/-! ### What accounting, acquires and positions leave alone (R188, R326, R350) -/

/-- Neither memory nor what `SameArrivals` names changes. -/
structure Quiet (s s' : State) : Prop extends SameArrivals s s' where
  mem : s'.mem = s.mem

theorem Quiet.refl (s : State) : Quiet s s := ⟨SameArrivals.refl s, rfl⟩

theorem Quiet.trans {a b c : State} (h : Quiet a b) (k : Quiet b c) : Quiet a c :=
  ⟨h.toSameArrivals.trans k.toSameArrivals, k.mem.trans h.mem⟩

theorem quiet_modCore (s : State) (c : Nat) {f : Core → Core} (hf : ∀ x, (f x).migrants = x.migrants) : Quiet s (s.modCore c f) := by
  refine ⟨⟨rfl, rfl, fun d => ?_⟩, rfl⟩
  rw [State.core_modCore]
  split
  · next h => exact h ▸ hf _
  · rfl

theorem quiet_countFor (s : State) (c w l n src k : Nat) : Quiet s (s.countFor c w l n src k) := by
  unfold State.countFor
  split
  · exact Quiet.refl s
  · exact quiet_modCore s c fun _ => rfl

theorem quiet_countRecvd (s : State) (c w l n : Nat) : Quiet s (s.countRecvd c w l n) :=
  ⟨⟨by simp, by simp, countRecvd_core s c w l n Core.migrants fun _ => rfl⟩, by simp⟩

theorem quiet_acquire (s : State) (t : Nat) (th : Thread) (scope : Nat) : Quiet s (s.acquire t th scope) := by
  unfold State.acquire
  split
  · exact (quiet_modCore s (coreOf t) (f := fun x => { x with l1d := [] }) fun _ => rfl).trans (quiet_countFor _ _ _ _ _ _ _)
  · exact Quiet.refl s

/-- Changes of positions keep the core's migrants. -/
theorem foldl_setImp_migrants (g : Core → Nat → BitVec 16) (ps : List Nat) (x : Core) :
    (ps.foldl (fun x p => x.setImp p (g x p)) x).migrants = x.migrants := by
  induction ps generalizing x with
  | nil => rfl
  | cons p ps ih => exact ih _

theorem quiet_keepPosition (s : State) (c slot : Nat) : Quiet s (s.keepPosition c slot) := by
  unfold State.keepPosition
  dsimp only
  split
  · split
    · exact quiet_modCore s c fun _ => rfl
    · exact Quiet.refl s
  · exact Quiet.refl s

theorem quiet_takePositions (s : State) (c launch slot n : Nat) : Quiet s (s.takePositions c launch slot n) :=
  (quiet_modCore s c (foldl_setImp_migrants (fun x p => setBits (setBits (x.impView p) 14 1 1) 0 6 slot) _)).trans (quiet_keepPosition _ _ _)

theorem quiet_setStopped (s : State) (c slot : Nat) (b : Bool) :
    Quiet s (if b then s.modCore c fun x => x.setStopped slot true else s) := by
  split
  · exact quiet_modCore s c fun x => foldl_setImp_migrants (fun x p => setBits (x.impView p) 12 1 1) (x.positionsOf slot) x
  · exact Quiet.refl s

/-! ### Migrants (R190, R271, R272, R301) -/

/-- A free slot has no live thread. -/
theorem thread?_slotFree {s : State} {c k f : Nat} (h : s.slotFree c k f = true) : s.thread? (c * 64 + k) = none := by
  simp only [State.slotFree, Bool.and_eq_true, decide_eq_true_eq, Option.isNone_iff_eq_none] at h
  obtain ⟨⟨hk, hn⟩, -⟩ := h
  unfold State.thread? slotOf
  rw [hn]
  exact if_neg (by omega)

/-- A migrant that is admitted finds its slot free and its home live (R272). -/
theorem admits_slot {s : State} {c sl b : Nat} {m : Migrant} (h : s.admits c m = some (sl, b)) :
    s.slotFree c sl = true ∧ (s.thread? m.home).isSome = true := by
  unfold State.admits at h
  dsimp only at h
  split_ifs at h with hc
  split at h
  · next slot rest b' hf _ =>
    obtain ⟨rfl, -⟩ := Prod.mk.inj (Option.some.inj h)
    have hmem : slot ∈ s.freeSlots c := hf ▸ List.mem_cons_self
    simp only [Bool.and_eq_true] at hc
    obtain ⟨⟨⟨hhome, -⟩, -⟩, -⟩ := hc
    exact ⟨(List.mem_filter.mp hmem).2, hhome⟩
  · cases h

/-- The migrant that is next is one that the core admits. -/
theorem nextMigrant_admits {s : State} {c : Nat} {ms : List Migrant} : ∀ {before : List Migrant} {held : List Nat}
    {rest : List Migrant} {m : Migrant} {sl b : Nat}, s.nextMigrant c before held ms = some (rest, m, sl, b) → s.admits c m = some (sl, b) := by
  induction ms with
  | nil =>
    intro before held rest m sl b h
    cases h
  | cons x xs ih =>
    intro before held rest m sl b h
    unfold State.nextMigrant at h
    split at h
    · exact ih h
    · split at h
      · next slot b' ha =>
        obtain ⟨-, rfl, rfl, rfl⟩ := (by simpa using h)
        exact ha
      · exact ih h

/-- The guest `g` of a migrant stands in its slot, and its home knows of it (R272). -/
def State.lodgeGuest (s : State) (c sl : Nat) (rest : List Migrant) (m : Migrant) (g : Thread) : State :=
  ((s.modCore c fun x => { x with migrants := rest, oldCtx := mdel x.oldCtx sl }).setThread (c * 64 + sl) g).modThread m.home
    fun h => { h with away := some (c * 64 + sl) }

/-- The guest has its position, and the admission is an acquire and counts as received (R188, R272). -/
def State.admitGuest (s : State) (c sl : Nat) (rest : List Migrant) (m : Migrant) (g : Thread) : State :=
  let s := (((s.lodgeGuest c sl rest m g).takePositions c g.launch sl 1).countRecvd c g.who g.launch 1).count (c * 64 + sl) g 0x33 1
  (if g.stopped then s.modCore c fun x => x.setStopped sl true else s).acquire (c * 64 + sl) g 4

theorem admitGuest_quiet (s : State) (c sl : Nat) (rest : List Migrant) (m : Migrant) (g : Thread) :
    Quiet (s.lodgeGuest c sl rest m g) (s.admitGuest c sl rest m g) :=
  ((((quiet_takePositions _ _ _ _ _).trans (quiet_countRecvd _ _ _ _ _)).trans (quiet_countFor _ _ _ _ _ _ _)).trans
    (quiet_setStopped _ _ _ _)).trans (quiet_acquire _ _ _ _)

theorem exec_guestAdmission {s : State} {c sl b : Nat} {rest : List Migrant} {m : Migrant}
    (h : s.nextMigrant c [] [] (s.core c).migrants = some (rest, m, sl, b)) (hr : s.recordWaits m.thread = none) :
    let g := m.guest b (s.core c).wdog
    exec (.guestAdmission c) s = .next ((s.admitGuest c sl rest m g).writePresence g) := by
  change execGuestAdmission c s = _
  unfold execGuestAdmission State.admitGuest State.lodgeGuest
  rw [h]
  dsimp only
  rw [hr]
  dsimp only
  rw [State.core_modCore_self]

/-- R272: the guest of the migrant that is next. -/
theorem guestAdmission_admits {s : State} {c sl b : Nat} {rest : List Migrant} {m : Migrant}
    (h : s.nextMigrant c [] [] (s.core c).migrants = some (rest, m, sl, b)) (hr : s.recordWaits m.thread = none) :
    ∃ s' g, exec (.guestAdmission c) s = .next s' ∧
      s'.thread? (c * 64 + sl) = some g ∧ g.guest = true ∧ g.home = m.home ∧ g.base = b ∧ g.ctx.pc = m.thread.ctx.pc ∧
      (s'.core c).migrants = rest ∧ ∃ y : State, y.mem = s.mem ∧ s' = y.writePresence g := by
  obtain ⟨hfree, hhome⟩ := admits_slot (nextMigrant_admits h)
  have hne : c * 64 + sl ≠ m.home := fun he => by
    rw [← he, thread?_slotFree hfree] at hhome
    cases hhome
  let g := m.guest b (s.core c).wdog
  have hq := admitGuest_quiet s c sl rest m g
  have hw := sameArrivals_writePresence (s.admitGuest c sl rest m g) g
  refine ⟨_, g, exec_guestAdmission h hr, ?_, rfl, rfl, rfl, rfl, ?_, _, ?_, rfl⟩
  · rw [State.thread?_congr hw.threads, State.thread?_congr hq.threads, State.lodgeGuest, State.thread?_modThread, if_neg hne,
      State.thread?_setThread_self]
  · rw [hw.migrants, hq.migrants, State.lodgeGuest, State.modThread_core, State.core, State.setThread_cores]
    exact congrArg Core.migrants (State.core_modCore_self _ _ _)
  · rw [hq.mem, State.lodgeGuest, State.modThread_mem]
    rfl

/-- The state in which a context has come home (R301). -/
def State.cameHome (s : State) (i home : Nat) (h y : Thread) : State :=
  let s := s.modFlight fun f => { f with returns := f.returns.filter fun x => x.id != i }
  ((s.setThread home y).countRecvd (coreOf home) h.who h.launch 1).acquire home h 4

section
variable {s : State} {i : Nat} {r : Return} {h : Thread} (hr : s.flight.returns.find? (fun r => r.id == i) = some r)
  (hh : s.thread? r.thread.home = some h)
include hr hh

theorem exec_migretArrival (hs : s.steady r.core = true) (hw : s.recordWaits h = none) :
    let y := h.comeHome r.thread (s.core (coreOf r.thread.home)).wdog
    exec (.migretArrival i) s = .next ((s.cameHome i r.thread.home h y).writePresence y) := by
  change execMigretArrival i s = _
  unfold execMigretArrival
  rw [hr]
  dsimp only
  rw [hh]
  dsimp only
  rw [if_neg (by simp [hs]), hw]
  rfl

/-- R301: a context comes home. -/
theorem migretArrival_comes (hs : s.steady r.core = true) (hw : s.recordWaits h = none) :
    let g := h.comeHome r.thread (s.core (coreOf r.thread.home)).wdog
    ∃ s', exec (.migretArrival i) s = .next s' ∧ s'.thread? r.thread.home = some g ∧
      ∃ y : State, y.mem = s.mem ∧ s' = y.writePresence g := by
  intro g
  have hq : Quiet _ (s.cameHome i r.thread.home h g) := (quiet_countRecvd _ _ _ _ _).trans (quiet_acquire _ _ _ _)
  refine ⟨_, exec_migretArrival hr hh hs hw, ?_, _, hq.mem, rfl⟩
  rw [State.thread?_congr (sameArrivals_writePresence _ _).threads, State.thread?_congr hq.threads, State.thread?_setThread_self]

/-- R190: it waits for what its old core has seen. -/
theorem migretArrival_waits (hs : s.steady r.core = false) : exec (.migretArrival i) s = .next s := by
  change execMigretArrival i s = _
  unfold execMigretArrival
  rw [hr]
  dsimp only
  rw [hh]
  exact if_pos (by simp [hs])

end

/-! ### Waits that end (R111, R296) -/

/-- R111: the 64 cycles of a `yield` are over. -/
theorem yieldExpiry_ends {s : State} {t : Nat} {th : Thread} (h : s.thread? t = some th) (hw : th.wait = .yield 0) :
    ∃ s', exec (.yieldExpiry t) s = .next s' ∧ OnlyThread s s' t ∧ s'.thread? t = some { th with wait := .none } := by
  refine ⟨_, rfl, onlyThread_modThread _ _ _, ?_⟩
  rw [State.thread?_modThread, if_pos rfl, h, Option.map_some, hw]
  rfl

/-- R296: the count of a masked section has reached 0. -/
theorem maskBoundExpiry_ends {s : State} {t : Nat} {th : Thread} (h : s.thread? t = some th) (hm : th.ctx.mskd = true)
    (hz : th.ctx.rem = 0) :
    ∃ s', exec (.maskBoundExpiry t) s = .next s' ∧ OnlyThread s s' t ∧
      s'.thread? t = some { th with ctx := { th.ctx with mskd := false } } := by
  refine ⟨_, rfl, onlyThread_modThread _ _ _, ?_⟩
  rw [State.thread?_modThread, if_pos rfl, h, Option.map_some, if_pos ⟨hm, hz⟩]

/-- Settles O49: each arrival changes its own thread, counter or queue, and accounting beside it. -/
theorem messageEvents : Obligations.MessageEvents := by
  refine ⟨?_, ?_, ?_, ?_, ?_, ?_, ?_, ?_, ?_, ?_, ?_, ?_, ?_, ?_⟩
  · exact fun s i p t th hp ho hx => messageArrival_live hp ho hx
  · exact fun s i p hp ho hx => messageArrival_nobody hp ho hx
  · exact fun th kind k c sl v h => by rw [th.deliver_room kind k c sl v h]; exact ⟨rfl, rfl⟩
  · exact fun th kind k c sl v h => th.deliver_full kind k c sl v h
  · exact fun s t th h ht hv hb => mailboxOverflow_faults ht hv hb
  · exact fun s t th m rest ht hm he hb => handlerEntry_enters ht hm he hb
  · exact fun s t th m rest ht hm he hb => (exec_handlerEntry ht hm he).trans (if_pos hb)
  · exact fun s i p t th hp ho hx hr hw => depositArrival_lands hp ho hx hr hw
  · exact fun s i p t th r hp ho hx hr hg => depositArrival_refused hp ho hx hr hg
  · exact fun s i p w k hp hw hk ht => ⟨decrement_falls hp hw hk ht, decrement_enlists hp hw hk ht⟩
  · exact fun s c rest m sl b h hr => guestAdmission_admits h hr
  · exact fun s i r h hr hh => ⟨migretArrival_comes hr hh, migretArrival_waits hr hh⟩
  · exact fun s t th h hw => yieldExpiry_ends h hw
  · exact fun s t th h hm hz => maskBoundExpiry_ends h hm hz

end Sys2Proof.Machine
end

/-! Floating-point lanes, conversions, and reductions (R90 to R96, R100, R142 to R149): instructions that only compute. -/

section
namespace Sys2Proof.Machine

/-- An instruction that runs as `simple` computes, if the context that it leaves rests neither on the words that its thread has received
nor on those that it has sent. -/
theorem computes_of_simple {q : Req} {i : Instr} {f : Thread → Thread} (hi : ∀ s, exec i s = simple q s f)
    (hf : ∀ th r n, (f { th with ribbon := r, sent := n }).ctx = (f th).ctx) : Computes q i f :=
  fun s _ _ h => h.completes_simple (hi s) (hf _)

/-- Two meanings that agree on every thread are one meaning. -/
theorem simple_congr {q : Req} {s : State} {f g : Thread → Thread} (h : ∀ th, f th = g th) : simple q s f = simple q s g :=
  congrArg (simple q s) (funext h)

theorem floats3_of_float3 {i : BitVec 7 → BitVec 7 → BitVec 7 → BitVec 2 → Instr} {op : Fmt → Nat → Num → Num → Nat × Flg}
    (hi : ∀ d a b f s, exec (i d a b f) s = float3 (reqDAB (i d a b f) d a b) d a b f op s) : Floats3 i op :=
  fun d a b f => computes_of_simple (hi d a b f) fun _ _ _ => rfl

theorem floats2_of_float2 {i : BitVec 7 → BitVec 7 → BitVec 2 → Instr} {op : Fmt → Nat → Num → Nat × Flg}
    (hi : ∀ d a f s, exec (i d a f) s = float2 (reqDA (i d a f) d a) d a f op s) : Floats2 i op :=
  fun d a f => computes_of_simple (hi d a f) fun _ _ _ => rfl

theorem converts_of_convert {i : BitVec 7 → BitVec 7 → BitVec 1 → BitVec 3 → Instr} {ws wd : Nat}
    {f : BitVec 1 → Nat → Nat → Nat × Flg}
    (hi : ∀ d a z r s, exec (i d a z r) s = convert (reqDA (i d a z r) d a) d a r ws wd (f z) s) : Converts i ws wd f :=
  fun d a z r => computes_of_simple (hi d a z r) fun _ _ _ => rfl

/-- Settles O5: lane operations of two sources, of one source, and the forms that stand alone. -/
theorem floatResults : Obligations.FloatResults := by
  refine ⟨?vfadd, ?vfsub, ?vfmul, ?vfdiv, ?vfma, ?vfmin, ?vfmax, ?vfsqrt, ?vfrcp, ?vfrsq, ?vfexp2, ?vflog2, ?vfabs, ?vfneg,
    ?vfclt, ?vfceq⟩
  case vfadd | vfsub | vfmul | vfdiv => exact floats3_of_float3 fun _ _ _ _ _ => rfl
  case vfsqrt | vfrcp | vfrsq | vfexp2 | vflog2 => exact floats2_of_float2 fun _ _ _ _ => rfl
  case vfma | vfmin | vfmax => exact fun d a b f => computes_of_simple (fun _ => rfl) fun _ _ _ => rfl
  case vfabs | vfneg => exact fun d a f => computes_of_simple (fun _ => rfl) fun _ _ _ => rfl
  case vfclt | vfceq => exact fun d a b f => computes_of_simple (fun _ => rfl) fun _ _ _ => rfl

/-- Settles O6: conversions of lanes, then the two of a block of four-bit numbers. -/
theorem conversionResults : Obligations.ConversionResults := by
  refine ⟨?bf16F32, ?f16F32, ?f32Bf16, ?f32F16, ?e4m3F32, ?e5m2F32, ?f32E4m3, ?f32E5m2, ?i32F32, ?f32I32, ?i8I32, ?i32I8,
    ?q4pack, ?q4unpk⟩
  case q4pack => exact fun d a z r k => computes_of_simple (fun _ => rfl) fun _ _ _ => rfl
  case q4unpk => exact fun d a z r => computes_of_simple (fun _ => rfl) fun _ _ _ => rfl
  all_goals exact converts_of_convert fun _ _ _ _ _ => rfl

/-- Settles O7: the sums take one of two ways, by whether the type is i32. -/
theorem reductionResults : Obligations.ReductionResults := by
  refine ⟨?vrsumInt, ?vrsumFloat, ?vrdotInt, ?vrdotFloat, ?vrmax, ?vrmin, ?vrarg⟩
  case vrsumInt => exact fun d a => computes_of_simple (fun _ => rfl) fun _ _ _ => rfl
  case vrsumFloat => exact fun d a k hk => computes_of_simple (fun _ => simple_congr fun _ => if_neg hk) fun _ _ _ => rfl
  case vrdotInt => exact fun d a b => computes_of_simple (fun _ => rfl) fun _ _ _ => rfl
  case vrdotFloat => exact fun d a b k hk => computes_of_simple (fun _ => simple_congr fun _ => if_neg hk) fun _ _ _ => rfl
  case vrmax | vrmin | vrarg => exact fun d a k => computes_of_simple (fun _ => rfl) fun _ _ _ => rfl

end Sys2Proof.Machine
end

/-! The commands of the copy engine and of the matrix unit as they start, move their data, retire, fail and complete (R105, R201, R246,
R247, R251 to R254, R292). -/

section
namespace Sys2Proof.Machine

/-! ### What accounting, contexts, rings and reports leave of the engines -/

/-- What a core holds of the engines: the queued commands and the accumulators. -/
def Core.engines (x : Core) : List CopyCmd × List MatCmd × Map (List (BitVec 32)) := (x.copyQ, x.matQ, x.accs)

/-- Memory, the clusters, and every core's queued commands and accumulators stay as they are. -/
structure SameEngines (s s' : State) : Prop where
  mem : s'.mem = s.mem
  clusters : s'.clusters = s.clusters
  engines : ∀ c, (s'.core c).engines = (s.core c).engines

theorem SameEngines.refl (s : State) : SameEngines s s := ⟨rfl, rfl, fun _ => rfl⟩

theorem SameEngines.trans {a b c : State} (h : SameEngines a b) (k : SameEngines b c) : SameEngines a c :=
  ⟨k.mem.trans h.mem, k.clusters.trans h.clusters, fun d => (k.engines d).trans (h.engines d)⟩

theorem SameEngines.copyQ {s s' : State} (h : SameEngines s s') (c : Nat) : (s'.core c).copyQ = (s.core c).copyQ :=
  congrArg (·.1) (h.engines c)
theorem SameEngines.cluster {s s' : State} (h : SameEngines s s') (k : Nat) : s'.cluster k = s.cluster k :=
  congrArg (mgetD · k Cluster.reset) h.clusters
theorem SameEngines.matQ {s s' : State} (h : SameEngines s s') (c : Nat) : (s'.core c).matQ = (s.core c).matQ :=
  congrArg (·.2.1) (h.engines c)
theorem SameEngines.accData {s s' : State} (h : SameEngines s s') (c k : Nat) : s'.accData c k = s.accData c k :=
  congrArg (fun x : List CopyCmd × List MatCmd × Map (List (BitVec 32)) => mgetD x.2.2 k (List.replicate 1024 0)) (h.engines c)

theorem sameEngines_ite {s a b : State} {p : Prop} [Decidable p] (ha : SameEngines s a) (hb : SameEngines s b) :
    SameEngines s (if p then a else b) := by
  split
  · exact ha
  · exact hb

theorem sameEngines_foldl {α : Type} {f : State → α → State} (h : ∀ s x, SameEngines s (f s x)) (l : List α) (s : State) :
    SameEngines s (l.foldl f s) := by
  induction l generalizing s with
  | nil => exact SameEngines.refl s
  | cons x l ih => exact (h s x).trans (ih _)

theorem sameEngines_modCore (s : State) (c : Nat) {f : Core → Core} (hf : ∀ x, (f x).engines = x.engines) : SameEngines s (s.modCore c f) := by
  refine ⟨rfl, rfl, fun d => ?_⟩
  rw [State.core_modCore]
  split
  · next h => exact h ▸ hf _
  · rfl

theorem sameEngines_modRing (s : State) (c k : Nat) (f : Ring → Ring) : SameEngines s (s.modRing c k f) :=
  sameEngines_modCore s c fun _ => rfl

theorem sameEngines_copyServed (s : State) (c l : Nat) : SameEngines s (s.copyServed c l) := sameEngines_modCore s c fun _ => rfl

theorem sameEngines_countFor (s : State) (c w l n src k : Nat) : SameEngines s (s.countFor c w l n src k) :=
  sameEngines_ite (SameEngines.refl s) (sameEngines_modCore s c fun _ => rfl)

theorem sameEngines_modDie (s : State) (d : Nat) (f : Die → Die) : SameEngines s (s.modDie d f) := ⟨rfl, rfl, fun _ => rfl⟩

theorem sameEngines_countDie (s : State) (d src n : Nat) : SameEngines s (s.countDie d src n) :=
  sameEngines_ite (SameEngines.refl s) (sameEngines_modDie s _ _)

theorem sameEngines_tick (s : State) : SameEngines s s.tick := ⟨rfl, rfl, fun _ => rfl⟩

theorem sameEngines_corrected (s : State) (c w l n : Nat) : SameEngines s (s.corrected c w l n) :=
  sameEngines_ite (SameEngines.refl s) ((sameEngines_tick s).trans
    (sameEngines_ite ((sameEngines_countFor _ _ _ _ _ _ _).trans (sameEngines_countDie _ _ _ _)) (SameEngines.refl _)))

theorem sameEngines_countSent (s : State) (c w l n : Nat) : SameEngines s (s.countSent c w l n) := by
  have h : SameEngines s (s.modLaunch l fun x => { x with sent := mupd x.sent c 0 (· + n) }) := ⟨rfl, rfl, fun _ => rfl⟩
  exact h.trans (sameEngines_countFor _ _ _ _ _ _ _)

theorem sameEngines_countRecvd (s : State) (c w l n : Nat) : SameEngines s (s.countRecvd c w l n) := by
  have h : SameEngines s (s.modLaunch l fun x => { x with recvd := mupd x.recvd c 0 (· + n) }) := ⟨rfl, rfl, fun _ => rfl⟩
  exact h.trans (sameEngines_countFor _ _ _ _ _ _ _)

theorem sameEngines_endPeer (s : State) (c who l id : Nat) (peer : Bool) : SameEngines s (s.endPeer c who l id peer) := by
  refine sameEngines_ite ?_ (SameEngines.refl s)
  refine SameEngines.trans ?_ ((sameEngines_countSent _ _ _ _ _).trans (sameEngines_countRecvd _ _ _ _ _))
  exact ⟨rfl, rfl, fun _ => rfl⟩

theorem sameEngines_modCtx (s : State) (home : Nat) (matrix : Bool) (f : Eng → Eng) : SameEngines s (s.modCtx home matrix f) := by
  unfold State.modCtx
  split
  · exact ⟨rfl, rfl, fun _ => rfl⟩
  · split
    · exact ⟨rfl, rfl, fun _ => rfl⟩
    · exact sameEngines_modCore s _ fun _ => rfl

theorem sameEngines_lowerOpc (s : State) (home : Nat) (matrix : Bool) (n : Nat) : SameEngines s (s.lowerOpc home matrix n) := by
  unfold State.lowerOpc
  dsimp only
  split
  · exact ⟨rfl, rfl, fun _ => rfl⟩
  · split
    · exact ⟨rfl, rfl, fun _ => rfl⟩
    · exact SameEngines.refl s

theorem sameEngines_forgetOp (s : State) (me : Nat) : SameEngines s (s.forgetOp me) := ⟨rfl, rfl, fun _ => rfl⟩
theorem sameEngines_postFault (s : State) (n : Nat) (r : Note) : SameEngines s (s.postFault n r) := ⟨rfl, rfl, fun _ => rfl⟩

theorem sameEngines_mendLines (s : State) (lo n : Nat) : SameEngines s (s.mendLines lo n) :=
  sameEngines_ite (SameEngines.refl s) ⟨rfl, rfl, fun _ => rfl⟩

@[simp] theorem State.endPeer_threads (s : State) (c who l id : Nat) (peer : Bool) : (s.endPeer c who l id peer).threads = s.threads := by
  unfold State.endPeer
  split
  · simp
  · rfl

/-! ### Commands in a queue -/

section
variable (s : State) (c id : Nat)

theorem modCopy_copyQ (f : CopyCmd → CopyCmd) :
    ((s.modCopy c id f).core c).copyQ = (s.core c).copyQ.map fun m => if m.id = id then f m else m := by
  unfold State.modCopy
  rw [State.core_modCore_self]

theorem modMat_matQ (f : MatCmd → MatCmd) :
    ((s.modMat c id f).core c).matQ = (s.core c).matQ.map fun m => if m.id = id then f m else m := by
  unfold State.modMat
  rw [State.core_modCore_self]

variable {s c id}

/-- A command that is changed stays in its queue. -/
theorem mem_modCopy {f : CopyCmd → CopyCmd} {x : CopyCmd} (hx : x ∈ (s.core c).copyQ) (hi : x.id = id) :
    f x ∈ ((s.modCopy c id f).core c).copyQ := by
  rw [modCopy_copyQ]
  exact List.mem_map.mpr ⟨x, hx, if_pos hi⟩

theorem mem_modMat {f : MatCmd → MatCmd} {x : MatCmd} (hx : x ∈ (s.core c).matQ) (hi : x.id = id) :
    f x ∈ ((s.modMat c id f).core c).matQ := by
  rw [modMat_matQ]
  exact List.mem_map.mpr ⟨x, hx, if_pos hi⟩

/-- Every command of an id is as the change has left it. -/
theorem of_mem_modCopy {f : CopyCmd → CopyCmd} {x : CopyCmd} (hx : x ∈ ((s.modCopy c id f).core c).copyQ) (hi : x.id = id) :
    ∃ y, x = f y := by
  rw [modCopy_copyQ] at hx
  obtain ⟨y, -, rfl⟩ := List.mem_map.mp hx
  split
  · exact ⟨y, rfl⟩
  · next hy => exact absurd (by rwa [if_neg hy] at hi) hy

theorem modMat_cluster (f : MatCmd → MatCmd) (k : Nat) : (s.modMat c id f).cluster k = s.cluster k := rfl

theorem modMat_accData (f : MatCmd → MatCmd) (k : Nat) : (s.modMat c id f).accData c k = s.accData c k := by
  unfold State.accData State.modMat
  rw [State.core_modCore_self]

end

theorem copyTurn_find {s : State} {c i : Nat} {m : CopyCmd} (h : s.copyTurn c i = some m) :
    (s.core c).copyQ.find? (fun x => x.id == i) = some m := by
  unfold State.copyTurn at h
  split at h
  · next hf =>
    split at h
    · exact Option.some.inj h ▸ hf
    · cases h
  · cases h

theorem copyTurn_id {s : State} {c i : Nat} {m : CopyCmd} (h : s.copyTurn c i = some m) : m.id = i := by
  simpa using List.find?_some (copyTurn_find h)

/-! ### A copy command starts (R246, R249, R281) -/

section
variable {s : State} {c : Nat} {m : CopyCmd} (hr : s.rowHeld c = false) (hc : s.copyRoom c = true)
  (hp : (s.copyPick c fun l => (s.nextStart c l (s.core c).copyQ).isSome).bind (fun l => s.nextStart c l (s.core c).copyQ) = some m)
include hr hc hp

theorem copyStart_fails {k : Nat} (hk : s.startFails c m = some k) : exec (.copyCommandStart c) s = .next (s.copyFails c m k) := by
  change execCopyCommandStart c s = _
  unfold execCopyCommandStart
  dsimp only
  rw [if_neg (by simp [hr, hc]), hp]
  dsimp only
  rw [hk]

/-- The command has its ring slot, and is marked in the queue. -/
theorem exec_copyStart (hk : s.startFails c m = none) : ∃ u slots shape, SameEngines s u ∧ u.threads = s.threads ∧
    exec (.copyCommandStart c) s = .next ((u.modCopy c m.id fun x =>
      { x with started := true, paid := true, slots := slots, shape := shape }).copyServed c m.launch) := by
  have he : exec (.copyCommandStart c) s = execCopyCommandStart c s := rfl
  unfold execCopyCommandStart at he
  dsimp only at he
  rw [if_neg (by simp [hr, hc]), hp] at he
  dsimp only at he
  rw [hk] at he
  refine ⟨_, _, _, ?_, ?_, he⟩
  · split
    · exact sameEngines_modRing _ _ _ _
    · exact SameEngines.refl s
  · split <;> rfl

theorem copyStart_starts (hk : s.startFails c m = none) : ∃ s', exec (.copyCommandStart c) s = .next s' ∧ s'.mem = s.mem ∧
    s'.threads = s.threads ∧ ∀ x ∈ (s'.core c).copyQ, x.id = m.id → x.started = true ∧ x.paid = true := by
  obtain ⟨u, slots, shape, hu, ht, he⟩ := exec_copyStart hr hc hp hk
  refine ⟨_, he, hu.mem, ht, fun x hx hi => ?_⟩
  rw [(sameEngines_copyServed _ _ _).copyQ] at hx
  obtain ⟨y, rfl⟩ := of_mem_modCopy hx hi
  exact ⟨rfl, rfl⟩

end

/-! ### What waits for answers, and completion (R106, R201) -/

/-- What an absent entry does not have, an entry that has it is there for. -/
theorem any_of_mgetD {α : Type} {p : α → Bool} {d : α} (hd : p d = false) {m : Map α} {k : Nat} (h : p (mgetD m k d) = true) :
    (m.any fun e => p e.2) = true := by
  induction m with
  | nil => exact absurd (hd.symm.trans h) Bool.false_ne_true
  | cons e rest ih =>
    rw [List.any_cons, Bool.or_eq_true]
    by_cases hk : k = e.1
    · exact .inl (by simpa [mgetD, mget, hk] using h)
    · exact .inr (ih (by simpa [mgetD, mget, hk] using h))

/-- What some entry of a map has, some entry has after one entry changed to another that has it as the first had it. -/
theorem any_mput {α : Type} {p : α → Bool} {d : α} (hd : p d = false) {m : Map α} {k : Nat} {v : α} (hv : p v = p (mgetD m k d)) :
    ((mput m k v).any fun e => p e.2) = m.any fun e => p e.2 := by
  have hin : p v = true → (m.any fun e => p e.2) = true := fun h => any_of_mgetD hd (hv.symm.trans h)
  induction m with
  | nil => simpa [mput] using hin
  | cons e rest ih =>
    obtain ⟨j, u⟩ := e
    simp only [mput]
    split_ifs with h1 h2
    · rw [List.any_cons]
      cases hpv : p v
      · rfl
      · exact (hin hpv).symm
    · rw [List.any_cons, List.any_cons, hv, h2]
      simp [mgetD, mget]
    · have hr : p v = p (mgetD rest k d) := by simpa [mgetD, mget, h2] using hv
      rw [List.any_cons, List.any_cons, ih hr fun h => any_of_mgetD hd (hr.symm.trans h)]

theorem ordWaits_modDie (s : State) (d : Nat) {f : Die → Die} (hf : ∀ x, (f x).ordered = x.ordered) (o : Owner) :
    (s.modDie d f).ordWaits o = s.ordWaits o :=
  any_mput (p := fun x : Die => x.ordered.any fun e => e.launch == o.launch && e.closer == some o.id) (d := Die.reset) rfl (by rw [hf]; rfl)

/-- What a command still waits for rests on the peer writes in flight and on the ordered entries. -/
theorem settled_congr {s s' : State} {o : Owner} (hf : s'.flight = s.flight) (ho : s'.ordWaits o = s.ordWaits o) :
    s'.settled o = s.settled o := by
  unfold State.settled
  rw [hf, ho]

theorem ordWaits_countDie (s : State) (d src n : Nat) (o : Owner) : (s.countDie d src n).ordWaits o = s.ordWaits o := by
  unfold State.countDie
  dsimp only
  split
  · rfl
  · refine ordWaits_modDie s d ?_ o
    exact fun _ => rfl

theorem ordWaits_countFor (s : State) (c w l n src k : Nat) (o : Owner) : (s.countFor c w l n src k).ordWaits o = s.ordWaits o := by
  unfold State.countFor
  split <;> rfl

theorem ordWaits_corrected (s : State) (c w l n : Nat) (o : Owner) : (s.corrected c w l n).ordWaits o = s.ordWaits o := by
  unfold State.corrected
  dsimp only
  split_ifs
  · rfl
  · exact (ordWaits_countDie _ _ _ _ o).trans (ordWaits_countFor _ _ _ _ _ _ _ o)
  · rfl

theorem settled_unitMoved (s : State) (c : Nat) (m : CopyCmd) (o : Owner) : (s.unitMoved c m).settled o = s.settled o := by
  unfold State.unitMoved
  refine (settled_congr (kept_corrected _ _ _ _ _).flight (ordWaits_corrected _ _ _ _ _ o)).trans ?_
  split <;> rfl

/-- A copy command that is complete has left its queue. -/
theorem copyDone_spec (s : State) (c : Nat) (m : CopyCmd) :
    (s.copyDone c m).mem = s.mem ∧ ∀ x ∈ ((s.copyDone c m).core c).copyQ, x.id ≠ m.id := by
  unfold State.copyDone
  extract_lets u v
  have hu : u.mem = s.mem := by
    unfold u
    split <;> rfl
  have hv : SameEngines v (((v.modCtx m.home false fun e => e.complete m.n 0).lowerOpc m.home false 1).endPeer c m.who m.launch m.id m.peer) :=
    (sameEngines_modCtx _ _ _ _).trans ((sameEngines_lowerOpc _ _ _ _).trans (sameEngines_endPeer _ _ _ _ _ _))
  refine ⟨hv.mem.trans hu, fun x hx => ?_⟩
  rw [hv.copyQ, State.core_modCore_self] at hx
  simpa using (List.mem_filter.mp hx).2

theorem copyEnds_spec {m : CopyCmd} (hr : m.refused = false) (s : State) (c : Nat) :
    (s.copyEnds c m).mem = s.mem ∧ ∀ x ∈ ((s.copyEnds c m).core c).copyQ, x.id ≠ m.id := by
  have h : s.copyEnds c m = s.copyDone c m := if_pos (by simp [hr])
  exact h ▸ copyDone_spec s c m

theorem unitMoved_mem (s : State) (c : Nat) (m : CopyCmd) : (s.unitMoved c m).mem = s.mem := by
  unfold State.unitMoved
  refine (sameEngines_corrected _ _ _ _ _).mem.trans ?_
  split <;> rfl

/-- A unit that a start has paid for is paid; the command stays in its queue. -/
theorem mem_unitMoved {s : State} {c : Nat} {m x : CopyCmd} (hx : x ∈ (s.core c).copyQ) (hi : x.id = m.id) :
    (if m.paid then { x with paid := false } else x) ∈ ((s.unitMoved c m).core c).copyQ := by
  unfold State.unitMoved
  rw [(sameEngines_corrected _ _ _ _ _).copyQ]
  split
  · exact mem_modCopy (f := fun x => { x with paid := false }) hx hi
  · rwa [(sameEngines_copyServed _ _ _).copyQ]

/-! ### A copy command moves its data (R246) -/

/-- What goes on is the command with the id `i`. -/
def Moving.goesOn (i : Nat) : Moving → Prop
  | .more m _ => m.id = i
  | _ => True

theorem goesOn_ite {i : Nat} {p : Prop} [Decidable p] {a b : Moving} (ha : a.goesOn i) (hb : b.goesOn i) : (if p then a else b).goesOn i := by
  split
  · exact ha
  · exact hb

theorem goesOn_unit (m : CopyCmd) (pos total : Nat) (e : Eff Unit) : (Moving.unit m pos total e).goesOn m.id := by
  cases e with
  | ok x r => exact goesOn_ite trivial rfl
  | fail k r => trivial
  | wait k r => trivial

theorem goesOn_whenReady {i : Nat} {k : Unit → Moving} (h : (k ()).goesOn i) (s : State) (o : Owner) (acc n : Nat) (vas : List Nat) :
    (whenReady s o acc n vas k).goesOn i := by
  unfold whenReady
  split
  · trivial
  · exact h

theorem goesOn_moveRows (s : State) (c : Nat) (m : CopyCmd) (g : Ring) (split : Nat) : (s.moveRows c m g split).goesOn m.id := by
  unfold State.moveRows
  refine goesOn_ite trivial (goesOn_whenReady ?_ _ _ _ _ _)
  dsimp only
  split
  · trivial
  · trivial
  · exact goesOn_ite trivial rfl

/-- A command keeps its id as its data move: one case for each operation code (R284 to R290). -/
theorem goesOn_moveCopy (s : State) (c : Nat) (m : CopyCmd) : (s.moveCopy c m).goesOn m.id := by
  have unit {pos total : Nat} {e : Eff Unit} : (Moving.unit m pos total e).goesOn m.id := goesOn_unit m pos total e
  unfold State.moveCopy
  dsimp only
  split
  case h_1 | h_2 | h_3 => exact goesOn_ite trivial (goesOn_whenReady unit _ _ _ _ _)
  case h_4 =>
    refine goesOn_ite trivial (goesOn_ite ?_ (goesOn_whenReady unit _ _ _ _ _))
    split
    · exact goesOn_ite trivial rfl
    · trivial
    · exact goesOn_ite trivial rfl
  case h_5 => exact goesOn_ite trivial (goesOn_whenReady (goesOn_unit { m with chunk := _ } _ _ _) _ _ _ _ _)
  case h_6 =>
    split
    · exact goesOn_moveRows _ _ _ _ _
    · trivial
    · trivial
  case h_7 => exact goesOn_ite trivial (goesOn_whenReady unit _ _ _ _ _)
  case h_8 => exact goesOn_whenReady unit _ _ _ _ _
  case h_9 => exact goesOn_whenReady (goesOn_whenReady unit _ _ _ _ _) _ _ _ _ _
  case h_10 | h_11 => exact goesOn_ite trivial unit

/-- What becomes of a command that has the turn, by what moving its data comes to. -/
def State.copyAfter (s : State) (c i : Nat) (m : CopyCmd) : Moving → State
  | .wait _ u => u
  | .more m2 u => (u.modCopy c i fun _ => m2).unitMoved c m
  | .fail k u => if s.faultRoom m.tenant then u.copyFails c m k else s
  | .moved u => if (u.unitMoved c m).settled (m.owner c) then (u.unitMoved c m).copyEnds c m
      else (u.unitMoved c m).modCopy c i fun x => { x with moved := true }

section
variable {s : State} {c i : Nat} {m : CopyCmd} (ht : s.copyTurn c i = some m) (hp : s.copyPublished c m = true)
include ht hp

/-- A command all of whose data have moved, and are answered, is complete (R201). -/
theorem copyComplete_moved (hm : m.moved = true) (hr : m.refused = false) (hs : s.settled (m.owner c) = true) :
    ∃ s', exec (.copyCommandComplete c i) s = .next s' ∧ s'.mem = s.mem ∧ ∀ x ∈ (s'.core c).copyQ, x.id ≠ m.id := by
  have he : exec (.copyCommandComplete c i) s = .next (s.copyEnds c m) := by
    change execCopyCommandComplete c i s = _
    unfold execCopyCommandComplete
    simp only [ht, hp, hm, hs, Bool.not_true, Bool.false_eq_true, if_false, if_true]
  exact ⟨_, he, copyEnds_spec hr s c⟩

variable (hm : m.moved = false)
  (hu : m.paid = true ∨ s.copyPick c (fun l => (s.core c).copyQ.any fun x => x.launch == l && s.canMove c x) = some m.launch)
include hm hu

/-- A command with the turn does what moving its data comes to. -/
theorem exec_copyComplete_moves : exec (.copyCommandComplete c i) s = .next (s.copyAfter c i m (s.moveCopy c m)) := by
  have hturn : (!m.paid && s.copyPick c (fun l => (s.core c).copyQ.any fun x => x.launch == l && s.canMove c x) != some m.launch) = false := by
    rcases hu with hu | hu <;> simp [hu]
  change execCopyCommandComplete c i s = _
  unfold execCopyCommandComplete
  simp only [ht, hp, hm, hturn, Bool.not_true, Bool.false_eq_true, if_false]
  cases s.moveCopy c m <;> rfl

theorem copyComplete_moves_last {w : State} (hw : s.moveCopy c m = .moved w) (hr : m.refused = false) (hs : w.settled (m.owner c) = true) :
    ∃ s', exec (.copyCommandComplete c i) s = .next s' ∧ s'.mem = w.mem ∧ ∀ x ∈ (s'.core c).copyQ, x.id ≠ m.id := by
  have he := exec_copyComplete_moves ht hp hm hu
  rw [hw, State.copyAfter, settled_unitMoved, if_pos hs] at he
  obtain ⟨hmem, hq⟩ := copyEnds_spec hr (w.unitMoved c m) c
  exact ⟨_, he, hmem.trans (unitMoved_mem w c m), hq⟩

theorem copyComplete_moves_on {w : State} {m2 : CopyCmd} (hw : s.moveCopy c m = .more m2 w) :
    ∃ s', exec (.copyCommandComplete c i) s = .next s' ∧ s'.mem = w.mem ∧
      ∀ x ∈ (w.core c).copyQ, x.id = i → (if m.paid then { m2 with paid := false } else m2) ∈ (s'.core c).copyQ := by
  have he := exec_copyComplete_moves ht hp hm hu
  have hid : m2.id = m.id := by
    have := goesOn_moveCopy s c m
    rwa [hw] at this
  rw [hw] at he
  exact ⟨_, he, unitMoved_mem _ c m, fun x hx hi => mem_unitMoved (mem_modCopy (f := fun _ => m2) hx hi) hid⟩

end

/-! ### A command fails, and its context with it (R247) -/

@[simp] theorem State.ctxOf_live {s : State} {home : Nat} {th : Thread} (h : mget s.threads home = some th) : s.ctxOf home false = th.copy := by
  simp [State.ctxOf, h]

theorem modCtx_live {s : State} {home : Nat} {th : Thread} (h : mget s.threads home = some th) (f : Eng → Eng) :
    mget (s.modCtx home false f).threads home = some { th with copy := f th.copy } := by
  unfold State.modCtx
  rw [if_pos (by simp [h])]
  simp [mget_mmod, h, Thread.modCtx]

theorem lowerOpc_live {s : State} {home : Nat} {th : Thread} (h : mget s.threads home = some th) (n : Nat) :
    mget (s.lowerOpc home false n).threads home = some { th with cpOut := th.cpOut - n } := by
  unfold State.lowerOpc
  dsimp only
  rw [if_pos (by simp [h])]
  simp [mget_mmod, h]

/-- The commands of a context that are discarded leave the queues; memory and the rest of the context stay. -/
theorem discardCtx_spec {s : State} {home : Nat} {th : Thread} (h : mget s.threads home = some th) (drop : Nat → Bool) :
    let u := s.discardCtx home false drop
    u.mem = s.mem ∧ (∃ y, mget u.threads home = some y ∧ y.copy = th.copy) ∧
      ∀ c, (u.core c).copyQ = (s.core c).copyQ.filter fun m => !(m.home == home && drop m.n) := by
  unfold State.discardCtx
  extract_lets copies mats left s1 s2 s3 s4 live
  have hq (c : Nat) : (s1.core c).copyQ = (s.core c).copyQ.filter fun m => !(m.home == home && drop m.n) := by
    unfold s1 State.core mgetD
    rw [mget_mapValues]
    cases mget s.cores c <;> rfl
  have hs : SameEngines s1 s4 := (sameEngines_lowerOpc _ _ _ _).trans
    ((sameEngines_foldl (fun _ _ => sameEngines_endPeer _ _ _ _ _ _) _ _).trans
      (sameEngines_foldl (fun _ _ => sameEngines_endPeer _ _ _ _ _ _) _ _))
  have ht : s4.threads = s2.threads :=
    (foldl_keeps State.threads _ (fun _ _ => State.endPeer_threads _ _ _ _ _ _) _ _).trans
      (foldl_keeps State.threads _ (fun _ _ => State.endPeer_threads _ _ _ _ _ _) _ _)
  refine ⟨hs.mem, ?_, fun c => (hs.copyQ c).trans (hq c)⟩
  exact ⟨{ th with cpOut := th.cpOut - _ }, (congrArg (mget · home) ht).trans (lowerOpc_live (s := s1) h _), rfl⟩

/-- A command that fails leaves the queues with the later ones of its context, which has failed, and its record waits to be written. -/
theorem failCmd_eq {s : State} {home tenant n : Nat} {th : Thread} (hr : s.faultRoom tenant = true) (ht : mget s.threads home = some th)
    (hn : th.copy.cnt < n) (hf : th.copy.failed = none) (c launch cause : Nat) : ∃ ids note,
    s.failCmd c home launch tenant n false cause =
      (List.foldl (fun u id => u.forgetOp (2 ^ 40 + cmdTag id))
        ((s.modCtx home false fun e => { e with failed := some (n, cause) }).discardCtx home false (n ≤ ·)) ids).postFault tenant note := by
  unfold State.failCmd
  simp only [hr, State.ctxOf_live ht, hf, if_neg (Nat.not_le.mpr hn), Bool.not_true, Bool.false_eq_true, if_false]
  exact ⟨_, _, rfl⟩

theorem failCmd_fails {s : State} {home tenant n : Nat} {th : Thread} (hr : s.faultRoom tenant = true) (ht : mget s.threads home = some th)
    (hn : th.copy.cnt < n) (hf : th.copy.failed = none) (c launch cause : Nat) :
    let u := s.failCmd c home launch tenant n false cause
    u.mem = s.mem ∧ (u.ctxOf home false).failed = some (n, cause) ∧ ∀ x ∈ (u.core c).copyQ, x.home = home → x.n < n := by
  have hctx := modCtx_live ht fun e => { e with failed := some (n, cause) }
  obtain ⟨hmem, ⟨y, hy, hcopy⟩, hq⟩ := discardCtx_spec hctx (n ≤ ·)
  obtain ⟨ids, note, he⟩ := failCmd_eq hr ht hn hf c launch cause
  rw [he]
  generalize (s.modCtx home false fun e => { e with failed := some (n, cause) }).discardCtx home false (n ≤ ·) = v at hmem hy hq
  have hs := (sameEngines_foldl (fun u id => sameEngines_forgetOp u (2 ^ 40 + cmdTag id)) ids v).trans (sameEngines_postFault _ tenant note)
  have hthreads := foldl_keeps State.threads (fun u id => u.forgetOp (2 ^ 40 + cmdTag id)) (fun _ _ => rfl) ids v
  refine ⟨hs.mem.trans (hmem.trans (sameEngines_modCtx _ _ _ _).mem), ?_, fun x hx hh => ?_⟩
  · have hlive : mget (State.postFault _ tenant note).threads home = some y := (congrArg (mget · home) hthreads).trans hy
    rw [State.ctxOf_live hlive, hcopy]
  · rw [hs.copyQ, hq] at hx
    simpa [hh] using (List.mem_filter.mp hx).2

/-- A command whose data cannot move fails with the cause that it meets. -/
theorem engineFailed_fails {s w : State} {c i k : Nat} {m : CopyCmd} (ht : s.copyTurn c i = some m) (hp : s.copyPublished c m = true)
    (hm : m.moved = false) (hw : s.moveCopy c m = .fail k w) (hr : w.faultRoom m.tenant = true) (hl : (mget w.threads m.home).isSome = true)
    (hn : (w.ctxOf m.home false).cnt < m.n) (hf : (w.ctxOf m.home false).failed = none) :
    ∃ s', exec (.engineFailed c i k) s = .next s' ∧ s'.mem = w.mem ∧ (s'.ctxOf m.home false).failed = some (m.n, k) ∧
      ∀ x ∈ (s'.core c).copyQ, x.home = m.home → x.n < m.n := by
  obtain ⟨th, hth⟩ := Option.isSome_iff_exists.mp hl
  rw [State.ctxOf_live hth] at hn hf
  have he : exec (.engineFailed c i k) s = .next (w.copyFails c m k) := by
    change execEngineFailed c i k s = _
    simp [execEngineFailed, State.engOutcome, ht, hm, hp, hw]
  exact ⟨_, he, failCmd_fails hr hth hn hf c m.launch k⟩

/-! ### Timelines (R201, R345) -/

/-- The command after the last of the timeline takes it one further. -/
theorem complete_next (e : Eng) (fl : Flg) (h : e.done = []) :
    (e.complete (e.cnt + 1) fl).cnt = e.cnt + 1 ∧ (e.complete (e.cnt + 1) fl).done = [] := by
  simp [Eng.complete, Eng.advance, h]

/-- A later command waits for the ones before it. -/
theorem complete_later (e : Eng) (n : Nat) (fl : Flg) (h : e.done = []) (hn : e.cnt + 1 < n) :
    (e.complete n fl).cnt = e.cnt ∧ (e.complete n fl).done = [n] := by
  have hle : ¬ n ≤ e.cnt := by omega
  have hne : e.cnt + 1 ≠ n := by omega
  simp [Eng.complete, Eng.advance, h, hle, hne]

/-! ### Ordered entries (R105) -/

theorem dropRdc_mem (s : State) (d line : Nat) : (s.dropRdc d line).mem = s.mem :=
  ((kept_modDie _ _ _).trans (kept_countDie _ _ _ _)).mem

theorem invalsOf_mem (s : State) (tag : Nat) : (s.invalsOf tag).mem = s.mem :=
  foldl_keeps State.mem _ (fun u (x : Inval) => foldl_keeps State.mem _ (fun v d => dropRdc_mem v d x.line) x.dies u) _ s

/-- An entry whose slices are all there goes to memory, and leaves the buffer. -/
theorem orderedEntry_completes {s : State} {d l a pa key : Nat} {e : Ord}
    (hf : (s.die d).ordered.find? (fun e => e.launch == l && e.pa == a && s.ordFull e) = some e)
    (hr : s.reach (match s.launch? l with | some x => x.tenant | none => 0) e.va 2 = .at_ pa key none) (hz : s.zeroing (pa / 64) = false) :
    ∃ s', exec (.orderedEntryCompletion d l a) s = .next s' ∧ s'.mem = s.mem.puts (s.keyData key) (place pa (bytesOf (narrowTo e.ty
      (e.slices.foldl (fun v c => ordAdd e.ty v c.2) (widenTo e.ty (ofBytes (s.homeBytes pa (typeBytes e.ty) key))))) (typeBytes e.ty))) ∧
      ∀ y ∈ (s'.die d).ordered, ¬ (y.launch = l ∧ y.pa = a) := by
  have he : exec (.orderedEntryCompletion d l a) s = execOrderedEntryCompletion d l a s := rfl
  unfold execOrderedEntryCompletion at he
  rw [hf] at he
  dsimp -zeta only at he
  extract_lets n tenant w write at he
  have hw : w = (pa, key, none) := by
    have hr' : s.reach tenant e.va 2 = .at_ pa key none := hr
    simp only [w, hr']
  simp only [hw, hz, Bool.false_eq_true, if_false, write] at he
  refine ⟨_, he, ?_, ?_⟩
  · rw [State.modDie_mem, (kept_countDie _ _ _ _).mem]
    exact (invalsOf_mem _ _).trans (performWrite_spec s _ _ _ _).1
  · rintro y hy ⟨hl, ha⟩
    rw [State.die_modDie_self] at hy
    simpa [hl, ha] using (List.mem_filter.mp hy).2

/-! ### The steps of `dens` (R217, R221) -/

/-- A step of a scan adds to what the command has read. -/
theorem regionPoint_reads {s : State} {c i : Nat} {m : CopyCmd} {g : Region} {es : List (Nat × Nat)} (ht : s.copyTurn c i = some m)
    (ho : m.op = 6) (hn : m.read.length < boxCount m.a (shapeRank m.shape))
    (hb : s.resumeBreak (nbits m.b 0 4) (2 ^ 40 + cmdTag m.id) = none) (hg : s.regionFor m.tenant (nbits m.b 0 4) = .ok g)
    (hs : s.regScan (nbits m.b 0 4) g (if keyOf (densCoords g m m.read.length) = 0 then 2 ^ 127 else keyOf (densCoords g m m.read.length) - 1)
      15 = .ok es) :
    ∃ s' vs, exec (.regionPoint c i) s = .next s' ∧ s'.mem = s.mem ∧ s'.threads = s.threads ∧
      ∀ x ∈ (s.core c).copyQ, x.id = m.id → { x with read := x.read ++ vs } ∈ (s'.core c).copyQ := by
  have hstep : ∃ u vs, (u = s ∨ u = s.forgetOp (2 ^ 40 + cmdTag m.id)) ∧
      exec (.regionPoint c i) s = .next (u.modCopy c i fun x => { x with read := x.read ++ vs }) := by
    change ∃ u vs, _ ∧ execRegionPoint c i s = _
    unfold execRegionPoint
    rw [ht]
    dsimp -zeta only
    extract_lets n j k me
    rw [if_neg (by simp [ho, j, n, hn]), show s.resumeBreak k me = none from hb]
    dsimp -zeta only
    rw [show s.regionFor m.tenant k = .ok g from hg]
    dsimp -zeta only
    extract_lets w run cs top leads last inside key
    by_cases hin : inside = 0
    · exact ⟨s, _, .inl rfl, if_pos hin⟩
    · rw [if_neg hin, show s.regScan k g (if key = 0 then 2 ^ 127 else key - 1) 15 = .ok es from hs]
      dsimp only
      exact ⟨_, _, .inr rfl, by simp only [List.append_assoc]; rfl⟩
  obtain ⟨u, vs, hu, he⟩ := hstep
  have hk : SameEngines s u ∧ u.threads = s.threads := by
    rcases hu with rfl | rfl
    · exact ⟨SameEngines.refl _, rfl⟩
    · exact ⟨sameEngines_forgetOp _ _, rfl⟩
  obtain ⟨hs, hth⟩ := hk
  refine ⟨_, vs, he, hs.mem, hth, fun x hx hi => ?_⟩
  exact mem_modCopy (f := fun x => { x with read := x.read ++ vs }) ((hs.copyQ c).symm ▸ hx) (hi.trans (copyTurn_id ht))

end Sys2Proof.Machine
end

/-! The commands of the matrix unit (R247, R251 to R254, R292, R293). -/

section
namespace Sys2Proof.Machine

/-! ### The arbiter grants (R249, R252, R254) -/

/-- Claims move the read pointers of rings, and nothing else of the engines. -/
theorem sameEngines_claimSlots {c : Nat} {m : MatCmd} {ks : List Nat} {s w : State} {vs : List (Nat × Nat)}
    (h : s.claimSlots c m ks = some (vs, w)) : SameEngines s w := by
  induction ks generalizing s w vs with
  | nil =>
    obtain ⟨-, rfl⟩ := Prod.mk.inj (Option.some.inj h)
    exact SameEngines.refl s
  | cons k ks ih =>
    unfold State.claimSlots at h
    split at h
    · cases h
    · split at h
      · cases h
      · next hc =>
        obtain ⟨-, rfl⟩ := Prod.mk.inj (Option.some.inj h)
        exact (sameEngines_modRing _ _ _ _).trans (ih hc)

theorem readyTile_ready {s : State} {c : Nat} {m : MatCmd} (h : s.readyTile c = some m) : s.atArbiter m = true ∧ s.readyNow c m = true := by
  simpa using List.find?_some h

/-- A drain is granted at its turn, where a buffer is free. -/
theorem readyTile_drain {s : State} {c : Nat} {m : MatCmd} (h : s.readyTile c = some m) (ho : m.op = 12) (hf : s.drainFails m = none) :
    s.matTurn m = true ∧ s.drainFree (clusterOf c) = true := by
  obtain ⟨ha, hn⟩ := readyTile_ready h
  unfold State.atArbiter at ha
  unfold State.readyNow at hn
  rw [if_pos ho, Bool.and_eq_true] at ha
  rw [if_pos ho, hf] at hn
  exact ⟨ha.2, hn⟩

/-- The cluster after a credit of core `c` is spent. -/
def State.spent (s : State) (k c : Nat) : State :=
  s.modCluster k fun x => { x with credit := mput x.credit c (mgetD x.credit c 0 - 1), at_ := (c % 8 + 1) % 8 }

section
variable {s : State} {k c : Nat} {m : MatCmd} (hc : s.nextGrant k (s.cluster k).at_ (fun c => mgetD (s.cluster k).credit c 0) = some c)
  (hm : (s.spent k c).readyTile c = some m)
include hc

theorem exec_tileGrant : exec (.tileGrant k) s = .next ((s.spent k c).grantTile c) := by
  change execTileGrant k s = _
  unfold execTileGrant
  dsimp only
  rw [hc]
  rfl

include hm

theorem tileGrant_drain (ho : m.op = 12) (hf : (s.spent k c).drainFails m = none) : ∃ s', exec (.tileGrant k) s = .next s' ∧ s'.mem = s.mem ∧
    ∀ x ∈ (s.core c).matQ, x.id = m.id → { x with granted := 1 } ∈ (s'.core c).matQ := by
  have hg : (s.spent k c).grantTile c = (s.spent k c).modMat c m.id fun x => { x with granted := 1 } := by
    unfold State.grantTile
    simp only [hm, ho, hf, if_true]
  exact ⟨_, exec_tileGrant hc, by rw [hg]; rfl, fun x hx hi => hg ▸ mem_modMat (f := fun x => { x with granted := 1 }) hx hi⟩

theorem tileGrant_operation (ho : m.op ≠ 12) (hf : (s.spent k c).tileFails c m = none) {vs : List (Nat × Nat)} {w : State}
    (hw : (s.spent k c).claimSlots c m m.rings = some (vs, w)) :
    ∃ s', exec (.tileGrant k) s = .next s' ∧ s'.mem = s.mem ∧ mget (s'.cluster k).credit c = some (mgetD (s.cluster k).credit c 0 - 1) ∧
      ∀ x ∈ (s.core c).matQ, x.id = m.id → { x with granted := x.granted + 1, slots := x.slots ++ vs } ∈ (s'.core c).matQ := by
  have hg : (s.spent k c).grantTile c = w.modMat c m.id fun x => { x with granted := x.granted + 1, slots := x.slots ++ vs } := by
    unfold State.grantTile
    simp only [hm, if_neg ho, hf, hw]
  have hs := sameEngines_claimSlots hw
  refine ⟨_, exec_tileGrant hc, ?_, ?_, fun x hx hi => ?_⟩
  · rw [hg]; exact hs.mem
  · rw [hg, modMat_cluster, hs.cluster, State.spent, State.cluster_modCluster, if_pos rfl]
    exact mget_mput_self _ _ _
  · rw [hg]
    exact mem_modMat (f := fun x => { x with granted := x.granted + 1, slots := x.slots ++ vs }) ((hs.matQ c).symm ▸ hx) hi

end

/-- With no operation ready the round is over, and its credit is lost. -/
theorem tileGrant_roundOver {s : State} {k : Nat} (h1 : s.nextGrant k (s.cluster k).at_ (fun c => mgetD (s.cluster k).credit c 0) = none)
    (h2 : s.nextGrant k 0 s.matWeight = none) : ∃ s', exec (.tileGrant k) s = .next s' ∧ (s'.cluster k).credit = [] ∧
      (s'.cluster k).at_ = 0 ∧ s' = { s with clusters := s'.clusters } := by
  have he : exec (.tileGrant k) s = .next (if (s.cluster k).credit.isEmpty && (s.cluster k).at_ == 0 then s
      else s.modCluster k fun x => { x with credit := [], at_ := 0 }) := by
    change execTileGrant k s = _
    unfold execTileGrant
    dsimp only
    rw [h1]
    dsimp only
    rw [h2]
  refine ⟨_, he, ?_⟩
  split
  · next h => simpa using h
  · rw [State.cluster_modCluster, if_pos rfl]
    exact ⟨rfl, rfl, rfl⟩

/-! ### Accumulators -/

/-- An accumulator is as it has been written; memory and the clusters stay. -/
theorem setAcc_spec (s : State) (c k : Nat) (v : List (BitVec 32)) : let u := s.setAcc c k v
    u.accData c k = v ∧ u.mem = s.mem ∧ u.clusters = s.clusters := by
  have h := sameEngines_mendLines s (sramLine 5 c (64 * k)) 64
  unfold State.setAcc
  refine ⟨?_, h.mem, h.clusters⟩
  rw [State.accData, State.core_modCore_self]
  exact mgetD_mput_self _ _ _ _

/-- A matrix command that is complete has left its queue. -/
theorem matDone_spec (s : State) (c : Nat) (m : MatCmd) (fl : Flg) : let u := s.matDone c m fl
    u.mem = s.mem ∧ (∀ k, u.accData c k = s.accData c k) ∧ ∀ x ∈ (u.core c).matQ, x.id ≠ m.id := by
  unfold State.matDone
  extract_lets u
  have h := sameEngines_modCtx u m.home true fun e => e.complete m.n fl
  refine ⟨h.mem, fun k => (h.accData c k).trans ?_, fun x hx => ?_⟩
  · unfold u State.accData
    rw [State.core_modCore_self]
  · rw [h.matQ, State.core_modCore_self] at hx
    simpa using (List.mem_filter.mp hx).2

/-! ### Retirement (R251, R291, R292) -/

/-- `mzero` clears its accumulator and is complete. -/
theorem tileRetirement_mzero {s : State} {c i : Nat} {m : MatCmd} (hi : s.matCmd? c i = some m) (ho : m.op = 11) (ht : s.matTurn m = true)
    (ha : m.acc < s.accCount m.launch) :
    ∃ s', exec (.tileRetirement c i) s = .next s' ∧ s'.accData c (s.accIndex c m.launch m.acc) = List.replicate 1024 0 ∧ s'.mem = s.mem ∧
      ∀ x ∈ (s'.core c).matQ, x.id ≠ m.id := by
  have he : exec (.tileRetirement c i) s = .next (((s.setAcc c (s.accIndex c m.launch m.acc) (List.replicate 1024 0)).matDone c m 0).lowerOpc
      m.home true 1) := by
    change execTileRetirement c i s = _
    unfold execTileRetirement
    rw [hi]
    simp only [ho, ht, if_true, if_neg (Nat.not_le.mpr ha), Bool.not_true, Bool.false_eq_true, if_false]
  obtain ⟨hz, hmem, -⟩ := setAcc_spec s c (s.accIndex c m.launch m.acc) (List.replicate 1024 0)
  generalize s.setAcc c _ _ = u at he hz hmem
  obtain ⟨dmem, dacc, dq⟩ := matDone_spec u c m 0
  have hl := sameEngines_lowerOpc (u.matDone c m 0) m.home true 1
  exact ⟨_, he, (hl.accData _ _).trans ((dacc _).trans hz), hl.mem.trans (dmem.trans hmem), fun x hx => dq x (hl.matQ c ▸ hx)⟩

/-- The product that the next operation of a command leaves in its accumulator, of operands without scales. -/
def State.nextProduct (s : State) (c : Nat) (m : MatCmd) : List (BitVec 32) × Flg :=
  let mine := m.slots.take m.rings.length
  tileProduct m (s.accData c (s.accIndex c m.launch m.acc))
    (tileRows m.fmta m.sparseA (s.slotBytes c m m.a m.sparseA (if placeRing m.a then mine.head? else none)))
    (tileRows m.fmtb m.sparseB (s.slotBytes c m m.b m.sparseB (if placeRing m.b then mine.getLast? else none))) [] []

/-- An operation that has written its accumulator: its ring slots pop, and the command counts it. -/
def State.retired (s : State) (c i : Nat) (m : MatCmd) : State :=
  (((m.slots.take m.rings.length).foldl (fun s x => s.modRing c x.1 fun g => g.retire x.2) s).modMat c i fun x =>
    { x with retired := x.retired + 1, slots := x.slots.drop m.rings.length, grans := m.grans }).lowerOpc m.home true 1
    |>.corrected c m.who m.launch m.tenant

theorem retired_spec (s : State) (c i : Nat) (m : MatCmd) :
    (s.retired c i m).mem = s.mem ∧ ∀ k, (s.retired c i m).accData c k = s.accData c k := by
  have hr := sameEngines_foldl (fun u (x : Nat × Nat) => sameEngines_modRing u c x.1 fun g => g.retire x.2) (m.slots.take m.rings.length) s
  unfold State.retired
  generalize List.foldl _ s _ = u at hr
  have hc := (sameEngines_lowerOpc (u.modMat c i fun x =>
    { x with retired := x.retired + 1, slots := x.slots.drop m.rings.length, grans := m.grans }) m.home true 1).trans
      (sameEngines_corrected _ c m.who m.launch m.tenant)
  exact ⟨hc.mem.trans hr.mem, fun k => (hc.accData c k).trans ((modMat_accData _ k).trans (hr.accData c k))⟩

/-- A tile operation whose operands have no scales retires: its product is in the accumulator. -/
theorem tileRetirement_product {s : State} {c i : Nat} {m : MatCmd} (hi : s.matCmd? c i = some m) (ho : m.op ≠ 11) (ht : m.tile = true)
    (hg : m.retired < m.granted) (hb : s.tileBehind m = false) (hbad : s.tileBad c m = false) (ha : scaledOp m.fmta = false)
    (hs : scaledOp m.fmtb = false) : ∃ s', exec (.tileRetirement c i) s = .next s' ∧ s'.mem = s.mem ∧
      s'.accData c (s.accIndex c m.launch m.acc) = (s.nextProduct c m).1 := by
  obtain ⟨hz, hmem, -⟩ := setAcc_spec s c (s.accIndex c m.launch m.acc) (s.nextProduct c m).1
  have he : exec (.tileRetirement c i) s =
      (let u := (s.setAcc c (s.accIndex c m.launch m.acc) (s.nextProduct c m).1).retired c i m
       .next (if m.retired + 1 = m.tiles then u.matDone c m (s.nextProduct c m).2
        else if (s.nextProduct c m).2 = 0 then u
        else u.modCtx m.home true fun e => { e with flags := e.flags ++ [(m.n, (s.nextProduct c m).2.toNat)] })) := by
    change execTileRetirement c i s = _
    unfold execTileRetirement
    rw [hi]
    simp only [if_neg ho, ht, hb, hbad, readScales, ha, hs, decide_eq_false (Nat.not_le.mpr hg), Bool.not_true, Bool.or_false,
      Bool.false_eq_true, if_false]
    split <;> rfl
  obtain ⟨rmem, racc⟩ := retired_spec (s.setAcc c (s.accIndex c m.launch m.acc) (s.nextProduct c m).1) c i m
  generalize State.retired _ c i m = u at he rmem racc
  by_cases hlast : m.retired + 1 = m.tiles
  · obtain ⟨dmem, dacc, -⟩ := matDone_spec u c m (s.nextProduct c m).2
    exact ⟨_, he.trans (congrArg _ (if_pos hlast)), dmem.trans (rmem.trans hmem), (dacc _).trans ((racc _).trans hz)⟩
  · have h : SameEngines u (if (s.nextProduct c m).2 = 0 then u else u.modCtx m.home true fun e =>
        { e with flags := e.flags ++ [(m.n, (s.nextProduct c m).2.toNat)] }) :=
      sameEngines_ite (SameEngines.refl u) (sameEngines_modCtx _ _ _ _)
    exact ⟨_, he.trans (congrArg _ (if_neg hlast)), h.mem.trans (rmem.trans hmem), (h.accData _ _).trans ((racc _).trans hz)⟩

/-! ### Drains (R254, R293) -/

/-- The state after a drain has copied its accumulator into a buffer of its cluster. -/
def State.drainCopied (s : State) (c i : Nat) (m : MatCmd) : State :=
  s.modCluster (clusterOf c) fun x =>
    { x with drains := x.drains ++ [{ core := c, id := i, data := s.accData c (s.accIndex c m.launch m.acc) }],
             copied := x.copied ++ [(c, m.who, m.launch, m.tenant)] }

theorem exec_drainTurn {s : State} {c i : Nat} {m : MatCmd} (hi : s.matCmd? c i = some m) (ho : m.op = 12) (hd : m.drained = false)
    (hg : m.granted ≠ 0) (hr : s.rowHeld c = false) (hf : s.drainFails m = none) (hb : s.accBad c (s.accIndex c m.launch m.acc) = false) :
    ∃ f, exec (.drainTurn c i) s = .next (State.modMat (if m.c.getLsbD 6 then
      (s.drainCopied c i m).setAcc c (s.accIndex c m.launch m.acc) (List.replicate 1024 0) else s.drainCopied c i m) c i f) := by
  change ∃ f, execDrainTurn c i s = _
  unfold execDrainTurn
  rw [hi]
  dsimp only
  rw [if_neg (by simp [ho, hd, hg, hr]), hf]
  dsimp only
  rw [if_neg (by simp [hb])]
  exact ⟨_, rfl⟩

/-- A drain that has been granted takes its buffer, and clears its accumulator if it says so. -/
theorem drainTurn_copies {s : State} {c i : Nat} {m : MatCmd} (hi : s.matCmd? c i = some m) (ho : m.op = 12) (hd : m.drained = false)
    (hg : m.granted ≠ 0) (hr : s.rowHeld c = false) (hf : s.drainFails m = none) (hb : s.accBad c (s.accIndex c m.launch m.acc) = false) :
    ∃ s', exec (.drainTurn c i) s = .next s' ∧ s'.mem = s.mem ∧
      (s'.cluster (clusterOf c)).drains = (s.cluster (clusterOf c)).drains ++
        [{ core := c, id := i, data := s.accData c (s.accIndex c m.launch m.acc) }] ∧
      (m.c.getLsbD 6 = true → s'.accData c (s.accIndex c m.launch m.acc) = List.replicate 1024 0) := by
  obtain ⟨f, he⟩ := exec_drainTurn hi ho hd hg hr hf hb
  obtain ⟨hz, hmem, hcl⟩ := setAcc_spec (s.drainCopied c i m) c (s.accIndex c m.launch m.acc) (List.replicate 1024 0)
  have hdr : ((s.drainCopied c i m).cluster (clusterOf c)).drains = (s.cluster (clusterOf c)).drains ++
      [{ core := c, id := i, data := s.accData c (s.accIndex c m.launch m.acc) }] := by
    rw [State.drainCopied, State.cluster_modCluster, if_pos rfl]
  by_cases h6 : m.c.getLsbD 6 = true
  · rw [if_pos h6] at he
    exact ⟨_, he, hmem, (congrArg (fun x => (mgetD x (clusterOf c) Cluster.reset).drains) hcl).trans hdr,
      fun _ => (modMat_accData _ _).trans hz⟩
  · rw [if_neg h6] at he
    exact ⟨_, he, rfl, hdr, fun h => absurd h h6⟩

/-- A drain that is complete has left its queue. -/
theorem drainDone_spec (s : State) (c : Nat) (m : MatCmd) (fl : Flg) :
    (s.drainDone c m fl).mem = s.mem ∧ ∀ x ∈ ((s.drainDone c m fl).core c).matQ, x.id ≠ m.id := by
  unfold State.drainDone
  extract_lets u
  obtain ⟨dmem, -, dq⟩ := matDone_spec u c m fl
  have h := (sameEngines_lowerOpc (u.matDone c m fl) m.home true 1).trans (sameEngines_endPeer _ c m.who m.launch m.id m.peer)
  exact ⟨h.mem.trans dmem, fun x hx => dq x (h.matQ c ▸ hx)⟩

section
variable {s w : State} {c i k : Nat} {m : MatCmd} {data : List (BitVec 32)} {gs : List Nat} (hi : s.matCmd? c i = some m)
  (hd : s.drainData c i = some data) (hb : s.drainBehind m = false) (hv : m.moved = false) (hw : s.moveDrain c m data = (.moved w, k, gs))
include hi hd hb hv hw

theorem exec_drainComplete_moves : exec (.drainComplete c i) s = .next (if k < (drainTargets m).length
    then w.modMat c i fun x => { x with sent := k, grans := gs }
    else if w.settled (m.owner c) then w.drainEnds c m (drainValues m data).2
    else w.modMat c i fun x => { x with sent := k, grans := gs, moved := true }) := by
  change execDrainComplete c i s = _
  unfold execDrainComplete
  rw [hi, hd]
  dsimp only
  rw [hw]
  simp only [hb, hv, Bool.false_eq_true, if_false]

/-- With its last element written and answered a drain is complete. -/
theorem drainComplete_last (hr : m.refused = false) (hk : (drainTargets m).length ≤ k) (hs : w.settled (m.owner c) = true) :
    ∃ s', exec (.drainComplete c i) s = .next s' ∧ s'.mem = w.mem ∧ ∀ x ∈ (s'.core c).matQ, x.id ≠ m.id := by
  have he := exec_drainComplete_moves hi hd hb hv hw
  have hends : w.drainEnds c m (drainValues m data).2 = w.drainDone c m (drainValues m data).2 := if_pos (by simp [hr])
  rw [if_neg (Nat.not_lt.mpr hk), if_pos hs, hends] at he
  exact ⟨_, he, drainDone_spec w c m (drainValues m data).2⟩

end

/-- Settles O51: commands of the copy engine, ordered entries and scan steps, then commands of the matrix unit. -/
theorem engineEvents : Obligations.EngineEvents := by
  refine ⟨?copyStart, ?copyComplete, ?copyMoves, ?engineFailed, ?timelineNext, ?timelineLater, ?orderedEntry, ?regionPoint, ?tileGrant,
    ?roundOver, ?drainReady, ?mzero, ?tileProduct, ?drainTurn, ?drainComplete⟩
  case copyStart => exact fun s c m hr hc hp => ⟨fun k => copyStart_fails hr hc hp, copyStart_starts hr hc hp⟩
  case copyComplete => exact fun s c i m ht hp hm hr hs => copyComplete_moved ht hp hm hr hs
  case copyMoves =>
    exact fun s c i m ht hp hm hu => ⟨fun w => copyComplete_moves_last ht hp hm hu, fun m2 w => copyComplete_moves_on ht hp hm hu⟩
  case engineFailed => exact fun s c i m w k ht hp hm hw hr hl hn hf => engineFailed_fails ht hp hm hw hr hl hn hf
  case timelineNext => exact fun e fl h => complete_next e fl h
  case timelineLater => exact fun e n fl h hn => complete_later e n fl h hn
  case orderedEntry => exact fun s d l a e pa key hf hr hz => orderedEntry_completes hf hr hz
  case regionPoint => exact fun s c i m g es ht ho hn hb hg hs => regionPoint_reads ht ho hn hb hg hs
  case tileGrant =>
    exact fun s k c m hc hm => ⟨fun ho hf => tileGrant_drain hc hm ho hf, fun ho hf vs w hw => tileGrant_operation hc hm ho hf hw⟩
  case roundOver => exact fun s k h1 h2 => tileGrant_roundOver h1 h2
  case drainReady => exact fun s c m h ho hf => readyTile_drain h ho hf
  case mzero => exact fun s c i m hi ho ht ha => tileRetirement_mzero hi ho ht ha
  case tileProduct => exact fun s c i m hi ho ht hg hb hbad ha hs => tileRetirement_product hi ho ht hg hb hbad ha hs
  case drainTurn => exact fun s c i m hi ho hd hg hr hf hb => drainTurn_copies hi ho hd hg hr hf hb
  case drainComplete =>
    exact fun s c i m data w k gs hi hd hb hr hv hw => ⟨drainComplete_last hi hd hb hv hw hr,
      fun hk => (exec_drainComplete_moves hi hd hb hv hw).trans (congrArg _ (if_pos hk))⟩

end Sys2Proof.Machine
end

/-! Scalar instructions: integer operations, immediates, moves and masks (R67, R113 to R120). -/

section
namespace Sys2Proof.Machine

/-! ### Results of one shape (R113 to R116) -/

theorem scalar3_of_alu3 {i : BitVec 7 → BitVec 7 → BitVec 7 → Instr} {f : Dword → Dword → Dword}
    (hi : ∀ d a b s, exec (i d a b) s = alu3 (reqDAB (i d a b) d a b) d a b f s) : Scalar3 i f :=
  fun d a b => computes_of_simple (hi d a b) fun _ _ _ => rfl

theorem scalar2_of_alu2 {i : BitVec 7 → BitVec 7 → Instr} {f : Dword → Dword}
    (hi : ∀ d a s, exec (i d a) s = alu2 (reqDA (i d a) d a) d a f s) : Scalar2 i f :=
  fun d a => computes_of_simple (hi d a) fun _ _ _ => rfl

/-! A compare writes 1 for true and 0 for false (R109). -/

theorem aluCmpeq_eq (x y : Dword) : aluCmpeq x y = if x = y then 1 else 0 := by
  simp [aluCmpeq, truth]

theorem aluCmpltn_eq (x y : Dword) : aluCmpltn x y = if x.toNat < y.toNat then 1 else 0 := by
  simp [aluCmpltn, truth]

/-- An unsigned compare with an immediate that is zero-extended (R116). -/
theorem aluCmpltn_setWidth (x : Dword) (i : BitVec 10) : aluCmpltn x (i.setWidth 64) = if x.toNat < i.toNat then 1 else 0 := by
  rw [aluCmpltn_eq, BitVec.toNat_setWidth_of_le (by omega)]

/-- Settles O1: the operations of two sources, those of one, and the two with a width code; the compares write 1 and 0 as a condition. -/
theorem integerResults : Obligations.IntegerResults := by
  refine ⟨?word, ?add, ?sub, ?mul, ?mulh, ?mulhn, ?div, ?divn, ?rem, ?remn, ?and, ?or, ?xor, ?andn, ?shl, ?shr, ?sra, ?rotr,
    ?min, ?max, ?minn, ?maxn, ?cmpeq, ?cmplt, ?cmpltn, ?clz, ?ctz, ?popc, ?sext, ?zext⟩
  case word => decide
  case cmpeq =>
    simp only [← aluCmpeq_eq]
    exact scalar3_of_alu3 fun _ _ _ _ => rfl
  case cmplt =>
    simp only [← aluCmplt_eq]
    exact scalar3_of_alu3 fun _ _ _ _ => rfl
  case cmpltn =>
    simp only [← aluCmpltn_eq]
    exact scalar3_of_alu3 fun _ _ _ _ => rfl
  case clz | ctz | popc => exact scalar2_of_alu2 fun _ _ _ => rfl
  case sext | zext => exact fun d a w => computes_of_simple (fun _ => rfl) fun _ _ _ => rfl
  all_goals exact scalar3_of_alu3 fun _ _ _ _ => rfl

/-- Settles O2: each immediate is widened as its operation says; the compares write 1 and 0 as a condition. -/
theorem immediateResults : Obligations.ImmediateResults := by
  refine ⟨fun i => ⟨?addi, ?andi, ?ori, ?xori⟩, fun n => ⟨?shli, ?shri, ?srai, ?roti⟩, fun i => ⟨?seqi, ?slti, ?sltni⟩, ?movi, ?movk, ?sel⟩
  case seqi =>
    simp only [← aluCmpeq_eq]
    exact scalar2_of_alu2 fun _ _ _ => rfl
  case slti =>
    simp only [← aluCmplt_eq]
    exact scalar2_of_alu2 fun _ _ _ => rfl
  case sltni =>
    simp only [← aluCmpltn_setWidth]
    exact scalar2_of_alu2 fun _ _ _ => rfl
  case movi => exact fun d i => computes_of_simple (fun _ => rfl) fun _ _ _ => rfl
  case movk => exact fun d k v => computes_of_simple (fun _ => rfl) fun _ _ _ => rfl
  case sel => exact fun d a b k => computes_of_simple (fun _ => rfl) fun _ _ _ => rfl
  all_goals exact scalar2_of_alu2 fun _ _ _ => rfl

/-- Settles O3: compares and mask logic, moves between masks and registers, and a write of k0. -/
theorem maskResults : Obligations.MaskResults := by
  refine ⟨?kcmp, ?kand, ?kor, ?kxor, ?kandn, ?knot, ?kmov, ?kfirst, ?vtok, ?ktov, ?kpopc, ?vmask, ?zero⟩
  case kcmp => exact fun d a b c => computes_of_simple (fun _ => rfl) fun _ _ _ => rfl
  case kand | kor | kxor | kandn => exact fun d a b => computes_of_simple (fun _ => rfl) fun _ _ _ => rfl
  case knot | kmov | kfirst => exact fun d a => computes_of_simple (fun _ => rfl) fun _ _ _ => rfl
  case vtok | ktov | kpopc => exact fun d a => computes_of_simple (fun _ => rfl) fun _ _ _ => rfl
  case vmask => exact fun d a w => computes_of_simple (fun _ => rfl) fun _ _ _ => rfl
  case zero => exact fun th v n => rfl

end Sys2Proof.Machine
end

/-! Branches, jumps, calls and loops, and the end test of the loop levels (R122 to R126, R184). -/

section
namespace Sys2Proof.Machine

/-! ### Sites with a record (R184) -/

/-- A site that finds no room for its record is held under cause 15, and one that finds room completes. -/
theorem MayExecute.site {q : Req} {i : Instr} {s : State} {t : Nat} {th : Thread} {y : Thread} {nx : Next} {r : Rob}
    {k : State → Nat → Thread → Out} (h : MayExecute q s t th) (hi : exec i s = begin q s k) (hr : r.store = none)
    (hk : let u := s.begun t th q; let v := s.runner t th q
      k u t v = if u.siteFull (coreOf t) v (v.PC q) then .next (holdSite u t v) else .next (finish u t y q nx r)) :
    let u := s.begun t th q; let v := s.runner t th q
    (u.siteFull (coreOf t) v (v.PC q) = false → Completes i s t (advance y.ctx q.pair nx)) ∧
    (u.siteFull (coreOf t) v (v.PC q) = true → Waits i s t 15 u) := by
  intro u v
  refine ⟨fun hf => h.completes hi (hk.trans (if_neg (by simp [u, v, hf]))) hr, fun hf => ?_⟩
  obtain ⟨s', he, ht, hu⟩ := h.waits (e := u.count t v 0x38 1) (c := 15) hi (hk.trans (if_pos hf))
  exact ⟨s', he, by rw [ht, State.thread?_congr (State.count_threads _ _ _ _ _)], (untouched_count u t t v 0x38 1).trans hu⟩

/-- A conditional branch is taken where its condition has the sense that it asks for (R122). -/
theorem records_branch {q : Req} {i : Instr} {k : BitVec 3} {sense : Bool} {disp : Dword} {nx : Thread → Next}
    (hi : ∀ s, exec i s = branch q k sense disp s)
    (hn : ∀ v : Thread, (if v.cond k == sense then .to (v.PC q + scaled disp 2) else .seq) = nx v) : Records q i id nx := by
  intro s t th h u v
  rw [← hn v]
  exact h.site (hi s) rfl rfl

/-- A loop starts, or is skipped at count zero (R125). -/
theorem records_startLoop {q : Req} {i : Instr} {outer : Bool} {cnt : Thread → Dword} {e : BitVec 14} {f : Thread → Thread}
    {nx : Thread → Next} (hi : ∀ s, exec i s = startLoop q outer cnt e s)
    (hz : ∀ v, cnt v = 0 → f v = v.setCtx (·.skipLoop outer) ∧ nx v = .to (v.PC q + scaled (e.setWidth 64) 2 + 4))
    (hs : ∀ v, cnt v ≠ 0 →
      f v = v.setCtx (·.startLoop outer (cnt v) (v.PC q + 4) (v.PC q + scaled (e.setWidth 64) 2)) ∧ nx v = .seq) :
    Records q i f nx := by
  intro s t th h u v
  by_cases hc : cnt v = 0
  · obtain ⟨hf, hn⟩ := hz v hc
    rw [hf, hn]
    refine h.site (hi s) (r := { Rob.none with site := some (v.PC q, .loop (cnt v)) }) rfl ?_
    exact congrArg (ite _ _) (if_pos hc)
  · obtain ⟨hf, hn⟩ := hs v hc
    rw [hf, hn]
    refine h.site (hi s) (r := { Rob.none with site := some (v.PC q, .loop (cnt v)) }) rfl ?_
    exact congrArg (ite _ _) (if_neg hc)

/-- Settles O10: a count of zero skips the loop, and any other starts it; a level's registers are its own. -/
theorem loopResults : Obligations.LoopResults := by
  refine ⟨fun l c e hc => ?started, fun l e => ?skipped, fun l a e => ?counted, fun x n p q => ⟨rfl, rfl, rfl, rfl, rfl, rfl, rfl, rfl⟩⟩
  case started =>
    have hn : c.setWidth 64 ≠ 0 := fun h => hc (by bv_omega)
    exact records_startLoop (fun _ => rfl) (fun _ h => absurd h hn) fun _ _ => ⟨rfl, rfl⟩
  case skipped => exact records_startLoop (fun _ => rfl) (fun _ _ => ⟨rfl, rfl⟩) fun _ h => absurd rfl h
  case counted => exact records_startLoop (fun _ => rfl) (fun v h => ⟨if_pos h, if_pos h⟩) fun v h => ⟨if_neg h, if_neg h⟩

/-! ### Branches, jumps and calls (R122 to R124) -/

/-- An instruction that computes and says where control goes, if neither rests on the words that its thread has received or sent. -/
theorem computes_of_finish {q : Req} {i : Instr} {f : Thread → Thread} {nx : Thread → Next}
    (hi : ∀ s, exec i s = begin q s fun s t th => .next (finish s t (f th) q (nx th)))
    (hf : ∀ th r n, (f { th with ribbon := r, sent := n }).ctx = (f th).ctx ∧ nx { th with ribbon := r, sent := n } = nx th) :
    Computes q i f nx := by
  intro s t th h
  obtain ⟨r, n, -, v⟩ := runner_eq (q := q) h.live
  obtain ⟨hc, hn⟩ := hf th.counted r n
  have := h.completes (r := Rob.none) (hi s) rfl rfl
  rwa [v, hc, hn] at this

section
variable {q : Req} {i : Instr} {link : Bool} {a : BitVec 7} {s : State} {t : Nat} {th : Thread}
  (hi : exec i s = jumpReg q link a s) (h : MayExecute q s t th)
include hi h

/-- A jump to an address in a register, of a word (R124). -/
theorem jumpReg_completes : let v := s.runner t th q; nbits (v.S a) 0 2 = 0 →
    Completes i s t (advance (if link then v.setCtx fun x => { x with lnk := v.PC q + 4 } else v).ctx q.pair (.to (v.S a))) := by
  intro v ha
  exact h.completes hi (if_neg (not_not.mpr ha)) rfl

/-- A target that is no word's address is refused at the jump (R43, R124). -/
theorem jumpReg_faults : let v := s.runner t th q; nbits (v.S a) 0 2 ≠ 0 → Faults i s q (s.begun t th q) t v 0x04 (v.S a) := by
  intro v ha
  exact h.faults hi (if_pos ha)

end

/-- Settles O9: branches are sites, jumps and calls compute, and a jump through a register looks at its target first. -/
theorem flowResults : Obligations.FlowResults := by
  refine ⟨?nop, ?bt, ?bf, ?jmp, ?call, ?ret, ?jr, ?callr, ?jrFaults, ?callrFaults⟩
  case nop => exact computes_of_simple (fun _ => rfl) fun _ _ _ => rfl
  case bt => exact fun k d => records_branch (fun _ => rfl) fun v => by cases v.cond k <;> rfl
  case bf => exact fun k d => records_branch (fun _ => rfl) fun v => by cases v.cond k <;> rfl
  case jmp | call => exact fun d => computes_of_finish (fun _ => rfl) fun _ _ _ => ⟨rfl, rfl⟩
  case ret => exact computes_of_finish (fun _ => rfl) fun _ _ _ => ⟨rfl, rfl⟩
  case jr => exact fun a s t th h => jumpReg_completes (link := false) rfl h
  case callr => exact fun a s t th h => jumpReg_completes (link := true) rfl h
  case jrFaults => exact fun a s t th h => jumpReg_faults (link := false) rfl h
  case callrFaults => exact fun a s t th h => jumpReg_faults (link := true) rfl h

/-! ### The end test (R126) -/

/-- The end test of the outer level, which comes after that of the inner one. -/
def Ctx.outerTest (x : Ctx) (a : Dword) : Ctx :=
  let outer := x.lpc1 != 0 && a == x.lpe1
  let x1 := if outer then { x with lpc1 := x.lpc1 - 1 } else x
  if outer && x1.lpc1 != 0 then { x1 with pc := x1.lps1 } else { x1 with pc := a + 4 }

section
variable {x : Ctx} {a : Dword}

/-- A level that is not active, or does not end here, has no end. -/
theorem levelEnd_false {n e : Dword} (h : n = 0 ∨ a ≠ e) : (n != 0 && a == e) = false := by
  rcases h with rfl | h
  · rfl
  · simp [h]

/-- An active level ends at its last word. -/
theorem levelEnd_true {n e : Dword} (hn : n ≠ 0) (ha : a = e) : (n != 0 && a == e) = true := by
  rw [bne_iff_ne.mpr hn, beq_iff_eq.mpr ha]
  rfl

/-- The body runs again while the count is above one. -/
theorem bodyAgain_true {n : Dword} (h : n ≠ 1) : (n - 1 != 0) = true :=
  bne_iff_ne.mpr (sub_ne_zero.mpr h)

theorem outerTest_passes (h : x.lpc1 = 0 ∨ a ≠ x.lpe1) : x.outerTest a = { x with pc := a + 4 } := by
  unfold Ctx.outerTest
  rw [levelEnd_false h]
  rfl

theorem outerTest_again (hn : x.lpc1 ≠ 0) (ha : a = x.lpe1) (h1 : x.lpc1 ≠ 1) :
    x.outerTest a = { x with lpc1 := x.lpc1 - 1, pc := x.lps1 } := by
  unfold Ctx.outerTest
  rw [levelEnd_true hn ha]
  exact if_pos (bodyAgain_true h1)

theorem outerTest_last (hn : x.lpc1 = 1) (ha : a = x.lpe1) : x.outerTest a = { x with lpc1 := 0, pc := a + 4 } := by
  unfold Ctx.outerTest
  rw [levelEnd_true (hn ▸ by decide) ha, hn, BitVec.sub_self]
  rfl

theorem endTest_passes (h : x.lpc0 = 0 ∨ a ≠ x.lpe0) : endTest x a = x.outerTest a := by
  unfold endTest
  rw [levelEnd_false h]
  rfl

theorem endTest_again (hn : x.lpc0 ≠ 0) (ha : a = x.lpe0) (h1 : x.lpc0 ≠ 1) :
    endTest x a = { x with lpc0 := x.lpc0 - 1, pc := x.lps0 } := by
  unfold endTest
  rw [levelEnd_true hn ha]
  exact if_pos (bodyAgain_true h1)

theorem endTest_last (hn : x.lpc0 = 1) (ha : a = x.lpe0) : endTest x a = Ctx.outerTest { x with lpc0 := 0 } a := by
  unfold endTest
  rw [levelEnd_true (hn ▸ by decide) ha, hn, BitVec.sub_self]
  rfl

end

/-- Settles O11: the inner level's body runs again, or the outer level is tested, which runs its own again or goes on. -/
theorem loopEnds : Obligations.LoopEnds := by
  refine fun x p => ⟨?again, ?last, ?lastAgain, ?lastLast, ?outerAgain, ?outerLast, ?neither⟩
  case again => exact fun hn hp h1 => endTest_again hn hp h1
  case last => exact fun hn hp ho => (endTest_last hn hp).trans (outerTest_passes ho)
  case lastAgain => exact fun hn hp ho hq h1 => (endTest_last hn hp).trans (outerTest_again ho hq h1)
  case lastLast => exact fun hn hp ho hq => (endTest_last hn hp).trans (outerTest_last ho hq)
  case outerAgain => exact fun hi ho hq h1 => (endTest_passes hi).trans (outerTest_again ho hq h1)
  case outerLast => exact fun hi ho hq => (endTest_passes hi).trans (outerTest_last ho hq)
  case neither => exact fun hi ho => (endTest_passes hi).trans (outerTest_passes ho)

end Sys2Proof.Machine
end

/-! `trap` and `brk`, reads of control registers, and the margin instructions (R111, R121, R129 to R132, R169). -/

section
namespace Sys2Proof.Machine

/-- Settles O14: each raises its fault. -/
theorem trapEntries : Obligations.TrapEntries :=
  ⟨fun _ _ _ _ h => h.faults rfl rfl, fun _ _ _ h => h.faults rfl rfl⟩

/-! ### What completing an instruction leaves of the margin unit and of device time -/

/-- Launches, what is in flight, and device time do not differ. -/
structure SameSites (s s' : State) : Prop where
  work : s'.work = s.work
  flight : s'.flight = s.flight
  time : s'.sched.time = s.sched.time

theorem SameSites.refl (s : State) : SameSites s s := ⟨rfl, rfl, rfl⟩

theorem SameSites.trans {a b c : State} (h : SameSites a b) (k : SameSites b c) : SameSites a c :=
  ⟨k.work.trans h.work, k.flight.trans h.flight, k.time.trans h.time⟩

theorem SameBut.sites {s s' : State} (h : SameBut s s') : SameSites s s' := by
  obtain ⟨e, -⟩ := h
  rw [e]
  exact ⟨rfl, rfl, rfl⟩

theorem sameSites_modThread (s : State) (t : Nat) (f : Thread → Thread) : SameSites s (s.modThread t f) := by
  unfold State.modThread
  split <;> exact ⟨rfl, rfl, rfl⟩

theorem sameSites_count (s : State) (t : Nat) (th : Thread) (src k : Nat) : SameSites s (s.count t th src k) := by
  unfold State.count State.countFor
  split <;> exact ⟨rfl, rfl, rfl⟩

theorem sameSites_sampled (s : State) (t c : Nat) : SameSites s (s.sampled t c) := by
  unfold State.sampled
  split
  · split <;> exact ⟨rfl, rfl, rfl⟩
  · exact SameSites.refl s

theorem sameSites_issuedBy (s : State) (t : Nat) (th : Thread) : SameSites s (s.issuedBy t th) := by
  unfold State.issuedBy
  extract_lets c sched s1 s2
  have h1 : SameSites s s1 := ⟨rfl, rfl, rfl⟩
  have h : SameSites s s2 := ((h1.trans (sameSites_count s1 t th 0x02 1)).trans (sameSites_count _ t th 0x10 1)).trans
    (sameSites_sampled _ t 0)
  split
  · exact h
  · exact h.trans (sameSites_count _ _ _ _ _)

/-- An entry that neither stores nor merges flags leaves of its commit nothing of this but its record (R183, R229). -/
theorem sameSites_commit {s : State} {t : Nat} {th : Thread} (e : Rob) (h : s.thread? t = some th) (hs : e.store = none)
    (hm : e.merge = none) : ∃ u, SameSites s u ∧ SameSites (u.record t th e.site) (s.commit t e) := by
  refine ⟨if e.leaves then s.modThread t Thread.detach else s, ?_, ?_⟩
  · split
    · exact sameSites_modThread _ _ _
    · exact SameSites.refl s
  · unfold State.commit
    simp only [h, hs, hm]
    exact sameSites_count _ _ _ _ _

/-- An instruction that completes leaves of this nothing but its record, which leaves as it commits. -/
theorem sameSites_finish (s : State) (t : Nat) (th : Thread) (q : Req) (nx : Next) (e : Rob) (hs : e.store = none) (hm : e.merge = none) :
    ∃ u y, SameSites s u ∧ y.launch = th.launch ∧ y.who = th.who ∧
      SameSites (u.record t y (if th.rob = [] ∧ e.load = none then e.site else none)) (finish s t th q nx e) := by
  unfold finish
  rw [complete_eq]
  extract_lets pre x u y
  have hu : SameSites s (u.setThread t y) :=
    ((sameSites_issuedBy s t th).trans (sameBut_sendLate _ _ _).sites).trans ⟨rfl, rfl, rfl⟩
  by_cases hc : th.rob = [] ∧ e.load = none
  · obtain ⟨w, hw, hr⟩ := sameSites_commit (th.entryOf pre q nx e) (State.thread?_setThread_self u t y) hs hm
    rw [if_pos hc, if_pos hc]
    exact ⟨w, y, hu.trans hw, rfl, rfl, hr⟩
  · rw [if_neg hc, if_neg hc]
    exact ⟨u.setThread t y, y, hu, rfl, rfl, ⟨rfl, rfl, rfl⟩⟩

/-- An instruction without a record leaves all of this. -/
theorem sameSites_finish_plain (s : State) (t : Nat) (th : Thread) (q : Req) (nx : Next) : SameSites s (finish s t th q nx) := by
  obtain ⟨u, y, hu, -, -, hf⟩ := sameSites_finish s t th q nx Rob.none rfl rfl
  have hr : (if th.rob = [] ∧ Rob.none.load = none then Rob.none.site else none) = none := ite_self _
  rw [hr] at hf
  exact hu.trans hf

/-! ### Reads of control registers (R121, R129) -/

/-- A reading of device time changes the time alone. -/
theorem untouched_timed (s : State) (t : Nat) : Untouched s s.timed t := by
  constructor <;> intros <;> rfl

/-- R121: TIME is read as it is when the instruction completes, and it never falls. -/
theorem ctlr_time {d : BitVec 7} {s : State} {t : Nat} {th : Thread}
    (h : MayExecute { reqD (.ctlr d 0x101) d with legal := true, level := 0 } s t th) :
    let req : Req := { reqD (.ctlr d 0x101) d with legal := true, level := 0 }
    let u := s.begun t th req; let v := s.runner t th req
    ∃ s', exec (.ctlr d 0x101) s = .next s' ∧ u.sched.time ≤ s'.sched.time ∧ Untouched s s' t ∧
      (s'.thread? t).map Thread.ctx = some (advance (v.setS d (BitVec.ofNat 64 s'.sched.time)).ctx false .seq) := by
  intro req u v
  have he : exec (.ctlr d 0x101) s = .next (finish u.timed t (v.setS d (BitVec.ofNat 64 u.now)) req .seq) := h.runs _
  obtain ⟨hc, hu⟩ := finish_spec u.timed t (v.setS d (BitVec.ofNat 64 u.now)) req .seq Rob.none rfl
  have htime : (finish u.timed t (v.setS d (BitVec.ofNat 64 u.now)) req .seq).sched.time = u.now :=
    (sameSites_finish_plain u.timed t _ req .seq).time
  generalize finish u.timed t _ req .seq = s' at he hc hu htime
  refine ⟨s', he, ?_, ((untouched_begun s t th req).trans (untouched_timed u t)).trans hu, ?_⟩
  · rw [htime]
    exact Nat.le_add_right _ _
  · rw [htime]
    exact hc

/-- Settles O17: TIME moves on as it is read, and every other reading only computes. -/
theorem controlReads : Obligations.ControlReads := by
  refine ⟨fun d n s t th h => ?ctlr, fun d s t th h => ctlr_time h, fun d s t th h => ?fstat, fun d s t th h => ?fidx⟩
  case ctlr => exact fun hn => h.completes rfl (if_neg hn) rfl
  case fstat => exact h.completes rfl rfl rfl
  case fidx => exact h.completes rfl rfl rfl

/-! ### Margins (R130 to R132, R169, R183) -/

/-- Whether a thread records rests on its launch alone. -/
theorem records_congr {s s' : State} (hw : s'.work = s.work) {y th : Thread} (hl : y.launch = th.launch) : s'.records y = s.records th := by
  unfold State.records State.launchOf State.launch?
  rw [hw, hl]

/-- A record of the thread has left for the live margin, and does not wait for its entry of the site map. -/
def PickSent (s s' : State) (th : Thread) (site : SiteRec) : Prop :=
  ∃ m, s'.flight.margins = s.flight.margins ++ [m] ∧ m.site = site ∧ m.who = th.who ∧ m.launch = th.launch ∧ m.waits = false

/-- A pick's record names its slot, so that it does not wait for its entry of the site map (R183, R184). -/
theorem record_pick {s : State} {t : Nat} {th : Thread} {pc : Dword} {k v n : Nat} (h : s.records th = true) :
    PickSent s (s.record t th (some (pc, .pick k v n))) th (.pick k v n) := by
  unfold State.record
  simp only [h, if_true]
  exact ⟨_, rfl, rfl, rfl, rfl, rfl⟩

/-- A thread of no launch, or of a FROZEN one, records nothing. -/
theorem record_frozen {s : State} {t : Nat} {th : Thread} {r : Option (Dword × SiteRec)} (h : s.records th = false) : s.record t th r = s := by
  cases r <;> simp [State.record, h]

/-- An instruction whose record is a pick's, completed: the record is at once on its way to the live margin, if its launch is not FROZEN;
of a thread with earlier instructions that have not committed it waits with its entry (R183, R229). -/
theorem finish_pick (s : State) (t : Nat) (th : Thread) (f : Ctx → Ctx) (q : Req) (nx : Next) (pc : Dword) (k v n : Nat) :
    let s' := finish s t (th.setCtx f) q nx { Rob.none with site := some (pc, .pick k v n) }
    (th.rob = [] → s.records th = true → PickSent s s' th (.pick k v n)) ∧
    (th.rob = [] → s.records th = false → s'.flight.margins = s.flight.margins) ∧
    (th.rob ≠ [] → s'.flight.margins = s.flight.margins) ∧
    ∃ y, s'.thread? t = some y ∧ (th.rob ≠ [] → ∃ e, y.rob = th.rob ++ [e] ∧ e.site = some (pc, .pick k v n)) := by
  intro s'
  obtain ⟨u, y, hu, hl, hw, hs'⟩ := sameSites_finish s t (th.setCtx f) q nx { Rob.none with site := some (pc, .pick k v n) } rfl rfl
  have hrec : u.records y = s.records th := records_congr hu.work hl
  have hm : s'.flight.margins = (u.record t y (if th.rob = [] ∧ Rob.none.load = none then some (pc, .pick k v n) else none)).flight.margins :=
    congrArg Flight.margins hs'.flight
  refine ⟨fun hr hf => ?_, fun hr hf => ?_, fun hr => ?_, ?_⟩
  · obtain ⟨m, ha, hsite, hwho, hlaunch, hwaits⟩ := record_pick (t := t) (pc := pc) (k := k) (v := v) (n := n) (hrec.trans hf)
    rw [if_pos ⟨hr, rfl⟩, ha, hu.flight] at hm
    exact ⟨m, hm, hsite, hwho.trans hw, hlaunch.trans hl, hwaits⟩
  · rw [record_frozen (hrec.trans hf), hu.flight] at hm
    exact hm
  · rw [if_neg fun hc => hr hc.1] at hm
    exact hm.trans (congrArg Flight.margins hu.flight)
  · obtain ⟨_, w, -, hth⟩ := finish_threads s t (th.setCtx f) q nx { Rob.none with site := some (pc, .pick k v n) } rfl rfl
    refine ⟨_, (hth t).trans (if_pos rfl), fun hr => ?_⟩
    rw [Thread.settle, if_neg fun hc => hr hc.1]
    exact ⟨_, rfl, rfl⟩

/-- An instruction that has been seen to complete leaves all but its thread. -/
theorem completes_of_exec {i : Instr} {s : State} {t : Nat} {th y : Thread} {q : Req} {nx : Next} {r : Rob}
    (he : exec i s = .next (finish (s.begun t th q) t y q nx r)) (hr : r.store = none) : Completes i s t (advance y.ctx q.pair nx) := by
  obtain ⟨hc, hu⟩ := finish_spec (s.begun t th q) t y q nx r hr
  exact ⟨_, he, hc, (untouched_begun s t th q).trans hu⟩

section
variable {k : BitVec 12} {s : State} {t : Nat} {th : Thread} (h : MayExecute (req0 (.mnote k)) s t th)
include h

/-- R132: a note of the slot that has a record completes it. -/
theorem exec_mnote {p : Pick} : let u := s.begun t th (req0 (.mnote k)); let v := s.runner t th (req0 (.mnote k))
    k.toNat < u.nslots v → v.ctx.pick = some p → p.slot = k.toNat →
    exec (.mnote k) s = .next (finish u t (v.setCtx fun x => { x with pick := none }) (req0 (.mnote k)) .seq
      { Rob.none with site := some (v.ctx.pc, .pick k.toNat p.variant (Nat.min (p.cycles / 256) 65535)) }) := by
  intro u v hk hp hs
  refine (h.runs _).trans ((if_neg (Nat.not_le.mpr hk)).trans ?_)
  split
  · next p' e =>
    cases hp.symm.trans e
    exact if_pos hs
  · next e => cases hp.symm.trans e

/-- R132: it goes on without the record, which leaves for the live margin as it commits. -/
theorem mnote_record {p : Pick} : let u := s.begun t th (req0 (.mnote k)); let v := s.runner t th (req0 (.mnote k))
    k.toNat < u.nslots v → v.ctx.pick = some p → p.slot = k.toNat →
    Completes (.mnote k) s t (advance { v.ctx with pick := none } false .seq) ∧
    ∃ s' y, exec (.mnote k) s = .next s' ∧ s'.thread? t = some y ∧
      let site : SiteRec := .pick k.toNat p.variant (Nat.min (p.cycles / 256) 65535)
      (v.rob = [] → u.records v = true → PickSent u s' v site) ∧
      (v.rob = [] → u.records v = false → s'.flight.margins = u.flight.margins) ∧
      (v.rob ≠ [] → s'.flight.margins = u.flight.margins ∧ ∃ e, y.rob = v.rob ++ [e] ∧ e.site = some (v.ctx.pc, site)) := by
  intro u v hk hp hs
  have he := exec_mnote h hk hp hs
  obtain ⟨hrec, hfrozen, hmargins, y, hy, hrob⟩ := finish_pick u t v (fun x => { x with pick := none }) (req0 (.mnote k)) .seq v.ctx.pc
    k.toNat p.variant (Nat.min (p.cycles / 256) 65535)
  refine ⟨completes_of_exec he rfl, _, y, he, hy, ?_⟩
  exact ⟨hrec, hfrozen, fun hr => ⟨hmargins hr, hrob hr⟩⟩

/-- R132: a note of another slot than the record's, or without a record, has no effect. -/
theorem mnote_other : let u := s.begun t th (req0 (.mnote k)); let v := s.runner t th (req0 (.mnote k))
    k.toNat < u.nslots v → (∀ p, v.ctx.pick = some p → p.slot ≠ k.toNat) → Completes (.mnote k) s t (advance v.ctx false .seq) := by
  intro u v hk hp
  suffices he : exec (.mnote k) s = .next (finish u t v (req0 (.mnote k)) .seq) from completes_of_exec he rfl
  refine (h.runs _).trans ((if_neg (Nat.not_le.mpr hk)).trans ?_)
  split
  · next p e => exact if_neg (hp p e)
  · rfl

end

/-- What `mread` and `pick` meet of a slot before they read it: it lies past the last one, or its line holds an uncorrectable error (R169). -/
theorem slot_checks {q : Req} {i : Instr} {slot : Nat} {k : State → Nat → Thread → Out} {s : State} {t : Nat} {th : Thread}
    (h : MayExecute q s t th) (hi : exec i s = begin q s fun s t th =>
      if s.nslots th ≤ slot then raise s t q 0x06 (BitVec.ofNat 64 slot)
      else if s.snapBad th slot then raise s t q 0x07 (snapAddr th slot) else k s t th) :
    let u := s.begun t th q; let v := s.runner t th q
    (∀ y nx, slot < u.nslots v → u.snapBad v slot = false → k u t v = .next (finish u t y q nx) → Completes i s t (advance y.ctx q.pair nx)) ∧
    (u.nslots v ≤ slot → Faults i s q u t v 0x06 (BitVec.ofNat 64 slot)) ∧
    (slot < u.nslots v → u.snapBad v slot = true → Faults i s q u t v 0x07 (snapAddr v slot)) := by
  intro u v
  refine ⟨fun y nx hn hb hk => ?_, fun hn => h.faults hi (if_pos hn), fun hn hb => ?_⟩
  · exact h.completes hi ((if_neg (Nat.not_le.mpr hn)).trans ((if_neg (by simp [u, v, hb])).trans hk)) rfl
  · exact h.faults hi ((if_neg (Nat.not_le.mpr hn)).trans (if_pos hb))

/-- Settles O20: a slot is looked at first; then `mread` reads its field, `pick` chooses by its kind, and `mnote` by the thread's record. -/
theorem marginResults : Obligations.MarginResults := by
  refine ⟨fun d f k s t th h => ?mread, fun d n k s t th h => ?pick, fun k s t th h => ?mnote⟩
  case mread =>
    obtain ⟨hread, hlast, hbad⟩ := slot_checks (i := .mread d f k) (slot := k.toNat) h rfl
    exact ⟨fun hn hb => hread _ _ hn hb rfl, hlast, hbad⟩
  case pick =>
    obtain ⟨hread, hlast, hbad⟩ := slot_checks (i := .pick d n k) (slot := k.toNat) h rfl
    refine ⟨fun hn hb hk => hread _ _ hn hb (if_neg ?_), fun hn hb h0 h4 => hread _ _ hn hb (if_pos ⟨h0, h4⟩), hlast, hbad⟩
    exact fun hne => hk.elim hne.1 hne.2
  case mnote => exact ⟨fun p hk hp hs => mnote_record h hk hp hs, mnote_other h, fun hk => h.faults rfl (if_pos hk)⟩

end Sys2Proof.Machine
end

/-! Integer lanes and compares, permutes, bitmap intersection, and candidate lists (R139 to R141, R150 to R155). -/

section
namespace Sys2Proof.Machine

/-! ### Results of one shape (R137, R141) -/

theorem lanes3_of_lane3 {i : BitVec 7 → BitVec 7 → BitVec 7 → BitVec 2 → Instr} {f : Nat → Nat → Nat → Nat}
    (hi : ∀ d a b w s, exec (i d a b w) s = lane3 (reqDAB (i d a b w) d a b) d a b w f s) : Lanes3 i f :=
  fun d a b w => computes_of_simple (hi d a b w) fun _ _ _ => rfl

theorem compares_of_laneCmp {i : BitVec 3 → BitVec 7 → BitVec 7 → BitVec 2 → Instr} {f : Nat → Nat → Nat → Bool}
    (hi : ∀ d a b w s, exec (i d a b w) s = laneCmp (reqAB (i d a b w) a b) d a b w f s) : Compares i f :=
  fun d a b w => computes_of_simple (hi d a b w) fun _ _ _ => rfl

theorem permutes3_of_permute {i : BitVec 7 → BitVec 7 → BitVec 7 → BitVec 2 → Instr} {f : Nat → Vec → Vec → Nat → Nat}
    (hi : ∀ d a b w s, exec (i d a b w) s =
      permute (reqDAB (i d a b w) d a b) d w (fun th n j => f n (th.V a) (th.V b) j) s) : Permutes3 i f :=
  fun d a b w => computes_of_simple (hi d a b w) fun _ _ _ => rfl

/-- Settles O4: lane operations of two sources, compares into a mask, and the two forms that stand alone. -/
theorem laneResults : Obligations.LaneResults := by
  refine ⟨?vadd, ?vsub, ?vmul, ?vmin, ?vmax, ?vminn, ?vmaxn, ?vand, ?vor, ?vxor, ?vandn, ?vshl, ?vshr, ?vsra, ?vmac, ?vpopc,
    ?vceq, ?vcne, ?vclt, ?vcge, ?vcltn, ?vcgen⟩
  case vmac => exact fun d a b w => computes_of_simple (fun _ => rfl) fun _ _ _ => rfl
  case vpopc => exact fun d a w => computes_of_simple (fun _ => rfl) fun _ _ _ => rfl
  case vceq | vcne | vclt | vcge | vcltn | vcgen => exact compares_of_laneCmp fun _ _ _ _ _ => rfl
  all_goals exact lanes3_of_lane3 fun _ _ _ _ _ => rfl

/-- Settles O8: permutes of two sources and of one, then the bitmaps, then the candidate lists. -/
theorem permuteResults : Obligations.PermuteResults := by
  refine ⟨?vshuf, ?vslup, ?vsldn, ?vzip, ?vunzip, ?vsplat, ?vcomp, ?vexpd, ?bmpfx, ?ixcnt, ?ixdot, ?vtopk, ?vsort, ?vmrg⟩
  case vshuf | vslup | vsldn | vzip | vunzip => exact permutes3_of_permute fun _ _ _ _ _ => rfl
  case vsplat | vcomp | vexpd => exact fun d a w => computes_of_simple (fun _ => rfl) fun _ _ _ => rfl
  case bmpfx => exact fun d a => computes_of_simple (fun _ => rfl) fun _ _ _ => rfl
  case ixcnt | ixdot => exact fun d a b => computes_of_simple (fun _ => rfl) fun _ _ _ => rfl
  case vtopk | vmrg => exact fun d a b => computes_of_simple (fun _ => rfl) fun _ _ _ => rfl
  case vsort => exact fun d a => computes_of_simple (fun _ => rfl) fun _ _ _ => rfl

end Sys2Proof.Machine
end

/-! Memory under key material: what a byte reads as after a write (R166, R168). -/

section
namespace Sys2Proof.Machine

/-! ### Memory under key material (R166, R168; log 5) -/

/-- A byte that was written under the material `tag`, as it reads under `key`. -/
def seenUnder (tag key : Vec) (a : Nat) (b : Byte) : Byte := if tag = key then b else Config.wrongKeyByte tag key a

theorem Memory.byte_eq (m : Memory) (key : Vec) (a : Nat) :
    m.byte key a = ((mget m.tags (a / 64)).bind fun tag => (mget m.cells a).map (seenUnder tag key a)).getD (Config.undefByte key a) := by
  unfold Memory.byte
  cases mget m.tags (a / 64) <;> cases mget m.cells a <;> rfl

/-- A line of tagged memory that has no material lists no byte. -/
theorem Memory.tagged.cell_none {m : Memory} (h : m.tagged) {a : Nat} (ht : mget m.tags (a / 64) = none) : mget m.cells a = none := by
  by_contra hc
  have := h a (Option.isSome_iff_ne_none.mpr hc)
  simp [ht] at this

/-- The materials of the lines after a line has been made one of `key`. -/
theorem Memory.tag_retag (m : Memory) (key : Vec) (line l : Nat) :
    mget (m.retag key line).tags l = if l = line then some key else mget m.tags l := by
  unfold Memory.retag
  split
  · next tag ht =>
    split
    · next he =>
      split
      · next hl => rw [hl, ht, he]
      · rfl
    · exact mget_mput _ _ _ _
  · exact mget_mput _ _ _ _

/-- A map each of whose entries has been changed by its key. -/
theorem mget_mapEach {α : Type} (m : Map α) (f : Nat → α → α) {g : Nat × α → Nat × α} (hg : ∀ e, g e = (e.1, f e.1 e.2)) (k : Nat) :
    mget (m.map g) k = (mget m k).map (f k) := by
  induction m with
  | nil => rfl
  | cons e rest ih =>
    rw [List.map_cons, hg]
    by_cases hk : k = e.1
    · simp [mget, hk]
    · simp [mget, hk, ih]

/-- The bytes then: those of the line are what they read as under `key`. -/
theorem Memory.cell_retag (m : Memory) (key : Vec) (line a : Nat) : mget (m.retag key line).cells a =
    (mget m.cells a).map fun b => if a / 64 = line then ((mget m.tags line).map fun tag => seenUnder tag key a b).getD b else b := by
  unfold Memory.retag
  split
  · next tag ht =>
    split
    · next he => simp [ht, seenUnder, he]
    · next hn =>
      simp only [ht, seenUnder, hn, if_false, Option.map_some, Option.getD_some]
      exact mget_mapEach m.cells (fun k b => if k / 64 = line then Config.wrongKeyByte tag key k else b)
        (fun e => by split <;> rfl) a
  · next ht => simp [ht]

/-- Under `key` everything reads as it did. -/
theorem Memory.byte_retag {m : Memory} (h : m.tagged) (key : Vec) (line a : Nat) : (m.retag key line).byte key a = m.byte key a := by
  rw [Memory.byte_eq, Memory.byte_eq, Memory.tag_retag, Memory.cell_retag]
  by_cases hl : a / 64 = line
  · subst hl
    cases ht : mget m.tags (a / 64) with
    | none => simp [h.cell_none ht]
    | some tag => cases mget m.cells a <;> simp [seenUnder]
  · simp [hl]

/-- The other lines read as they did, under every material. -/
theorem Memory.byte_retag_ne (m : Memory) (key k : Vec) {line a : Nat} (hl : a / 64 ≠ line) : (m.retag key line).byte k a = m.byte k a := by
  rw [Memory.byte_eq, Memory.byte_eq, Memory.tag_retag, Memory.cell_retag]
  simp [hl]

theorem Memory.byte_put_same (m : Memory) (key : Vec) (a : Nat) (b : Byte) : (m.put key a b).byte key a = b := by
  rw [Memory.byte_eq, Memory.put]
  simp [Memory.tag_retag, mget_mput_self, seenUnder]

theorem Memory.byte_put_ne (m : Memory) (key k : Vec) {a c : Nat} (b : Byte) (h : c ≠ a) :
    (m.put key a b).byte k c = (m.retag key (a / 64)).byte k c := by
  rw [Memory.byte_eq, Memory.byte_eq, Memory.put]
  simp only [mget_mput_ne _ _ h]

/-- A write leaves memory tagged. -/
theorem Memory.tagged_put {m : Memory} (h : m.tagged) (key : Vec) (a : Nat) (b : Byte) : (m.put key a b).tagged := by
  intro c hc
  rw [Memory.put] at hc ⊢
  simp only [Memory.tag_retag, mget_mput, Memory.cell_retag] at hc ⊢
  split_ifs with hl
  · rfl
  · exact h c (by simpa [show c ≠ a from ne_of_apply_ne (· / 64) hl] using hc)

/-- Settles O33: a write makes its line one of its material, which changes no reading under it, and then sets one byte. -/
theorem memoryReadsBack : Obligations.MemoryReadsBack := by
  intro m key a b h
  refine ⟨m.byte_put_same key a b, fun c hc => ?_, fun k c hl => ?_, Memory.tagged_put h key a b⟩
  · rw [m.byte_put_ne key key b hc, Memory.byte_retag h]
  · rw [m.byte_put_ne key k b (ne_of_apply_ne (· / 64) hl), m.byte_retag_ne key k hl]

end Sys2Proof.Machine
end

/-! Messages: `send`, `rcv`, `probe` and `rti` (R169, R188, R269, R294 to R298, R364). -/

section
namespace Sys2Proof.Machine

/-! ### send (R188, R294, R379) -/

/-- What a release still waits for holds under cause 5 (R188). -/
theorem releaseHeld_cause {s : State} {th : Thread} {scope k : Nat} (h : s.releaseHeld th scope = some k) : k = 5 := by
  unfold State.releaseHeld at h
  split_ifs at h <;> exact (Option.some.inj h).symm

/-- What `send` asks of the core (R294). -/
def reqSend (h : BitVec 4) (a b : BitVec 7) : Req :=
  { reqAB (.send h a b) a b with commit := true, early := [.release 4, .edge (some a) false] }

section
variable {h : BitVec 4} {a b : BitVec 7} {s : State} {t : Nat} {th : Thread} (hx : MayExecute (reqSend h a b) s t th)
include hx

/-- R294: `send` waits for its release. -/
theorem send_waits {k : Nat} : let u := s.begun t th (reqSend h a b); let v := s.runner t th (reqSend h a b);
    u.releaseHeld v 4 = some k → k = 5 ∧ Waits (.send h a b) s t 5 u := by
  intro u v hk
  obtain rfl := releaseHeld_cause hk
  have hd : u.departs t v 4 (some (nbits (v.S a) 0 9)) = some 5 := by rw [State.departs, hk, Option.some_or]
  refine ⟨rfl, hx.waits rfl ?_⟩
  dsimp only
  rw [hd]

/-- R294: a packet is on its way once `send` has completed. -/
theorem send_sends : let u := s.begun t th (reqSend h a b); let v := s.runner t th (reqSend h a b);
    u.departs t v 4 (some (nbits (v.S a) 0 9)) = none →
    ∃ s', exec (.send h a b) s = .next s' ∧ (s'.thread? t).map Thread.ctx = some (advance v.ctx false .seq) ∧ s'.mem = s.mem ∧
      s'.flight.msgs = u.flight.msgs ++ [packetFrom u t v (nbits (v.S a) 0 9) (nbits (v.S a) 16 6) h.toNat (v.V b)] := by
  intro u v hd
  let p := packetFrom u t v (nbits (v.S a) 0 9) (nbits (v.S a) 16 6) h.toNat (v.V b)
  let w := ((u.modFlight fun f => { f with msgs := f.msgs ++ [p] }).newId).countSent (coreOf t) v.who v.launch 1
  obtain ⟨s', he, hc, hu⟩ := hx.ends (i := .send h a b) (nx := .seq) (e := w) (y := v) (r := Rob.none) rfl (by dsimp only; rw [hd]; rfl) rfl
  refine ⟨s', he, hc, ?_, ?_⟩
  · rw [hu.mem, State.countSent_mem]
    exact (untouched_begun s t th (reqSend h a b)).mem
  · refine (congrArg Flight.msgs hu.flight).trans ?_
    simp only [w, Flight.still, State.countSent, State.countFor_flight, State.modLaunch_flight, State.newId_flight, State.modFlight_flight]
    rfl

end

/-! ### rcv (R169, R188, R269, R295) -/

theorem Untouched.symm {a b : State} {t : Nat} (h : Untouched a b t) : Untouched b a t :=
  ⟨h.mem.symm, h.chan.symm, h.tables.symm, h.saved.symm, h.clusters.symm, h.dies.symm, h.regions.symm, h.work.symm, h.host.symm,
    h.power.symm, h.flight.symm, fun c => (h.cores c).symm, fun u hu => (h.others u hu).symm⟩

section
variable {s s' : State} {t : Nat} (h : Untouched s s' t)
include h

/-- States that differ in one thread alone do so after an acquire. -/
theorem Untouched.acquire (k : Nat) (th : Thread) (scope : Nat) : Untouched (s.acquire k th scope) (s'.acquire k th scope) t := by
  have hf : Untouched (s.flashL1 (coreOf k)) (s'.flashL1 (coreOf k)) t :=
    { h with
      cores := fun c => by
        have hc := h.cores c
        simp only [State.flashL1, State.core_modCore]
        split
        · next e => subst e; exact congrArg (fun x : Core => { x with l1d := [] }) hc
        · exact hc }
  unfold State.acquire
  split
  · exact ((untouched_count _ _ _ _ _ _).symm.trans hf).trans (untouched_count _ _ _ _ _ _)
  · exact h

/-- And after the oldest message of a mailbox has been taken. -/
theorem Untouched.shiftMail (home : Nat) : Untouched (s.shiftMail home) (s'.shiftMail home) t := by
  unfold State.shiftMail
  rw [h.power]
  split
  · exact h
  · exact { h with power := rfl }

end

section
variable (s : State) (t : Nat) (th : Thread) (ms : List Msg)

@[simp] theorem setMailbox_ctx : (setMailbox s t th ms).2.ctx = th.ctx := by unfold setMailbox; split <;> rfl
@[simp] theorem setMailbox_home : (setMailbox s t th ms).2.home = th.home := by unfold setMailbox; split <;> rfl

theorem untouched_setMailbox : Untouched s (setMailbox s t th ms).1 t := by
  unfold setMailbox
  split
  · exact Untouched.refl s t
  · exact untouched_modOther s t _ _ fun _ => rfl

end

@[simp] theorem Thread.settle_mailbox (y : Thread) (e : Rob) (c : Prop) [Decidable c] : (y.settle e c).mailbox = y.mailbox := by
  unfold Thread.settle; split_ifs <;> rfl
@[simp] theorem Thread.settle_home (y : Thread) (e : Rob) (c : Prop) [Decidable c] : (y.settle e c).home = y.home := by
  unfold Thread.settle; split_ifs <;> rfl

@[simp] theorem Thread.afterwards_mailbox (th pre : Thread) (x : Ctx) (w : Nat) : (th.afterwards pre x w).mailbox = th.mailbox := rfl
@[simp] theorem Thread.afterwards_home (th pre : Thread) (x : Ctx) (w : Nat) : (th.afterwards pre x w).home = th.home := rfl

/-- An instruction that completes leaves the mailboxes of the other threads. -/
theorem finish_mailbox {s : State} {t k : Nat} {th m : Thread} {q : Req} {nx : Next} (hk : k ≠ t) (hm : s.thread? k = some m) :
    ∃ m', (finish s t th q nx).thread? k = some m' ∧ m'.mailbox = m.mailbox := by
  obtain ⟨u, w, hu, hth⟩ := finish_threads s t th q nx Rob.none rfl rfl
  obtain ⟨g, hg, e⟩ := hu.2 k
  obtain ⟨r, n, hx⟩ := hg m
  refine ⟨g m, ?_, by rw [hx]⟩
  rw [hth, if_neg hk, e, State.thread?_congr (State.issuedBy_threads s t th), hm, Option.map_some]

/-- The mailbox that the thread `th` in slot `t` reads is `ms`, in whatever state its instruction completes that has the threads with that
mailbox. -/
theorem finish_setMailbox {u w : State} {t : Nat} {th : Thread} {ms : List Msg} {q : Req} {nx : Next}
    (hw : w.threads = (setMailbox u t th ms).1.threads) (hl : (u.thread? th.home).isSome = true) :
    let s' := finish w t (setMailbox u t th ms).2 q nx
    ∃ y, s'.thread? t = some y ∧ y.ctx = advance th.ctx q.pair nx ∧ s'.mailbox y = ms := by
  intro s'
  obtain ⟨x, n, -, hth⟩ := finish_threads w t (setMailbox u t th ms).2 q nx Rob.none rfl rfl
  have hy := (hth t).trans (if_pos rfl)
  refine ⟨_, hy, by simp, ?_⟩
  unfold State.mailbox State.homeThread
  simp only [Thread.settle_home, Thread.afterwards_home, setMailbox_home]
  by_cases hh : th.home = t
  · rw [hh, hy]
    simp [setMailbox, hh]
  · obtain ⟨m, hm⟩ := Option.isSome_iff_exists.mp hl
    have hk : w.thread? th.home = some { m with mailbox := ms } := by
      rw [State.thread?_congr hw, setMailbox, if_neg hh, State.thread?_modThread, if_pos rfl, hm, Option.map_some]
    obtain ⟨m', hm', hb⟩ := finish_mailbox (th := (setMailbox u t th ms).2) (q := q) (nx := nx) hh hk
    rw [hm']
    exact hb

/-- What `rcv` asks of the core (R295). -/
def reqRcv (d : BitVec 7) : Req :=
  { word := encodeNat (.rcv d), regs := [d.toNat, d.toNat + 1], writes := [d.toNat, d.toNat + 1], commit := true }

section
variable {d : BitVec 7} {s : State} {t : Nat} {th : Thread} (h : MayExecute (reqRcv d) s t th)
include h

/-- R295: `rcv` takes the oldest message, as an acquire at device scope. -/
theorem rcv_takes {m : Msg} {rest : List Msg} : let u := s.begun t th (reqRcv d); let v := s.runner t th (reqRcv d);
    (u.thread? v.home).isSome = true → u.mailbox v = m :: rest → u.mailBad v.home = false →
    ∃ s' y, exec (.rcv d) s = .next s' ∧ s'.thread? t = some y ∧ s'.mailbox y = rest ∧ Untouched ((u.acquire t v 4).shiftMail v.home) s' t ∧
      (s'.core (coreOf t)).l1d = ((u.flashL1 (coreOf t)).core (coreOf t)).l1d ∧
      y.ctx = advance ((v.setV d m.payload).setV2 d (m.header.setWidth 512)).ctx false .seq := by
  intro u v hl hm hb
  let x := (v.setV d m.payload).setV2 d (m.header.setWidth 512)
  let w := ((setMailbox u t x rest).1.acquire t v 4).shiftMail v.home
  have he : exec (.rcv d) s = .next (finish w t (setMailbox u t x rest).2 (reqRcv d) .seq) := by
    refine (h.runs _).trans ?_
    dsimp only
    rw [hm]
    exact if_neg (by simp [u, v, hb])
  have hw : w.threads = (setMailbox u t x rest).1.threads :=
    (shiftMail_keeps _ _).1.trans (acquire_device _ _ _).1.threads
  have hu : Untouched ((u.acquire t v 4).shiftMail v.home) (finish w t (setMailbox u t x rest).2 (reqRcv d) .seq) t :=
    (((untouched_setMailbox u t x rest).acquire t v 4).shiftMail v.home).trans (finish_spec w t _ (reqRcv d) .seq Rob.none rfl).2
  obtain ⟨y, hy, hc, hmb⟩ := finish_setMailbox (q := reqRcv d) (nx := .seq) hw hl
  refine ⟨_, y, he, hy, hmb, hu, ?_, hc⟩
  have h0 : (((u.acquire t v 4).shiftMail v.home).core (coreOf t)).l1d = [] := by
    rw [State.core, (shiftMail_keeps _ _).2]
    exact (acquire_device u t v).2
  rw [hu.core Core.l1d (fun _ => rfl), h0, State.flashL1, State.core_modCore_self]

/-- R295: it waits while no message is unread. -/
theorem rcv_waits : let u := s.begun t th (reqRcv d); let v := s.runner t th (reqRcv d); u.mailbox v = [] → Waits (.rcv d) s t 9 u := by
  intro u v hm
  refine h.waits rfl ?_
  dsimp only
  rw [hm]

/-- R169: it loses a message that lies in a line with an error (log 11, 92). -/
theorem rcv_faults : let u := s.begun t th (reqRcv d); let v := s.runner t th (reqRcv d);
    u.mailbox v ≠ [] → u.mailBad v.home = true → Faults (.rcv d) s (reqRcv d) u t v 0x07 (mailAddr v.home) := by
  intro u v hm hb
  obtain ⟨m, rest, hm⟩ := List.exists_cons_of_ne_nil hm
  refine h.faults rfl ?_
  dsimp only
  rw [hm]
  exact if_pos hb

end

/-! ### probe (R298) -/

/-- What `probe` reads: the oldest unread message's header, or all ones (R298). -/
def State.headerFor (s : State) (th : Thread) : Dword := match s.mailbox th with
  | [] => BitVec.allOnes 64
  | m :: _ => m.header

theorem exec_probe (d : BitVec 7) (s : State) : exec (.probe d) s =
    begin (reqD (.probe d) d) s fun s t th => .next (finish s t (th.setS d (s.headerFor th)) (reqD (.probe d) d) .seq) := rfl

/-- R298: `probe` takes nothing. -/
theorem probe_reads {d : BitVec 7} {s : State} {t : Nat} {th : Thread} (h : MayExecute (reqD (.probe d) d) s t th) :
    let u := s.begun t th (reqD (.probe d) d); let v := s.runner t th (reqD (.probe d) d)
    Completes (.probe d) s t (advance (v.setS d (u.headerFor v)).ctx false .seq) := by
  intro u v
  exact h.completes (exec_probe d s) rfl rfl

/-! ### rti (R297, R364) -/

/-- R297: `rti` leaves the handler for MSGPC. -/
theorem rti_returns {s : State} {t : Nat} {th : Thread} (h : MayExecute { req0 .rti with flow := true } s t th) :
    let v := s.runner t th { req0 .rti with flow := true }; v.ctx.hnd = true →
    EndsAs .rti s t { v.ctx with hnd := false, mskd := false, rem := 0, kept := .none, pc := v.ctx.msgpc } s fun y => y.wait = v.ctx.kept := by
  intro v hv
  exact h.endsAs (y := { v.setCtx fun x => { x with hnd := false, mskd := false, rem := 0, kept := .none } with wait := v.ctx.kept })
    (nx := .to v.ctx.msgpc) rfl (if_neg (by simp [v, hv])) fun _ _ _ => Thread.settle_wait _ _ _

/-- R297: outside a handler it is a reserved word. -/
theorem rti_faults {s : State} {t : Nat} {th : Thread} (h : MayExecute { req0 .rti with flow := true } s t th) :
    let v := s.runner t th { req0 .rti with flow := true }; v.ctx.hnd = false →
    Faults .rti s { req0 .rti with flow := true } (s.begun t th { req0 .rti with flow := true }) t v 0x01 (BitVec.ofNat 64 (encodeNat .rti)) := by
  intro v hv
  exact h.faults rfl (if_pos (by simp [v, hv]))

/-- Settles O24: each form completes, waits or faults by what its mailbox, its release and its handler say. -/
theorem messageResults : Obligations.MessageResults := by
  refine ⟨by decide, ?_, ?_, ?_, ?_, ?_, ?_⟩
  · intro h a b s t th q hx
    have hs : MayExecute (reqSend h a b) s t th := hx.withEarly _
    exact ⟨fun k => send_waits hs, send_sends hs⟩
  · exact fun d s t th m rest h => rcv_takes h
  · exact fun d s t th h => ⟨rcv_waits h, rcv_faults h⟩
  · exact fun d s t th h => probe_reads h
  · exact fun s t th h => rti_returns h
  · exact fun s t th h => rti_faults h

end Sys2Proof.Machine
end

/-! Loads as their data return (R160, R166, R169, R190, R229 to R231, R233, R387). -/

section
namespace Sys2Proof.Machine

/-! ### Bytes of a line (R5, R78) -/

theorem ofBytes_lt (bs : List Byte) : ofBytes bs < 2 ^ (8 * bs.length) := by
  induction bs with
  | nil => simp [ofBytes]
  | cons b rest ih =>
    have hb := b.isLt
    rw [ofBytes, List.length_cons, Nat.mul_succ, Nat.pow_add]
    omega

/-- Byte `j` of the number that bytes spell. -/
theorem ofBytes_byte (bs : List Byte) (j : Nat) (hj : j < bs.length) : BitVec.ofNat 8 (ofBytes bs / 2 ^ (8 * j)) = bs[j] := by
  induction bs generalizing j with
  | nil => cases hj
  | cons b rest ih =>
    have hb := b.isLt
    cases j with
    | zero =>
      apply BitVec.eq_of_toNat_eq
      simp only [ofBytes, Nat.mul_zero, Nat.pow_zero, Nat.div_one, BitVec.toNat_ofNat, List.getElem_cons_zero]
      omega
    | succ j =>
      have hd : ofBytes (b :: rest) / 2 ^ (8 * (j + 1)) = ofBytes rest / 2 ^ (8 * j) := by
        rw [ofBytes, Nat.mul_succ, Nat.add_comm (8 * j), Nat.pow_add, ← Nat.div_div_eq_div_mul]
        congr 1
        omega
      rw [hd, List.getElem_cons_succ]
      exact ih j (Nat.lt_of_succ_lt_succ hj)

theorem byteOf_ofBytes {bs : List Byte} (hl : bs.length ≤ 64) {j : Nat} (hj : j < bs.length) :
    byteOf (BitVec.ofNat 512 (ofBytes bs)) j = bs[j] := by
  have hlt := Nat.lt_of_lt_of_le (ofBytes_lt bs) (Nat.pow_le_pow_right Nat.two_pos (show 8 * bs.length ≤ 512 by omega))
  rw [byteOf, BitVec.toNat_ofNat, Nat.mod_eq_of_lt hlt, ofBytes_byte bs j hj]

/-- Bytes of one line, read from the line as a whole. -/
theorem lineBytes_homeBytes (s : State) {pa n : Nat} (key : Nat) (hn : pa % 64 + n ≤ 64) :
    lineBytes (BitVec.ofNat 512 (ofBytes (s.homeBytes (pa / 64 * 64) 64 key))) (pa % 64) n = s.homeBytes pa n key := by
  refine List.map_congr_left fun j hj => ?_
  have hj := List.mem_range.mp hj
  have hlen : (s.homeBytes (pa / 64 * 64) 64 key).length = 64 := by simp [State.homeBytes, Memory.bytes]
  rw [byteOf_ofBytes hlen.le (by omega)]
  simp only [State.homeBytes, Memory.bytes, List.getElem_map, List.getElem_range]
  congr 1
  omega

/-! ### What a load finds (R160) -/

theorem readLine_home {s : State} {d pa key : Nat} (h : homeDie pa = some d ∨ mget (s.die d).rdc (cacheTag pa key) = none) :
    (s.readLine d pa key).1 = BitVec.ofNat 512 (ofBytes (s.homeBytes (pa / 64 * 64) 64 key)) := by
  unfold State.readLine
  by_cases hd : homeDie pa = some d
  · simp only [if_pos hd]
  · simp only [if_neg hd, h.resolve_left hd]
    split <;> rfl

/-- R160: no copy on the chip holds the line. -/
theorem loadThrough_home {s : State} {c pa n key : Nat} (hn : pa % 64 + n ≤ 64) (h1 : mget (s.core c).l1d (cacheTag pa key) = none)
    (h : homeDie pa = some (dieOf c) ∨ mget (s.die (dieOf c)).rdc (cacheTag pa key) = none) :
    (s.loadThrough c pa n key).1 = s.homeBytes pa n key := by
  have hb : (s.loadThrough c pa n key).1 = lineBytes (s.readLine (dieOf c) pa key).1 (pa % 64) n := by
    unfold State.loadThrough
    rw [h1]
    dsimp only
    split <;> rfl
  rw [hb, readLine_home h, lineBytes_homeBytes s key hn]

/-- R160: the L1 holds it. -/
theorem loadThrough_hit {s : State} {c pa n key : Nat} {v : Vec} (h : mget (s.core c).l1d (cacheTag pa key) = some v) :
    s.loadThrough c pa n key = (lineBytes v (pa % 64) n, false, s) := by
  unfold State.loadThrough
  rw [h]

theorem loadBytes_signed {sz : Nat} (h : sz < 4) : loadBytes sz = 2 ^ sz := by
  interval_cases sz <;> rfl
theorem loadBytes_unsigned {sz : Nat} (h4 : 4 ≤ sz) (h7 : sz < 7) : loadBytes sz = 2 ^ (sz - 4) := by
  interval_cases sz <;> rfl

/-! ### What a load's search and its counting leave alone (R160, R188, R231, R318) -/

theorem kept_readLine (s : State) (d pa key : Nat) : Kept s (s.readLine d pa key).2 := by
  unfold State.readLine
  dsimp only
  split
  · exact Kept.refl s
  · split
    · exact kept_countDie _ _ _ _
    · split
      · exact Kept.refl s
      · exact ((kept_mendLines _ _ _).trans (kept_modDie _ _ _)).trans (kept_tick _)

theorem kept_loadThrough (s : State) (c pa n key : Nat) : Kept s (s.loadThrough c pa n key).2.2 := by
  unfold State.loadThrough
  split
  · exact Kept.refl s
  · dsimp only
    split
    · exact kept_readLine _ _ _ _
    · exact (kept_readLine _ _ _ _).trans (((kept_mendLines _ _ _).trans (kept_modCore _ _ _)).trans (kept_tick _))

theorem kept_loadLoc (s : State) (c : Nat) (l : Loc) (n : Nat) : Kept s (s.loadLoc c l n).2.2 := by
  cases l with
  | mem pa key blk => exact kept_loadThrough _ _ _ _ _
  | scratch k off => exact Kept.refl s
  | localStore k off v => exact Kept.refl s
  | peer w off => exact kept_tick s

theorem kept_count (s : State) (t : Nat) (th : Thread) (src k : Nat) : Kept s (s.count t th src k) := kept_countFor _ _ _ _ _ _ _

/-- Outside the block windows no block entry counts the load. -/
theorem kept_countLoad {l : Load} (h : l.loc.inBlock = none) (s : State) (t : Nat) (th : Thread) (missed cached : Bool) :
    Kept s (s.countLoad t th l missed cached) := by
  unfold State.countLoad
  split
  · next pa key blk hl =>
    obtain rfl : blk = none := by simpa [hl, Loc.inBlock] using h
    exact (kept_count _ _ _ _ _).trans (kept_ite (kept_traffic _ _ _ _ _ _ _ _) (kept_corrected _ _ _ _ _))
  · exact kept_count _ _ _ _ _
  · exact kept_corrected _ _ _ _ _

theorem kept_acquire (s : State) (t : Nat) (th : Thread) (scope : Nat) : Kept s (s.acquire t th scope) :=
  kept_ite ((kept_modCore _ _ _).trans (kept_count _ _ _ _ _)) (Kept.refl s)

/-! ### Commits (R229) -/

/-- Memory is as it was, and so are a thread's context and the entries that it has not committed. -/
structure SamePath (s s' : State) (t : Nat) : Prop where
  mem : s'.mem = s.mem
  path : (s'.thread? t).map (fun y => (y.ctx, y.rob)) = (s.thread? t).map fun y => (y.ctx, y.rob)

theorem SamePath.refl (s : State) (t : Nat) : SamePath s s t := ⟨rfl, rfl⟩

theorem SamePath.trans {a b c : State} {t : Nat} (h : SamePath a b t) (k : SamePath b c t) : SamePath a c t :=
  ⟨k.mem.trans h.mem, k.path.trans h.path⟩

theorem SamePath.of_threads {s s' : State} (hm : s'.mem = s.mem) (ht : s'.threads = s.threads) (t : Nat) : SamePath s s' t :=
  ⟨hm, by rw [State.thread?_congr ht]⟩

theorem Kept.samePath {s s' : State} (h : Kept s s') (t : Nat) : SamePath s s' t := .of_threads h.mem h.threads t

theorem samePath_modThread (s : State) (k : Nat) {f : Thread → Thread} (hf : ∀ x, (f x).ctx = x.ctx ∧ (f x).rob = x.rob) (t : Nat) :
    SamePath s (s.modThread k f) t := by
  refine ⟨State.modThread_mem _ _ _, ?_⟩
  rw [State.thread?_modThread]
  split
  · next h =>
    subst h
    cases s.thread? t with
    | none => rfl
    | some x => simp [hf x]
  · rfl

theorem samePath_sendStore (s : State) (tid c l : Nat) (r : StoreReq) (t : Nat) : SamePath s (s.sendStore tid c l r) t :=
  ((kept_patchL1 s c r.loc r.writes).samePath t).trans (.of_threads (s := s.patchL1 c r.loc r.writes) (s' := s.sendStore tid c l r) rfl rfl t)

theorem samePath_countSent (s : State) (c w l n t : Nat) : SamePath s (s.countSent c w l n) t :=
  .of_threads (State.countSent_mem _ _ _ _ _) (State.countSent_threads _ _ _ _ _) t

theorem SamePath.thread {s s' : State} {t : Nat} {th : Thread} (h : SamePath s s' t) (ht : s.thread? t = some th) :
    ∃ y, s'.thread? t = some y ∧ y.ctx = th.ctx ∧ y.rob = th.rob := by
  have hp := h.path
  rw [ht, Option.map_some, Option.map_eq_some_iff] at hp
  obtain ⟨y, hy, he⟩ := hp
  exact ⟨y, hy, congrArg Prod.fst he, congrArg Prod.snd he⟩

/-- An entry commits without a change of its thread's path. -/
theorem samePath_commit (s : State) (t : Nat) (e : Rob) : SamePath s (s.commit t e) t := by
  unfold State.commit
  split
  · exact SamePath.refl s t
  · next th hth =>
    extract_lets s1 s2 s3 s4
    have h1 : SamePath s s1 t := by
      unfold s1
      split
      · exact samePath_modThread s t (f := Thread.detach) (fun _ => ⟨rfl, rfl⟩) t
      · exact SamePath.refl s t
    have h2 : SamePath s1 s2 t := .of_threads (untouched_record s1 t t th e.site).mem (State.record_threads _ _ _ _) t
    have h3 : SamePath s2 s3 t := (kept_count _ _ _ _ _).samePath t
    have h4 : SamePath s3 s4 t := by
      unfold s4
      split
      · next matrix n _ =>
        exact samePath_modThread s3 _ (f := fun h => h.dropFlags matrix n) (fun x => ⟨Thread.dropFlags_ctx x matrix n, by unfold Thread.dropFlags; dsimp only; split <;> rfl⟩) t
      · exact SamePath.refl s3 t
    have h := ((h1.trans h2).trans h3).trans h4
    split
    · next r _ =>
      extract_lets s5
      have h5 : SamePath s4 s5 t := by
        unfold s5
        split
        · exact samePath_countSent _ _ _ _ _ t
        · exact SamePath.refl s4 t
      have h6 := samePath_modThread s5 t (f := fun x => { x with stOut := x.stOut + 1 }) (fun _ => ⟨rfl, rfl⟩) t
      exact ((h.trans h5).trans h6).trans (samePath_sendStore _ _ _ _ _ t)
    · exact h

/-! ### Data that return (R169, R229 to R231) -/

/-- No entry holds a load that has lost its data. -/
def NoneLost (rob : List Rob) : Prop := ∀ e ∈ rob, ∀ m, e.load = some m → m.lost = none

theorem landIn_noneLost (id : Nat) (v : Vec) (missed : Bool) (reg : Nat) (seen : Bool) {rob : List Rob} (h : NoneLost rob) :
    NoneLost (landIn id v missed none reg seen rob) := by
  induction rob generalizing seen with
  | nil => exact h
  | cons e rest ih =>
    obtain ⟨he, hr⟩ := List.forall_mem_cons.mp h
    unfold landIn
    split
    · next l hl =>
      split
      · refine List.forall_mem_cons.mpr ⟨fun m hm => ?_, ih true hr⟩
        obtain rfl := Option.some.inj hm
        rfl
      · refine List.forall_mem_cons.mpr ⟨fun m hm => ?_, ih seen hr⟩
        split at hm
        · obtain rfl := Option.some.inj hm
          exact he l hl
        · exact he m hm
    · exact List.forall_mem_cons.mpr ⟨he, ih seen hr⟩

/-- With no data lost, what commits is entry after entry, and the thread's context and memory stay. -/
theorem drain_noneLost {s : State} {t : Nat} {th : Thread} (ht : s.thread? t = some th) (hw : NoneLost th.rob) (n : Nat) :
    ∃ y, (s.drain t n).thread? t = some y ∧ y.ctx = th.ctx ∧ (s.drain t n).mem = s.mem := by
  induction n generalizing s th with
  | zero => exact ⟨th, ht, rfl, rfl⟩
  | succ n ih =>
    have commits {e : Rob} {rest : List Rob} (hr : th.rob = e :: rest) :
        let u := (s.setThread t { th with rob := rest }).commit t e
        ∃ y, (u.drain t n).thread? t = some y ∧ y.ctx = th.ctx ∧ (u.drain t n).mem = s.mem := by
      intro u
      have hu := samePath_commit (s.setThread t { th with rob := rest }) t e
      obtain ⟨x, hx, hc, hb⟩ := hu.thread (State.thread?_setThread_self s t _)
      rw [hr] at hw
      obtain ⟨y, hy, hyc, hm⟩ := ih hx (hb ▸ (List.forall_mem_cons.mp hw).2)
      exact ⟨y, hy, hyc.trans hc, hm.trans hu.mem⟩
    unfold State.drain
    rw [ht]
    dsimp only
    split
    · exact ⟨th, ht, rfl, rfl⟩
    · next e rest hr =>
      split
      · exact commits hr
      · next l hl =>
        split
        · exact ⟨th, ht, rfl, rfl⟩
        · rw [hw e (hr ▸ List.mem_cons_self) l hl]
          exact commits hr

/-- The load of a number that has not landed. -/
def Thread.loadOf (th : Thread) (id : Nat) : Option Load := th.rob.findSome? fun e => match e.load with
  | some l => if l.id == id && !l.landed then some l else none
  | none => none

theorem loadOf_id {th : Thread} {id : Nat} {l : Load} (h : th.loadOf id = some l) : l.id = id := by
  obtain ⟨e, -, he⟩ := List.exists_of_findSome?_eq_some h
  split at he
  · split_ifs at he with hc
    obtain rfl := Option.some.inj he
    simpa using (Bool.and_eq_true_iff.mp hc).1
  · cases he

/-- The state in which a load's data have landed, and what it held back has not yet committed. -/
def State.lands (s : State) (t : Nat) (th : Thread) (l : Load) : State :=
  let r := s.loadLoc (coreOf t) l.loc (loadBytes l.sz)
  let v := loadValue l.sz r.1
  let u := (r.2.2.countLoad t th l r.2.1 (s.inRdc (coreOf t) l.loc)).setThread t
    { th with ctx := th.ctx.setReg l.reg v, rob := landIn l.id v r.2.1 none l.reg false th.rob }
  match l.scope with
  | some sc => u.acquire t th sc
  | none => u

section
variable {s : State} {t id : Nat} {th : Thread} {l : Load} (ht : s.thread? t = some th) (hl : th.loadOf id = some l)
include ht hl

/-- R166, R190: a load that may not be performed yet waits. -/
theorem loadReturn_waits (hw : s.loadWaits (coreOf t) th l = true) : exec (.loadDataReturn t id) s = .next s := by
  change execLoadDataReturn t id s = _
  unfold execLoadDataReturn
  rw [ht]
  change (match th.loadOf id with | none => _ | some l => _) = _
  rw [hl]
  exact if_pos hw

section
variable (hw : s.loadWaits (coreOf t) th l = false) (hu : s.unanswered l.loc = none)
include hw hu

theorem exec_loadReturn_lands (hn : s.loadLost (coreOf t) l = none) :
    exec (.loadDataReturn t id) s = .next ((s.lands t th l).drain t th.rob.length) := by
  change execLoadDataReturn t id s = _
  unfold execLoadDataReturn
  rw [ht]
  change (match th.loadOf id with | none => _ | some l => _) = _
  rw [hl]
  refine (if_neg (by simp [hw])).trans ?_
  rw [hu]
  dsimp only
  rw [hn]
  rfl

theorem exec_loadReturn_loses {code : Nat} (hc : s.loadLost (coreOf t) l = some code) :
    exec (.loadDataReturn t id) s =
      .next ((s.setThread t { th with rob := landIn l.id 0 false (some code) l.reg false th.rob }).drain t th.rob.length) := by
  change execLoadDataReturn t id s = _
  unfold execLoadDataReturn
  rw [ht]
  change (match th.loadOf id with | none => _ | some l => _) = _
  rw [hl]
  refine (if_neg (by simp [hw])).trans ?_
  rw [hu]
  dsimp only
  rw [hc]

end
end

theorem lands_spec {l : Load} (h : l.loc.inBlock = none) (s : State) (t : Nat) (th : Thread) :
    (s.lands t th l).mem = s.mem ∧ ∃ x, (s.lands t th l).thread? t = some x ∧
      x.ctx = th.ctx.setReg l.reg (loadValue l.sz (s.loadLoc (coreOf t) l.loc (loadBytes l.sz)).1) ∧ (NoneLost th.rob → NoneLost x.rob) := by
  let r := s.loadLoc (coreOf t) l.loc (loadBytes l.sz)
  let x : Thread := { th with ctx := th.ctx.setReg l.reg (loadValue l.sz r.1),
                              rob := landIn l.id (loadValue l.sz r.1) r.2.1 none l.reg false th.rob }
  let u := r.2.2.countLoad t th l r.2.1 (s.inRdc (coreOf t) l.loc)
  have hu : Kept s u := (kept_loadLoc _ _ _ _).trans (kept_countLoad h _ _ _ _ _)
  have hk : Kept (u.setThread t x) (s.lands t th l) := by
    unfold State.lands
    dsimp only
    split
    · exact kept_acquire _ _ _ _
    · exact Kept.refl _
  exact ⟨hk.mem.trans hu.mem, x, (hk.thread? t).trans (State.thread?_setThread_self _ t x), rfl, landIn_noneLost _ _ _ _ _⟩

/-- R229 to R231: the data of a load reach its register. -/
theorem loadReturn_lands {s : State} {t id : Nat} {th : Thread} {l : Load} (ht : s.thread? t = some th) (hl : th.loadOf id = some l)
    (hw : s.loadWaits (coreOf t) th l = false) (hu : s.unanswered l.loc = none) (hn : s.loadLost (coreOf t) l = none)
    (hb : l.loc.inBlock = none) (hr : NoneLost th.rob) :
    ∃ s' y, exec (.loadDataReturn t id) s = .next s' ∧ s'.thread? t = some y ∧ s'.mem = s.mem ∧
      y.ctx = th.ctx.setReg l.reg (loadValue l.sz (s.loadLoc (coreOf t) l.loc (loadBytes l.sz)).1) := by
  obtain ⟨hm, x, hx, hc, hw'⟩ := lands_spec hb s t th
  obtain ⟨y, hy, hyc, hym⟩ := drain_noneLost hx (hw' hr) th.rob.length
  exact ⟨_, y, exec_loadReturn_lands ht hl hw hu hn, hy, hym.trans hm, hyc.trans hc⟩

/-! ### A load that has lost its data (R169, R229, R387) -/

theorem trapcOf_code (th : Thread) {code : Nat} (tcode : Nat) (pair : Bool) (hc : code < 256) :
    nbits (th.trapcOf code tcode pair) 0 8 = code := by
  unfold Thread.trapcOf nbits
  rw [BitVec.toNat_ofNat]
  split_ifs <;> omega

/-- The thread that has taken a fault, whoever it is and however the fault is delivered. -/
theorem takeFault_thread {s : State} {t : Nat} {th : Thread} (h : s.thread? t = some th) {code : Nat} (hc : code < 256) (tcode : Nat)
    (pair : Bool) (v pc : Dword) : ∃ y, (takeFault s t code tcode pair v pc).thread? t = some y ∧ y.rob = th.rob ∧ y.held = th.held ∧
      y.ctx.pc = th.ctx.pc ∧ y.ctx.tookFault code v pc := by
  have hx := th.faulted_ctx code tcode pair v pc
  have hrob : (th.faulted code tcode pair v pc).rob = th.rob ∧ (th.faulted code tcode pair v pc).held = th.held := by
    unfold Thread.faulted
    dsimp only
    split <;> exact ⟨rfl, rfl⟩
  have hf : (th.faulted code tcode pair v pc).ctx.tookFault code v pc := by
    rw [hx]
    exact ⟨trapcOf_code th tcode pair hc, rfl, rfl⟩
  have hpc : (th.faulted code tcode pair v pc).ctx.pc = th.ctx.pc := by rw [hx]
  rw [takeFault_eq h]
  dsimp only
  split_ifs
  · exact ⟨_, State.thread?_setThread_self _ t _, hrob.1, hrob.2, hpc, hf⟩
  · exact ⟨_, State.thread?_setThread_self _ t _, hrob.1, hrob.2, hpc, hf⟩
  · exact ⟨_, State.thread?_setThread_self _ t _, hrob.1, hrob.2, hpc, hf⟩
  · exact ⟨_, State.thread?_setThread_self _ t _, hrob.1, hrob.2, hpc, hf⟩

/-- Why a load gets no data. -/
theorem loadLost_code {s : State} {c code : Nat} {l : Load} (h : s.loadLost c l = some code) :
    code = 0x07 ∨ ((∃ w off, l.loc = .peer w off) ∧ code = 0x06) := by
  unfold State.loadLost at h
  dsimp only at h
  split at h
  · next w off hl =>
    obtain ⟨-, h⟩ := Option.ite_none_left_eq_some.mp h
    exact .inr ⟨⟨w, off, hl⟩, (Option.some.inj h).symm⟩
  · obtain ⟨-, h⟩ := Option.ite_none_right_eq_some.mp h
    exact .inl (Option.some.inj h).symm

/-- The oldest entry, a load that has lost its data, is a fault there, and the thread's entries are undone. -/
theorem drain_lost {s : State} {t n code : Nat} {th : Thread} {e : Rob} {rest : List Rob} {l : Load} (ht : s.thread? t = some th)
    (hr : th.rob = e :: rest) (he : e.load = some l) (hl : l.landed = true) (hc : l.lost = some code) :
    s.drain t (n + 1) = takeFault ((s.count t th 0x04 (th.rob.length - 1)).setThread t (th.discard l.snap)) t code 0 l.pair
      (BitVec.ofNat 64 l.ea) l.snap.pc := by
  unfold State.drain
  rw [ht]
  dsimp only
  split
  · next h => exact absurd (hr.symm.trans h) (List.cons_ne_nil _ _)
  · next e' rest' h =>
    obtain ⟨rfl, rfl⟩ := List.cons.inj (hr.symm.trans h)
    rw [he]
    dsimp only
    rw [hl, hc]
    rfl

/-- R169, R229, R387: the oldest load faults at its own instruction. -/
theorem loadReturn_loses {s : State} {t id code : Nat} {th : Thread} {l : Load} {e : Rob} {rest : List Rob} (ht : s.thread? t = some th)
    (hl : th.loadOf id = some l) (hw : s.loadWaits (coreOf t) th l = false) (hu : s.unanswered l.loc = none)
    (hc : s.loadLost (coreOf t) l = some code) (hr : th.rob = e :: rest) (he : e.load = some l) :
    ∃ s' y, exec (.loadDataReturn t id) s = .next s' ∧ s'.thread? t = some y ∧ s'.mem = s.mem ∧ y.rob = [] ∧ y.ctx.pc = l.snap.pc ∧
      y.ctx.tookFault code (BitVec.ofNat 64 l.ea) l.snap.pc := by
  let x : Thread := { th with rob := landIn l.id 0 false (some code) l.reg false th.rob }
  let m : Load := { l with landed := true, lost := some code, missed := false }
  obtain ⟨e', rest', hx, he'⟩ : ∃ e' rest', x.rob = e' :: rest' ∧ e'.load = some m := by
    refine ⟨{ e with load := some m, site := e.site.map fun x => (x.1, .load false) }, landIn l.id 0 false (some code) l.reg true rest, ?_, rfl⟩
    change landIn l.id 0 false (some code) l.reg false th.rob = _
    rw [hr, landIn, he]
    exact if_pos rfl
  have hd := drain_lost (n := rest.length) (State.thread?_setThread_self s t x) hx he' rfl rfl
  generalize hv : (s.setThread t x).count t x 0x04 (x.rob.length - 1) = v at hd
  have hvm : v.mem = s.mem := hv ▸ (kept_count (s.setThread t x) t x 0x04 (x.rob.length - 1)).mem
  have hy := State.thread?_setThread_self v t (x.discard m.snap)
  have h256 : code < 256 := by rcases loadLost_code hc with rfl | ⟨-, rfl⟩ <;> decide
  obtain ⟨y, hyt, hyr, -, hyp, hyf⟩ := takeFault_thread hy h256 0 l.pair (BitVec.ofNat 64 l.ea) l.snap.pc
  have hlen : th.rob.length = rest.length + 1 := by rw [hr, List.length_cons]
  refine ⟨_, y, (exec_loadReturn_loses ht hl hw hu hc).trans (by rw [hlen, hd]), hyt, ?_, hyr, hyp, hyf⟩
  exact (takeFault_frame hy code 0 l.pair (BitVec.ofNat 64 l.ea) l.snap.pc).1.trans hvm

/-- Settles O30: a load waits, lands or is lost; what it finds is the L1's line or the home's; and how its value is extended. -/
theorem loadReturns : Obligations.LoadReturns := by
  refine ⟨?_, ?_, ?_, ?_, ?_, fun bs => rfl⟩
  · intro s t th id l ht hl
    refine ⟨fun hw => loadReturn_waits ht hl hw, fun hw hu hn hb hr => loadReturn_lands ht hl hw hu hn hb hr, ?_,
      fun c code h => loadLost_code h⟩
    exact fun code e rest hw hu hc hr he _ => loadReturn_loses ht hl hw hu hc hr he
  · exact fun s c pa n key hn h1 h => loadThrough_home hn h1 h
  · exact fun s c pa n key v h => loadThrough_hit h
  · intro sz bs h
    rw [loadValue, if_neg (by omega), if_pos h, loadBytes_signed h]
  · intro sz bs h4 h7
    rw [loadValue, if_neg (by omega), if_neg (by omega), loadBytes_unsigned h4 h7]

end Sys2Proof.Machine
end

/-! Power, boot, sessions and rows: what the events of R381 to R393 do (O46). -/

section
namespace Sys2Proof.Machine

/-! ### Power, boot and reset (R186, R381, R389) -/

/-- A map with an entry for each key of a list. -/
theorem mget_mapList {α : Type} (f : Nat → α) {ks : List Nat} {k : Nat} (h : k ∈ ks) : mget (ks.map fun j => (j, f j)) k = some (f k) := by
  induction ks with
  | nil => cases h
  | cons j ks ih =>
    rw [List.map_cons, mget]
    by_cases hk : k = j
    · rw [if_pos hk, hk]
    · rw [if_neg hk]
      exact ih ((List.mem_cons.mp h).resolve_left hk)

/-- After a restart every row is at its lowest step under the device record (R389, R392; log 2). -/
theorem restart_row (s : State) (p : Phase) (image : Nat) (record : DeviceRecord) {r : Nat} (hr : r < 32) :
    (s.restart p image record).row r = { Row.reset with volt := voltOf record 0 } := by
  change mgetD (startRows record) r Row.reset = _
  unfold startRows
  split
  · next h => rw [h]; rfl
  · rw [mgetD, mget_mapList _ (List.mem_range.mpr hr)]
    rfl

/-- R389: a device that is off boots from what its flash holds (log 111). -/
theorem powerOn_boots {s : State} (image : Nat) (ok : Bool) (record : DeviceRecord) (rok : Bool) (h : s.host.phase = .off) :
    ∃ s', exec (.powerOn image ok record rok) s = .next s' ∧
      s'.host.phase = (if ok && rok then .running else .recovery) ∧
      (∀ k, s.host.flash = some k → s'.host.image = k.1 ∧ s'.host.record = k.2 ∧ s'.host.flash = some k) ∧
      (s.host.flash = none → s'.host.image = image ∧ s'.host.record = record ∧ s'.host.flash = some (image, record)) ∧
      (∀ r < 32, (s'.row r).volt = voltOf s'.host.record 0 ∧ (s'.row r).clock = 0) ∧ s'.threads = [] ∧
      s'.mem = Memory.empty ∧ s'.work = State.reset.work ∧ s'.tables = State.reset.tables := by
  let held := s.host.flash.getD (image, record)
  let u := s.restart (if ok && rok then .running else .recovery) held.1 held.2
  have he : exec (.powerOn image ok record rok) s = .next (u.modHost fun h => { h with flash := some held }) := if_neg (by simp [h])
  have hrow (r : Nat) (hr : r < 32) : (u.modHost fun h => { h with flash := some held }).row r = { Row.reset with volt := voltOf held.2 0 } :=
    restart_row s (if ok && rok then .running else .recovery) held.1 held.2 hr
  refine ⟨_, he, rfl, fun k hk => ?_, fun hk => ?_, fun r hr => ?_, rfl, rfl, rfl, rfl⟩
  · have hh : held = k := by simp [held, hk]
    exact hh ▸ ⟨rfl, rfl, rfl⟩
  · have hh : held = (image, record) := by simp [held, hk]
    exact ⟨congrArg Prod.fst hh, congrArg Prod.snd hh, congrArg some hh⟩
  · rw [hrow r hr]
    exact ⟨rfl, rfl⟩

/-- R186, R381: the reset after a dump keeps the dump region. -/
theorem deviceReset_restarts {s : State} (h : s.host.phase = .dumped) : ∃ s', exec .deviceReset s = .next s' ∧ s'.host.phase = .running ∧
    s'.mem = s.mem.keep true ∧ s'.threads = [] ∧ s'.tables = State.reset.tables ∧ s'.work = State.reset.work :=
  ⟨_, if_neg (by simp [h]), rfl, rfl, rfl, rfl, rfl⟩

/-- R389: in recovery a signed image and a signed record go into the boot flash. -/
theorem recoveryImage_takes {s : State} {image : Signed Nat} {record : Signed DeviceRecord} (h : s.host.phase = .recovery)
    (hr : s.host.sessions.any (fun e => e.2.endpoint == 3 && e.2.port == 0) = true) (hi : image.verifies = true) (hd : record.verifies = true) :
    exec (.recoveryImage image record) s = .next { s with host := { s.host with flash := some (image.item, record.item) } } :=
  if_neg (by simp [h, hr, hi, hd])

theorem recoveryImage_refuses {s : State} {image : Signed Nat} {record : Signed DeviceRecord}
    (h : s.host.sessions.any (fun e => e.2.endpoint == 3 && e.2.port == 0) = false ∨ image.verifies = false ∨ record.verifies = false) :
    exec (.recoveryImage image record) s = .next s := by
  refine if_pos ?_
  rcases h with h | h | h <;> simp [h]

/-! ### Sessions (R382, R383) -/

/-- R382: what an offer has to hold (log 113). -/
theorem offerOk_iff (o : Offer) (ep : Nat) : offerOk o ep = true ↔ o.secured = true ∧ o.aiFull = true ∧ o.lanes = 8 ∧ o.port < 16 ∧ ep ≤ 3 ∧
    .other ∉ o.modes ∧ (ep = 0 ∨ ep = 3 → .rod ∈ o.modes) ∧ (ep = 2 → .rudi ∈ o.modes) ∧ (ep = 1 ∨ ep = 2 → .rud ∈ o.modes) := by
  match ep with
  | 0 | 1 | 2 | 3 => simp [offerOk, endpointModes]; tauto
  | n + 4 => simp [offerOk, endpointModes]

section
variable {s : State} {o : Offer} {ep : Nat} (n remote : Nat) {ts : List Nat} (h : s.host.phase = .running)
include h

/-- R382, R383: a session is bound to its address, and but for management to its tenants. -/
theorem sessionSetup_binds (ho : offerOk o ep = true) (ht : ∀ x ∈ ts, x < 64) :
    ∃ s', exec (.sessionSetup n remote ep ts o) s = .next s' ∧ OnlyHost s s' ∧
      mget s'.host.sessions n = some { remote := remote, endpoint := ep, tenants := if ep = 3 then [] else ts, port := o.port } ∧
      s'.host.posted = s.host.posted := by
  have hts : ts.any (fun n => !tenantOk n) = false := by simpa [tenantOk] using ht
  exact ⟨_, (if_neg (by simp [h])).trans (if_neg (by simp [ho, hts])), rfl, mget_mput_self _ _ _, rfl⟩

/-- R382: any other offer is refused. -/
theorem sessionSetup_refuses (ho : offerOk o ep = false) : ∃ s', exec (.sessionSetup n remote ep ts o) s = .next s' ∧
    OnlyHost s s' ∧ s'.host.sessions = s.host.sessions ∧ s'.host.refusedSessions = s.host.refusedSessions + 1 :=
  ⟨_, (if_neg (by simp [h])).trans (if_pos (by simp [ho])), rfl, rfl, rfl⟩

end

/-! ### A row of its own (R391 to R393) -/

theorem onlyRow_modRow (s : State) (r : Nat) (f : Row → Row) : OnlyRow s (s.modRow r f) r :=
  ⟨rfl, fun e he => by rw [State.row_modRow, if_neg he]⟩

@[simp] theorem State.row_modRow_self (s : State) (r : Nat) (f : Row → Row) : (s.modRow r f).row r = f (s.row r) := by
  rw [State.row_modRow, if_pos rfl]

theorem rowOk_of_lt {d r : Nat} (hd : d < 4) (hr : r < 8) : rowOk d r = true := by simp [rowOk, dieOk, hd, hr]

/-- R392: when a row may go to a step's voltage. -/
theorem mayStep_iff (s : State) (r k : Nat) : s.mayStep r k = true ↔ k ≤ 54 ∧ voltOf s.host.record (s.row r).clock ≤ voltOf s.host.record k ∧
    (∀ h, (s.row r).hop = some h → voltOf s.host.record h ≤ voltOf s.host.record k) ∧ (s.lowest r = true → k = 0) := by
  have hneeds : s.needs (s.row r) ≤ voltOf s.host.record k ↔ voltOf s.host.record (s.row r).clock ≤ voltOf s.host.record k ∧
      ∀ h, (s.row r).hop = some h → voltOf s.host.record h ≤ voltOf s.host.record k := by
    unfold State.needs
    rw [Nat.max_le]
    cases (s.row r).hop <;> simp
  have hlow : (!s.lowest r || k == 0) = true ↔ (s.lowest r = true → k = 0) := by cases s.lowest r <;> simp
  simp only [State.mayStep, stepOk, Bool.and_eq_true, decide_eq_true_eq, hneeds, hlow]
  tauto

section
variable {s : State} {d r k : Nat}

/-- R392, R379: a voltage step of a row without requests in flight is taken. -/
theorem voltageStep_taken (hd : d < 4) (hr : r < 8) (h : s.mayStep (rowNo d r) k = true) (hb : s.rowBusy (rowNo d r) = false) :
    exec (.voltageStep d r k) s =
      .next (s.modRow (rowNo d r) fun x => { x with volt := voltOf s.host.record k, held := false, wanted := none }) :=
  (if_neg (by simp [rowOk_of_lt hd hr, h])).trans (if_neg (by simp [hb]))

/-- R379: a row with requests in flight is held for the step. -/
theorem voltageStep_held (hd : d < 4) (hr : r < 8) (h : s.mayStep (rowNo d r) k = true) (hb : s.rowBusy (rowNo d r) = true) :
    exec (.voltageStep d r k) s = .next (s.modRow (rowNo d r) fun x => { x with held := true, wanted := some k }) :=
  (if_neg (by simp [rowOk_of_lt hd hr, h])).trans (if_pos hb)

theorem voltageStep_refused (h : s.mayStep (rowNo d r) k = false) : exec (.voltageStep d r k) s = .next s := if_pos (by simp [h])

/-- R392: the clock never hops where the voltage does not reach. -/
theorem clockHop_refused (h : (s.row (rowNo d r)).volt < voltOf s.host.record k) : exec (.clockHop d r k) s = .next s := if_pos (by simp [h])

theorem clockHop_taken (hd : d < 4) (hr : r < 8) (hk : k ≤ 54) (hv : voltOf s.host.record k ≤ (s.row (rowNo d r)).volt)
    (hl : s.lowest (rowNo d r) = true → k = 0) : exec (.clockHop d r k) s = .next (s.modRow (rowNo d r) fun x => { x with hop := some k }) :=
  if_neg (by simpa [rowOk_of_lt hd hr, stepOk, hk, hv] using hl)

end

/-- R391, R392: the step that a row goes to by itself. -/
theorem nextStep_wanted {s : State} {r k : Nat} (h : (s.row r).wanted = some k) (hl : s.lowest r = true → (s.row r).clock ≠ 0) :
    s.nextStep r = some k := by
  refine Eq.trans (if_neg fun hc => ?_) h
  simp only [Bool.and_eq_true, beq_iff_eq] at hc
  exact hl hc.1.1.1 hc.1.1.2

theorem voltWork_wanted {s : State} {r k : Nat} (hr : r < 32) (h : (s.row r).wanted = some k) (hl : s.lowest r = true → (s.row r).clock ≠ 0) :
    ∃ f ∈ s.voltWork, f s = if s.mayStep r k then execVoltageStep (r / 8) (r % 8) k s
      else .next (s.modRow r fun x => { x with held := false, wanted := none }) := by
  refine ⟨_, List.mem_filterMap.mpr ⟨r, List.mem_range.mpr hr, congrArg (Option.map _) (nextStep_wanted h hl)⟩, ?_⟩
  dsimp only
  split <;> rfl

/-! ### Droop (R393) -/

theorem kept_countEvery (s : State) (c src : Nat) : Kept s (s.countEvery c src) :=
  kept_ite (.refl s) (kept_modCore _ _ _)

theorem countEvery_power (s : State) (c src : Nat) : (s.countEvery c src).power = s.power := by
  unfold State.countEvery
  split <;> rfl

section
variable {s : State} {d r k : Nat} (hd : d < 4) (hr : r < 8) (h : (s.row (rowNo d r)).hop = some k)
include hd hr h

/-- R393: a droop freezes a hop on the slower clock. -/
theorem droop_freezes (hz : (s.row (rowNo d r)).frozen = false) :
    ∃ s', exec (.droop d r true) s = .next s' ∧ s'.threads = s.threads ∧ s'.mem = s.mem ∧
      s'.row (rowNo d r) = { s.row (rowNo d r) with frozen := true, clock := Nat.min (s.row (rowNo d r)).clock k } := by
  let u := s.modRow (rowNo d r) fun x => { x with frozen := true, clock := Nat.min x.clock k }
  let count (w : State) (j : Nat) : State := w.countEvery (rowNo d r * 16 + j) 0x51
  have he : exec (.droop d r true) s = .next ((List.range 16).foldl count u) := by
    change execDroop d r true s = _
    simp only [execDroop, rowOk_of_lt hd hr, h, hz]
    rfl
  have hk : Kept u ((List.range 16).foldl count u) := kept_foldl _ (fun w j => kept_countEvery w _ _) _ _
  have hp : ((List.range 16).foldl count u).power = u.power :=
    List.foldlRecOn _ (motive := fun w => w.power = u.power) count rfl fun w hw j _ => (countEvery_power w _ _).trans hw
  refine ⟨_, he, hk.threads, hk.mem, ?_⟩
  rw [State.row, hp]
  exact State.row_modRow_self s _ _

/-- R393: the hop goes on once the droop clears. -/
theorem droop_clears : exec (.droop d r false) s = .next (s.modRow (rowNo d r) fun x => { x with frozen := false }) := by
  change execDroop d r false s = _
  simp only [execDroop, rowOk_of_lt hd hr, h]
  rfl

end

/-! ### Power bubbles (R19, R326) -/

/-- The position of a slot without a live thread may be a bubble. -/
theorem keepPosition_dead {s : State} {c slot : Nat} (h : s.thread? (c * 64 + slot) = none) : s.keepPosition c slot = s :=
  if_neg (by simp [h])

theorem powerBubble_dead {s : State} {c p : Nat} (b : Bool) (hc : c < 512) (hp : p < 64)
    (h : s.thread? (c * 64 + impSlot ((s.core c).impView p)) = none) :
    exec (.powerBubble c p b) s = .next (s.modCore c fun x => x.setImp p (setBits ((s.core c).impView p) 13 1 (if b then 1 else 0))) :=
  (if_neg (by simp [coreOk, hc, hp])).trans (congrArg Host.Outcome.next (keepPosition_dead h))

/-! ### Fatal errors, and the way to the dump (R381) -/

/-- R381: a fatal error makes its machine entry and stops the cores. -/
theorem fatalError_stops (s : State) (c k cause : Nat) : ∃ w, (fatalError s c k cause).host.phase = .stopping c k cause ∧
    (fatalError s c k cause).sched.issue = false ∧ (fatalError s c k cause).threads = s.threads ∧ (fatalError s c k cause).mem = s.mem ∧
    fatalError s c k cause = { s with sched := (fatalError s c k cause).sched, cores := (fatalError s c k cause).cores,
                                      host := (fatalError s c k cause).host } ∧
    ((fatalError s c k cause).core c).mq = (s.core c).mq ++ [w] ∧ nbits w.1 0 8 = cause % 256 := by
  let th := (s.thread? (c * 64 + k)).getD { Thread.blank with home := c * 64 + k }
  refine ⟨(mcauseOf (c * 64 + k) th (cause % 256) 0, th.who), rfl, rfl, rfl, rfl, rfl, ?_, mcauseOf_code _ _ _ (Nat.mod_lt _ (by decide))⟩
  exact congrArg Core.mq (State.core_modCore_self s c fun x => { x with mq := x.mq ++ [(mcauseOf (c * 64 + k) th (cause % 256) 0, th.who)] })

theorem exec_fatalError {s : State} {c : Nat} (k cause : Nat) (hc : c < 512) (h : s.host.phase = .running) :
    exec (.fatalError c k cause) s = .next (fatalError s c k cause) :=
  congrArg Host.Outcome.next (if_pos (by simp [coreOk, hc, h]))

/-- R391: a row at the trip limit stops the device. -/
theorem thermalTrip_stops {s : State} {d r : Nat} (hd : d < 4) (hr : r < 8) (h : s.host.phase = .running) (hot : s.tooHot (rowNo d r) = true) :
    ∃ s' c k cause, exec (.thermalTrip d r) s = .next s' ∧ s'.host.phase = .stopping c k cause ∧ c / 16 = rowNo d r ∧ k < 64 ∧
      s'.sched.issue = false ∧ s'.threads = s.threads ∧ s'.mem = s.mem := by
  let v := (Config.freeWord s.sched.fresh).toNat
  obtain ⟨_, hph, hi, ht, hm, _⟩ := fatalError_stops s.tick (rowNo d r * 16 + v % 16) (v / 16 % 64) (Config.dumpCause 1).toNat
  exact ⟨_, _, _, _, if_neg (by simp [rowOk_of_lt hd hr, h, hot]), hph, by omega, Nat.mod_lt _ (by decide), hi, ht, hm⟩

/-- R381: a device that stops drains its routers, and then makes its dump. -/
theorem step_stopping {s : State} {c k cause : Nat} (h : s.host.phase = .stopping c k cause) (ha : s.sched.agenda = []) :
    step s = .next ((firstChange s s.drainWork).getD (s.dump c k cause)) := by
  have h1 : step s = stepAlone s := by
    change stepOnce s = _
    simp only [stepOnce, ha]
  rw [h1]
  simp only [stepAlone, h]
  rfl

end Sys2Proof.Machine
end

/-! Rows that must run at their lowest step, sensors and the dump (R381, R391, R394; O46). -/

section
namespace Sys2Proof.Machine

/-! ### Rows that must run at their lowest step (R391, R394) -/

/-- Nothing differs but the voltage rows. -/
def OnlyRows (s s' : State) : Prop := s' = { s with power := { s.power with rows := s'.power.rows } }

theorem OnlyRows.refl (s : State) : OnlyRows s s := rfl

theorem OnlyRows.trans {a b c : State} (h : OnlyRows a b) (k : OnlyRows b c) : OnlyRows a c := by
  unfold OnlyRows at *
  rw [k, h]

theorem onlyRows_modRow (s : State) (r : Nat) (f : Row → Row) : OnlyRows s (s.modRow r f) := rfl

theorem onlyRows_foldl {α : Type} (f : State → α → State) (h : ∀ s x, OnlyRows s (f s x)) (l : List α) (s : State) : OnlyRows s (l.foldl f s) :=
  List.foldlRecOn l (motive := OnlyRows s) f (.refl s) fun w hw x _ => hw.trans (h w x)

section
variable {s s' : State} (h : OnlyRows s s')
include h

theorem OnlyRows.threads : s'.threads = s.threads := by rw [h]
theorem OnlyRows.mem : s'.mem = s.mem := by rw [h]
theorem OnlyRows.forced : s'.power.forced = s.power.forced := by rw [h]
theorem OnlyRows.sched : s'.sched = s.sched := by rw [h]

end

/-- What the bounds of R391 and R394 make of a row. -/
def Row.lowered (x : Row) (forced : Bool) : Row :=
  if (forced || x.untrusted 2 || (x.untrusted 0 && x.untrusted 1)) && (x.clock != 0 || x.hop.isSome) then { x with hop := some 0 } else x

theorem Row.lowered_lowered (x : Row) (forced : Bool) : (x.lowered forced).lowered forced = x.lowered forced := by
  by_cases h : (forced || x.untrusted 2 || (x.untrusted 0 && x.untrusted 1)) && (x.clock != 0 || x.hop.isSome)
  · rw [show x.lowered forced = { x with hop := some 0 } from if_pos h]
    unfold Row.lowered
    split <;> rfl
  · rw [show x.lowered forced = x from if_neg h]
    exact if_neg h

theorem onlyRows_lower (s : State) (r : Nat) : OnlyRows s (s.lower r) := by
  unfold State.lower
  split <;> rfl

theorem row_lower (s : State) (r e : Nat) : (s.lower r).row e = if e = r then (s.row e).lowered s.power.forced else s.row e := by
  unfold State.lower State.lowest Row.lowered
  by_cases he : e = r
  · subst he
    rw [if_pos rfl]
    split
    · rw [State.row_modRow_self]
    · rfl
  · rw [if_neg he]
    split
    · rw [State.row_modRow, if_neg he]
    · rfl

theorem row_lowerAll (ks : List Nat) (s : State) (e : Nat) :
    (ks.foldl State.lower s).row e = if e ∈ ks then (s.row e).lowered s.power.forced else s.row e := by
  induction ks generalizing s with
  | nil => rfl
  | cons k ks ih =>
    rw [List.foldl_cons, ih, row_lower, (onlyRows_lower s k).forced]
    by_cases hk : e = k
    · rw [if_pos hk, Row.lowered_lowered, ite_self, if_pos (hk ▸ List.mem_cons_self)]
    · rw [if_neg hk]
      simp [hk]

/-- R391: under the power ceiling every row goes to its lowest step. -/
theorem powerCeiling_lowers (s : State) : ∃ s', exec .powerCeiling s = .next s' ∧ s'.power.forced = true ∧ s'.mem = s.mem ∧
    s'.threads = s.threads ∧
    ∀ r < 32, s'.row r = if (s.row r).clock ≠ 0 ∨ (s.row r).hop.isSome = true then { s.row r with hop := some 0 } else s.row r := by
  let u := { s with power := { s.power with forced := true } }
  have hu : OnlyRows u ((List.range 32).foldl State.lower u) := onlyRows_foldl _ onlyRows_lower _ _
  have he : exec .powerCeiling s = .next ((List.range 32).foldl State.lower u) := rfl
  refine ⟨_, he, hu.forced, hu.mem, hu.threads, fun r hr => ?_⟩
  rw [row_lowerAll, if_pos (List.mem_range.mpr hr)]
  change (s.row r).lowered true = _
  simp [Row.lowered]

/-! ### Sensors (R394) -/

theorem Row.sensor_setSensor (x : Row) (i j : Nat) (f : Sensor → Sensor) :
    (x.setSensor i f).sensor j = if j = i then f (x.sensor i) else x.sensor j := by
  simp only [Row.sensor, Row.setSensor, mgetD]
  rw [mget_mput]
  split <;> rfl

/-- A sensor after it has been looked at (R394). -/
def Sensor.judged (y : Sensor) (bad : Bool) (now : Nat) : Sensor :=
  if bad then { y with bad := some now }
  else match y.bad with
    | some at_ => if at_ + second ≤ now then { y with bad := none } else y
    | none => y

theorem judge_eq (s : State) (r i : Nat) : s.judge r i = s.modRow r fun x => x.setSensor i fun y => y.judged (s.doubtful r i) s.sched.time := rfl

theorem sensor_judge (s : State) (r i e j : Nat) : ((s.judge r i).row e).sensor j =
    if e = r ∧ j = i then ((s.row e).sensor j).judged (s.doubtful r i) s.sched.time else (s.row e).sensor j := by
  rw [judge_eq, State.row_modRow]
  by_cases he : e = r
  · subst he
    rw [if_pos rfl, Row.sensor_setSensor]
    by_cases hj : j = i
    · subst hj
      simp
    · simp [hj]
  · simp [he]

theorem untrusted_judge_self (s : State) (r i : Nat) :
    ((s.judge r i).row r).untrusted i = (((s.row r).sensor i).judged (s.doubtful r i) s.sched.time).bad.isSome := by
  rw [Row.untrusted, sensor_judge, if_pos ⟨rfl, rfl⟩]

theorem untrusted_judge_of_doubtful {s : State} {r i : Nat} (h : s.doubtful r i = true) : ((s.judge r i).row r).untrusted i = true := by
  simp [untrusted_judge_self, h, Sensor.judged]

theorem untrusted_judge_of_trusted {s : State} {r i : Nat} (h : s.doubtful r i = false) (hb : ((s.row r).sensor i).bad = none) :
    ((s.judge r i).row r).untrusted i = false := by
  simp [untrusted_judge_self, h, Sensor.judged, hb]

/-- R394: a sensor stays untrusted for a second after its last condition. -/
theorem untrusted_judge_iff {s : State} {r i b : Nat} (h : s.doubtful r i = false) (hb : ((s.row r).sensor i).bad = some b) :
    ((s.judge r i).row r).untrusted i = true ↔ s.sched.time < b + second := by
  rw [untrusted_judge_self, h]
  simp only [Sensor.judged, hb, Bool.false_eq_true, if_false]
  by_cases hn : b + second ≤ s.sched.time
  · simp [hn]
  · simp [hn, hb]
    omega

/-- What a sensor has read, whatever is thought of it. -/
def Sensor.reading (y : Sensor) : Sensor := { y with bad := none }

theorem Sensor.reading_judged (y : Sensor) (bad : Bool) (now : Nat) : (y.judged bad now).reading = y.reading := by
  unfold Sensor.judged
  split
  · rfl
  · split
    · split <;> rfl
    · rfl

/-- A condition of R394 on a sensor's reading and those of its neighbours. -/
def Sensor.doubt (x : Sensor) (ns : List Sensor) (i now : Nat) : Bool := match x.value with
  | none => x.stands
  | some v => x.stands || (i < 2 && ((decide (x.changed + second ≤ now) && ns.all fun n => decide (x.changed < n.changed)) ||
      decide (v < -20) || decide (150 < v) || ns.all fun n => Machine.apart v n))

theorem doubtful_eq (s : State) (r i : Nat) : s.doubtful r i = ((s.row r).sensor i).doubt (s.neighbours r i) i s.sched.time := rfl

theorem Sensor.doubt_reading (x : Sensor) (ns : List Sensor) (i now : Nat) : x.reading.doubt (ns.map Sensor.reading) i now = x.doubt ns i now := by
  simp only [Sensor.doubt, List.all_map]
  rfl

/-- Two states whose sensors have read the same, in rows with the same clocks. -/
structure SameReadings (s s' : State) : Prop where
  rows : OnlyRows s s'
  clock : ∀ e, (s'.row e).clock = (s.row e).clock
  reading : ∀ e j, ((s'.row e).sensor j).reading = ((s.row e).sensor j).reading

theorem SameReadings.refl (s : State) : SameReadings s s := ⟨.refl s, fun _ => rfl, fun _ _ => rfl⟩

theorem SameReadings.trans {a b c : State} (h : SameReadings a b) (k : SameReadings b c) : SameReadings a c :=
  ⟨h.rows.trans k.rows, fun e => (k.clock e).trans (h.clock e), fun e j => (k.reading e j).trans (h.reading e j)⟩

theorem SameReadings.value {s s' : State} (h : SameReadings s s') (e j : Nat) : ((s'.row e).sensor j).value = ((s.row e).sensor j).value := by
  have hv : ((s'.row e).sensor j).reading.value = ((s.row e).sensor j).reading.value := by rw [h.reading]
  exact hv

theorem sameReadings_judge (s : State) (r i : Nat) : SameReadings s (s.judge r i) := by
  refine ⟨rfl, fun e => ?_, fun e j => ?_⟩
  · rw [judge_eq, State.row_modRow]
    split
    · next h => rw [h]; rfl
    · rfl
  · rw [sensor_judge]
    split
    · exact Sensor.reading_judged _ _ _
    · rfl

theorem doubtful_congr {s s' : State} (h : SameReadings s s') (r i : Nat) : s'.doubtful r i = s.doubtful r i := by
  have hn : (s'.neighbours r i).map Sensor.reading = (s.neighbours r i).map Sensor.reading := by
    simp only [State.neighbours, List.map_cons, List.map_nil, apply_ite Sensor.reading, h.reading]
  rw [doubtful_eq, doubtful_eq, ← Sensor.doubt_reading, hn, h.reading, Sensor.doubt_reading, h.rows.sched]

/-- A look at one sensor leaves a doubtful one untrusted. -/
theorem untrusted_judge {s : State} {r i : Nat} (h : s.doubtful r i = true) (hu : ((s.row r).sensor i).bad.isSome = true) (e j : Nat) :
    (((s.judge e j).row r).sensor i).bad.isSome = true := by
  rw [sensor_judge]
  split
  · next hc =>
    obtain ⟨rfl, rfl⟩ := hc
    rw [h]
    rfl
  · exact hu

/-- What one element of a list brings about, and none undoes. -/
theorem foldl_establishes {α β : Type} {f : β → α → β} {I P : β → Prop} {x : α} (hI : ∀ s y, I s → I (f s y)) (hx : ∀ s, I s → P (f s x))
    (hk : ∀ s y, I s → P s → P (f s y)) {l : List α} (hl : x ∈ l) {s : β} (hs : I s) : P (l.foldl f s) := by
  have hrest (l : List α) (s : β) (hs : I s) (hp : P s) : P (l.foldl f s) :=
    (List.foldlRecOn l (motive := fun s => I s ∧ P s) f ⟨hs, hp⟩ fun s h y _ => ⟨hI s y h.1, hk s y h.1 h.2⟩).2
  induction l generalizing s with
  | nil => cases hl
  | cons y l ih =>
    rcases List.mem_cons.mp hl with rfl | hl
    · exact hrest l _ (hI s _ hs) (hx s hs)
    · exact ih hl (hI s y hs)

theorem judgeDie_eq (s : State) (d : Nat) :
    s.judgeDie d = (List.range 8).foldl (fun s k => [0, 1, 2].foldl (fun s i => s.judge (rowNo d k) i) s) s := rfl

theorem sameReadings_judges (s : State) (r : Nat) (is : List Nat) : SameReadings s (is.foldl (fun s i => s.judge r i) s) :=
  List.foldlRecOn is (motive := SameReadings s) _ (.refl s) fun w hw _ _ => hw.trans (sameReadings_judge w _ _)

theorem sameReadings_judgeDie (s : State) (d : Nat) : SameReadings s (s.judgeDie d) :=
  List.foldlRecOn _ (motive := SameReadings s) _ (.refl s) fun w hw k _ => hw.trans (sameReadings_judges w (rowNo d k) [0, 1, 2])

/-- R394: a look at every sensor of a die finds each doubtful one untrusted. -/
theorem untrusted_judgeDie {s : State} {d r i : Nat} (hr : r < 8) (hi : i ≤ 2) (h : s.doubtful (rowNo d r) i = true) :
    (((s.judgeDie d).row (rowNo d r)).sensor i).bad.isSome = true := by
  have hd (w : State) (hw : SameReadings s w) : w.doubtful (rowNo d r) i = true := (doubtful_congr hw _ _).trans h
  have hI (e : Nat) (w : State) (j : Nat) (hw : SameReadings s w) : SameReadings s (w.judge e j) := hw.trans (sameReadings_judge w e j)
  rw [judgeDie_eq]
  refine foldl_establishes (I := SameReadings s) (P := fun w => ((w.row (rowNo d r)).sensor i).bad.isSome = true) (x := r)
    (fun w k hw => hw.trans (sameReadings_judges w _ _)) (fun w hw => ?_) (fun w k hw hp => ?_) (List.mem_range.mpr hr) (.refl s)
  · exact foldl_establishes (I := SameReadings s) (P := fun w => ((w.row (rowNo d r)).sensor i).bad.isSome = true) (x := i) (hI _)
      (fun w hw => untrusted_judge_of_doubtful (hd w hw)) (fun w j hw hp => untrusted_judge (hd w hw) hp _ j) (by simp; omega) hw
  · exact (List.foldlRecOn _ (motive := fun w => SameReadings s w ∧ ((w.row (rowNo d r)).sensor i).bad.isSome = true) _ ⟨hw, hp⟩
      fun w h j _ => ⟨hI _ w j h.1, untrusted_judge (hd w h.1) h.2 _ j⟩).2

/-- A sensor that has read a value. -/
def Sensor.take (z : Sensor) (v : Int) (now : Nat) (stands : Bool) : Sensor :=
  if z.value = some v then { z with stands := stands } else { z with value := some v, changed := now, stands := stands }

theorem Sensor.take_value (z : Sensor) (v : Int) (now : Nat) (stands : Bool) :
    (z.take v now stands).value = some v ∧ (z.take v now stands).stands = stands := by
  unfold Sensor.take
  split
  · next h => exact ⟨h, rfl⟩
  · exact ⟨rfl, rfl⟩

/-- A state in which a reading has just arrived. -/
def State.hasRead (s : State) (r : Nat) (x : SensorReading) (stands : Bool) : State :=
  s.modRow r fun y => y.setSensor x.sensor fun z => z.take x.value s.sched.time stands

theorem read_eq (s : State) (d r : Nat) (x : SensorReading) (stands : Bool) :
    s.read d r x stands = ((s.timed.judgeDie d).hasRead r x stands).judgeDie d := rfl

theorem sensor_hasRead (s : State) (r : Nat) (x : SensorReading) (stands : Bool) :
    (((s.hasRead r x stands).row r).sensor x.sensor).value = some x.value ∧ (((s.hasRead r x stands).row r).sensor x.sensor).stands = stands := by
  rw [State.hasRead, State.row_modRow_self, Row.sensor_setSensor, if_pos rfl]
  exact Sensor.take_value _ _ _ _

theorem clock_hasRead (s : State) (r e : Nat) (x : SensorReading) (stands : Bool) : ((s.hasRead r x stands).row e).clock = (s.row e).clock := by
  rw [State.hasRead, State.row_modRow]
  split
  · next h => rw [h]; rfl
  · rfl

/-- R394: a condition that stands, or a temperature out of range, makes a sensor doubtful. -/
theorem doubtful_hasRead (s : State) (r : Nat) (x : SensorReading) (stands : Bool)
    (h : stands = true ∨ x.sensor < 2 ∧ (x.value < -20 ∨ 150 < x.value)) : (s.hasRead r x stands).doubtful r x.sensor = true := by
  obtain ⟨hv, hs⟩ := sensor_hasRead s r x stands
  rw [doubtful_eq, Sensor.doubt, hv, hs]
  rcases h with h | ⟨h2, h⟩
  · simp [h]
  · rcases h with h | h <;> simp [h2, h]

section
variable (s : State) {d r : Nat} (x : SensorReading) (stands : Bool) (hr : r < 8) (hx : x.sensor ≤ 2)

theorem onlyRows_read : OnlyRows s.timed (s.read d (rowNo d r) x stands) :=
  ((sameReadings_judgeDie s.timed d).rows.trans (onlyRows_modRow _ _ _)).trans (sameReadings_judgeDie _ d).rows

theorem clock_read (e : Nat) : ((s.read d (rowNo d r) x stands).row e).clock = (s.row e).clock :=
  ((sameReadings_judgeDie _ d).clock e).trans ((clock_hasRead _ _ e x stands).trans ((sameReadings_judgeDie s.timed d).clock e))

theorem value_read : (((s.read d (rowNo d r) x stands).row (rowNo d r)).sensor x.sensor).value = some x.value :=
  ((sameReadings_judgeDie _ d).value _ _).trans (sensor_hasRead _ _ x stands).1

include hr hx in
theorem untrusted_read (h : stands = true ∨ x.sensor < 2 ∧ (x.value < -20 ∨ 150 < x.value)) :
    ((s.read d (rowNo d r) x stands).row (rowNo d r)).untrusted x.sensor = true :=
  untrusted_judgeDie hr hx (doubtful_hasRead _ _ x stands h)

end

theorem Row.lowered_sensor (x : Row) (forced : Bool) (i : Nat) : (x.lowered forced).sensor i = x.sensor i := by
  unfold Row.lowered
  split <;> rfl

/-- Every row of a die goes to its lowest step where it must. -/
def State.lowerDie (s : State) (d : Nat) : State := (List.range 8).foldl (fun s k => s.lower (rowNo d k)) s

theorem row_lowerDie (s : State) {d r : Nat} (hr : r < 8) : (s.lowerDie d).row (rowNo d r) = (s.row (rowNo d r)).lowered s.power.forced := by
  have h : s.lowerDie d = ((List.range 8).map (rowNo d)).foldl State.lower s := (List.foldl_map (g := State.lower)).symm
  rw [h, row_lowerAll, if_pos (List.mem_map_of_mem (List.mem_range.mpr hr))]

theorem onlyRows_lowerDie (s : State) (d : Nat) : OnlyRows s (s.lowerDie d) := onlyRows_foldl _ (fun s _ => onlyRows_lower s _) _ _

section
variable (s : State) {d r : Nat} (x : SensorReading) (hd : d < 4) (hr : r < 8) (hx : x.sensor ≤ 2)
include hd hr hx

/-- R394: with the event of a sensor untrusted its reading has come, and a doubtful one is untrusted. -/
theorem sensorUntrusted_reads : ∃ s', exec (.sensorUntrusted d r x) s = .next s' ∧
    s'.mem = s.mem ∧ s'.threads = s.threads ∧ ((s'.row (rowNo d r)).sensor x.sensor).value = some x.value ∧
    (x.sensor = 2 → (s'.row (rowNo d r)).untrusted 2 = true ∧ ((s.row (rowNo d r)).clock ≠ 0 → (s'.row (rowNo d r)).hop = some 0)) ∧
    (x.sensor ≠ 2 → (x.value < -20 ∨ 150 < x.value) → (s'.row (rowNo d r)).untrusted x.sensor = true) := by
  let u := s.read d (rowNo d r) x (x.sensor = 2)
  have he : exec (.sensorUntrusted d r x) s = .next (u.lowerDie d) := if_neg (by simp [rowOk_of_lt hd hr, hx])
  have hu : OnlyRows s.timed (u.lowerDie d) := (onlyRows_read s x _).trans (onlyRows_lowerDie u d)
  have hs (i : Nat) : ((u.lowerDie d).row (rowNo d r)).sensor i = (u.row (rowNo d r)).sensor i := by
    rw [row_lowerDie u hr, Row.lowered_sensor]
  refine ⟨_, he, hu.mem, hu.threads, (congrArg Sensor.value (hs _)).trans (value_read s x _), fun h2 => ?_, fun h2 hv => ?_⟩
  · have h : (u.row (rowNo d r)).untrusted 2 = true := h2 ▸ untrusted_read s x _ hr hx (.inl (by simp [h2]))
    refine ⟨(congrArg (fun y : Sensor => y.bad.isSome) (hs 2)).trans h, fun hc => ?_⟩
    have hc' : (u.row (rowNo d r)).clock ≠ 0 := (clock_read s x _ (rowNo d r)).trans_ne hc
    rw [row_lowerDie u hr, Row.lowered, if_pos (by simp [h, hc'])]
  · exact (congrArg (fun y : Sensor => y.bad.isSome) (hs _)).trans (untrusted_read s x _ hr hx (.inr ⟨by omega, hv⟩))

theorem sensorTrusted_reads : ∃ s', exec (.sensorTrusted d r x) s = .next s' ∧
    s'.mem = s.mem ∧ s'.threads = s.threads ∧ ((s'.row (rowNo d r)).sensor x.sensor).value = some x.value := by
  let u := s.read d (rowNo d r) x false
  have he : exec (.sensorTrusted d r x) s = .next (u.lowerDie d) := if_neg (by simp [rowOk_of_lt hd hr, hx])
  have hu : OnlyRows s.timed (u.lowerDie d) := (onlyRows_read s x _).trans (onlyRows_lowerDie u d)
  refine ⟨_, he, hu.mem, hu.threads, ?_⟩
  rw [row_lowerDie u hr, Row.lowered_sensor]
  exact value_read s x false

end

/-! ### A row's temperature (R394) -/

/-- R394: the hotter of two trusted sensors. -/
theorem rowTemp_trusted {s : State} {r : Nat} {v w : Int} (h0 : (s.row r).untrusted 0 = false) (hv : ((s.row r).sensor 0).value = some v)
    (h1 : (s.row r).untrusted 1 = false) (hw : ((s.row r).sensor 1).value = some w) : s.rowTemp r = some (max v w) := by
  simp [State.rowTemp, h0, h1, hv, hw, hottest, max_comm]

/-- R394: an untrusted sensor's place is taken by its hotter neighbour and 10 degrees. -/
theorem rowTemp_neighbours {s : State} {r : Nat} {v x y : Int} {m n : Sensor} (h0 : (s.row r).untrusted 0 = false)
    (hv : ((s.row r).sensor 0).value = some v) (h1 : (s.row r).untrusted 1 = true) (hn : s.neighbours r 1 = [m, n])
    (hm : m.bad = none) (hb : n.bad = none) (hx : m.value = some x) (hy : n.value = some y) :
    s.rowTemp r = some (max v (max x y + 10)) := by
  simp [State.rowTemp, h0, h1, hv, hn, hm, hb, hx, hy, hottest, max_comm]

/-! ### The dump (R381) -/

/-- Packets leave the device, or are dropped at its ports, and nothing else happens. -/
structure Sends (s s' : State) : Prop where
  rest : s' = { s with sched := s'.sched, host := s'.host }
  time : s'.sched.time = s.sched.time
  host : s'.host = { s.host with posted := s'.host.posted, dropped := s'.host.dropped }
  posted : ∀ p ∈ s.host.posted, p ∈ s'.host.posted

theorem Sends.refl (s : State) : Sends s s := ⟨rfl, rfl, rfl, fun _ h => h⟩

theorem Sends.trans {a b c : State} (h : Sends a b) (k : Sends b c) : Sends a c where
  rest := by rw [k.rest, h.rest]
  time := k.time.trans h.time
  host := by rw [k.host, h.host]
  posted p hp := k.posted p (h.posted p hp)

section
variable {s s' : State} (h : Sends s s')
include h

theorem Sends.threads : s'.threads = s.threads := by rw [h.rest]
theorem Sends.cores : s'.cores = s.cores := by rw [h.rest]
theorem Sends.dies : s'.dies = s.dies := by rw [h.rest]
theorem Sends.mem : s'.mem = s.mem := by rw [h.rest]
theorem Sends.chan : s'.chan = s.chan := by rw [h.rest]
theorem Sends.die (d : Nat) : s'.die d = s.die d := congrArg (mgetD · d Die.reset) h.dies

end

theorem sends_post (s : State) (dest : Nat) (p : Posted) : Sends s (s.post dest p) := by
  unfold State.post
  split
  · exact ⟨rfl, rfl, rfl, fun _ h => List.mem_append_left _ h⟩
  · exact ⟨rfl, rfl, rfl, fun _ h => h⟩

theorem mem_posted_post {s : State} {dest : Nat} (p : Posted) (h : s.egress dest = true) : p ∈ (s.post dest p).host.posted := by
  rw [State.post, if_pos h]
  exact List.mem_append_right _ (List.mem_singleton_self p)

theorem Sends.egress {s s' : State} (h : Sends s s') (dest : Nat) : s'.egress dest = s.egress dest := by
  unfold State.egress
  rw [h.host]

theorem Sends.hostOf {s s' : State} (h : Sends s s') (t : Nat) : s'.hostOf t = s.hostOf t := by
  unfold State.hostOf
  rw [h.host]

theorem Sends.lostOf {s s' : State} (h : Sends s s') (t : Nat) : s'.lostOf t = s.lostOf t := by
  have ht : s'.tenant? t = s.tenant? t := by rw [h.rest]; rfl
  unfold State.lostOf
  rw [ht]

/-- A launch that the dump ends (R381): STATUS 5, its messages and the time. -/
def State.endOfLaunch (s : State) (l : Launch) : BitVec 256 := completion l (s.lostOf l.tenant) 5 l.msgs s.sched.time

/-- The completion of a launch leaves. -/
def State.completeLaunch (s : State) (l : Nat × Launch) : State := s.sendCompletion l.2.tenant (s.endOfLaunch l.2)

theorem Sends.endOfLaunch {s s' : State} (h : Sends s s') (l : Launch) : s'.endOfLaunch l = s.endOfLaunch l := by
  rw [State.endOfLaunch, h.lostOf, h.time]
  rfl

theorem sends_completeAll (ls : List (Nat × Launch)) (s : State) : Sends s (ls.foldl State.completeLaunch s) :=
  List.foldlRecOn ls (motive := Sends s) _ (.refl s) fun _ hw _ _ => hw.trans (sends_post _ _ _)

/-- R381, R391: every completion whose address the device record lists leaves. -/
theorem completeAll_posts {s : State} {ls : List (Nat × Launch)} {l : Nat × Launch} (hl : l ∈ ls) (h : s.egress (s.hostOf l.2.tenant) = true) :
    .completion l.2.tenant (s.hostOf l.2.tenant) (framed 1 (s.endOfLaunch l.2)) ∈ (ls.foldl State.completeLaunch s).host.posted := by
  refine foldl_establishes (f := State.completeLaunch) (I := Sends s)
    (P := fun w => .completion l.2.tenant (s.hostOf l.2.tenant) (framed 1 (s.endOfLaunch l.2)) ∈ w.host.posted)
    (fun w m hw => hw.trans (sends_post _ _ _)) (fun w hw => ?_) (fun w m _ hp => (sends_post _ _ _).posted _ hp) hl (.refl s)
  rw [← hw.hostOf, ← hw.endOfLaunch]
  exact mem_posted_post _ (by rw [hw.egress, hw.hostOf, h])

/-- A die whose L2 lines have all been written back. -/
def Die.clean (d : Die) : Die := { d with l2dirty := [] }

/-- The memories as the dump leaves them, with the bytes of its region (R381). -/
def State.dumped (s : State) (bytes : List (Nat × Byte)) : State :=
  { s.timed with chan := Memory.empty, dies := s.dies.map fun d => (d.1, d.2.clean),
                 mem := (s.mem.keep false).puts (s.keyData 0) bytes }

theorem dump_eq (s : State) (c k cause : Nat) : s.dump c k cause =
    (s.work.launches.foldl State.completeLaunch (s.dumped (s.timed.dumpBytes c k cause))).modHost fun h => { h with phase := .dumped } := rfl

theorem l2dirty_dumped (s : State) (bytes : List (Nat × Byte)) (e : Nat) : ((s.dumped bytes).die e).l2dirty = [] := by
  change (mgetD (s.dies.map fun d => (d.1, d.2.clean)) e Die.reset).l2dirty = []
  rw [mgetD, mget_mapValues s.dies Die.clean]
  cases mget s.dies e <;> rfl

/-- R381: what the dump leaves, and whom it tells. -/
theorem dump_spec (s : State) (c k cause : Nat) :
    (s.dump c k cause).host.phase = .dumped ∧ (s.dump c k cause).threads = s.threads ∧ (s.dump c k cause).cores = s.cores ∧
    (s.dump c k cause).chan = Memory.empty ∧ (∀ e, ((s.dump c k cause).die e).l2dirty = []) ∧
    (s.dump c k cause).mem = (s.mem.keep false).puts (s.keyData 0) (s.timed.dumpBytes c k cause) ∧
    ∀ l ∈ s.work.launches, s.egress (s.hostOf l.2.tenant) = true → .completion l.2.tenant (s.hostOf l.2.tenant)
      (framed 1 (completion l.2 (s.lostOf l.2.tenant) 5 l.2.msgs (s.dump c k cause).sched.time)) ∈ (s.dump c k cause).host.posted := by
  rw [dump_eq]
  generalize s.timed.dumpBytes c k cause = bytes
  have hs := sends_completeAll s.work.launches (s.dumped bytes)
  refine ⟨rfl, hs.threads, hs.cores, hs.chan, fun e => ?_, hs.mem, fun l hl h => ?_⟩
  · exact (congrArg Die.l2dirty (hs.die e)).trans (l2dirty_dumped s bytes e)
  · have hp := completeAll_posts (s := s.dumped bytes) hl h
    rw [State.endOfLaunch, ← hs.time] at hp
    exact hp

end Sys2Proof.Machine
end

/-! Power and errors: O46, put together from the cases above. -/

section
namespace Sys2Proof.Machine

/-! ### O46 -/

/-- Settles O46: the cases above, in the statement's order. -/
theorem powerEvents : Obligations.PowerEvents := by
  unfold Obligations.PowerEvents
  refine ⟨?_, ?_, ?_, ?_, ?_, ?_, ?_, ?_, ?_, ?_, ?_, ?_, ?_, ?_, ?_, ?_, ?_, ?_, ?_, ?_, ?_, ?_, ?_, ?_, ?_, ?_, ?_⟩
  · exact fun s image ok record rok h => powerOn_boots image ok record rok h
  · exact fun s => ⟨_, rfl, rfl, rfl, rfl, rfl⟩
  · exact fun s h => deviceReset_restarts h
  · exact fun s image record h => ⟨recoveryImage_takes h, recoveryImage_refuses⟩
  · exact fun s n remote ep ts o h ho ht => sessionSetup_binds n remote h ho ht
  · exact fun s n remote ep ts o h ho => sessionSetup_refuses n remote h ho
  · exact offerOk_iff
  · exact powerCeiling_lowers
  · exact fun s => rfl
  · exact fun s d r hd hr h hot => thermalTrip_stops hd hr h hot
  · exact fun s c k cause hc h => (fatalError_stops s c k cause).elim fun w hw => ⟨_, w, exec_fatalError k cause hc h, hw⟩
  · intro s c k cause h ha
    rw [step_stopping h ha]
    exact ⟨fun y hy => by rw [hy]; rfl, fun hn => by rw [hn]; rfl⟩
  · exact dump_spec
  · exact fun s d r x hd hr hx => sensorUntrusted_reads s x hd hr hx
  · exact fun s d r x hd hr hx => sensorTrusted_reads s x hd hr hx
  · exact fun s r i => ⟨untrusted_judge_of_doubtful, untrusted_judge_of_trusted, fun b => untrusted_judge_iff⟩
  · exact fun s r v w h0 hv hw => ⟨fun h1 => rowTemp_trusted h0 hv h1 hw,
      fun m n x y h1 hn hm hb hx hy => rowTemp_neighbours h0 hv h1 hn hm hb hx hy⟩
  · exact mayStep_iff
  · exact fun s d r k hd hr h => ⟨fun hb => ⟨_, voltageStep_taken hd hr h hb, onlyRow_modRow _ _ _, State.row_modRow_self _ _ _⟩,
      fun hb => ⟨_, voltageStep_held hd hr h hb, onlyRow_modRow _ _ _, State.row_modRow_self _ _ _⟩⟩
  · exact fun s r k hr h hl => voltWork_wanted hr h hl
  · exact fun s d r k h => voltageStep_refused h
  · exact fun s d r k h => clockHop_refused h
  · exact fun s d r k hd hr hk hv hl => ⟨_, clockHop_taken hd hr hk hv hl, onlyRow_modRow _ _ _, State.row_modRow_self _ _ _⟩
  · exact fun s d r k hd hr h hz => droop_freezes hd hr h hz
  · exact fun s d r k hd hr h => ⟨_, droop_clears hd hr h, onlyRow_modRow _ _ _, State.row_modRow_self _ _ _⟩
  · exact fun s c p b hc hp h => ⟨_, powerBubble_dead b hc hp h, onlyCore_modCore _ _ _, State.core_modCore_self _ _ _⟩
  · exact fun s l => rfl

end Sys2Proof.Machine
end

/-! Blocks, zeroing, records and walks (R164 to R166, R178 to R184, R255 to R258): O52. -/

section
namespace Sys2Proof.Machine

/-! ### What the writes of hardware leave alone (R162, R166, R257, R258) -/

/-- Threads and tables are the same. -/
structure SameTables (s s' : State) : Prop where
  threads : s'.threads = s.threads
  tables : s'.tables = s.tables

theorem SameTables.refl (s : State) : SameTables s s := ⟨rfl, rfl⟩

theorem SameTables.trans {a b c : State} (h : SameTables a b) (k : SameTables b c) : SameTables a c :=
  ⟨k.threads.trans h.threads, k.tables.trans h.tables⟩

theorem Kept.sameTables {s s' : State} (h : Kept s s') : SameTables s s' := ⟨h.threads, h.tables⟩

theorem sameTables_ite {s a b : State} {p : Prop} [Decidable p] (ha : SameTables s a) (hb : SameTables s b) :
    SameTables s (if p then a else b) := by
  split
  · exact ha
  · exact hb

theorem sameTables_homeWrite (s : State) (key : Nat) (ws : List (Nat × Byte)) : SameTables s (s.homeWrite key ws) :=
  ⟨(homeWrite_spec s key ws).threads, (homeWrite_spec s key ws).tables⟩

theorem sameTables_purge (s : State) (lo n : Nat) : SameTables s (s.purge lo n) := ⟨rfl, rfl⟩

theorem sameTables_renewLine (s : State) (key line : Nat) (bs : List Byte) : SameTables s (s.renewLine key line bs) :=
  (sameTables_homeWrite _ _ _).trans (sameTables_purge _ _ _)

theorem sameTables_zeroNow (s : State) (line : Nat) : SameTables s (s.zeroNow line) := by
  unfold State.zeroNow
  split
  · exact .refl s
  · exact ⟨(sameTables_renewLine _ _ _ _).threads, (sameTables_renewLine _ _ _ _).tables⟩

theorem sameTables_performWrite (s : State) (tid d key : Nat) (ws : List (Nat × Byte)) : SameTables s (s.performWrite tid d key ws) := by
  cases ws with
  | nil => exact .refl s
  | cons w ws =>
    have hw : SameTables s (s.written d key w.1 (w :: ws)) := ⟨(written_spec s d key w.1 _).threads, (written_spec s d key w.1 _).tables⟩
    rw [performWrite_cons]
    generalize s.written d key w.1 (w :: ws) = u at hw
    exact hw.trans (sameTables_ite (.refl u) ⟨rfl, rfl⟩)

theorem sameTables_writeBytes (s : State) (d key pa va : Nat) (bs : List Byte) : SameTables s (s.writeBytes d key pa va bs) := by
  unfold State.writeBytes
  split
  · exact ⟨rfl, rfl⟩
  · exact sameTables_performWrite _ _ _ _ _

/-- A line is written, and zeroed first if that is still due. -/
theorem sameTables_lineWritten (s : State) (key pa va : Nat) (bs : List Byte) :
    SameTables s ((if (peerOf pa).isSome then s else s.zeroNow (pa / 64)).writeBytes 4 key pa va bs) :=
  (sameTables_ite (.refl s) (sameTables_zeroNow s _)).trans (sameTables_writeBytes _ _ _ _ _ _)

theorem setBlk_rest (s : State) (a : Nat) (e : BitVec 128) : (s.setBlk a e).threads = s.threads ∧
    (s.setBlk a e).tables.tenants = s.tables.tenants ∧ (s.setBlk a e).tables.bcount = s.tables.bcount := ⟨rfl, rfl, rfl⟩

/-- A write of hardware changes no tenant. -/
theorem hwWrite_done {s u : State} {tenant va : Nat} {bs : List Byte} (h : s.hwWrite tenant va bs = .done u) :
    u.tables.tenants = s.tables.tenants := by
  unfold State.hwWrite at h
  split at h
  · cases h
  · split at h
    · cases h
      rw [(sameTables_lineWritten _ _ _ _ _).tables]
      split
      · exact (setBlk_rest _ _ _).2.1
      · rfl
    · cases h

/-- What becomes of the state with a record. -/
def Posting.orElse (s : State) : Posting → State
  | .written y => y
  | .full => s
  | .wait y => y
  | .lost y => y

theorem unheard_threads (s : State) (key : Nat) : (s.unheard key).threads = s.threads := by
  unfold State.unheard
  split <;> rfl

theorem hwSent_threads (s : State) (tenant va : Nat) : (s.hwSent tenant va).threads = s.threads := by
  unfold State.hwSent
  split
  · split
    · split
      · exact unheard_threads _ _
      · rfl
    · rfl
  · rfl

theorem notice_rest (s : State) (tenant : Nat) :
    (s.notice tenant).tick.threads = s.threads ∧ (s.notice tenant).tick.tables = s.tables := ⟨rfl, rfl⟩

theorem writeNote_threads (s : State) (tenant : Nat) (base : Dword) (seq dropped : Nat) (n : Note) :
    ((s.writeNote tenant base seq dropped n).orElse s).threads = s.threads := by
  have hw := (sameArrivals_hwWrite s tenant (base.toNat + 32 * ((seq - 1) % 1024)) (noteBytes n dropped seq)).threads
  unfold State.writeNote
  split
  · rw [Posting.orElse, hwSent_threads]
  · split
    · rw [Posting.orElse]
    · split
      · next he =>
        rw [he, HwWrite.orElse] at hw
        rw [Posting.orElse, (notice_rest _ _).1, hw]
      · next he =>
        rw [he, HwWrite.orElse] at hw
        rw [Posting.orElse, hw]
      · rw [Posting.orElse]

theorem writeNote_written {s w : State} {tenant : Nat} {base : Dword} {seq dropped : Nat} {n : Note}
    (h : s.writeNote tenant base seq dropped n = .written w) : w.tables.tenants = s.tables.tenants := by
  unfold State.writeNote at h
  split at h
  · cases h
  · split at h
    · cases h
    · split at h
      · next he =>
        cases h
        exact (congrArg Tables.tenants (notice_rest _ _).2).trans (hwWrite_done he)
      · cases h
      · cases h

/-- The state that a tier record leaves, written or waiting. -/
def writtenOrWaiting : Except State State → State
  | .ok y => y
  | .error y => y

theorem writeTier_threads (s : State) (tenant : Nat) (x : Tenant) (n : Note) : (writtenOrWaiting (s.writeTier tenant x n)).threads = s.threads := by
  have hw := writeNote_threads s tenant x.tnqb (x.tq.seq + 1) x.tq.dropped n
  unfold State.writeTier
  split
  all_goals
    next he =>
    rw [he] at hw
    exact hw

theorem postTier_threads (s : State) (tenant : Nat) (n : Note) : (s.postTier tenant n).threads = s.threads := by
  unfold State.postTier
  split
  · rfl
  · next x _ =>
    have hw := writeTier_threads s tenant x n
    dsimp only
    split
    · rfl
    · split
      · next he => rw [he] at hw; exact hw
      · next he => rw [he] at hw; exact hw

/-! ### Free lists (R256) -/

theorem zeroBlock_threads (s : State) (b : Nat) : (s.zeroBlock b).threads = s.threads := by
  unfold State.zeroBlock
  split
  · exact foldl_keeps State.threads _ (fun s i => (sameTables_zeroNow s _).threads) _ _
  · rfl

theorem popBlock_threads {s w : State} {die tenant tier b : Nat} (h : s.popBlock die tenant tier = some (b, w)) : w.threads = s.threads := by
  unfold State.popBlock at h
  dsimp only at h
  split at h
  · cases h
  · obtain ⟨-, rfl⟩ := Prod.mk.inj (Option.some.inj h)
    split
    · exact (postTier_threads _ _ _).trans (zeroBlock_threads _ _)
    · exact zeroBlock_threads _ _

/-- The list of a block's recorded die, with the block on it. -/
def State.listWith (s : State) (tenant b : Nat) : FreeList :=
  let tier := if isHbm b then 0 else 1
  let l := mgetD s.tables.free (freeKey (mgetD s.tables.bdie (b / 65536) 0) tenant tier) { blocks := [], low := false }
  { blocks := b :: l.blocks, low := l.low && l.blocks.length + 1 ≤ s.watermark tenant tier }

/-- R256: a block goes back to the list of its recorded die, if there is room. -/
theorem returnBlock_room {s : State} {tenant b : Nat}
    (h : (s.freeList (freeKey (mgetD s.tables.bdie (b / 65536) 0) tenant (if isHbm b then 0 else 1))).length < 2 ^ 22) :
    OnlyTables s (s.returnBlock tenant b) ∧ (s.returnBlock tenant b).tables.returning = s.tables.returning ∧
    (s.returnBlock tenant b).freeList (freeKey (mgetD s.tables.bdie (b / 65536) 0) tenant (if isHbm b then 0 else 1)) =
      b :: s.freeList (freeKey (mgetD s.tables.bdie (b / 65536) 0) tenant (if isHbm b then 0 else 1)) := by
  have he : s.returnBlock tenant b =
      s.modTables fun x => { x with free := mput x.free (freeKey (mgetD s.tables.bdie (b / 65536) 0) tenant (if isHbm b then 0 else 1)) (s.listWith tenant b) } :=
    if_pos h
  rw [he]
  refine ⟨rfl, rfl, ?_⟩
  simp only [State.freeList, State.modTables, mgetD, mget_mput, if_true, Option.getD_some]
  rfl

/-- R256: a return that waited finds room. -/
theorem blockReturn_returns {s : State} {b : Nat} {r : Nat × Nat} (hf : s.tables.returning.find? (fun r => r.2 == b) = some r)
    (hu : s.blockInUse b = false)
    (h : (s.freeList (freeKey (mgetD s.tables.bdie (b / 65536) 0) r.1 (if isHbm b then 0 else 1))).length < 2 ^ 22) :
    ∃ s', exec (.blockReturn b) s = .next s' ∧ OnlyTables s s' ∧ s'.tables.returning = s.tables.returning.erase r ∧
      s'.freeList (freeKey (mgetD s.tables.bdie (b / 65536) 0) r.1 (if isHbm b then 0 else 1)) =
        b :: s.freeList (freeKey (mgetD s.tables.bdie (b / 65536) 0) r.1 (if isHbm b then 0 else 1)) := by
  let u := s.modTables fun x => { x with returning := x.returning.erase r }
  have he : exec (.blockReturn b) s = .next (u.returnBlock r.1 b) := by
    change execBlockReturn b s = _
    simp only [execBlockReturn, hf]
    exact if_neg (by simpa [hu] using h)
  obtain ⟨ho, hr, hl⟩ := returnBlock_room (s := u) (b := b) h
  exact ⟨_, he, ho, hr, hl⟩

/-! ### The block engine (R255) -/

theorem blk_setBlk (s : State) (a : Nat) (e : BitVec 128) : (s.setBlk a e).blk a = e := by
  simp [State.blk, State.setBlk, State.modTables, mgetD_mputD]

theorem setCount_threads (s : State) (b n : Nat) : (s.setCount b n).threads = s.threads := rfl

theorem blkCount_setCount (s : State) (b n : Nat) : (s.setCount b n).blkCount b = n := by
  simp [State.blkCount, State.setCount, State.modTables, mgetD_mputD]

theorem modMig_rest (s : State) (d id : Nat) (f : Mig → Option Mig) :
    (s.modMig d id f).threads = s.threads ∧ (s.modMig d id f).tables = s.tables := ⟨rfl, rfl⟩

theorem blk_congr {s s' : State} (h : s'.tables = s.tables) (a : Nat) : s'.blk a = s.blk a := congrArg (fun x : Tables => mgetD x.blks a 0) h

theorem blkCount_congr {s s' : State} (h : s'.tables.bcount = s.tables.bcount) (b : Nat) : s'.blkCount b = s.blkCount b :=
  congrArg (fun x => mgetD x (b / 65536) 0) h

/-- An entry of a migration queue that has been changed is the changed one of some entry. -/
theorem mem_modMig {s : State} {d id : Nat} {f : Mig → Mig} {x : Mig} (h : x ∈ ((s.modMig d id fun m => some (f m)).die d).migQ)
    (hx : x.id = id) : ∃ y, x = f y := by
  unfold State.modMig at h
  rw [State.die_modDie_self] at h
  obtain ⟨y, -, hy⟩ := List.mem_filterMap.mp h
  split at hy
  · exact ⟨y, (Option.some.inj hy).symm⟩
  · next hne => exact absurd (Option.some.inj hy ▸ hx) hne

section
variable {s : State} {d : Nat} {m : Mig} (h4 : ((s.die d).migQ.filter fun m => m.state != .queued).length < 4)
  (hf : (s.die d).migQ.find? (fun m => m.state == .queued) = some m) (hc : m.cow = false)
include h4 hf hc

/-- R255: a migration of an entry that is no longer valid is answered with status 3. -/
theorem take_invalid (hv : blkValid (s.blk m.entry) = false) :
    exec (.take d) s = .next ((s.modMig d m.id fun _ => none).postMigrated m d 3 (blkTier (s.blk m.entry))) := by
  change execTake d s = _
  simp only [execTake, if_neg (Nat.not_le.mpr h4), hf, hc, hv, Bool.false_eq_true, if_false, Bool.not_false, if_true]

/-- The entry of a migration whose copy begins. -/
def Mig.begun (m : Mig) (new old : Nat) : Mig := { m with state := .copy, newBlk := new, oldBlk := old }

/-- R255: the oldest migration starts, with a block of its tier. -/
theorem take_starts (hv : blkValid (s.blk m.entry) = true) (hw : blkWb (s.blk m.entry) = false)
    (h1 : s.blkCount (blkBase (s.blk m.entry)) ≤ 1) (ht : blkTier (s.blk m.entry) ≠ m.tier) {b : Nat} {w : State}
    (hp : s.popBlock m.die m.tenant m.tier = some (b, w)) : ∃ s', exec (.take d) s = .next s' ∧
      s'.blk m.entry = setBits (s.blk m.entry) 124 1 1 ∧ s'.threads = s.threads ∧
      ∀ x ∈ (s'.die d).migQ, x.id = m.id → x.state = .copy ∧ x.newBlk = b ∧ x.oldBlk = blkBase (s.blk m.entry) := by
  let u := w.setBlk m.entry (setBits (s.blk m.entry) 124 1 1)
  have he : exec (.take d) s = .next (u.modMig d m.id fun y => some (y.begun b (blkBase (s.blk m.entry)))) := by
    change execTake d s = _
    simp only [execTake, if_neg (Nat.not_le.mpr h4), hf, hc, hv, hw, if_neg (Nat.not_lt.mpr h1), if_neg ht, hp, Bool.false_eq_true, if_false,
      Bool.not_true]
    rfl
  have ht : u.threads = s.threads := (setBlk_rest _ _ _).1.trans (popBlock_threads hp)
  refine ⟨_, he, (blk_congr (modMig_rest _ _ _ _).2 _).trans (blk_setBlk w _ _), (modMig_rest _ _ _ _).1.trans ht, fun x hx hid => ?_⟩
  obtain ⟨y, rfl⟩ := mem_modMig hx hid
  exact ⟨rfl, rfl, rfl⟩

end

theorem kept_homeTraffic (s : State) (tenant pa : Nat) : Kept s (s.homeTraffic tenant pa) := by
  unfold State.homeTraffic
  dsimp only
  split
  · exact .refl s
  · split
    · exact .refl s
    · exact kept_ite ((kept_tick s).trans (kept_countDie _ _ _ _)) ((kept_tick s).trans ((kept_countDie _ _ _ _).trans (kept_countDie _ _ _ _)))

theorem sameTables_copyBlock (s : State) (src dst key : Nat) : SameTables s (s.copyBlock src dst key) := by
  unfold State.copyBlock
  refine SameTables.trans ?_ (sameTables_purge _ _ _)
  refine List.foldlRecOn _ (motive := SameTables s) _ (.refl s) fun w hw i _ => hw.trans ?_
  exact (kept_homeTraffic _ _ _).sameTables.trans ((sameTables_homeWrite _ _ _).trans ⟨rfl, rfl⟩)

/-- R255: the entry points to the new block, which counts one, and the old one is to be released. -/
theorem remap_points {s : State} {d i : Nat} {m : Mig} (hf : (s.die d).migQ.find? (fun m => m.id == i && m.state == .copy) = some m)
    (hc : m.cow = false) (hw : m.waiters = []) : ∃ s', exec (.remap d i) s = .next s' ∧ s'.threads = s.threads ∧
      s'.blk m.entry = setBits (setBits (setBits (s.blk m.entry) 16 30 (m.newBlk / 65536)) 126 1 (if isHbm m.newBlk then 0 else 1)) 124 1 0 ∧
      s'.blkCount m.newBlk = 1 ∧ ∀ x ∈ (s'.die d).migQ, x.id = i → x.state = .release := by
  let v := (s.copyBlock m.oldBlk m.newBlk (blkKey (s.blk m.entry))).setCount m.newBlk 1
  let u := v.countDie d 0x0B m.tenant
  let e := setBits (setBits (setBits (s.blk m.entry) 16 30 (m.newBlk / 65536)) 126 1 (if isHbm m.newBlk then 0 else 1)) 124 1 0
  have he : exec (.remap d i) s = .next ((u.setBlk m.entry e).modMig d i fun y => some { y with state := .release, waiters := [] }) := by
    change execRemap d i s = _
    simp only [execRemap, hf, hc, hw]
    rfl
  have hk : Kept v u := kept_countDie _ _ _ _
  have hcount : u.blkCount m.newBlk = 1 := (blkCount_congr (congrArg Tables.bcount hk.tables) _).trans (blkCount_setCount _ _ _)
  have ht : u.threads = s.threads := hk.threads.trans ((setCount_threads _ _ _).trans (sameTables_copyBlock _ _ _ _).threads)
  refine ⟨_, he, (modMig_rest _ _ _ _).1.trans ((setBlk_rest _ _ _).1.trans ht),
    (blk_congr (modMig_rest _ _ _ _).2 _).trans (blk_setBlk u _ _), ?_, fun x hx hid => ?_⟩
  · refine (blkCount_congr (congrArg Tables.bcount (modMig_rest _ _ _ _).2) _).trans ?_
    exact (blkCount_congr (setBlk_rest _ _ _).2.2 _).trans hcount
  · obtain ⟨y, rfl⟩ := mem_modMig hx hid
    rfl

/-- R255, R256: the old block is given back. -/
theorem release_returns {s : State} {d i : Nat} {m : Mig} (hf : (s.die d).migQ.find? (fun m => m.id == i && m.state == .release) = some m)
    (hc : m.cow = false) (hu : s.blockInUse m.oldBlk = false)
    (h : (s.freeList (freeKey (mgetD s.tables.bdie (m.oldBlk / 65536) 0) m.tenant (if isHbm m.oldBlk then 0 else 1))).length < 2 ^ 22) :
    exec (.release d i) s = .next (((((s.modMig d i fun _ => none).setCount m.oldBlk 0).returnBlock m.tenant m.oldBlk)).postMigrated m d 0
      (if isHbm m.newBlk then 0 else 1)) := by
  change execRelease d i s = _
  simp only [execRelease, hf, hc, hu]
  exact if_neg (by simpa using h)

/-- R179: a write that is held too long is withdrawn, and its thread takes the fault. -/
theorem blockBusy_faults {s : State} {t : Nat} {th : Thread} {h : Held} (ht : s.thread? t = some th) (hh : th.held = some h)
    (ha : h.applied = false) : ∃ s' y, exec (.blockBusy t) s = .next s' ∧
    s'.thread? t = some y ∧ y.held = none ∧ y.ctx.tookFault 0x0C (BitVec.ofNat 64 h.va) th.ctx.pc := by
  let leave (d : Die) : Die := { d with migQ := d.migQ.map fun m => { m with waiters := m.waiters.filter (· != t) } }
  let u : State := { s with dies := s.dies.map fun d => (d.1, leave d.2) }
  let v := u.setThread t { th with held := none }
  have hu : u.thread? t = some th := ht
  have hr : u.refuseHeld t 0x0C = takeFault v t 0x0C 0 h.pair (BitVec.ofNat 64 h.va) th.ctx.pc := by
    simp only [State.refuseHeld, hu, hh]
    rfl
  have he : exec (.blockBusy t) s = .next (u.refuseHeld t 0x0C) := by
    change execBlockBusy t s = _
    simp only [execBlockBusy, ht, hh]
    exact if_neg (by simp [ha])
  have hv : v.thread? t = some { th with held := none } := State.thread?_setThread_self u t _
  obtain ⟨y, hy, -, hheld, -, hfault⟩ := takeFault_thread hv (by decide : 0x0C < 256) 0 h.pair (BitVec.ofNat 64 h.va) th.ctx.pc
  exact ⟨_, y, he.trans (congrArg _ hr), hy, hheld, hfault⟩

/-! ### The dirty log (R181) -/

theorem OnlyTables.mem {s s' : State} (h : OnlyTables s s') : s'.mem = s.mem := by rw [h]
theorem OnlyTables.threads {s s' : State} (h : OnlyTables s s') : s'.threads = s.threads := by rw [h]

theorem setDirtyBit_spec (s : State) (tenant va : Nat) : OnlyTables s (s.setDirtyBit tenant va) := by
  unfold State.setDirtyBit
  split
  · rfl
  · split <;> rfl

/-- R181: a log that has been merged has no valid entry. -/
theorem dirtyLogMerge_clears (s : State) {c : Nat} (hc : c < 512) : ∃ s', exec (.dirtyLogMerge c) s = .next s' ∧ (s'.core c).logged = 0 ∧
    s'.mem = s.mem ∧ s'.threads = s.threads := by
  have he : exec (.dirtyLogMerge c) s = .next (s.mergeDirty c) := congrArg Host.Outcome.next (if_pos (by simp [coreOk, hc]))
  refine ⟨_, he, ?_, ?_, ?_⟩
  · unfold State.mergeDirty
    rw [State.core_modCore_self]
    refine List.length_eq_zero_iff.mpr (List.filter_eq_nil_iff.mpr fun e he => ?_)
    obtain ⟨y, -, rfl⟩ := List.mem_map.mp he
    have hz : (setBits y.2 63 1 0).getLsbD 63 = false := by
      rw [getLsbD_setBits]
      rfl
    simpa using hz
  · exact foldl_keeps State.mem _ (fun s e => (setDirtyBit_spec s _ _).mem) _ _
  · exact foldl_keeps State.threads _ (fun s e => (setDirtyBit_spec s _ _).threads) _ _

/-! ### Zeroing (R166) -/

theorem dueIn_of_mem_cutLine {line : Nat} {z p : Nat × Nat × Nat} (h : p ∈ cutLine line z) : dueIn line p = false := by
  unfold cutLine at h
  split at h
  · next hd =>
    rw [List.mem_singleton.mp h]
    simpa using hd
  · rcases List.mem_append.mp h with h | h
    · split at h
      · rw [List.mem_singleton.mp h]
        simp only [dueIn, Bool.and_eq_false_iff, decide_eq_false_iff_not]
        omega
      · cases h
    · split at h
      · rw [List.mem_singleton.mp h]
        simp only [dueIn, Bool.and_eq_false_iff, decide_eq_false_iff_not]
        omega
      · cases h

theorem dirtyLine_power (s : State) (line : Nat) : (s.dirtyLine line).power = s.power := by
  unfold State.dirtyLine
  split
  · split <;> rfl
  · rfl

theorem mend_zeroing (s : State) (line : Nat) (offs : List Nat) : (s.mend line offs).power.zeroing = s.power.zeroing := by
  unfold State.mend
  split <;> rfl

theorem homeWrite_zeroing (s : State) (key : Nat) (ws : List (Nat × Byte)) : (s.homeWrite key ws).power.zeroing = s.power.zeroing := by
  unfold State.homeWrite
  split
  · rfl
  · exact (mend_zeroing _ _ _).trans (congrArg Power.zeroing (dirtyLine_power _ _))

/-- R166: a line of a frame is zeroed, under the key of the last range that it is due in. -/
theorem frameZeroed_zeroes {s : State} {l : Nat} {z : Nat × Nat × Nat} (h : (s.power.zeroing.filter (dueIn l)).getLast? = some z) :
    ∃ s', exec (.frameZeroed l) s = .next s' ∧ s'.zeroing l = false ∧
      s'.threads = s.threads ∧ s'.mem = s.mem.puts (s.keyData z.2.2) (place (l * 64) (List.replicate 64 0)) := by
  let u : State := { s with power := { s.power with zeroing := s.power.zeroing.flatMap (cutLine l) } }
  have hz : s.zeroNow l = u.renewLine z.2.2 l (List.replicate 64 0) := by
    unfold State.zeroNow
    rw [h]
  refine ⟨_, rfl, ?_, (sameTables_zeroNow s l).threads, ?_⟩
  · have hp : (s.zeroNow l).power.zeroing = u.power.zeroing := hz ▸ homeWrite_zeroing u z.2.2 _
    rw [State.zeroing, hp]
    refine List.any_eq_false.mpr fun p hp => ?_
    obtain ⟨x, -, hx⟩ := List.mem_flatMap.mp hp
    simp [dueIn_of_mem_cutLine hx]
  · rw [hz]
    exact (homeWrite_spec u z.2.2 _).mem

/-! ### Fault records (R258) -/

section
variable {s w : State} {n : Nat} {x : Tenant} {m : Note} {rest : List Note}

theorem tierTurn_none (hx : s.tenant? n = some x) (ht : x.tierWait = []) : s.tierTurn n = s := by
  simp only [State.tierTurn, hx, ht]

variable (hx : s.tenant? n = some x) (ht : x.tierWait = []) (hm : x.waiting = m :: rest)
include hx ht hm

/-- R258: the oldest fault record goes into its queue. -/
theorem notificationRecord_written (h : s.writeNote n x.fnqb (x.fq.seq + 1) 0 m = .written w) :
    ∃ s', exec (.notificationRecord n) s = .next s' ∧ s'.mem = w.mem ∧
      s'.tenant? n = some { x with waiting := rest, fq := { x.fq with seq := x.fq.seq + 1 } } := by
  have he : exec (.notificationRecord n) s =
      .next (w.modTenant n fun y => { y with waiting := y.waiting.drop 1, fq := { y.fq with seq := y.fq.seq + 1 } }) := by
    change execNotificationRecord n s = _
    unfold execNotificationRecord
    rw [tierTurn_none hx ht]
    simp only [hx, hm, h]
  have hw : mget w.tables.tenants n = some x := (congrArg (mget · n) (writeNote_written h)).trans hx
  refine ⟨_, he, rfl, ?_⟩
  simp only [State.tenant?, State.modTenant, State.modTables, mget_mmod, if_true, hw, Option.map_some, hm, List.drop_succ_cons, List.drop_zero]

theorem notificationRecord_full (h : s.writeNote n x.fnqb (x.fq.seq + 1) 0 m = .full) : exec (.notificationRecord n) s = .next s := by
  change execNotificationRecord n s = _
  unfold execNotificationRecord
  rw [tierTurn_none hx ht]
  simp only [hx, hm, h]

end

/-! ### Margin records (R183, R324) -/

/-- A margin record has left those on their way, and its site is cached. -/
def State.recordArrives (s : State) (i : Nat) (r : MRec) : State :=
  (s.modFlight fun f => { f with margins := f.margins.filter fun x => x.id != i }).cacheSite r

theorem recordArrives_rest (s : State) (i : Nat) (r : MRec) :
    (s.recordArrives i r).tables = s.tables ∧ (s.recordArrives i r).work = s.work := by
  unfold State.recordArrives State.cacheSite
  split <;> exact ⟨rfl, rfl⟩

section
variable {s : State} {i k : Nat} {r : MRec} {l : Launch} {x : Image} (hf : s.flight.margins.find? (fun r => r.id == i) = some r)
  (hl : s.launch? r.launch = some l) (hi : s.imageOf l = some x) (hk : siteSlot x l.textBase r.pc r.site = some k)
include hf hl hi hk

theorem marginRecord_eq : exec (.marginRecord i) s =
    if dropsRecord (s.marginSlot l x k) r.site then .next ((s.recordArrives i r).countFor r.core r.who r.launch l.tenant 0x37 1)
    else .next ((s.recordArrives i r).modMargin l k fun m => addRecord m r.site) := by
  obtain ⟨ht, hw⟩ := recordArrives_rest s i r
  have hl' : (s.recordArrives i r).launch? r.launch = some l := by
    unfold State.launch? at hl ⊢
    rw [hw, hl]
  have hi' : (s.recordArrives i r).imageOf l = some x := by
    unfold State.imageOf at hi ⊢
    rw [ht, hi]
  have hm : (s.recordArrives i r).marginSlot l x k = s.marginSlot l x k := by
    unfold State.marginSlot
    rw [ht]
  have he : exec (.marginRecord i) s = execMarginRecord i s := rfl
  rw [he, ← hm]
  unfold State.recordArrives at hl' hi' ⊢
  simp only [execMarginRecord, hf, hl', hi', hk]

end

/-! ### Walks (R164, R165) -/

theorem mem_tlbFill_self (ts : List Tlb) (x : Tlb) (cap : Nat) : x ∈ tlbFill ts x cap := List.mem_append_right _ (List.mem_singleton_self x)

theorem tlb_fillTlbs (s : State) (c d : Nat) (x : Tlb) :
    ((s.fillTlbs c x).core d).tlb = if d = c then tlbFill (s.core d).tlb x 64 else (s.core d).tlb := by
  unfold State.fillTlbs
  rw [State.core_modCore]
  split
  · next h => rw [h]; rfl
  · rfl

theorem fillTlbs_rest (s : State) (c : Nat) (x : Tlb) :
    (s.fillTlbs c x).mem = s.mem ∧ (s.fillTlbs c x).threads = s.threads ∧ (s.fillTlbs c x).flight = s.flight := ⟨rfl, rfl, rfl⟩

/-- The TLBs of the cores of those who wait hold what the walk has found. -/
theorem mem_tlb_fillAll (x : Tlb) {ts : List Nat} {t : Nat} (h : t ∈ ts) (s : State) :
    x ∈ ((ts.foldl (fun s t => s.fillTlbs (waiterCore t) x) s).core (waiterCore t)).tlb := by
  have hone (s : State) (c : Nat) : x ∈ ((s.fillTlbs c x).core c).tlb := by
    rw [tlb_fillTlbs, if_pos rfl]
    exact mem_tlbFill_self _ _ _
  have hkeep (s : State) (c d : Nat) (hs : x ∈ (s.core d).tlb) : x ∈ ((s.fillTlbs c x).core d).tlb := by
    rw [tlb_fillTlbs]
    split
    · exact mem_tlbFill_self _ _ _
    · exact hs
  exact foldl_establishes (I := fun _ => True) (P := fun w => x ∈ (w.core (waiterCore t)).tlb) (fun _ _ _ => trivial)
    (fun w _ => hone w _) (fun w _ _ hw => hkeep w _ _ hw) h trivial

/-- R164: a walk that has found a leaf puts it into the TLBs of those who wait for it. -/
theorem translationWalk_fills {s : State} {i b z : Nat} {w : Walk} {e : Dword} (hf : s.flight.walks.find? (fun w => w.id == i) = some w)
    (hw : s.walk w.tenant w.va = .leaf e b z) : ∃ s', exec (.translationWalk i) s = .next s' ∧ s'.mem = s.mem ∧ s'.threads = s.threads ∧
      (∀ t ∈ w.waiters, { tenant := w.tenant, base := b, size := z, pte := e, dirty := pteD e : Tlb } ∈ (s'.core (waiterCore t)).tlb) ∧
      s'.flight.walks = s.flight.walks.filter fun x => x.id != i := by
  let u := s.modFlight fun f => { f with walks := f.walks.filter fun x => x.id != i }
  let x : Tlb := { tenant := w.tenant, base := b, size := z, pte := e, dirty := pteD e }
  let v := w.waiters.foldl (fun s t => s.fillTlbs (waiterCore t) x) u
  have hu : u.walk w.tenant w.va = .leaf e b z := hw
  have he : exec (.translationWalk i) s = .next v := by
    change execTranslationWalk i s = _
    simp only [execTranslationWalk, hf]
    rw [hu]
  refine ⟨v, he, ?_, ?_, fun t ht => mem_tlb_fillAll x ht u, ?_⟩
  · exact foldl_keeps State.mem _ (fun s t => (fillTlbs_rest s _ x).1) _ _
  · exact foldl_keeps State.threads _ (fun s t => (fillTlbs_rest s _ x).2.1) _ _
  · exact congrArg Flight.walks (foldl_keeps State.flight _ (fun s t => (fillTlbs_rest s _ x).2.2) _ _)

/-! ### O52 -/

/-- Settles O52: the cases above, in the statement's order. -/
theorem blockEvents : Obligations.BlockEvents := by
  unfold Obligations.BlockEvents
  refine ⟨?_, ?_, ?_, ?_, ?_, ?_, ?_, ?_, ?_, ?_⟩
  · exact fun s d m h4 hf hc => ⟨take_invalid h4 hf hc, fun hv hw h1 ht b w hp => take_starts h4 hf hc hv hw h1 ht hp⟩
  · exact fun s d i m hf hc hw => remap_points hf hc hw
  · exact fun s d i m hf hc hu h => release_returns hf hc hu h
  · exact fun s b r hf hu h => blockReturn_returns hf hu h
  · exact fun s t th h ht hh ha => blockBusy_faults ht hh ha
  · exact fun s c hc => dirtyLogMerge_clears s hc
  · exact fun s l z h => frameZeroed_zeroes h
  · exact fun s n x m rest w hx ht hm => ⟨notificationRecord_written hx ht hm, notificationRecord_full hx ht hm⟩
  · intro s i r l x k hf hl hi hk u
    have he := marginRecord_eq hf hl hi hk
    refine ⟨fun hd => ?_, fun hd => ?_⟩
    · rw [he, hd]
      rfl
    · have hc := kept_countFor u r.core r.who r.launch l.tenant 0x37 1
      exact ⟨_, he.trans (if_pos hd), hc.tables.trans (recordArrives_rest s i r).1, hc.flight⟩
  · exact fun s i w e b z hf hw => translationWalk_fills hf hw

end Sys2Proof.Machine
end

/-! Prefetches, `l1inv` and fences (R164, R188, R196, R241, R243). -/

section
namespace Sys2Proof.Machine

/-! ### A prefetch's search changes no memory (R164, R243) -/

/-- The state in which a translation leaves the device, whatever it answers. -/
def Trans.state : Trans → State
  | .hit _ s => s
  | .fault _ s => s
  | .miss s => s

/-- To join or start a walk is counted, and changes what is in flight (R164). -/
theorem startWalk_mem (s : State) (t tenant va : Nat) : (s.startWalk t tenant va).state.mem = s.mem := by
  have counted (u : State) (d k n : Nat) : (u.countDie d k n).mem = u.mem := (kept_countDie u d k n).mem
  unfold State.startWalk
  extract_lets c d both who l
  have hboth (w k : Nat) : (both s w k).mem = s.mem := by simp only [both, State.countFor_mem]
  split
  · rfl
  · split
    · exact (counted _ _ _ _).trans ((State.countFor_mem ..).trans (hboth _ _))
    · split
      · exact (counted _ _ _ _).trans (hboth _ _)
      · split
        · rfl
        · exact (counted _ _ _ _).trans ((State.countFor_mem ..).trans (hboth _ _))

/-- A translation fills a TLB, or takes part in a walk (R164). -/
theorem translate_mem (s : State) (t tenant va : Nat) : (s.translate t tenant va).state.mem = s.mem := by
  unfold State.translate
  extract_lets c u
  split
  · rfl
  · split
    · rfl
    · split
      · change u.mem = s.mem
        dsimp only [u]
        split
        · exact (kept_count _ _ _ _ _).mem
        · rfl
      · exact startWalk_mem _ _ _ _

theorem prefetchAt_mem (s : State) (t : Nat) (th : Thread) (va : Nat) : (s.prefetchAt t th va).2.mem = s.mem := by
  have h := translate_mem s t th.tenant va
  unfold State.prefetchAt
  split
  · rfl
  · split <;> rename_i e <;> rwa [e] at h

/-- Where a prefetch has found its line or none, it fills caches at most: dropped, corrected in the L1, or read from below it (R160,
R243). -/
theorem prefetch_mem (s : State) (t : Nat) (th : Thread) (va : Nat) (near : Bool) : (s.prefetch t th va near).mem = s.mem := by
  unfold State.prefetch
  extract_lets c r u
  have hu : u.mem = s.mem := by
    change r.2.mem = s.mem
    by_cases hw : va / 2 ^ 52 = 0xFF2
    · simp only [r, if_pos hw]
    · simp only [r, if_neg hw, prefetchAt_mem]
  refine Eq.trans ?_ hu
  split
  · next pa key _ _ =>
    extract_lets y
    have hy : Kept u y := kept_traffic _ _ _ _ _ _ _ _
    have hread : Kept u (y.readLine (dieOf c) pa key).2 := hy.trans (kept_readLine _ _ _ _)
    have hload : Kept u (y.loadThrough c pa 1 key).2.2 := hy.trans (kept_loadThrough _ _ _ _ _)
    exact (kept_ite (Kept.refl u) (kept_ite (kept_corrected _ _ _ _ _)
      (kept_ite (Kept.refl u) (kept_ite hread (kept_ite hy hload))))).mem
  · rfl

/-- R243: a prefetch completes, wherever its line lies, and memory stays. -/
theorem prefetch_completes {i : Instr} {q : Req} {near : Bool} {a : BitVec 7} {disp : Dword} {s : State} {t : Nat} {th : Thread}
    (h : MayExecute { q with access := true } s t th) (hi : exec i s = prefetchBy q near a disp s) :
    ∃ s', exec i s = .next s' ∧
      (s'.thread? t).map Thread.ctx = some (advance (s.runner t th { q with access := true }).ctx q.pair .seq) ∧ s'.mem = s.mem := by
  obtain ⟨s', he, hc, hu⟩ := h.ends hi (nx := .seq) (r := Rob.none) rfl rfl
  exact ⟨s', he, hc, hu.mem.trans ((prefetch_mem _ _ _ _ _).trans (untouched_begun s t th _).mem)⟩

/-! ### l1inv (R243) -/

/-- What `l1inv` asks of the core (R243; log 23). -/
def l1invReq (a : BitVec 7) (i : BitVec 9) : Req := { reqA (.l1inv a i) a with access := true, commit := true }

section
variable {a : BitVec 7} {i : BitVec 9} {s : State} {t : Nat} {th : Thread} (h : MayExecute (l1invReq a i) s t th)
include h

/-- `l1inv` of an on-chip window does nothing (log 23). -/
theorem l1inv_onChip : let v := s.runner t th (l1invReq a i);
    onChipWindow (eaDisp a (i.signExtend 64) 6 v).toNat = true → Completes (.l1inv a i) s t (advance v.ctx false .seq) :=
  fun hw => h.completes (r := Rob.none) rfl (if_pos hw) rfl

/-- `l1inv` of a line of memory takes it out of both L1 caches of the core (R243). -/
theorem l1inv_drops {pa key : Nat} {blk : Option Nat} {w : State} : let u := s.begun t th (l1invReq a i); let v := s.runner t th (l1invReq a i);
    let ea := (eaDisp a (i.signExtend 64) 6 v).toNat;
    onChipWindow ea = false → u.resolve t v (ea - ea % 64) 64 4 = .ok (.mem pa key blk) w →
    Ends (.l1inv a i) s t (advance v.ctx false .seq)
      (w.modCore (coreOf t) fun x => { x with l1d := dropLine x.l1d (pa / 64), l1i := dropLine x.l1i (pa / 64) }) := by
  intro u v ea hw hr
  refine h.ends (y := v) (r := Rob.none) rfl ((if_neg (ne_true_of_eq_false hw)).trans ?_) rfl
  dsimp only [u, v, ea] at hr
  rw [hr]
  rfl

end

/-! ### Fences (R188, R196, R241; log 48) -/

/-- What a fence asks of the core (R196, R241). -/
def fenceReq (i : Instr) (c : BitVec 3) : Req := { req0 i with legal := scopeOk c, access := true, commit := true }

section
variable {i : Instr} {c : BitVec 3} {acq rel : Bool} {s : State} {t : Nat} {th : Thread} (h : MayExecute (fenceReq i c) s t th)
  (hi : exec i s = fence { req0 i with legal := scopeOk c } c acq rel s)
include h hi

/-- A fence that has nothing to wait for completes, with its acquire if it has one (R196). -/
theorem fence_ends : let u := s.begun t th (fenceReq i c); let v := s.runner t th (fenceReq i c);
    (rel = true → u.releaseHeld v c.toNat = none) →
    Ends i s t (advance v.ctx false .seq) (if acq then u.acquire t v c.toNat else u) := by
  intro u v hr
  refine h.ends (y := v) (r := Rob.none) hi (if_neg ?_) rfl
  cases rel with
  | false => simp
  | true => simp [u, v, hr rfl]

/-- One without an acquire leaves the rest of the device as it was (R196). -/
theorem fence_completes (ha : acq = false) : let u := s.begun t th (fenceReq i c); let v := s.runner t th (fenceReq i c);
    u.releaseHeld v c.toNat = none → Completes i s t (advance v.ctx false .seq) := by
  intro u v hr
  obtain ⟨s', he, hc, hu⟩ := fence_ends h hi fun _ => hr
  rw [ha] at hu
  exact ⟨s', he, hc, (untouched_begun s t th _).trans hu⟩

/-- A release that still waits for an answer holds the thread under cause 13 (R196; log 48). -/
theorem fence_waits (hrel : rel = true) : let u := s.begun t th (fenceReq i c); let v := s.runner t th (fenceReq i c);
    u.releaseHeld v c.toNat ≠ none → Waits i s t 13 u := by
  intro u v hr
  exact h.waits hi (if_pos (by simp [hrel, Option.isSome_iff_ne_none.mpr hr, u, v]))

end

/-- R241: `fence.wb`, once its releases are done, writes every line back and merges the core's dirty log. -/
theorem fenceWb_ends {c : BitVec 3} {s : State} {t : Nat} {th : Thread} (h : MayExecute (fenceReq (.fenceWb c) c) s t th) :
    let u := s.begun t th (fenceReq (.fenceWb c) c); let v := s.runner t th (fenceReq (.fenceWb c) c);
    u.releaseHeld v c.toNat = none → u.releaseHeld v 1 = none →
    Ends (.fenceWb c) s t (advance v.ctx false .seq) (u.writeBackAll.mergeDirty (coreOf t)) := by
  intro u v hc h1
  exact h.ends (y := v) (r := Rob.none) rfl (if_neg (by simp [u, v, hc, h1])) rfl

/-- R188: an acquire at scope forme and wider leaves the core's L1 data cache empty. -/
theorem acquire_l1d (s : State) (t : Nat) (th : Thread) {scope : Nat} (h : 2 ≤ scope) :
    ((s.acquire t th scope).core (coreOf t)).l1d = [] := by
  rw [State.acquire, if_pos h, (untouched_count _ t t th 0x26 1).core Core.l1d fun _ => rfl, State.flashL1, State.core_modCore_self]

/-- R188: one at a narrower scope changes nothing. -/
theorem acquire_narrow (s : State) (t : Nat) (th : Thread) {scope : Nat} (h : scope < 2) : s.acquire t th scope = s :=
  if_neg (Nat.not_le.mpr h)

/-- Settles O35: prefetches, `l1inv` on chip and in memory, the fences by what they acquire and release, and the acquire itself. -/
theorem cacheAndFences : Obligations.CacheAndFences := by
  refine ⟨?_, ?_, ?_, ?_, ?_, ?_, ?_, ?_⟩
  · exact fun a i s t th h => prefetch_completes h rfl
  · exact fun a i s t th h => prefetch_completes h rfl
  · exact fun a i s t th pa key blk w h => ⟨l1inv_onChip h, l1inv_drops h⟩
  · exact fun c s t th h => fence_ends h rfl nofun
  · exact fun c s t th h => ⟨fence_completes h rfl rfl, fence_waits h rfl rfl⟩
  · exact fun c s t th h => ⟨fun hr => fence_ends h rfl fun _ => hr, fence_waits h rfl rfl⟩
  · exact fun c s t th h => fenceWb_ends h
  · exact fun s t th c => ⟨acquire_l1d s t th, acquire_narrow s t th⟩

end Sys2Proof.Machine
end

/-! The region instructions (R206, R207, R219, R222, R242). -/

section
namespace Sys2Proof.Machine

/-- An instruction that comes to raise a fault in a state in which its thread stands as it found it. -/
theorem MayExecute.faultsIn {q q' : Req} {i : Instr} {s u : State} {t : Nat} {th : Thread} {code tcode : Nat} {tv : Dword}
    (h : MayExecute q s t th) (hu : u.threads = (s.begun t th q).threads) (he : exec i s = raise u t q' code tv tcode) :
    Faults i s q' u t (s.runner t th q) code tv tcode := by
  obtain ⟨r, n, e, v⟩ := runner_eq (q := q) h.live
  unfold Faults
  rw [he, raise_live ((State.thread?_congr hu t).trans e), v]
  simp only [Thread.counted_rob, Thread.counted_pc]

theorem dropOp_threads (s : State) (g me : Nat) : (s.dropOp g me).threads = s.threads := by
  unfold State.dropOp
  split
  · split <;> rfl
  · rfl

/-- The coordinate that a region instruction reads; 0 for one that reads none. -/
def Thread.coord (v : Thread) (coord : Option (BitVec 7)) : Nat := match coord with | some a => (v.V a).toNat % 2 ^ 128 | none => 0

/-- What a region instruction answers once its operation has been carried out or refused (R207, R222, R242). -/
def regionAnswer (q : Req) (g cause : Nat) (result : Plan → Thread → Thread) (die t : Nat) (v : Thread) : RegOut → Out
  | .wait s => .next (holdReply s t cause)
  | .broken status va s => if status = 2 then raise s t q 0x07 (BitVec.ofNat 64 va) else raise s t q 0x06 (regTrapv g 14 0)
  | .done p s => match p.short with
    | some need => raise s t q 0x0A (regTrapv g 0 need)
    | none => .next (finish (s.countDie die 0x0C v.tenant) t (result p v) q .seq)

/-- What `regionOp` asks of the core (R242). -/
abbrev reqRegion (q : Req) : Req := { q with access := true, commit := true }

section
variable {i : Instr} {q : Req} {g : BitVec 4} {cause : Nat} {cursor : Bool} {coord : Option (BitVec 7)}
  {plan : State → Region → Thread → Nat → Except RegErr Plan} {result : Region → Plan → Thread → Thread}

/-- A region instruction at its turn: the region, the coordinate, then the operation (R206, R242). -/
def State.regionTurn (u : State) (q : Req) (g cause : Nat) (cursor : Bool) (coord : Option (BitVec 7))
    (plan : State → Region → Thread → Nat → Except RegErr Plan) (result : Region → Plan → Thread → Thread) (t : Nat) (v : Thread) : Out :=
  match u.regionFor v.tenant g with
  | .error tv => raise (u.dropOp g v.who) t q 0x06 tv
  | .ok r0 =>
    let r := r0.mine v.who
    match coord.bind fun _ => regCheck g r (v.coord coord) cursor with
    | some tv => raise u t q 0x06 tv
    | none => regionAnswer q g cause (result r) r.die t v (u.regApply g r v.who v.launch (plan u r v (v.coord coord)))

section
variable {s : State} {t : Nat} {th : Thread} (h : MayExecute (reqRegion q) s t th)
  (hi : exec i s = regionOp q g cause cursor coord plan result s)
  (he : (s.begun t th (reqRegion q)).edge (coreOf t) none = false)
  (hb : (s.begun t th (reqRegion q)).resumeBreak g.toNat (s.runner t th (reqRegion q)).who = none)
include h hi he hb

/-- A region instruction whose request is not held at the edge of its row, and which has no break to report, has its turn (R226, R379). -/
theorem regionOp_turn : exec i s =
    (s.begun t th (reqRegion q)).regionTurn q g.toNat cause cursor coord plan result t (s.runner t th (reqRegion q)) := by
  rw [hi, regionOp, h.runs, if_neg (by simp [he]), hb]
  rfl

/-- Of a region that the tenant has open, with a coordinate in bounds, the operation is tried at its point. -/
theorem regionOp_tries {r0 : Region} : let u := s.begun t th (reqRegion q); let v := s.runner t th (reqRegion q); let r := r0.mine v.who;
    u.regionFor v.tenant g.toNat = .ok r0 → (coord.bind fun _ => regCheck g.toNat r (v.coord coord) cursor) = none →
    exec i s = regionAnswer q g.toNat cause (result r) r.die t v
      (u.regApply g.toNat r v.who v.launch (plan u r v (v.coord coord))) := by
  intro u v r hr hc
  rw [regionOp_turn h hi he hb, State.regionTurn, hr]
  dsimp only
  rw [hc]

/-- One that is not the tenant's, or broken, faults; an operation that the controller has kept of it is gone (R206, R209). -/
theorem regionOp_noRegion {tv : Dword} : let u := s.begun t th (reqRegion q); let v := s.runner t th (reqRegion q);
    u.regionFor v.tenant g.toNat = .error tv → Faults i s q (u.dropOp g.toNat v.who) t v 0x06 tv := by
  intro u v hr
  refine h.faultsIn (dropOp_threads _ _ _) ?_
  rw [regionOp_turn h hi he hb, State.regionTurn, hr]

/-- A coordinate out of bounds faults (R206). -/
theorem regionOp_outside {r0 : Region} {tv : Dword} : let u := s.begun t th (reqRegion q); let v := s.runner t th (reqRegion q);
    u.regionFor v.tenant g.toNat = .ok r0 → (coord.bind fun _ => regCheck g.toNat (r0.mine v.who) (v.coord coord) cursor) = some tv →
    Faults i s q u t v 0x06 tv := by
  intro u v hr hc
  refine h.faultsIn rfl ?_
  rw [regionOp_turn h hi he hb, State.regionTurn, hr]
  dsimp only
  rw [hc]

end

/-- The check of a coordinate reads the one that the instruction names. -/
theorem coord_check (v : Thread) (coord : Option (BitVec 7)) (g : Nat) (r : Region) (cursor : Bool) :
    (coord.bind fun a => regCheck g r ((v.V a).toNat % 2 ^ 128) cursor) = coord.bind fun _ => regCheck g r (v.coord coord) cursor := by
  cases coord <;> rfl

/-- An instruction that is a `regionOp` performs as R207 and R242 say. -/
theorem regionPerforms_of_regionOp (hi : ∀ s, exec i s = regionOp q g cause cursor coord plan result s) :
    RegionPerforms i q g cursor coord plan result := by
  intro s t th req h u v he hb
  refine ⟨?_, fun tv => regionOp_noRegion h (hi s) he hb, fun r0 tv hr hc => ?_⟩
  · intro r0 p w hr r hc ha
    have hx : exec i s = regionAnswer q g.toNat cause (result r) r.die t v (.done p w) :=
      (regionOp_tries h (hi s) he hb hr ((coord_check v coord _ r cursor).symm.trans hc)).trans (congrArg _ ha)
    refine ⟨fun hs => ?_, fun need x hs hw => ?_⟩
    · obtain ⟨hd, hu⟩ := finish_spec (w.countDie r.die 0x0C v.tenant) t (result r p v) q .seq Rob.none rfl
      refine ⟨_, hx.trans ?_, hd, hu⟩
      simp only [regionAnswer, hs]
    · unfold Faults
      rw [hx, ← raise_live hw]
      simp only [regionAnswer, hs]
  · exact regionOp_outside h (hi s) he hb hr ((coord_check v coord _ r0 cursor).symm.trans hc)

end

/-- A plan that only answers is carried out wherever the region stands. -/
theorem regApply_answer (s : State) (g : Nat) (r : Region) (me launch n : Nat) :
    ∃ w, s.regApply g r me launch (.ok (answer r n)) = .done (answer r n) w := ⟨_, rfl⟩

/-- The answer of `scnt`: the entries of the region in bits 39 to 0 and its free nodes above them (R218). -/
def Region.counts (r : Region) : Nat := r.entries % 2 ^ 40 + Nat.min r.freeCount (2 ^ 24 - 1) * 2 ^ 40

theorem scnt_performs (d : BitVec 7) (g : BitVec 4) : RegionPerforms (.scnt d g) (reqD (.scnt d g) d) g false none
    (fun _ r _ _ => .ok (answer r r.counts)) (fun _ p th => th.setS d (BitVec.ofNat 64 p.value)) :=
  regionPerforms_of_regionOp fun _ => rfl

/-- R242: `scnt` of a region that the tenant has open completes with its answer. -/
theorem scnt_answers {d : BitVec 7} {g : BitVec 4} {s : State} {t : Nat} {th : Thread} {r : Region}
    (h : MayExecute (reqRegion (reqD (.scnt d g) d)) s t th) :
    let u := s.begun t th (reqRegion (reqD (.scnt d g) d)); let v := s.runner t th (reqRegion (reqD (.scnt d g) d));
    u.edge (coreOf t) none = false → u.resumeBreak g.toNat v.who = none → u.regionFor v.tenant g.toNat = .ok r →
    ∃ s', exec (.scnt d g) s = .next s' ∧
      (s'.thread? t).map Thread.ctx = some (advance (v.setS d (BitVec.ofNat 64 r.counts)).ctx false .seq) := by
  intro u v he hb hr
  obtain ⟨w, hw⟩ := regApply_answer u g.toNat (r.mine v.who) v.who v.launch (r.mine v.who).counts
  obtain ⟨hp, -, -⟩ := scnt_performs d g s t th h he hb
  obtain ⟨hd, -⟩ := hp r _ w hr rfl hw
  obtain ⟨s', hx, hc, -⟩ := hd rfl
  exact ⟨s', hx, hc⟩

/-- Settles O37: each form is the one operation on a region with its own plan and result, and the plan of `scnt` is always carried out. -/
theorem sparseResults : Obligations.SparseResults := by
  unfold Obligations.SparseResults
  refine ⟨?_, ?_, ?_, ?_, ?_, ?_⟩
  · exact fun _ _ _ => regionPerforms_of_regionOp fun _ => rfl
  · exact fun _ _ _ => regionPerforms_of_regionOp fun _ => rfl
  · exact fun _ _ _ => regionPerforms_of_regionOp fun _ => rfl
  · exact fun _ _ _ _ => regionPerforms_of_regionOp fun _ => rfl
  · exact scnt_performs
  · exact fun _ _ _ _ _ _ h => scnt_answers h

end Sys2Proof.Machine
end

/-! The commands of a session (R208, R209, R259, R261, R384, R385). -/

section
namespace Sys2Proof.Machine

/-! ### Replies (R384, R385) -/

/-- A header in form for a KIND is of that KIND (R384). -/
theorem kindOf_of_hdrOk {kind len : Nat} {hdr : BitVec 128} (h : hdrOk kind len hdr = true) : kindOf hdr = kind := by
  simp only [hdrOk, Bool.and_eq_true, beq_iff_eq] at h
  obtain ⟨⟨⟨hk, -⟩, -⟩, -⟩ := h
  exact hk

theorem Sends.regions {s s' : State} (h : Sends s s') : s'.regions = s.regions := by rw [h.rest]

theorem Sends.zeroing {s s' : State} (h : Sends s s') (line : Nat) : s'.zeroing line = s.zeroing line := by
  unfold State.zeroing
  rw [h.rest]

theorem sends_reply (s : State) (sess tenant : Nat) (tag : Dword) (kind status : Nat) : Sends s (s.reply sess tenant tag kind status) :=
  sends_post _ _ _

theorem post_listed {s : State} {dest : Nat} (p : Posted) (h : s.egress dest = true) :
    s.post dest p = s.modHost fun x => { x with posted := x.posted ++ [p] } := if_pos h

theorem hostOf_set {s : State} {k a : Nat} (h : mget s.host.hostDest k = some a) : s.hostOf k = a := by
  unfold State.hostOf
  rw [h]

/-- The reply to a command of a tenant that is bound to its session goes to that tenant's address (R385). -/
theorem replyTo_bound {s : State} {n k : Nat} {x : Session} (hx : mget s.host.sessions n = some x) (hk : k ∈ x.tenants) :
    s.replyTo n k = s.hostOf k := by
  unfold State.replyTo
  rw [hx]
  exact if_pos (List.contains_iff_mem.mpr hk)

theorem reply_bound {s : State} {n k a : Nat} {x : Session} (hx : mget s.host.sessions n = some x) (hk : k ∈ x.tenants)
    (ha : mget s.host.hostDest k = some a) (he : s.egress a = true) (tag : Dword) (kind st : Nat) :
    s.reply n k tag kind st = s.modHost fun h => { h with posted := h.posted ++
      [.reply n a (framed 2 (BitVec.ofNat 256 (tag.toNat + kind * 2 ^ 64 + st * 2 ^ 80)))] } := by
  have hr : s.replyTo n k = a := (replyTo_bound hx hk).trans (hostOf_set ha)
  unfold State.reply
  rw [hr]
  exact post_listed _ he

/-- What leaves depends on the host's side and the free values alone. -/
theorem post_host_congr {s s' : State} (hh : s'.host = s.host) (hs : s'.sched = s.sched) (dest : Nat) (p : Posted) :
    (s'.post dest p).host = (s.post dest p).host := by
  have he : s'.egress dest = s.egress dest := by unfold State.egress; rw [hh]
  unfold State.post
  rw [he]
  split
  · exact congrArg (fun h : HostIf => { h with posted := h.posted ++ [p] }) hh
  · simp only [State.dropPacket, State.modHost, State.tick, State.free, hh, hs]

theorem reply_host_congr {s s' : State} (hh : s'.host = s.host) (hs : s'.sched = s.sched) (n k : Nat) (tag : Dword) (kind st : Nat) :
    (s'.reply n k tag kind st).host = (s.reply n k tag kind st).host := by
  have hr : s'.replyTo n k = s.replyTo n k := by simp only [State.replyTo, State.hostOf, hh]
  unfold State.reply
  rw [hr]
  exact post_host_congr hh hs _ _

theorem commandsOn_of_commands {s : State} {n : Nat} (h : s.commands n = true) : s.commandsOn n = true := by
  unfold State.commands at h
  exact (Bool.and_eq_true_iff.mp h).1

/-! ### LAUNCH (R261, R280) -/

section
variable {s : State} {n : Nat} {m : BitVec 1152} (hc : s.commands n = true)
include hc

theorem launch_otherKind (hk : kindOf (launchHeader m) ≠ 1) :
    exec (.launch n m) s = .next (s.reply n (nbits (launchRecord m) 16 8) (tagOf (launchHeader m)) (kindOf (launchHeader m)) 1) := by
  change execLaunch n m s = _
  simp only [execLaunch, hc, Bool.not_true, Bool.false_eq_true, if_false, if_pos hk]

/-- A launch for a tenant without an entry is refused with STATUS 1 (R261; log 62). -/
theorem launch_noTenant (hk : kindOf (launchHeader m) = 1) (ht : s.tenant? (nbits (launchRecord m) 16 8) = none) :
    exec (.launch n m) s = .next (s.refuse (newLaunch (nbits (launchRecord m) 16 8) 0 (launchRecord m)) 1) := by
  change execLaunch n m s = _
  simp only [execLaunch, hc, Bool.not_true, Bool.false_eq_true, if_false, if_neg (not_not.mpr hk), ht]

/-- A good record enters its tenant's queue of its class, and its tenant's next serial is one higher (R261). -/
theorem launch_enters {x : Tenant} (hh : hdrOk 1 128 (launchHeader m) = true) (hx : s.tenant? (nbits (launchRecord m) 16 8) = some x)
    (hb : s.bound n (nbits (launchRecord m) 16 8) = true) (hf : (newLaunch (nbits (launchRecord m) 16 8) x.lser (launchRecord m)).fieldsOk = true) :
    let t := nbits (launchRecord m) 16 8; let u := s.modTenant t fun x => { x with lser := x.lser + 1 }
    let l := newLaunch t x.lser (launchRecord m); let q := mgetD s.work.queues (l.cls * 64 + t) []
    (u.rootTasks 0 l).isSome = true → (u.imageOf l).isSome = true → q.length < 64 →
    exec (.launch n m) s = .next (u.modWork fun w => { w with queues := mput w.queues (l.cls * 64 + t) (q ++ [(x.lser, launchRecord m)]) }) := by
  intro t u l q hr hi hq
  have hrn : (u.rootTasks 0 l).isNone = false := by rw [← Option.not_isSome, hr]; rfl
  have hin : (u.imageOf l).isNone = false := by rw [← Option.not_isSome, hi]; rfl
  have hlen : ¬ 64 ≤ q.length := Nat.not_le.mpr hq
  change execLaunch n m s = _
  unfold execLaunch
  dsimp only
  rw [if_neg (by simp [hc]), if_neg (by simp [kindOf_of_hdrOk hh]), hx]
  dsimp only
  rw [if_neg (by simp [hb])]
  change (if _ then _ else if (u.imageOf l).isNone then _ else if 64 ≤ q.length then _ else _) = _
  rw [if_neg (by simp [hh, hf, t, u, l, hrn] ), hin, if_neg Bool.false_ne_true, if_neg hlen]
  rfl

end

/-- A refusal's completion carries its status, no messages, and the time, to the tenant's address (R261, R280, R385). -/
theorem refuse_posts {s : State} {l : Launch} {lost : Nat} (st : Nat) (hl : s.lostOf l.tenant = lost) (he : s.egress (s.hostOf l.tenant) = true) :
    (s.refuse l st).work = s.work ∧ (s.refuse l st).host.posted = s.host.posted ++
      [.completion l.tenant (s.hostOf l.tenant) (framed 1 (completion l lost st 0 s.now))] := by
  subst hl
  have hp : s.refuse l st = s.timed.modHost fun x => { x with posted := x.posted ++
      [.completion l.tenant (s.hostOf l.tenant) (framed 1 (completion l (s.lostOf l.tenant) st 0 s.now))] } := post_listed (s := s.timed) _ he
  rw [hp]
  exact ⟨rfl, rfl⟩

/-! ### HOSTNOTE (R258, R259) -/

section
variable {s : State} {n : Nat} {hdr : BitVec 128} {body : BitVec 192} (hc : s.commands n = true)
include hc

theorem hostnote_malformed (h : hdrOk 4 24 hdr = false ∨ nbits body 16 48 ≠ 0) :
    exec (.hostnote n hdr body) s = .next (s.reply n (nbits body 0 8) (tagOf hdr) (kindOf hdr) 1) := by
  change execHostnote n hdr body s = _
  have h' : (!hdrOk 4 24 hdr) = true ∨ nbits body 16 48 ≠ 0 := h.imp_left fun h => by simp [h]
  simp only [execHostnote, hc, Bool.not_true, Bool.false_eq_true, if_false, if_pos h']

section
variable (hh : hdrOk 4 24 hdr = true) (hz : nbits body 16 48 = 0)
include hh hz

theorem hostnote_unbound (hb : s.bound n (nbits body 0 8) = false) :
    exec (.hostnote n hdr body) s = .next (s.reply n (nbits body 0 8) (tagOf hdr) 4 2) := by
  change execHostnote n hdr body s = _
  simp [execHostnote, hc, hh, hz, hb]

/-- A record that finds the tenant's waiting records at their bound stays a command of its session (R258). -/
theorem hostnote_waits (hb : s.bound n (nbits body 0 8) = true) (hr : s.faultRoom (nbits body 0 8) = false) :
    exec (.hostnote n hdr body) s = .next (s.modHost fun h => { h with waiting := h.waiting ++ [(some n, .hostnote n hdr body)] }) := by
  change execHostnote n hdr body s = _
  simp [execHostnote, hc, hh, hz, hb, hr, State.later, commandsOn_of_commands hc]

theorem hostnote_posts (hb : s.bound n (nbits body 0 8) = true) (hr : s.faultRoom (nbits body 0 8) = true) :
    exec (.hostnote n hdr body) s = .next ((s.postFault (nbits body 0 8)
      { kind := 0x10, die := 0xFF, status := nbits body 8 8, p0 := bits body 64 64, p1 := bits body 128 64, launch := 0 }).reply n (nbits body 0 8) (tagOf hdr) 4 0) := by
  change execHostnote n hdr body s = _
  simp [execHostnote, hc, hh, hz, hb, hr]

end
end

/-! ### BLOCKS_ADD (R256, R384) -/

section
variable {s : State} {n : Nat} {hdr : BitVec 128} {head : BitVec 64} {bs : List (BitVec 32)} (hc : s.commands n = true)
  (hh : hdrOk 5 (8 + 4 * bs.length) hdr = true) (hd : nbits head 8 8 ≤ 3) (ht : nbits head 16 8 ≤ 1) (hz : nbits head 24 8 = 0)
  (hn : nbits head 32 32 = bs.length)
include hc hh hd ht hz hn

/-- A well-formed BLOCKS_ADD is judged by the binding of its tenant, then by its blocks (R384). -/
theorem exec_blocksAdd : let t := nbits head 0 8
    exec (.blocksAdd n hdr head bs) s =
      if !s.bound n t then .next (s.reply n t (tagOf hdr) 5 2)
      else if !s.addable t (nbits head 8 8) (nbits head 16 8) (bs.map BitVec.toNat) then .next (s.reply n t (tagOf hdr) 5 3)
      else .next (((bs.map BitVec.toNat).foldl (fun s b => s.addBlock t (nbits head 8 8) b) s).reply n t (tagOf hdr) 5 0) := by
  change execBlocksAdd n hdr head bs s = _
  unfold execBlocksAdd
  dsimp only
  rw [if_neg (by simp [hc]), if_neg (by simp [hh, hz, hn]; omega)]

end

theorem onlyTables_returnBlock (s : State) (tenant b : Nat) : OnlyTables s (s.returnBlock tenant b) := by
  unfold State.returnBlock
  extract_lets tier die k l
  split
  · rfl
  · rfl

/-- Adding a block lets its lines be zeroed, and beside that changes tables alone (R384). -/
theorem addBlock_rest (s : State) (tenant die b : Nat) : ∃ key, s.addBlock tenant die b =
    { s with power := { s.power with zeroing := s.power.zeroing ++ [(b * 1024, 1024, key)] }, tables := (s.addBlock tenant die b).tables } :=
  ⟨_, onlyTables_returnBlock _ _ _⟩

/-- A line is to be zeroed once a block has been added if it was before, or lies in the block (R384). -/
theorem zeroing_addBlock (s : State) (tenant die b line : Nat) :
    (s.addBlock tenant die b).zeroing line = (s.zeroing line || (decide (b * 1024 ≤ line) && decide (line < b * 1024 + 1024))) := by
  obtain ⟨key, h⟩ := addBlock_rest s tenant die b
  unfold State.zeroing
  rw [h]
  simp only [List.any_append, List.any_cons, List.any_nil, Bool.or_false, dueIn]

/-- Adding blocks posts nothing, writes no memory, and leaves each of their lines to be zeroed (R384). -/
theorem addBlocks_spec (s : State) (tenant die : Nat) (bs : List Nat) : let u := bs.foldl (fun s b => s.addBlock tenant die b) s
    u.host = s.host ∧ u.sched = s.sched ∧ u.mem = s.mem ∧ ∀ b ∈ bs, ∀ j < 1024, u.zeroing (b * 1024 + j) = true := by
  have keeps {β : Type} (p : State → β) (hp : ∀ w x y, p { w with power := x, tables := y } = p w) :
      p (bs.foldl (fun s b => s.addBlock tenant die b) s) = p s :=
    foldl_keeps p _ (fun w b => by obtain ⟨_, h⟩ := addBlock_rest w tenant die b; rw [h, hp]) _ _
  refine ⟨keeps State.host fun _ _ _ => rfl, keeps State.sched fun _ _ _ => rfl, keeps State.mem fun _ _ _ => rfl, fun b hb j hj => ?_⟩
  refine foldl_establishes (I := fun _ => True) (P := fun w => w.zeroing (b * 1024 + j) = true) (fun _ _ _ => trivial)
    (fun (w : State) _ => ?_) (fun (w : State) c _ hw => ?_) hb trivial
  · simp [zeroing_addBlock, hj]
  · simp [zeroing_addBlock, hw]

section
variable {s : State} {n : Nat} {hdr : BitVec 128} {head : BitVec 64} {bs : List (BitVec 32)}

/-- Blocks that may be added are to be zeroed, every line of them, and the command is answered (R384). -/
theorem blocksAdd_adds (hc : s.commands n = true) (hh : hdrOk 5 (8 + 4 * bs.length) hdr = true) (hd : nbits head 8 8 ≤ 3) (ht : nbits head 16 8 ≤ 1)
    (hz : nbits head 24 8 = 0) (hn : nbits head 32 32 = bs.length) (hb : s.bound n (nbits head 0 8) = true)
    (ha : s.addable (nbits head 0 8) (nbits head 8 8) (nbits head 16 8) (bs.map BitVec.toNat) = true) :
    ∃ s', exec (.blocksAdd n hdr head bs) s = .next s' ∧ s'.host = (s.reply n (nbits head 0 8) (tagOf hdr) 5 0).host ∧ s'.mem = s.mem ∧
      ∀ b ∈ bs, ∀ j < 1024, s'.zeroing (b.toNat * 1024 + j) = true := by
  obtain ⟨hh', hs, hm, hw⟩ := addBlocks_spec s (nbits head 0 8) (nbits head 8 8) (bs.map BitVec.toNat)
  have hsend := sends_reply ((bs.map BitVec.toNat).foldl (fun s b => s.addBlock (nbits head 0 8) (nbits head 8 8) b) s)
    n (nbits head 0 8) (tagOf hdr) 5 0
  refine ⟨_, (exec_blocksAdd hc hh hd ht hz hn).trans ((if_neg (by simp [hb])).trans (if_neg (by simp [ha]))),
    reply_host_congr hh' hs _ _ _ _ _, hsend.mem.trans hm, fun b hb j hj => ?_⟩
  exact (hsend.zeroing _).trans (hw _ (List.mem_map_of_mem hb) j hj)

end

/-! ### REGION_OPEN (R208, R408) -/

section
variable {s : State} {n : Nat} {hdr : BitVec 128} {body : BitVec 256} (hc : s.commands n = true) (hh : hdrOk 2 32 hdr = true)
include hc hh

theorem regionOpen_malformed (hz : nbits body 40 24 ≠ 0) :
    exec (.regionOpen n hdr body) s = .next (s.reply n (openRegion body).tenant (tagOf hdr) 2 1) := by
  change execRegionOpen n hdr body s = _
  simp [execRegionOpen, hc, hh, hz, kindOf_of_hdrOk hh]

section
variable (hz : nbits body 40 24 = 0) (hb : s.bound n (openRegion body).tenant = true)
include hz hb

theorem regionOpen_refused (hm : s.mayOpen body = false) :
    exec (.regionOpen n hdr body) s = .next (s.reply n (openRegion body).tenant (tagOf hdr) 2 3) := by
  change execRegionOpen n hdr body s = _
  simp [execRegionOpen, hc, hh, hz, hb, hm]

/-- A region whose fields are good and whose first grant and root can be written is opened, and the open is answered (R208). -/
theorem regionOpen_opens {b k : Nat} (hm : s.mayOpen body = true) (hg : s.grantRecord (openRegion body) 0 = some (b, k, true)) :
    let p := openPlan (nbits body 0 8) (openRegion body) b k
    s.regReady p.region p.writes = .yes → exec (.regionOpen n hdr body) s =
      .next (({ p.writes.foldl (fun s w => s.regPut p.region w) s with regions := mput s.regions (nbits body 0 8) p.region } : State).reply n
        (openRegion body).tenant (tagOf hdr) 2 0) := by
  intro p hr
  have hr' : s.regReady (openPlan (nbits body 0 8) (openRegion body) b k).region (openPlan (nbits body 0 8) (openRegion body) b k).writes = .yes := hr
  change execRegionOpen n hdr body s = _
  simp only [execRegionOpen, hc, hh, hz, hb, hm, hg, hr', Bool.not_true, Bool.false_eq_true, ne_eq, not_true, or_self, if_false, p]

end
end

/-- The region that an open leaves: one grant, whose first node is the root and whose others are free (R208, R214). -/
theorem openPlan_region (g : Nat) (body : BitVec 256) (b k : Nat) :
    (openPlan g (openRegion body) b k).region =
      { openRegion body with grants := [some b], free := if k ≤ 1 then [] else [(1, k - 1)] } := by
  simp only [openPlan, Plan.put, Plan.grant, Region.pop, openRegion, List.length_nil, Nat.zero_mul, Nat.zero_add, List.nil_append, if_true]

theorem openPlan_freeCount (g : Nat) (body : BitVec 256) (b k : Nat) : (openPlan g (openRegion body) b k).region.freeCount = k - 1 := by
  rw [openPlan_region]
  unfold Region.freeCount
  dsimp only
  split
  · next h => exact (Nat.sub_eq_zero_of_le h).symm
  · exact Nat.zero_add _

theorem blockWrite_inPlace {s y : State} {d a va tenant w : Nat} (h : s.blockWrite d a va tenant w = .inPlace y) : y.threads = s.threads := by
  unfold State.blockWrite at h
  dsimp only at h
  split_ifs at h
  · split at h
    · cases h
    · cases h
  · split at h
    · cases h
    · cases h
  · split at h
    · cases h
    · cases h
  · rw [← BlockWrite.inPlace.inj h]
    exact (setBlk_rest _ _ _).1

/-- A write of granted memory leaves the threads. -/
theorem regPut_threads (s : State) (r : Region) (w : Nat × List Byte) : (s.regPut r w).threads = s.threads := by
  unfold State.regPut
  split
  · rfl
  · refine (sameTables_writeBytes _ _ _ _ _ _).threads.trans ?_
    split
    · split
      · next h => exact blockWrite_inPlace h
      · rfl
    · rfl

/-- R208: the region that an open makes is the tenant's, of its rank, with one grant of which the root is the first node. -/
theorem regionOpen_makes {s : State} {n b k : Nat} {hdr : BitVec 128} {body : BitVec 256} (hc : s.commands n = true) (hh : hdrOk 2 32 hdr = true)
    (hz : nbits body 40 24 = 0) (hb : s.bound n (openRegion body).tenant = true) (hm : s.mayOpen body = true)
    (hg : s.grantRecord (openRegion body) 0 = some (b, k, true)) : let p := openPlan (nbits body 0 8) (openRegion body) b k
    s.regReady p.region p.writes = .yes →
    ∃ s' r, exec (.regionOpen n hdr body) s = .next s' ∧ mget s'.regions (nbits body 0 8) = some r ∧ r.tenant = nbits body 8 8 ∧
      r.rank = nbits body 16 8 ∧ r.grants = [some b] ∧ r.root = 0 ∧ r.entries = 0 ∧ r.freeCount = k - 1 ∧ s'.threads = s.threads := by
  intro p hr
  have hsend := fun u : State => sends_reply u n (openRegion body).tenant (tagOf hdr) 2 0
  have hp : p.region = _ := openPlan_region (nbits body 0 8) body b k
  refine ⟨_, p.region, regionOpen_opens hc hh hz hb hm hg hr, ?_, ?_, ?_, ?_, ?_, ?_, openPlan_freeCount _ body b k, ?_⟩
  · rw [(hsend _).regions]
    exact mget_mput_self _ _ _
  · rw [hp]; rfl
  · rw [hp]; rfl
  · rw [hp]
  · rw [hp]; rfl
  · rw [hp]; rfl
  · exact (hsend _).threads.trans (foldl_keeps State.threads _ (fun u w => regPut_threads u _ w) _ s)

/-! ### REGION_CLOSE (R209) -/

section
variable {s : State} {n : Nat} {hdr : BitVec 128} {body : BitVec 64} (hc : s.commands n = true) (hh : hdrOk 3 8 hdr = true)
  (hz : nbits body 8 56 = 0)
include hc hh hz

theorem regionClose_closed (hr : mget s.regions (nbits body 0 8) = none) :
    exec (.regionClose n hdr body) s = .next (s.reply n nobody (tagOf hdr) 3 3) := by
  change execRegionClose n hdr body s = _
  simp [execRegionClose, hc, hh, hz, hr]

theorem regionClose_accepted {r : Region} (hr : mget s.regions (nbits body 0 8) = some r) (ho : r.closing = false) (hb : s.bound n r.tenant = true) :
    exec (.regionClose n hdr body) s =
      .next (({ s with regions := mput s.regions (nbits body 0 8) { r with closing := true } } : State).reply n r.tenant (tagOf hdr) 3 0) := by
  change execRegionClose n hdr body s = _
  simp [execRegionClose, hc, hh, hz, hr, ho, hb]

end

/-- R209: a closing region on which nothing waits is gone. -/
theorem regionCloseEffect_removes {s : State} {g : Nat} {r : Region} (hr : mget s.regions g = some r) (hc : r.closing = true)
    (hw : r.waiting = false) : exec (.regionCloseEffect g) s = .next { s with regions := mdel s.regions g } := by
  change execRegionCloseEffect g s = _
  simp [execRegionCloseEffect, hr, hc, hw]

/-! ### O47 -/

/-- Settles O47: the commands above, in the statement's order. -/
theorem commandEvents : Obligations.CommandEvents := by
  unfold Obligations.CommandEvents
  refine ⟨?_, ?_, ?_, ?_, ?_, ?_, ?_, ?_, ?_, ?_, ?_, ?_⟩
  · intro s n m x r hh hc hx hb hf u l hr hi hq
    exact ⟨_, launch_enters hc hh hx hb hf hr hi hq, rfl, mget_mput_self _ _ _⟩
  · intro s n m r hc hk ht t he
    have hl : s.lostOf t = 0 := by unfold State.lostOf; rw [ht]
    obtain ⟨hw, hp⟩ := refuse_posts (l := newLaunch t 0 r) 1 hl he
    exact ⟨_, launch_noTenant hc hk ht, hw, hp⟩
  · exact fun s n m hc hk => launch_otherKind hc hk
  · exact fun s n hdr body hc hh => hostnote_malformed hc (.inl hh)
  · intro s n hdr body hc hh
    refine ⟨fun hz => ?_, fun hz => hostnote_unbound hc hh hz, fun hz => hostnote_waits hc hh hz, fun hz => hostnote_posts hc hh hz⟩
    exact kindOf_of_hdrOk hh ▸ hostnote_malformed hc (.inr hz)
  · intro s n hdr head bs hc hh hd ht hz hn
    have he := exec_blocksAdd hc hh hd ht hz hn
    refine ⟨fun hb => he.trans (if_pos (by simp [hb])), fun hb ha => ?_, fun hb ha => blocksAdd_adds hc hh hd ht hz hn hb ha⟩
    exact he.trans ((if_neg (by simp [hb])).trans (if_pos (by simp [ha])))
  · intro s n hdr body hc hh
    refine ⟨fun hz => regionOpen_malformed hc hh hz, fun hz hb => ⟨fun hm => regionOpen_refused hc hh hz hb hm, fun b k hm hg hr => ?_⟩⟩
    exact regionOpen_makes hc hh hz hb hm hg hr
  · exact fun s n hdr body r hc hh hz hr ho hb => regionClose_accepted hc hh hz hr ho hb
  · exact fun s n hdr body hc hh hz hr => regionClose_closed hc hh hz hr
  · exact fun s n k tag kind st x a hx hk ha he => reply_bound hx hk ha he tag kind st
  · exact fun s k a h => hostOf_set h
  · intro s g r hr hc hw
    refine ⟨_, regionCloseEffect_removes hr hc hw, rfl, ?_, fun h hn => ?_⟩
    · rw [mget_mdel, if_pos rfl]
    · rw [mget_mdel, if_neg hn]

end Sys2Proof.Machine
end

/-! Loads as they issue (R229, R233, R235, R236, R240). -/

section
namespace Sys2Proof.Machine

/-! ### An instruction whose entry does not commit yet (R229) -/

/-- An instruction with a load, or behind one, does not commit as it completes: its entry joins the thread's, and nothing is sent for
it. -/
theorem finish_queues (s : State) (t : Nat) (th : Thread) (q : Req) (nx : Next) {e : Rob} (h : ¬(th.rob = [] ∧ e.load = none)) :
    ∃ y r, (finish s t th q nx e).thread? t = some y ∧ y.ctx = advance th.ctx q.pair nx ∧ y.rob = th.rob ++ [r] ∧ r.load = e.load ∧
      r.store = e.store ∧ (finish s t th q nx e).flight = s.flight ∧ Untouched s (finish s t th q nx e) t := by
  unfold finish
  rw [complete_eq]
  extract_lets pre x u y
  have hu : SameBut (s.issuedBy t th) u := sameBut_sendLate _ _ _
  rw [if_neg h]
  refine ⟨_, _, State.thread?_setThread_self u t _, rfl, rfl, rfl, rfl, ?_,
    ((untouched_issuedBy s t th).trans (hu.untouched t)).trans (untouched_setThread u t _)⟩
  exact ((sameSites_issuedBy s t th).trans hu.sites).flight

theorem untouched_newId (s : State) (t : Nat) : Untouched s s.newId t := by constructor <;> intros <;> rfl

/-! ### Loads (R233, R235, R236, R240) -/

/-- The entry of a load that is sent: what it is to load, and where its thread then stands (R229). -/
def State.loadEntry (w : State) (t : Nat) (v : Thread) (q : Req) (d : BitVec 7) (sz : Nat) (loc : Loc) (ea : Nat) (scope : Option Nat) : Rob :=
  let l : Load := { id := w.sched.nextId, reg := v.regId d.toNat, sz := sz, loc := loc, ea := ea, scope := scope, landed := false,
                    lost := none, missed := false, pair := q.pair, snap := (w.thread? t).elim v.ctx Thread.ctx }
  { Rob.none with load := some l, site := some (v.PC q, .load false) }

section
variable {q : Req} {d : BitVec 7} {sz : Nat} {ea : Thread → Dword} {scope : Option Nat} {s : State} {t : Nat} {th : Thread}
  (h : MayExecute { q with access := true } s t th)
include h

/-- A load that is not aligned is an ALIGNMENT fault. -/
theorem load_misaligned : let u := s.begun t th { q with access := true }; let v := s.runner t th { q with access := true };
    (ea v).toNat % loadBytes sz ≠ 0 → load q d sz ea scope s = raise u t q 0x04 (ea v) :=
  fun ha => (h.runs _).trans (if_pos ha)

/-- A load that finds its location, with no store of its thread on its way there and room for its record, completes with the entry
that waits for its data. -/
theorem load_sent {loc : Loc} {w : State} : let u := s.begun t th { q with access := true }; let v := s.runner t th { q with access := true };
    (ea v).toNat % loadBytes sz = 0 → u.resolve t v (ea v).toNat (loadBytes sz) 0 = .ok loc w → w.storePending v loc = false →
    w.siteFull (coreOf t) v (v.PC q) = false →
    load q d sz ea scope s = .next (finish w.newId t v q .seq (w.loadEntry t v q d sz loc (ea v).toNat scope)) := by
  intro u v ha hr hp hs
  refine (h.runs _).trans ((if_neg (not_not_intro ha)).trans ?_)
  rw [hr]
  refine (if_neg (ne_true_of_eq_false hp)).trans ((if_neg (ne_true_of_eq_false hs)).trans ?_)
  unfold State.loadEntry
  cases w.thread? t <;> rfl

end

/-- R233, R235, R236, R240: an instruction that is a load issues as one. -/
theorem loadIssues {i : Instr} {q : Req} {d : BitVec 7} {sz : Nat} {ea : Thread → Dword} {scope : Option Nat}
    (hi : ∀ s, exec i s = load q d sz ea scope s) : LoadIssues i q d sz ea scope := by
  intro s t th req h u v
  refine ⟨fun loc w ha hr hp hs => ?_, fun ha => h.faultsIn rfl ((hi s).trans (load_misaligned h ha))⟩
  obtain ⟨y, r, hy, hc, hrob, hl, -, -, hu⟩ := finish_queues w.newId t v q .seq (e := w.loadEntry t v q d sz loc (ea v).toNat scope) nofun
  exact ⟨_, y, (hi s).trans (load_sent h ha hr hp hs), hy, hc, ⟨r, _, hrob, hl, rfl, rfl, rfl, rfl, rfl, rfl⟩, (untouched_newId w t).trans hu⟩

/-- Settles O29: each form is a load, of the bytes, register, address and scope that the statement gives. -/
theorem loadsIssue : Obligations.LoadsIssue :=
  ⟨fun _ _ _ _ => loadIssues fun _ => rfl, fun _ _ _ _ _ => loadIssues fun _ => rfl, fun _ _ _ => loadIssues fun _ => rfl,
    fun _ _ _ _ _ => loadIssues fun _ => rfl⟩

end Sys2Proof.Machine
end

/-! Stores as they issue (R177 to R179, R229, R230, R234 to R236, R240, R243). -/

section
namespace Sys2Proof.Machine

/-! ### A store leaves its core (R160, R229) -/

/-- Memory, the stores on their way, and the context and the count of stores of the thread in slot `t` stay as they are. -/
structure SameCounts (s s' : State) (t : Nat) : Prop where
  mem : s'.mem = s.mem
  stores : s'.flight.stores = s.flight.stores
  counts : (s'.thread? t).map (fun y => (y.ctx, y.stOut)) = (s.thread? t).map fun y => (y.ctx, y.stOut)

theorem SameCounts.trans {a b c : State} {t : Nat} (h : SameCounts a b t) (k : SameCounts b c t) : SameCounts a c t :=
  ⟨k.mem.trans h.mem, k.stores.trans h.stores, k.counts.trans h.counts⟩

theorem SameCounts.of_threads {s s' : State} (hm : s'.mem = s.mem) (hf : s'.flight.stores = s.flight.stores) (ht : s'.threads = s.threads) (t : Nat) :
    SameCounts s s' t := ⟨hm, hf, by rw [State.thread?_congr ht]⟩

theorem record_stores (s : State) (t : Nat) (th : Thread) (r : Option (Dword × SiteRec)) :
    (s.record t th r).flight.stores = s.flight.stores := by
  unfold State.record
  split
  · split <;> rfl
  · rfl

theorem countSent_flight (s : State) (c w l n : Nat) : (s.countSent c w l n).flight = s.flight := by simp [State.countSent]

/-- The state in which an entry with a store commits, before the store leaves (R22, R28, R229). -/
def State.committing (s : State) (t : Nat) (y : Thread) (e : Rob) (r : StoreReq) : State :=
  let u := ((if e.leaves then s.modThread t Thread.detach else s).record t y e.site).count t y 0x03 1
  match r.loc with
  | .peer _ _ => u.countSent (coreOf t) y.who y.launch 1
  | _ => u

theorem committing_counts (s : State) (t : Nat) (y : Thread) (e : Rob) (r : StoreReq) : SameCounts s (s.committing t y e r) t := by
  unfold State.committing
  extract_lets u
  have hd : SameCounts s (if e.leaves then s.modThread t Thread.detach else s) t := by
    split
    · refine ⟨State.modThread_mem _ _ _, by rw [State.modThread_flight], ?_⟩
      rw [State.thread?_modThread, if_pos rfl, Option.map_map]
      rfl
    · exact ⟨rfl, rfl, rfl⟩
  have hr := SameCounts.of_threads (untouched_record (if e.leaves then s.modThread t Thread.detach else s) t t y e.site).mem (record_stores _ t y e.site)
    (State.record_threads _ t y e.site) t
  have hk : Kept _ u := kept_count _ t y 0x03 1
  have hu : SameCounts s u t := (hd.trans hr).trans (.of_threads hk.mem (congrArg Flight.stores hk.flight) hk.threads t)
  split
  · exact hu.trans (.of_threads (State.countSent_mem _ _ _ _ _) (congrArg Flight.stores (countSent_flight _ _ _ _ _))
      (State.countSent_threads _ _ _ _ _) t)
  · exact hu

theorem commit_store_eq {s : State} {t : Nat} {y : Thread} {e : Rob} {r : StoreReq} (hy : s.thread? t = some y) (hs : e.store = some r)
    (hm : e.merge = none) : s.commit t e =
      ((s.committing t y e r).modThread t fun x => { x with stOut := x.stOut + 1 }).sendStore y.home (coreOf t) y.launch r := by
  unfold State.commit
  rw [hy, hs, hm]
  rfl

/-- What `sendStore` puts on its way. -/
theorem sendStore_spec (s : State) (tid c l : Nat) (r : StoreReq) : (s.sendStore tid c l r).threads = s.threads ∧
    (s.sendStore tid c l r).mem = s.mem ∧
    ∃ f, (s.sendStore tid c l r).flight.stores = s.flight.stores ++ [f] ∧ f.req = r ∧ f.tid = tid ∧ f.core = c := by
  have hk := kept_patchL1 s c r.loc r.writes
  exact ⟨hk.threads, hk.mem, _, congrArg (fun f : Flight => f.stores ++ _) hk.flight, rfl, rfl, rfl⟩

/-- An entry with a store that commits: the store is on its way, and its thread counts it. -/
theorem commit_sends {s : State} {t : Nat} {y : Thread} {e : Rob} {r : StoreReq} (hy : s.thread? t = some y) (hs : e.store = some r)
    (hm : e.merge = none) : ∃ z f, (s.commit t e).thread? t = some z ∧ z.ctx = y.ctx ∧ z.stOut = y.stOut + 1 ∧ (s.commit t e).mem = s.mem ∧
      (s.commit t e).flight.stores = s.flight.stores ++ [f] ∧ f.req = r ∧ f.tid = y.home ∧ f.core = coreOf t := by
  have hc := committing_counts s t y e r
  rw [commit_store_eq hy hs hm]
  generalize s.committing t y e r = u at hc
  obtain ⟨x, hx, he⟩ : ∃ x, u.thread? t = some x ∧ (x.ctx, x.stOut) = (y.ctx, y.stOut) := by
    have h := hc.counts
    rwa [hy, Option.map_some, Option.map_eq_some_iff] at h
  obtain ⟨hctx, hst⟩ := Prod.mk.inj he
  obtain ⟨ht, hmem, f, hf, hreq, htid, hcore⟩ :=
    sendStore_spec (u.modThread t fun x => { x with stOut := x.stOut + 1 }) y.home (coreOf t) y.launch r
  refine ⟨{ x with stOut := x.stOut + 1 }, f, ?_, hctx, congrArg (· + 1) hst, ?_, ?_, hreq, htid, hcore⟩
  · rw [State.thread?_congr ht, State.thread?_modThread, if_pos rfl, hx]
    rfl
  · rw [hmem, State.modThread_mem, hc.mem]
  · rw [hf, State.modThread_flight, hc.stores]

/-- A store that completes with no load before it goes on its way (R229). -/
theorem finish_sends (s : State) (t : Nat) {th : Thread} (q : Req) (nx : Next) {e : Rob} {r : StoreReq} (hr : th.rob = []) (hl : e.load = none)
    (hs : e.store = some r) (hm : e.merge = none) : ∃ z f, (finish s t th q nx e).thread? t = some z ∧ z.ctx = advance th.ctx q.pair nx ∧
      z.stOut = th.stOut + 1 ∧ (finish s t th q nx e).mem = s.mem ∧ (finish s t th q nx e).flight.stores = s.flight.stores ++ [f] ∧
      f.req = r ∧ f.tid = th.home ∧ f.core = coreOf t := by
  unfold finish
  rw [complete_eq]
  extract_lets pre x u y
  have hu : SameBut (s.issuedBy t th) u := sameBut_sendLate _ _ _
  have hum : u.mem = s.mem := ((untouched_issuedBy s t th).trans (hu.untouched t)).mem
  have huf : u.flight = s.flight := ((sameSites_issuedBy s t th).trans hu.sites).flight
  obtain ⟨z, f, hz, hc, hst, hmem, hf, hreq⟩ := commit_sends (State.thread?_setThread_self u t y) (e := th.entryOf pre q nx e) hs hm
  rw [if_pos ⟨hr, hl⟩]
  exact ⟨z, f, hz, hc, hst, hmem.trans hum, hf.trans (congrArg (·.stores ++ [f]) huf), hreq⟩

/-! ### What the search for a location leaves alone (R164, R228) -/

/-- To join or start a walk changes no thread (R164). -/
theorem startWalk_threads (s : State) (t tenant va : Nat) : (s.startWalk t tenant va).state.threads = s.threads := by
  have counted (u : State) (d k n : Nat) : (u.countDie d k n).threads = u.threads := (kept_countDie u d k n).threads
  unfold State.startWalk
  extract_lets c d both who l
  have hboth (w k : Nat) : (both s w k).threads = s.threads := by simp only [both, State.countFor_threads]
  split
  · rfl
  · split
    · exact (counted _ _ _ _).trans ((State.countFor_threads ..).trans (hboth _ _))
    · split
      · exact (counted _ _ _ _).trans (hboth _ _)
      · split
        · rfl
        · exact (counted _ _ _ _).trans ((State.countFor_threads ..).trans (hboth _ _))

theorem translate_threads (s : State) (t tenant va : Nat) : (s.translate t tenant va).state.threads = s.threads := by
  unfold State.translate
  extract_lets c u
  split
  · rfl
  · split
    · rfl
    · split
      · change u.threads = s.threads
        dsimp only [u]
        split
        · exact State.count_threads _ _ _ _ _
        · rfl
      · exact startWalk_threads _ _ _ _

/-- The state in which the checks of an access leave the device, whatever they say. -/
def Access.state : Access → State
  | .ok _ s => s
  | .fault _ s => s
  | .wait _ s => s

/-- The checks of an access change no thread: in the global window they translate, and a write's log its page (R180); what the other
windows hold lies where it lies. -/
theorem resolve_threads (s : State) (t : Nat) (th : Thread) (ea n acc : Nat) : (s.resolve t th ea n acc).state.threads = s.threads := by
  have ht := translate_threads s t th.tenant ea
  unfold State.resolve
  extract_lets c win off
  split
  · split
    · next code y he =>
      rw [he] at ht
      rw [Access.state]
      split
      · exact ht
      · rfl
    · next y he =>
      rw [he] at ht
      exact ht
    · next x y he =>
      rw [he] at ht
      repeat' split
      all_goals exact ht
  · repeat' split
    all_goals rfl

theorem resolve_ok_threads {s w : State} {t ea n acc : Nat} {th : Thread} {loc : Loc} (h : s.resolve t th ea n acc = .ok loc w) :
    w.threads = s.threads := by
  have hs := resolve_threads s t th ea n acc
  rwa [h] at hs

/-! ### A write through a block entry (R177 to R179, R317, R318) -/

/-- A write that a block entry lets through sets DIRTY and, with count 1, clears COW (R177). -/
theorem blockWrite_sets {s x : State} {d b va tenant w : Nat} (h : s.blockWrite d b va tenant w = .inPlace x) :
    x = s.setBlk b (setBits (setBits (s.blk b) 125 1 0) 123 1 1) := by
  unfold State.blockWrite at h
  dsimp only at h
  split_ifs at h
  · split at h <;> cases h
  · split at h <;> cases h
  · split at h <;> cases h
  · exact (BlockWrite.inPlace.inj h).symm

/-- The count at which a tenant's accesses post a record (R318). -/
def State.accessLimit (s : State) (tenant : Nat) : Nat := match s.tenant? tenant with | some x => x.accthr | none => 256

/-- Below the tenant's threshold an access is counted in its block entry (R318). -/
theorem countAcc_below {s : State} {die tenant b va : Nat} (h : blkAcc (s.blk b) + 1 < s.accessLimit tenant) :
    s.countAcc die tenant b va 1 = s.setBlk b (setBits (s.blk b) 100 12 (blkAcc (s.blk b) + 1)) :=
  if_neg (Nat.not_le.mpr h)

theorem setBlk_mem (s : State) (b : Nat) (e : BitVec 128) : (s.setBlk b e).mem = s.mem := rfl

/-- The same for what a state with those tables counts. -/
theorem SameTables.below {s u : State} (h : SameTables s u) {tenant b : Nat} (hb : blkAcc (s.blk b) + 1 < s.accessLimit tenant) :
    blkAcc (u.blk b) + 1 < u.accessLimit tenant := by
  unfold State.accessLimit State.tenant? State.blk at *
  rwa [h.tables]

/-! ### Stores at their turn (R179, R190, R228) -/

section
variable {s w : State} {t n : Nat} {v : Thread} {q : Req} {ea : Dword} {bytes : List (Nat × Byte)} {loc : Loc}

/-- A store that a remap has applied only completes (R179). -/
theorem store_applied (ha : v.heldApplied = true) : store s t v q ea n bytes = .next (finish s t v.unheld q .seq) := if_pos ha

section
variable (ha : v.heldApplied = false) (hq : s.queuedWrite t = false) (hn : v.stores < 255)
  (hr : s.resolve t v (ea.toNat - ea.toNat % n) n 1 = .ok loc w)
include ha hq hn hr

/-- A store whose location lies outside the block windows completes, and leaves as it commits (R229). -/
theorem store_outside (hl : loc.inBlock = none) :
    store s t v q ea n bytes = .next (finish w t v q .seq { Rob.none with store := some (storeOf loc ea.toNat bytes) }) := by
  unfold store
  rw [if_neg (ne_true_of_eq_false ha), if_neg (ne_true_of_eq_false hq), hr]
  dsimp only
  rw [if_neg (by simp [hl]), if_neg (Nat.not_le.mpr hn)]
  cases loc with
  | mem pa key blk =>
    obtain rfl : blk = none := hl
    rfl
  | scratch k off => rfl
  | localStore k off view => rfl
  | peer k off => rfl

section
variable {pa key b : Nat} (hl : loc = .mem pa key (some b)) (hrob : v.rob = []) (hz : w.zeroing (pa / 64) = false)
  (hb : w.lineBusy (coreOf t) v.home loc = false)
include hl hrob hz hb

/-- The state in which a store to a block window has been performed, and has been counted (R160, R177, R318). -/
def State.storedInBlock (x : State) (t : Nat) (v : Thread) (pa key b va : Nat) (r : StoreReq) : State :=
  (((x.patchL1 (coreOf t) r.loc r.writes).performWrite v.home (dieOf (coreOf t)) key r.writes).traffic (coreOf t) v.who v.launch v.tenant pa
    false).countAcc (dieOf (coreOf t)) v.tenant b va 1

/-- The state in which a store is held for a copy of its block (R178, R179). -/
def State.storeHeld (w : State) (t : Nat) (q : Req) (r : StoreReq) : State :=
  w.modThread t fun y => { y with held := some { req := r, atom := none, va := r.va, applied := false, old := 0, pair := q.pair } }

/-- A store that its block entry lets through is performed at once. -/
theorem store_inPlace {x : State} (hx : w.blockWrite (dieOf (coreOf t)) b ea.toNat v.tenant t = .inPlace x) :
    store s t v q ea n bytes =
      .next (finish (x.storedInBlock t v pa key b ea.toNat (storeOf loc ea.toNat bytes)) t v.unheld q .seq) := by
  subst hl
  unfold store
  rw [if_neg (ne_true_of_eq_false ha), if_neg (ne_true_of_eq_false hq), hr]
  dsimp only
  rw [if_neg (by simp [hrob]), if_neg (Nat.not_le.mpr hn), if_neg (by simp [hz, hb]), hx]
  rfl

/-- One that finds no place for the copy that it needs is held, and waits. -/
theorem store_noRoom (hx : w.blockWrite (dieOf (coreOf t)) b ea.toNat v.tenant t = .full) :
    store s t v q ea n bytes = .next (hold (w.storeHeld t q (storeOf loc ea.toNat bytes)) t 5) := by
  subst hl
  unfold store
  rw [if_neg (ne_true_of_eq_false ha), if_neg (ne_true_of_eq_false hq), hr]
  dsimp only
  rw [if_neg (by simp [hrob]), if_neg (Nat.not_le.mpr hn), if_neg (by simp [hz, hb]), hx]
  rfl

end
end
end

/-- A store performed in a block window has written its bytes at their home. -/
theorem storedInBlock_mem {x : State} {v : Thread} {b : Nat} (h : blkAcc (x.blk b) + 1 < x.accessLimit v.tenant) (t pa key va : Nat)
    (r : StoreReq) : (x.storedInBlock t v pa key b va r).mem = x.mem.puts (x.keyData key) r.writes := by
  unfold State.storedInBlock
  have hp := kept_patchL1 x (coreOf t) r.loc r.writes
  generalize x.patchL1 (coreOf t) r.loc r.writes = u at hp
  obtain ⟨hm, -, -⟩ := performWrite_spec u v.home (dieOf (coreOf t)) key r.writes
  have hw := sameTables_performWrite u v.home (dieOf (coreOf t)) key r.writes
  generalize u.performWrite v.home (dieOf (coreOf t)) key r.writes = y at hm hw
  have ht := kept_traffic y (coreOf t) v.who v.launch v.tenant pa false false
  rw [countAcc_below (((hp.sameTables.trans hw).trans ht.sameTables).below h)]
  rw [setBlk_mem, ht.mem, hm, hp.mem, hp.keyData]

/-! ### Stores as they issue (R234 to R236, R240, R243) -/

/-- An instruction's meaning on the thread that has the turn, whatever else might hold it (R349). -/
theorem MayExecute.runsEarly {q : Req} {s : State} {t : Nat} {th : Thread} (h : MayExecute q s t th) (e : List Early)
    (k : State → Nat → Thread → Out) : begin { q with early := e } s k = k (s.begun t th q) t (s.runner t th q) :=
  (h.withEarly e).runs k

/-- A store at its turn: its alignment, then what its release waits for, then the store (R196, R228, R240). -/
def State.storeTurn (u : State) (q : Req) (align n : Nat) (ea : Thread → Dword) (bytes : Thread → List (Nat × Byte)) (scope : Option Nat)
    (t : Nat) (v : Thread) : Out :=
  if (ea v).toNat % align ≠ 0 then raise u t q 0x04 (ea v)
  else match scope.bind fun c => u.releaseHeld v c with
  | some c => .next (hold u t c)
  | none => store u t v q (ea v) n (bytes v)

/-- What a store asks of the core (R230, R240). -/
abbrev reqStore (q : Req) (scope : Option Nat) : Req := { q with access := true, commit := q.commit || scope.isSome }

section
variable {u : State} {q : Req} {align n : Nat} {ea : Thread → Dword} {bytes : Thread → List (Nat × Byte)} {scope : Option Nat} {t : Nat}
  {v : Thread}

theorem storeTurn_stores (ha : (ea v).toNat % align = 0) (hr : (scope.bind fun c => u.releaseHeld v c) = none) :
    u.storeTurn q align n ea bytes scope t v = store u t v q (ea v) n (bytes v) := by
  unfold State.storeTurn
  rw [if_neg (not_not_intro ha), hr]

end

/-- R234 to R236, R240, R243: an instruction that is a store at its turn issues as one; of its requirements `q'` the turn needs only
whether it is a pair. -/
theorem storeIssues {i : Instr} {q q' : Req} {align n : Nat} {ea : Thread → Dword} {bytes : Thread → List (Nat × Byte)} {scope : Option Nat}
    (hp : q'.pair = q.pair) (hi : ∀ s t th, MayExecute (reqStore q scope) s t th →
      exec i s = (s.begun t th (reqStore q scope)).storeTurn q' align n ea bytes scope t (s.runner t th (reqStore q scope))) :
    StoreIssues i q align n ea bytes scope := by
  intro s t th req h u v
  have hturn : exec i s = u.storeTurn q' align n ea bytes scope t v := hi s t th h
  have hstore (ha : (ea v).toNat % align = 0) (hr : (scope.bind fun c => u.releaseHeld v c) = none) :
      exec i s = store u t v q' (ea v) n (bytes v) := hturn.trans (storeTurn_stores ha hr)
  rw [← hp]
  refine ⟨fun ha hr happ => ?_, fun loc w ha hr happ hq hn hloc => ⟨fun hl => ?_, fun pa key b x hl hrob hz hb hx hacc => ?_,
    fun pa key b hl hrob hz hb hx => ?_⟩, fun ha => ?_⟩
  · obtain ⟨hc, hu⟩ := finish_spec u t v.unheld q' .seq Rob.none rfl
    exact ⟨_, (hstore ha hr).trans (store_applied happ), hc, (untouched_begun s t th req).trans hu⟩
  · have he := (hstore ha hr).trans (store_outside (bytes := bytes v) happ hq hn hloc hl)
    by_cases hrob : v.rob = []
    · obtain ⟨z, f, hz, hc, hst, hm, hf, hreq⟩ := finish_sends w t q' .seq (e := { Rob.none with store := some (storeOf loc (ea v).toNat (bytes v)) })
        hrob rfl rfl rfl
      exact ⟨_, z, he, hz, hc, hm, fun _ => ⟨hst, f, hf, hreq⟩, fun hne => absurd hrob hne⟩
    · obtain ⟨z, r, hz, hc, hzr, -, hs, hf, hu⟩ := finish_queues w t v q' .seq
        (e := { Rob.none with store := some (storeOf loc (ea v).toNat (bytes v)) }) fun h => hrob h.1
      exact ⟨_, z, he, hz, hc, hu.mem, fun h => absurd h hrob, fun _ => ⟨congrArg Flight.stores hf, r, hzr, hs⟩⟩
  · obtain ⟨hc, hu⟩ := finish_spec (x.storedInBlock t v pa key b (ea v).toNat (storeOf loc (ea v).toNat (bytes v))) t v.unheld q' .seq Rob.none rfl
    exact ⟨_, (hstore ha hr).trans (store_inPlace happ hq hn hloc hl hrob hz hb hx), hc,
      hu.mem.trans (storedInBlock_mem hacc t pa key _ _)⟩
  · obtain ⟨hh, hu⟩ := hold_spec (w.storeHeld t q' (storeOf loc (ea v).toNat (bytes v))) t 5
    obtain ⟨r, k, hk, -⟩ := begun_thread (q := req) h.live
    have hw : w.threads = u.threads := resolve_ok_threads hloc
    rw [State.storeHeld, State.thread?_modThread, if_pos rfl, State.thread?_congr hw, hk] at hh
    exact ⟨_, _, (hstore ha hr).trans (store_noRoom happ hq hn hloc hl hrob hz hb hx), hh, rfl, rfl,
      hu.mem.trans (State.modThread_mem _ _ _), rfl⟩
  · have hf : Faults i s q' u t v 0x04 (ea v) := h.faultsIn rfl (hturn.trans (if_pos ha))
    unfold Faults at hf ⊢
    rwa [hp] at hf

/-- Settles O31: each form is a store at its turn; `zline` may lie anywhere in its line. -/
theorem storesIssue : Obligations.StoresIssue := by
  refine ⟨?_, ?_, ?_, ?_, ?_⟩
  · exact fun d a z i => storeIssues rfl fun s t th h => h.runsEarly _ _
  · exact fun d a b z x => storeIssues rfl fun s t th h => h.runsEarly _ _
  · exact fun d a i => storeIssues rfl fun s t th h => h.runsEarly _ _
  · exact fun d a z c i => storeIssues rfl fun s t th h => h.runsEarly _ _
  · refine fun a i => storeIssues (q' := reqA (.zline a i) a) rfl fun s t th h => ?_
    rw [storeTurn_stores (Nat.mod_one _) rfl]
    exact h.runsEarly _ _

end Sys2Proof.Machine
end

/-! Atomics (R160, R169, R177 to R179, R197, R203, R237 to R239, R387). -/

section
namespace Sys2Proof.Machine

/-! ### What an ordered atomic acquires (R188, R197, R239) -/

/-- The device's memories hold what they held: the tenants' memory, the scratchpads and the local stores. -/
structure SameMemories (s s' : State) : Prop where
  mem : s'.mem = s.mem
  clusters : s'.clusters = s.clusters
  locals : ∀ c, (s'.core c).localStore = (s.core c).localStore

theorem SameMemories.refl (s : State) : SameMemories s s := ⟨rfl, rfl, fun _ => rfl⟩

theorem SameMemories.trans {a b c : State} (h : SameMemories a b) (k : SameMemories b c) : SameMemories a c :=
  ⟨k.mem.trans h.mem, k.clusters.trans h.clusters, fun d => (k.locals d).trans (h.locals d)⟩

theorem Untouched.sameMemories {s s' : State} {t : Nat} (h : Untouched s s' t) : SameMemories s s' :=
  ⟨h.mem, h.clusters, h.core Core.localStore fun _ => rfl⟩

theorem sameMemories_foldl {α : Type} {f : State → α → State} (h : ∀ s x, SameMemories s (f s x)) (l : List α) (s : State) :
    SameMemories s (l.foldl f s) := by
  induction l generalizing s with
  | nil => exact .refl s
  | cons x l ih => exact (h s x).trans (ih _)

theorem sameMemories_dropRdc (s : State) (d line : Nat) : SameMemories s (s.dropRdc d line) := by
  have hk : Kept s (s.dropRdc d line) := (kept_modDie _ _ _).trans (kept_countDie _ _ _ _)
  refine ⟨hk.mem, hk.clusters, fun c => ?_⟩
  unfold State.dropRdc State.countDie
  split <;> rfl

theorem sameMemories_invalsOf (s : State) (tag : Nat) : SameMemories s (s.invalsOf tag) := by
  have h := sameMemories_foldl (f := fun s (x : Inval) => x.dies.foldl (fun s d => s.dropRdc d x.line) s)
    (fun s x => sameMemories_foldl (fun s d => sameMemories_dropRdc s d x.line) x.dies s)
    (s.flight.invals.filter fun x => x.tid == tag) s
  exact h.trans ⟨rfl, rfl, fun _ => rfl⟩

theorem sameMemories_acquire (s : State) (t : Nat) (th : Thread) (scope : Nat) : SameMemories s (s.acquire t th scope) := by
  unfold State.acquire
  split
  · have hf : SameMemories s (s.flashL1 (coreOf t)) := by
      refine ⟨rfl, rfl, fun c => ?_⟩
      rw [State.flashL1, State.core_modCore]
      split
      · next h => rw [h]
      · rfl
    exact hf.trans (untouched_count _ t t th 0x26 1).sameMemories
  · exact .refl s

/-! ### An atomic completes (R237, R239) -/

/-- The old value, zero-extended, is the result; what an ordered atomic acquires changes no memory. -/
theorem atomReturn_spec (e : State) (t : Nat) (v : Thread) (q : Req) (d : BitVec 7) (n old : Nat) (o : Bool) :
    ∃ s', atomReturn e t v q d n old o = .next s' ∧
      (s'.thread? t).map Thread.ctx = some (advance (v.setS d (zextTo old (8 * n))).ctx q.pair .seq) ∧ SameMemories e s' := by
  let u := if o then (e.completeInvals v).acquire t v 4 else e
  have hu : SameMemories e u := by
    unfold u
    split
    · exact (sameMemories_invalsOf e v.home).trans (sameMemories_acquire _ _ _ _)
    · exact .refl e
  obtain ⟨hc, hf⟩ := finish_spec u t (v.setS d (zextTo old (8 * n))) q .seq Rob.none rfl
  exact ⟨_, rfl, hc, hu.trans hf.sameMemories⟩

/-! ### On chip (R171, R239) -/

/-- Threads and cores are the same, but for what counting changes of a core. -/
structure SameCores (s s' : State) : Prop where
  threads : s'.threads = s.threads
  cores : ∀ c, (s'.core c).still = (s.core c).still

theorem sameCores_corrected (s : State) (c w l n : Nat) : SameCores s (s.corrected c w l n) := by
  refine ⟨(kept_corrected s c w l n).threads, fun d => ?_⟩
  unfold State.corrected
  split
  · rfl
  · extract_lets hit u
    split
    · unfold State.countDie
      split
      · exact (untouched_countFor u 0 c w l n 0x52 1).cores d
      · exact (untouched_countFor u 0 c w l n 0x52 1).cores d
    · rfl

theorem sameCores_ite {a b x y : State} {p : Prop} [Decidable p] (h : SameCores a x) (k : SameCores b y) :
    SameCores (if p then a else b) (if p then x else y) := by
  split
  · exact h
  · exact k

section
variable {s s' : State} (h : SameCores s s')
include h

theorem SameCores.core {β : Type} (p : Core → β) (hp : ∀ x, p x.still = p x) (c : Nat) : p (s'.core c) = p (s.core c) := by
  rw [← hp, h.cores, hp]

/-- The same change of a core, one that no counter decides. -/
theorem SameCores.modCore (c : Nat) {f : Core → Core} (hf : ∀ x, (f x).still = (f x.still).still) :
    SameCores (s.modCore c f) (s'.modCore c f) := by
  refine ⟨h.threads, fun d => ?_⟩
  rw [State.core_modCore, State.core_modCore]
  split
  · rw [hf, h.cores, ← hf]
  · exact h.cores d

/-- The same byte written to a local store (R170). -/
theorem SameCores.putLocal (c off : Nat) (b : Byte) : SameCores (s.putLocal c off b) (s'.putLocal c off b) := by
  have hown : SameCores (s.modCore c fun x => { x with localStore := mput x.localStore off b })
      (s'.modCore c fun x => { x with localStore := mput x.localStore off b }) := h.modCore c fun _ => rfl
  have hs : (s'.core c).slog = (s.core c).slog := h.core Core.slog (fun _ => rfl) c
  unfold State.putLocal
  rw [h.threads, hs]
  dsimp only
  refine sameCores_ite hown (sameCores_ite ?_ (sameCores_ite (h.modCore c fun _ => rfl) (sameCores_ite (h.modCore c fun _ => rfl)
    (sameCores_ite (h.modCore c fun _ => rfl) hown))))
  cases mget s.threads (c * 64 + (off - 0x6000) / 512) with
  | none => exact hown
  | some th => exact sameCores_ite ⟨rfl, h.cores⟩ hown

theorem SameCores.putLocals (c : Nat) (ws : List (Nat × Byte)) :
    SameCores (ws.foldl (fun z x => z.putLocal c x.1 x.2) s) (ws.foldl (fun z x => z.putLocal c x.1 x.2) s') := by
  induction ws generalizing s s' with
  | nil => exact h
  | cons x ws ih => exact ih (h.putLocal c x.1 x.2)

end

theorem putLocal_mem (s : State) (c off : Nat) (b : Byte) : (s.putLocal c off b).mem = s.mem := by
  unfold State.putLocal
  extract_lets
  repeat' split
  all_goals rfl

theorem mend_cores (s : State) (line : Nat) (offs : List Nat) : (s.mend line offs).cores = s.cores := by
  unfold State.mend
  split <;> rfl

/-- An atomic of the scratchpad (R171, R239). -/
theorem atomicOnChip_scratch {w : State} {k off n : Nat} (hb : w.badLoc (.scratch k off) n = false) (t : Nat) (v : Thread) (q : Req) (op : Nat)
    (o : Bool) (d : BitVec 7) (ea : Dword) (y x old : Nat) :
    ∃ s', atomicOnChip w t v q op n o d ea y x (.scratch k off) old off = .next s' ∧ s'.mem = w.mem ∧
      (s'.thread? t).map Thread.ctx = some (advance (v.setS d (zextTo old (8 * n))).ctx q.pair .seq) ∧
      (s'.cluster k).scratch = (place off (bytesOf (atomNew op n old y x) n)).foldl (fun m x => mput m x.1 x.2) (w.cluster k).scratch := by
  have hc := kept_corrected w (coreOf t) v.who v.launch v.tenant
  unfold atomicOnChip
  rw [if_neg (ne_true_of_eq_false hb)]
  generalize w.corrected (coreOf t) v.who v.launch v.tenant = u at hc
  have hm := kept_mend (u.putScratch k (place off (bytesOf (atomNew op n old y x) n))) (sramLine 0 k (off / 64))
    ((place off (bytesOf (atomNew op n old y x) n)).map Prod.fst)
  obtain ⟨s', he, hctx, hs⟩ := atomReturn_spec (u.performStore v.home (coreOf t) v.launch
    { loc := .scratch k off, writes := place off (bytesOf (atomNew op n old y x) n) }) t v q d n old o
  refine ⟨s', he, hs.mem.trans (hm.mem.trans hc.mem), hctx, ?_⟩
  rw [State.cluster, hs.clusters]
  refine (congrArg Cluster.scratch (hm.cluster k)).trans ?_
  rw [State.putScratch, State.cluster_modCluster, if_pos rfl, hc.cluster]

/-- An atomic of a local store (R170, R239). -/
theorem atomicOnChip_local {w : State} {k off n : Nat} {m : Option Nat} (hb : w.badLoc (.localStore k off m) n = false) (t : Nat) (v : Thread)
    (q : Req) (op : Nat) (o : Bool) (d : BitVec 7) (ea : Dword) (y x old : Nat) :
    ∃ s', atomicOnChip w t v q op n o d ea y x (.localStore k off m) old off = .next s' ∧ s'.mem = w.mem ∧
      (s'.thread? t).map Thread.ctx = some (advance (v.setS d (zextTo old (8 * n))).ctx q.pair .seq) ∧
      (s'.core k).localStore =
        (((place off (bytesOf (atomNew op n old y x) n)).foldl (fun z x => z.putLocal k x.1 x.2) w).core k).localStore := by
  have hc := kept_corrected w (coreOf t) v.who v.launch v.tenant
  have hl := sameCores_corrected w (coreOf t) v.who v.launch v.tenant
  unfold atomicOnChip
  rw [if_neg (ne_true_of_eq_false hb)]
  generalize w.corrected (coreOf t) v.who v.launch v.tenant = u at hc hl
  let ws := place off (bytesOf (atomNew op n old y x) n)
  have hp := hl.putLocals k ws
  have hm := kept_mend (ws.foldl (fun z x => z.putLocal k x.1 x.2) u) (sramLine 1 k (off / 64)) (ws.map Prod.fst)
  obtain ⟨s', he, hctx, hs⟩ := atomReturn_spec (u.performStore v.home (coreOf t) v.launch { loc := .localStore k off m, writes := ws }) t v q d n old o
  refine ⟨s', he, hs.mem.trans (hm.mem.trans ?_), hctx, (hs.locals k).trans (Eq.trans ?_ (hp.core Core.localStore (fun _ => rfl) k))⟩
  · exact (foldl_keeps State.mem _ (fun s x => putLocal_mem s k x.1 x.2) ws u).trans hc.mem
  · exact congrArg (fun m => (mgetD m k Core.reset).localStore) (mend_cores _ _ _)

/-! ### At a home, and at a peer (R197, R203, R239, R387) -/

/-- An atomic of a line of memory at its home. -/
theorem atomicAtHome_spec {w : State} {pa n : Nat} (hb : w.badAt pa n = false) (u : State) (t : Nat) (v : Thread) (q : Req) (op : Nat) (o : Bool)
    (d : BitVec 7) (ea : Dword) (y x key : Nat) :
    let old := ofBytes (w.homeBytes pa n key)
    ∃ s', atomicAtHome u w t v q op n o d ea y x pa key = .next s' ∧
      (s'.thread? t).map Thread.ctx = some (advance (v.setS d (zextTo old (8 * n))).ctx q.pair .seq) ∧
      s'.mem = w.mem.puts (w.keyData key) (place pa (bytesOf (atomNew op n old y x) n)) := by
  intro old
  have hk : Kept w ((w.modCore (coreOf t) fun x => { x with l1d := dropLine x.l1d (pa / 64) }).traffic (coreOf t) v.who v.launch v.tenant pa
    (op == 1)) := (kept_modCore _ _ _).trans (kept_traffic _ _ _ _ _ _ _ _)
  have ho : State.homeBytes _ pa n key = w.homeBytes pa n key := congrArg₂ (fun (m : Memory) k => m.bytes k pa n) hk.mem (hk.keyData key)
  unfold atomicAtHome
  rw [if_neg (ne_true_of_eq_false hb)]
  dsimp only [State.homeAtomic]
  rw [ho]
  obtain ⟨s', he, hctx, hs⟩ := atomReturn_spec (State.performWrite _ v.home (dieOf (coreOf t)) key (place pa (bytesOf (atomNew op n old y x) n)))
    t v q d n old o
  refine ⟨s', he, hctx, hs.mem.trans ((performWrite_spec _ _ _ _ _).1.trans ?_)⟩
  rw [hk.mem, hk.keyData]

theorem setBlk_badAt (w : State) (e : Nat) (z : BitVec 128) (pa n : Nat) : (w.setBlk e z).badAt pa n = w.badAt pa n := rfl

/-- The same once the access has been counted in a block entry. -/
theorem atomicAtHome_setBlk {w : State} {pa n : Nat} (hb : w.badAt pa n = false) (e : Nat) (z : BitVec 128) (u : State) (t : Nat) (v : Thread)
    (q : Req) (op : Nat) (o : Bool) (d : BitVec 7) (ea : Dword) (y x key : Nat) :
    let old := ofBytes (w.homeBytes pa n key)
    ∃ s', atomicAtHome u (w.setBlk e z) t v q op n o d ea y x pa key = .next s' ∧
      (s'.thread? t).map Thread.ctx = some (advance (v.setS d (zextTo old (8 * n))).ctx q.pair .seq) ∧
      s'.mem = w.mem.puts (w.keyData key) (place pa (bytesOf (atomNew op n old y x) n)) :=
  atomicAtHome_spec (w := w.setBlk e z) hb u t v q op o d ea y x key

/-- An atomic of a peer page that the peer allows (log 10, 83). -/
theorem atomicAtPeer_spec {w : State} {k off n : Nat} (hm : w.mute k = false) (ha : w.peerAllows k off n 2 = true) (u : State) (t : Nat)
    (v : Thread) (q : Req) (op : Nat) (o : Bool) (d : BitVec 7) (ea : Dword) (y x : Nat) :
    ∃ s', atomicAtPeer u w t v q op n o d ea y x k off = .next s' ∧ s'.mem = w.mem ∧ (s'.thread? t).map Thread.ctx =
      some (advance (v.setS d (zextTo ((Config.peerBytes k off w.sched.fresh).toNat % 2 ^ (8 * n)) (8 * n))).ctx q.pair .seq) := by
  unfold atomicAtPeer
  rw [if_neg (ne_true_of_eq_false hm), if_neg (by simp [ha])]
  obtain ⟨s', he, hctx, hs⟩ := atomReturn_spec (State.countSent _ (coreOf t) v.who v.launch 1) t v q d n
    ((Config.peerBytes k off w.sched.fresh).toNat % 2 ^ (8 * n)) o
  exact ⟨s', he, hs.mem.trans (State.countSent_mem _ _ _ _ _), hctx⟩

/-! ### Atomics at their turn (R179, R190, R228, R237, R239) -/

/-- What an atomic asks of the core (R237). -/
abbrev reqAtomic (q : Req) : Req := { q with access := true, commit := true }

section
variable {q : Req} {op n : Nat} {o : Bool} {d a b : BitVec 7} {s w : State} {t : Nat} {th : Thread} (h : MayExecute (reqAtomic q) s t th)
include h

/-- An atomic that a remap has applied only returns what the remap has kept (R179). -/
theorem atomic_applied {k : Held} : let u := s.begun t th (reqAtomic q); let v := s.runner t th (reqAtomic q);
    v.held = some k → k.applied = true → atomic q op n o d a b s = atomReturn u t v.unheld q d n k.old.toNat o := by
  intro u v hk ha
  have happ : v.heldApplied = true := by
    rw [Thread.heldApplied, hk]
    exact ha
  refine (h.runsEarly _ _).trans ((if_pos happ).trans ?_)
  rw [show (s.runner t th (reqAtomic q)).held = some k from hk]
  rfl

section
variable (ha : (s.runner t th (reqAtomic q)).heldApplied = false) (hq : (s.begun t th (reqAtomic q)).queuedWrite t = false)
include ha hq

/-- An atomic that is not aligned is an ALIGNMENT fault. -/
theorem atomic_misaligned : let u := s.begun t th (reqAtomic q); let v := s.runner t th (reqAtomic q);
    (v.S a).toNat % n ≠ 0 → atomic q op n o d a b s = raise u t q 0x04 (v.S a) :=
  fun hn => (h.runsEarly _ _).trans ((if_neg (ne_true_of_eq_false ha)).trans ((if_neg (ne_true_of_eq_false hq)).trans (if_pos hn)))

/-- An atomic whose location is found, and that no store of its thread or one that the core has seen precedes there, is performed where it
lies. -/
theorem atomic_found {loc : Loc} : let u := s.begun t th (reqAtomic q); let v := s.runner t th (reqAtomic q);
    let ea := v.S a; let y := (v.S b).toNat; let x := (v.S d).toNat;
    ea.toNat % n = 0 → (o = true → u.releaseHeld v 4 = none) → u.resolve t v ea.toNat n 2 = .ok loc w → w.storePending v loc = false →
    w.seenStore (coreOf t) loc = false →
    (∀ pa key, loc = .mem pa key none → w.zeroing (pa / 64) = false →
      atomic q op n o d a b s = atomicAtHome (u.looked t v ea.toNat) w t v.unheld q op n o d ea y x pa key) ∧
    (∀ k off, loc = .scratch k off → atomic q op n o d a b s =
      atomicOnChip w t v.unheld q op n o d ea y x loc (ofBytes ((List.range n).map fun j => w.scratchByte k (off + j))) off) ∧
    (∀ k off m, loc = .localStore k off m → atomic q op n o d a b s =
      atomicOnChip w t v.unheld q op n o d ea y x loc (ofBytes ((List.range n).map fun j => w.localByte k (off + j))) off) ∧
    (∀ k off, loc = .peer k off → atomic q op n o d a b s = atomicAtPeer (u.looked t v ea.toNat) w t v.unheld q op n o d ea y x k off) ∧
    ∀ pa key e z, loc = .mem pa key (some e) → w.zeroing (pa / 64) = false →
      w.blockWrite (dieOf (coreOf t)) e ea.toNat v.tenant t = .inPlace z → w.badAt pa n = false →
      atomic q op n o d a b s = atomicAtHome w (z.countAcc (dieOf (coreOf t)) v.tenant e ea.toNat 1) t v.unheld q op n o d ea y x pa key := by
  intro u v ea y x hn ho hr hp hs
  have hrel : ¬(o && (u.releaseHeld v 4).isSome) = true := by
    cases o with
    | false => exact Bool.false_ne_true
    | true => simp [ho rfl]
  have hfree : ¬(w.storePending v.unheld loc || w.seenStore (coreOf t) loc) = true := by
    have hp' : w.storePending v.unheld loc = false := hp
    simp [hp', hs]
  have he : atomic q op n o d a b s = _ := (h.runsEarly _ _).trans ((if_neg (ne_true_of_eq_false ha)).trans
    ((if_neg (ne_true_of_eq_false hq)).trans ((if_neg (not_not_intro hn)).trans (if_neg hrel))))
  rw [hr] at he
  replace he := he.trans (if_neg hfree)
  refine ⟨?_, ?_, ?_, ?_, ?_⟩
  · intro pa key hl hz
    subst hl
    exact he.trans (if_neg (ne_true_of_eq_false hz))
  · intro k off hl
    subst hl
    exact he
  · intro k off m hl
    subst hl
    exact he
  · intro k off hl
    subst hl
    exact he
  · intro pa key e z hl hz hx hb
    subst hl
    replace he := he.trans (if_neg (ne_true_of_eq_false hz))
    have hx' : w.blockWrite (dieOf (coreOf t)) e ea.toNat v.unheld.tenant t = .inPlace z := hx
    rw [hx'] at he
    exact he.trans (if_neg (ne_true_of_eq_false hb))

end
end

/-- R237 to R239: an instruction that is an atomic performs as one. -/
theorem atomicPerforms {i : Instr} {q : Req} {op n : Nat} {o : Bool} {d a b : BitVec 7} (hi : ∀ s, exec i s = atomic q op n o d a b s) :
    AtomicPerforms i q op n o d a b := by
  intro s t th req h u v
  refine ⟨fun k hk happ => ?_, fun loc w ha hq hn ho hr hp hs => ?_, fun ha hq hn => h.faultsIn rfl ((hi s).trans (atomic_misaligned h ha hq hn))⟩
  · obtain ⟨s', he, hc, hm⟩ := atomReturn_spec u t v.unheld q d n k.old.toNat o
    exact ⟨s', (hi s).trans ((atomic_applied h hk happ).trans he), hm.mem.trans (untouched_begun s t th req).mem, hc⟩
  · obtain ⟨hhome, hscratch, hlocal, hpeer, hblock⟩ := atomic_found h ha hq hn ho hr hp hs (op := op) (d := d) (b := b)
    refine ⟨fun pa key hl hz hb => ?_, fun k off hl hb => ?_, fun k off m hl hb => ?_, fun k off hl hm hpa => ?_,
      fun pa key e x hl hz hx hb hacc => ?_⟩
    · rw [hi, hhome pa key hl hz]
      exact atomicAtHome_spec hb _ t v.unheld q op o d _ _ _ key
    · rw [hi, hscratch k off hl]
      subst hl
      exact atomicOnChip_scratch hb t v.unheld q op o d _ _ _ _
    · rw [hi, hlocal k off m hl]
      subst hl
      exact atomicOnChip_local hb t v.unheld q op o d _ _ _ _
    · rw [hi, hpeer k off hl]
      exact atomicAtPeer_spec hm hpa _ t v.unheld q op o d _ _ _
    · have hbad : w.badAt pa n = false := by
        rwa [blockWrite_sets hx, setBlk_badAt] at hb
      rw [hi, hblock pa key e x hl hz hx hbad, countAcc_below hacc]
      exact atomicAtHome_setBlk hb e _ _ t v.unheld q op o d _ _ _ key

/-! ### What an atomic makes of the old value (R237, R238) -/

/-- The operations of integers (R237). -/
theorem atomNew_integer {n x y c : Nat} (hy : y < 2 ^ (8 * n)) (hc : c < 2 ^ (8 * n)) :
    atomNew 0 n x y c = y ∧ atomNew 1 n x y c = (x + y) % 2 ^ (8 * n) ∧ atomNew 2 n x y c = x &&& y ∧ atomNew 3 n x y c = x ||| y ∧
    atomNew 4 n x y c = x ^^^ y ∧ atomNew 7 n x y c = Nat.min x y ∧ atomNew 8 n x y c = Nat.max x y ∧
    atomNew 9 n x y c = (if x = c then y else x) ∧
    atomNew 5 n x y c = (if signedOf x (8 * n) ≤ signedOf y (8 * n) then x else y) ∧
    atomNew 6 n x y c = (if signedOf x (8 * n) ≤ signedOf y (8 * n) then y else x) := by
  simp only [atomNew, Nat.mod_eq_of_lt hy, Nat.mod_eq_of_lt hc, and_self]

/-- Settles O34: each form is an atomic of its operation, width and order; the sums are those of `fpAdd` to nearest, the other new values
those of R237. -/
theorem atomicsPerform : Obligations.AtomicsPerform := by
  refine ⟨?_, fun _ _ _ _ => atomicPerforms fun _ => rfl, fun _ _ _ _ => atomicPerforms fun _ => rfl, fun _ _ _ => atomicPerforms fun _ => rfl,
    fun _ _ _ => atomicPerforms fun _ => rfl, fun _ _ _ => atomicPerforms fun _ => rfl, fun _ _ _ => atomicPerforms fun _ => rfl, ?_, ?_, ?_, ?_⟩
  · intro f op o hf d a b w
    refine atomicPerforms fun s => ?_
    fin_cases hf <;> rfl
  · exact fun x y c _ hy => congrArg (fun z => (fpAdd fmtF32 0 (unpack fmtF32 x) (unpack fmtF32 z)).1) (Nat.mod_eq_of_lt hy)
  · exact fun x y c _ hy => congrArg (fun z => (fpAdd fmtBf16 0 (unpack fmtBf16 x) (unpack fmtBf16 z)).1) (Nat.mod_eq_of_lt hy)
  · decide
  · exact fun w x y c _ _ hy hc => atomNew_integer hy hc

end Sys2Proof.Machine
end

/-! Rings of the scratchpad: how `rcfg` configures them and how their counters move (R248, R249, R289). -/

section
namespace Sys2Proof.Machine

/-! ### rcfg (R248, R289) -/

/-- The ring that the descriptor `w` configures for a launch: its four counters are zero (R248). -/
def newRing (launch w : Nat) : Ring :=
  { launch := launch, desc := BitVec.ofNat 64 (field w 0 32 + 2 ^ 63), tail := 0, wptr := 0, head := 0, rptr := 0, filled := [], read := [] }

/-- A ring's descriptor has the fields of the descriptor that configured it. -/
theorem nbits_newRing_desc (launch : Nat) {w lo n : Nat} (h : lo + n ≤ 32) : nbits (newRing launch w).desc lo n = field w lo n := by
  have hdesc : (newRing launch w).desc.toNat = 2 ^ 63 + w % 2 ^ 32 := by
    unfold newRing field
    rw [BitVec.toNat_ofNat]
    omega
  unfold nbits field
  rw [hdesc]
  apply Nat.eq_of_testBit_eq
  intro i
  simp only [Nat.testBit_mod_two_pow, Nat.testBit_div_two_pow]
  by_cases hi : i < n
  · rw [Nat.testBit_two_pow_add_gt (by omega), Nat.testBit_mod_two_pow, decide_eq_true (show i + lo < 32 by omega), Bool.true_and]
  · rw [decide_eq_false hi, Bool.false_and, Bool.false_and]

/-- The bytes that a ring takes of the launch's grant end at this offset (R248). -/
def ringEnd (w : Nat) : Nat := field w 0 12 * 2048 + 2 ^ field w 26 4 * ((field w 20 6 + 1) * 2048)

theorem newRing_end (launch w : Nat) :
    (newRing launch w).base + (newRing launch w).count * (newRing launch w).slotSize = ringEnd w := by
  unfold Ring.base Ring.count Ring.slotSize ringEnd
  simp only [nbits_newRing_desc launch (show 0 + 12 ≤ 32 by decide), nbits_newRing_desc launch (show 26 + 4 ≤ 32 by decide),
    nbits_newRing_desc launch (show 20 + 6 ≤ 32 by decide)]

/-- The ring of number `k` is one of another launch. -/
def State.ringForeign (u : State) (c launch k : Nat) : Bool :=
  match mget (u.core c).rings k with
  | some x => x.launch != launch
  | none => false

theorem ringForeign_iff {u : State} {c launch k : Nat} :
    u.ringForeign c launch k = true ↔ ∃ x, mget (u.core c).rings k = some x ∧ x.launch ≠ launch := by
  unfold State.ringForeign
  split
  · next x hx => simp [hx]
  · next hx => simp [hx]

/-- `rcfg` refuses the descriptor `w` for ring `k` of a launch (R289), as `execRcfg` decides it. -/
def State.ringRefused (u : State) (c launch k w : Nat) : Bool :=
  field w 30 2 == 3 || decide (8 < field w 26 4) || field w 12 8 != 0 || field w 32 31 != 0 ||
    (field w 63 1 == 1 && decide (u.grantSize launch < (newRing launch w).base + (newRing launch w).count * (newRing launch w).slotSize)) ||
    u.ringForeign c launch k || u.ringBusy c k launch

theorem ringRefused_iff {u : State} {c launch k w : Nat} : u.ringRefused c launch k w = true ↔
    (field w 63 1 = 1 ∧ u.grantSize launch < ringEnd w ∨ field w 30 2 = 3 ∨ 8 < field w 26 4 ∨ field w 12 8 ≠ 0 ∨ field w 32 31 ≠ 0 ∨
      u.ringBusy c k launch = true ∨ ∃ x, mget (u.core c).rings k = some x ∧ x.launch ≠ launch) := by
  unfold State.ringRefused
  simp only [newRing_end, Bool.or_eq_true, Bool.and_eq_true, beq_iff_eq, bne_iff_ne, decide_eq_true_eq, ringForeign_iff]
  grind

/-- What `rcfg` asks of the core (R289). -/
abbrev reqRcfg (a b : BitVec 7) : Req := { reqAB (.rcfg a b) a b with commit := true }

section
variable {a b : BitVec 7} {s : State} {t : Nat} {th : Thread} (h : MayExecute (reqRcfg a b) s t th)
include h

theorem rcfg_faults : let u := s.begun t th (reqRcfg a b); let v := s.runner t th (reqRcfg a b);
    u.ringRefused (coreOf t) v.launch (nbits (v.S a) 0 4) (v.S b).toNat = true →
    Faults (.rcfg a b) s (reqRcfg a b) u t v 0x06 (v.S b) :=
  fun hr => h.faults rfl (if_pos hr)

/-- A valid descriptor that is not refused configures its ring. -/
theorem rcfg_configures : let u := s.begun t th (reqRcfg a b); let v := s.runner t th (reqRcfg a b);
    let k := nbits (v.S a) 0 4; let w := (v.S b).toNat;
    u.ringRefused (coreOf t) v.launch k w = false → field w 63 1 = 1 →
    Ends (.rcfg a b) s t (advance v.ctx false .seq) (u.modCore (coreOf t) fun x => { x with rings := mput x.rings k (newRing v.launch w) }) := by
  intro u v k w hr hv
  refine h.ends (y := v) (nx := .seq) (r := Rob.none) rfl ((if_neg (ne_true_of_eq_false hr)).trans ?_) rfl
  rw [show (field w 63 1 == 1) = true from beq_iff_eq.mpr hv]
  rfl

/-- A descriptor that is not valid, and not refused, removes its ring. -/
theorem rcfg_removes : let u := s.begun t th (reqRcfg a b); let v := s.runner t th (reqRcfg a b);
    let k := nbits (v.S a) 0 4; let w := (v.S b).toNat;
    u.ringRefused (coreOf t) v.launch k w = false → field w 63 1 = 0 →
    Ends (.rcfg a b) s t (advance v.ctx false .seq) (u.modCore (coreOf t) fun x => { x with rings := mdel x.rings k }) := by
  intro u v k w hr hv
  refine h.ends (y := v) (nx := .seq) (r := Rob.none) rfl ((if_neg (ne_true_of_eq_false hr)).trans ?_) rfl
  rw [show (field w 63 1 == 1) = false by rw [hv]; rfl]
  rfl

end

/-! ### TAIL and HEAD (R249) -/

theorem ringNext_ne (c : Nat) : ringNext c ≠ c := by
  unfold ringNext
  omega

/-- A counter stays at a slot that is not done. -/
theorem passDone_stays {c : Nat} {done : List Nat} (h : done.contains c = false) (n : Nat) : passDone c done n = (c, done) := by
  cases n with
  | zero => rfl
  | succ n => exact if_neg (ne_true_of_eq_false h)

/-- A counter passes its slot when that is done, and stays at the next one when that is not. -/
theorem passDone_passes {c : Nat} {done : List Nat} (h : done.contains (ringNext c) = false) (n : Nat) :
    (passDone c (c :: done) (n + 1)).1 = ringNext c := by
  have hnext : ((c :: done).filter (· != c)).contains (ringNext c) = false := by
    simp only [List.contains_eq_mem, decide_eq_false_iff_not] at h ⊢
    rw [List.mem_filter, List.mem_cons]
    rintro ⟨hc | hd, -⟩
    · exact ringNext_ne c hc
    · exact h hd
  have hpass : passDone c (c :: done) (n + 1) = passDone (ringNext c) ((c :: done).filter (· != c)) n :=
    if_pos (by simp)
  rw [hpass, passDone_stays hnext]

/-- Another slot that is done leaves a counter where it is. -/
theorem passDone_other {c v : Nat} {done : List Nat} (hv : v ≠ c) (h : done.contains c = false) (n : Nat) :
    (passDone c (v :: done) n).1 = c := by
  rw [passDone_stays (by simpa [hv.symm] using h)]

/-! ### WPTR and RPTR (R249) -/

theorem canPush_iff (r : Ring) : r.canPush = true ↔ (r.wptr + 2 ^ 16 - r.head) % 2 ^ 16 < 2 ^ nbits r.desc 26 4 :=
  decide_eq_true_iff

theorem canPop_iff (r : Ring) :
    r.canPop = true ↔ (r.rptr + 2 ^ 16 - r.head) % 2 ^ 16 < 2 ^ nbits r.desc 26 4 ∧ r.rptr ≠ r.wptr := by
  unfold Ring.canPop ringDiff Ring.count
  rw [Bool.and_eq_true, decide_eq_true_iff, bne_iff_ne]

/-- A claim takes the slot at RPTR of a ring that may be popped. -/
theorem claim_eq_some {r x : Ring} {n : Nat} (h : r.claim = some (n, x)) :
    n = r.rptr ∧ r.canPop = true ∧ x = { r with rptr := ringNext r.rptr } := by
  unfold Ring.claim at h
  split at h
  · next hc =>
    obtain ⟨rfl, rfl⟩ := Prod.mk.inj (Option.some.inj h)
    exact ⟨rfl, (Bool.and_eq_true_iff.mp hc).1, rfl⟩
  · cases h

/-- The ring once a starting command has reserved the slot that it pushes, or claimed the one that it pops. -/
def Ring.taken (r : Ring) (push : Bool) : Ring := if push then { r with wptr := ringNext r.wptr } else { r with rptr := ringNext r.rptr }

theorem mget_of_ring? {s : State} {c l k : Nat} {r : Ring} (h : s.ring? c l k = some r) : mget (s.core c).rings k = some r := by
  unfold State.ring? at h
  split at h
  · next x hx =>
    split at h
    · rw [hx, h]
    · cases h
  · cases h

theorem mget_modRing (s : State) (c k : Nat) (f : Ring → Ring) :
    mget ((s.modRing c k f).core c).rings k = (mget (s.core c).rings k).map f := by
  unfold State.modRing
  rw [State.core_modCore_self, mget_mmod, if_pos rfl]

theorem modCopy_rings (s : State) (c id : Nat) (f : CopyCmd → CopyCmd) : ((s.modCopy c id f).core c).rings = (s.core c).rings := by
  unfold State.modCopy
  rw [State.core_modCore_self]

theorem copyServed_rings (s : State) (c l : Nat) : ((s.copyServed c l).core c).rings = (s.core c).rings := by
  unfold State.copyServed
  rw [State.core_modCore_self]

section
variable {s : State} {c : Nat} {m : CopyCmd} (hr : s.rowHeld c = false) (hc : s.copyRoom c = true)
  (hp : (s.copyPick c fun l => (s.nextStart c l (s.core c).copyQ).isSome).bind (fun l => s.nextStart c l (s.core c).copyQ) = some m)
include hr hc hp

/-- A command that names a ring slot starts in the state in which it has taken it. -/
theorem exec_copyStart_ring {k : Nat} {push : Bool} (hk : s.startFails c m = none) (hu : m.ringUse = some (k, push)) :
    ∃ f, exec (.copyCommandStart c) s = .next (((s.modRing c k (Ring.taken · push)).modCopy c m.id f).copyServed c m.launch) := by
  have he : exec (.copyCommandStart c) s = execCopyCommandStart c s := rfl
  unfold execCopyCommandStart at he
  dsimp only at he
  rw [if_neg (by simp [hr, hc]), hp] at he
  dsimp only at he
  rw [hk] at he
  dsimp only at he
  rw [hu] at he
  exact ⟨_, he⟩

theorem copyStart_takes {k : Nat} {push : Bool} {r : Ring} (hk : s.startFails c m = none) (hu : m.ringUse = some (k, push))
    (hg : s.ring? c m.launch k = some r) :
    ∃ s', exec (.copyCommandStart c) s = .next s' ∧ mget (s'.core c).rings k = some (r.taken push) := by
  obtain ⟨f, he⟩ := exec_copyStart_ring hr hc hp hk hu
  exact ⟨_, he, by rw [copyServed_rings, modCopy_rings, mget_modRing, mget_of_ring? hg, Option.map_some]⟩

end

/-- Settles O40: `rcfg` by whether it refuses the descriptor, TAIL and HEAD as counters that pass the slots that are done, and a starting
command's ring by the slot that it has taken. -/
theorem ringResults : Obligations.RingResults := by
  refine ⟨?_, fun r n hr hn => ?_, fun r n hn hr => passDone_other hn hr _, fun r n hr hn => ?_, fun r n hn hr => passDone_other hn hr _,
    canPush_iff, canPop_iff, fun s c m k r push hr hc hp hk hu hg => copyStart_takes hr hc hp hk hu hg, fun _ _ _ => claim_eq_some⟩
  · intro a b s t th req h u v k w r
    refine ⟨fun h30 h26 h12 h32 hown hfree => ?_, fun hbad => rcfg_faults h (ringRefused_iff.mpr hbad)⟩
    have hgood (hfit : field w 63 1 = 1 → ringEnd w ≤ u.grantSize v.launch) : u.ringRefused (coreOf t) v.launch k w = false := by
      rw [← Bool.not_eq_true, ringRefused_iff]
      rintro (⟨hv, hg⟩ | hs | hl | hz | hz | hbusy | ⟨x, hx, hne⟩)
      · exact Nat.not_lt.mpr (hfit hv) hg
      · exact h30 hs
      · exact Nat.not_lt.mpr h26 hl
      · exact hz h12
      · exact hz h32
      · exact ne_true_of_eq_false hfree hbusy
      · exact hne (hown x hx)
    exact ⟨fun hv hfit => rcfg_configures h (hgood fun _ => hfit) hv,
      fun hv => rcfg_removes h (hgood fun hv' => absurd (hv.symm.trans hv') Nat.zero_ne_one) hv⟩
  · subst hn
    exact passDone_passes hr _
  · subst hn
    exact passDone_passes hr _

end Sys2Proof.Machine
end

/-! Instructions at their start: the state and the thread on which a meaning runs, by name (R17, R20, R56, R349). -/

section
namespace Sys2Proof.Machine

/-- An instruction with the requirements `q` may execute; its meaning runs on the thread `v` in the state `u` (R17, R20, R296). -/
structure Starts (q : Req) (s : State) (t : Nat) (th : Thread) (u : State) (v : Thread) : Prop where
  may : MayExecute q s t th
  begun : s.begun t th q = u
  runner : s.runner t th q = v

/-- What else may hold the instruction changes nothing of its start (R349). -/
theorem MayExecute.starts {q : Req} {s : State} {t : Nat} {th : Thread} (h : MayExecute q s t th) (e : List Early := q.early) :
    Starts { q with early := e } s t th (s.begun t th q) (s.runner t th q) := ⟨h.withEarly e, rfl, rfl⟩

/-- An instruction that has completed the thread `y` in the state `e`, with an entry that sends no store. -/
theorem ends_with_entry {i : Instr} {s e : State} {t : Nat} {y : Thread} {q : Req} {nx : Next} {r : Rob} (hr : r.store = none)
    (h : exec i s = .next (finish e t y q nx r)) : Ends i s t (advance y.ctx q.pair nx) e := ⟨_, h, finish_spec e t y q nx r hr⟩

theorem ends_of_exec {i : Instr} {s e : State} {t : Nat} {y : Thread} {q : Req} {nx : Next} (h : exec i s = .next (finish e t y q nx)) :
    Ends i s t (advance y.ctx q.pair nx) e := ends_with_entry rfl h

/-- What ends as in a state that differs only for the thread ends as in the state before. -/
theorem Untouched.trans_ends {i : Instr} {s u : State} {t : Nat} {x : Ctx} (h : Untouched s u t) (k : Ends i s t x u) : Completes i s t x := by
  obtain ⟨s', he, hc, hu⟩ := k
  exact ⟨s', he, hc, h.trans hu⟩

/-- An instruction that has held the thread in the state `e`. -/
theorem waits_of_exec {i : Instr} {s e : State} {t c : Nat} (h : exec i s = .next (hold e t c)) : Waits i s t c e := ⟨_, h, hold_spec e t c⟩

section
variable {q : Req} {i : Instr} {s u e : State} {t c code : Nat} {th v y : Thread} {tv : Dword}
  {k : State → Nat → Thread → Out} (h : Starts q s t th u v)
include h

theorem Starts.runs (hi : exec i s = begin q s k) : exec i s = k u t v := by
  rw [hi, h.may.runs, h.begun, h.runner]

theorem Starts.untouched : Untouched s u t := h.begun ▸ untouched_begun s t th q

/-- What a leader has sent ahead apart, the thread stands as it did. -/
theorem Starts.live : ∃ b n, u.thread? t = some { th with ribbon := b, sent := n } ∧ v = ({ th with ribbon := b, sent := n } : Thread).counted := by
  obtain ⟨hm, rfl, rfl⟩ := h
  exact begun_thread hm.live

theorem Starts.stands : ∃ y, u.thread? t = some y ∧ y.rob = v.rob ∧ y.ctx.pc = v.ctx.pc := by
  obtain ⟨b, n, hu, rfl⟩ := h.live
  exact ⟨_, hu, by simp, by simp⟩

/-- Its meaning completes the thread `y` in the state `e`, and the thread goes on in sequence. -/
theorem Starts.ends (hi : exec i s = begin q s k) (hk : k u t v = .next (finish e t y q .seq))
    (hp : q.pair = false := by rfl) : Ends i s t (advance y.ctx false .seq) e :=
  hp ▸ h.may.ends hi (by rw [h.begun, h.runner, hk]) rfl

/-- Its meaning completes the thread `y` in the state in which it started. -/
theorem Starts.completes (hi : exec i s = begin q s k) (hk : k u t v = .next (finish u t y q .seq))
    (hp : q.pair = false := by rfl) : Completes i s t (advance y.ctx false .seq) :=
  hp ▸ h.may.completes hi (by rw [h.begun, h.runner, hk]) rfl

/-- Its meaning holds the thread. -/
theorem Starts.waits (hi : exec i s = begin q s k) (hk : k u t v = .next (hold e t c)) : Waits i s t c e :=
  h.may.waits hi (by rw [h.begun, h.runner, hk])

/-- Its meaning raises a fault, in a state whose threads are those that it found. -/
theorem Starts.faultsIn (hi : exec i s = begin q s k) (hk : k u t v = raise e t q code tv) (he : e.threads = u.threads) :
    Faults i s q e t v code tv := by
  obtain ⟨hm, rfl, rfl⟩ := h
  exact hm.faultsIn he (by rw [hi, hm.runs, hk])

/-- The same in a state in which the thread stands at the same place, with the same uncommitted instructions. -/
theorem Starts.faultsAt (hi : exec i s = begin q s k) (hk : k u t v = raise e t q code tv) (he : e.thread? t = some y)
    (hr : y.rob = v.rob) (hc : y.ctx.pc = v.ctx.pc) : Faults i s q e t v code tv := by
  refine (h.runs hi).trans (hk.trans ?_)
  rw [raise_live he, hr, hc]

theorem Starts.faults (hi : exec i s = begin q s k) (hk : k u t v = raise u t q code tv) : Faults i s q u t v code tv :=
  h.faultsIn hi hk rfl

end

end Sys2Proof.Machine
end

/-! Routing batches: `rtopen`, `rtsub`, `rtclose`, `rtget` and `rtstat` (R273 to R277, R307, R308). -/

section
namespace Sys2Proof.Machine

/-! ### rtopen (R273, R274, R307) -/

abbrev reqRtopen (d a : BitVec 7) : Req := { reqDA (.rtopen d a) d a with commit := true }

/-- A batch that `rtopen` has opened for a launch (R274). -/
def openBatch (launch : Nat) (cfg : BitVec 128) : Batch :=
  { state := 1, launch := launch, cfg := cfg, reached := 0, counted := 0, kept := [], result := [] }

/-- The batch number is within the configuration that `rtopen` takes of its register (R273). -/
theorem nbits_cfg (v : Vec) : nbits ((v.setWidth 128 : BitVec 128)) 0 3 = nbits v 0 3 := by
  simp [nbits]

section
variable {d a : BitVec 7} {s u : State} {t : Nat} {th v : Thread} (h : Starts (reqRtopen d a) s t th u v)
  (he : u.edge (coreOf t) none = false)
include h he

theorem rtopen_badcfg (hc : cfgOk ((v.V a).setWidth 128) = false) :
    Completes (.rtopen d a) s t (advance (v.setS d 0x200).ctx false .seq) :=
  h.completes rfl (by simp only [he, hc]; rfl)

section
variable (hc : cfgOk ((v.V a).setWidth 128) = true)
include hc

/-- R274: a batch that is free, or that the launch has and that is admitted, is opened. -/
theorem rtopen_opens
    (hb : ∀ y, mget u.work.batches (nbits (v.V a) 0 3) = some y → y.state = 0 ∨ (y.launch = v.launch ∧ y.state = 3)) :
    Ends (.rtopen d a) s t (advance (v.setS d 0).ctx false .seq)
      (u.setBatch (nbits (v.V a) 0 3) (openBatch v.launch ((v.V a).setWidth 128))) := by
  refine h.ends rfl ?_
  simp only [he, hc, nbits_cfg]
  cases hy : mget u.work.batches (nbits (v.V a) 0 3) with
  | none => rfl
  | some y =>
    rcases hb y hy with h0 | ⟨hl, h3⟩
    · simp [h0, openBatch]
    · simp [hl, h3, openBatch]

variable {y : Batch} (hy : mget u.work.batches (nbits (v.V a) 0 3) = some y) (h0 : y.state ≠ 0)
include hy h0

theorem rtopen_nobatch (hl : y.launch ≠ v.launch) : Completes (.rtopen d a) s t (advance (v.setS d 0x400).ctx false .seq) :=
  h.completes rfl (by simp [he, hc, nbits_cfg, hy, h0, hl, stNobatch])

theorem rtopen_busy (hl : y.launch = v.launch) (h3 : y.state ≠ 3) :
    Completes (.rtopen d a) s t (advance (v.setS d 0x100).ctx false .seq) :=
  h.completes rfl (by simp [he, hc, nbits_cfg, hy, h0, hl, h3, stBusy])

end
end

/-! ### rtsub and rtclose (R275, R307) -/

abbrev reqRtsub (d a b : BitVec 7) : Req := { reqDAB (.rtsub d a b) d a b with commit := true }

/-- A batch that one more contribution has reached (R277). -/
def Batch.reach (x : Batch) : Batch := { x with reached := Nat.min 65535 (x.reached + 1) }

section
variable {d a b : BitVec 7} {s u : State} {t : Nat} {th v : Thread} (h : Starts (reqRtsub d a b) s t th u v)
  (he : u.edge (coreOf t) none = false)
include h he

theorem rtsub_nobatch (hb : u.batchOf (nbits (v.S b) 0 3) v.launch = none) :
    Completes (.rtsub d a b) s t (advance (v.setS d 0x400).ctx false .seq) :=
  h.completes rfl (by simp [he, hb, stNobatch])

variable {x : Batch} (hb : u.batchOf (nbits (v.S b) 0 3) v.launch = some x)
include hb

/-- R275: the entries of a contribution to an open batch are merged, and the X-th closes it. -/
theorem rtsub_merges (hx : x.state = 1) : let r := x.reach.merge (entriesOf (v.V a))
    Ends (.rtsub d a b) s t (advance (v.setS d (if r.2 then 0x80 else 0)).ctx false .seq)
      (u.setBatch (nbits (v.S b) 0 3) { r.1 with counted := x.counted + 1, state := if cfgX x.cfg ≤ x.counted + 1 then 2 else 1 }) := by
  intro r
  refine h.ends rfl ?_
  simp only [he, hb, if_neg (not_not.mpr hx)]
  rfl

/-- R275: a contribution to a batch that is not open is late. -/
theorem rtsub_late (hx : x.state ≠ 1) : Ends (.rtsub d a b) s t (advance (v.setS d 0x40).ctx false .seq)
    (u.setBatch (nbits (v.S b) 0 3) x.reach) := by
  refine h.ends rfl ?_
  simp only [he, hb, if_pos hx]
  rfl

end

abbrev reqRtclose (d a : BitVec 7) : Req := { reqDA (.rtclose d a) d a with commit := true }

section
variable {d a : BitVec 7} {s u : State} {t : Nat} {th v : Thread} (h : Starts (reqRtclose d a) s t th u v)
  (he : u.edge (coreOf t) none = false)
include h he

theorem rtclose_nobatch (hb : u.batchOf (nbits (v.S a) 0 3) v.launch = none) :
    Completes (.rtclose d a) s t (advance (v.setS d 0x400).ctx false .seq) :=
  h.completes rfl (by simp [he, hb, stNobatch])

theorem rtclose_closes {x : Batch} (hb : u.batchOf (nbits (v.S a) 0 3) v.launch = some x) :
    Ends (.rtclose d a) s t (advance (v.setS d 0).ctx false .seq)
      (u.setBatch (nbits (v.S a) 0 3) (if x.state = 1 then { x with state := 2 } else x)) :=
  h.ends rfl (by simp only [he, hb]; rfl)

end

/-! ### rtget and rtstat (R277, R308) -/

abbrev reqRtget (d a b : BitVec 7) : Req :=
  { word := encodeNat (.rtget d a b), regs := [d.toNat, a.toNat, b.toNat, d.toNat + 1], reads := [a.toNat, b.toNat],
    writes := [d.toNat, d.toNat + 1], commit := true }

/-- The eight lanes of a token's route: its entries, and empty ones after them (R277). -/
def routeLanes (es : List Dword) : Vec := ofLanes 64 ((es ++ List.replicate (8 - es.length) emptyRoute).map BitVec.toNat)

section
variable {d a b : BitVec 7} {s u : State} {t : Nat} {th v : Thread} (h : Starts (reqRtget d a b) s t th u v)
  (he : u.edge (coreOf t) none = false)
include h he

theorem rtget_nobatch (hb : u.batchOf (nbits (v.S b) 0 3) v.launch = none) :
    Completes (.rtget d a b) s t (advance ((v.setV d (routeLanes [])).setV2 d 0x400).ctx false .seq) :=
  h.completes rfl (by simp only [he, hb]; rfl)

variable {x : Batch} (hb : u.batchOf (nbits (v.S b) 0 3) v.launch = some x)
include hb

/-- R308: `rtget` waits until the batch is admitted. -/
theorem rtget_waits (hx : x.state ≠ 3) : Waits (.rtget d a b) s t 14 u :=
  h.waits rfl (by simp only [he, hb, if_pos hx]; rfl)

theorem rtget_badentry (hx : x.state = 3) (hn : cfgN x.cfg ≤ nbits (v.S a) 0 16) :
    Completes (.rtget d a b) s t (advance ((v.setV d (routeLanes [])).setV2 d 0x80).ctx false .seq) :=
  h.completes rfl (by
    simp only [he, hb, hx, if_pos hn]; rfl)

theorem rtget_reads (hx : x.state = 3) (hn : nbits (v.S a) 0 16 < cfgN x.cfg) : let r := mgetD x.result (nbits (v.S a) 0 16) ([], 0)
    Completes (.rtget d a b) s t (advance ((v.setV d (routeLanes r.1)).setV2 d (BitVec.ofNat 512 r.2)).ctx false .seq) := by
  intro r
  refine h.completes rfl ?_
  simp only [he, hb, hx, if_neg (Nat.not_le.mpr hn)]
  rfl

end

abbrev reqRtstat (d a : BitVec 7) : Req := { reqDA (.rtstat d a) d a with commit := true }

/-- The status word of a batch, as a launch reads it (R277). -/
def State.batchStatus (u : State) (n launch : Nat) : Dword := match u.batchOf n launch with
  | none => 0x400
  | some x => BitVec.ofNat 64 (x.state + x.reached * 2 ^ 16)

theorem rtstat_reads {d a : BitVec 7} {s u : State} {t : Nat} {th v : Thread} (h : Starts (reqRtstat d a) s t th u v)
    (he : u.edge (coreOf t) none = false) :
    Completes (.rtstat d a) s t (advance (v.setS d (u.batchStatus (nbits (v.S a) 0 3) v.launch)).ctx false .seq) :=
  h.completes rfl
    (if_neg (ne_true_of_eq_false he))

/-- Settles O28: each routing instruction of a core whose row is not held, by the batch that its register names. -/
theorem routingResults : Obligations.RoutingResults := by
  refine ⟨?_, fun d a s t th h => rtopen_badcfg h.starts, ?_, fun d a s t th x h he hb => rtclose_closes h.starts he hb,
    ?_, fun d a s t th h => rtstat_reads h.starts, fun d a b s t th h => rtsub_nobatch h.starts,
    fun d a s t th h => rtclose_nobatch h.starts, fun d a b s t th h => rtget_nobatch h.starts⟩
  · intro d a s t th q h u v he hc
    exact ⟨rtopen_opens h.starts he hc, fun y hy h0 hl => rtopen_nobatch h.starts he hc hy h0 hl,
      fun y hy h0 hl h3 => rtopen_busy h.starts he hc hy h0 hl h3⟩
  · intro d a b s t th x q h u v he hb
    exact ⟨rtsub_merges h.starts he hb, rtsub_late h.starts he hb⟩
  · intro d a b s t th x q h u v he hb
    exact ⟨rtget_reads h.starts he hb, rtget_badentry h.starts he hb, rtget_waits h.starts he hb⟩

end Sys2Proof.Machine
end

/-! Masked sections: `msk` (R296). -/

section
namespace Sys2Proof.Machine

abbrev reqMsk (n : BitVec 7) : Req := { req0 (.msk n) with legal := maskBoundOk n }

/-- A thread in a masked section of `r` more instructions, or in none (R296). -/
def Thread.masked (v : Thread) (on : Bool) (r : Nat) : Thread := v.setCtx fun x => { x with mskd := on, rem := r }

section
variable {n : BitVec 7} {s u : State} {t : Nat} {th v : Thread} (h : Starts (reqMsk n) s t th u v)
include h

/-- R296: outside a section, `msk` starts one. -/
theorem msk_starts (hm : th.ctx.mskd = false) (hn : n ≠ 0) : Completes (.msk n) s t (advance (v.masked true n.toNat).ctx false .seq) := by
  obtain ⟨b, k, e, -⟩ := h.live
  refine h.completes rfl ?_
  simp only [e, hm, if_neg hn]
  rfl

/-- R296: outside a section there is none to end. -/
theorem msk_idle (hm : th.ctx.mskd = false) (hn : n = 0) : Completes (.msk n) s t (advance v.ctx false .seq) := by
  obtain ⟨b, k, e, -⟩ := h.live
  refine h.completes rfl ?_
  simp only [e, hm, if_pos hn]
  rfl

variable (hm : th.ctx.mskd = true)
include hm

theorem msk_ends (hn : n = 0) : Completes (.msk n) s t (advance (v.masked false 0).ctx false .seq) := by
  obtain ⟨b, k, e, -⟩ := h.live
  refine h.completes rfl ?_
  simp only [e, hm, if_pos hn]
  rfl

theorem msk_shortens (hn : n ≠ 0) (hr : n.toNat ≤ v.ctx.rem) :
    Completes (.msk n) s t (advance (v.masked true n.toNat).ctx false .seq) := by
  obtain ⟨b, k, e, -⟩ := h.live
  refine h.completes rfl ?_
  simp only [e, hm, if_neg hn, if_pos hr]
  rfl

/-- R296: a section is not made longer. -/
theorem msk_faults (hn : n ≠ 0) (hr : v.ctx.rem < n.toNat) :
    Faults (.msk n) s (reqMsk n) u t v 0x11 (BitVec.ofNat 64 (n.toNat + v.ctx.rem * 2 ^ 8)) := by
  obtain ⟨b, k, e, -⟩ := h.live
  refine h.faults rfl ?_
  simp only [e, hm, if_neg hn, if_neg (Nat.not_le.mpr hr)]
  rfl

end

/-- Settles O25: `msk` by whether its thread stood in a masked section, and by its count. -/
theorem maskedSections : Obligations.MaskedSections :=
  fun _ _ _ _ h => ⟨msk_starts h.starts, msk_idle h.starts, msk_ends h.starts, msk_shortens h.starts, msk_faults h.starts⟩

end Sys2Proof.Machine
end

/-! Migration: `mig`, `migret` and `migst` (R61, R271, R272, R299 to R302). -/

section
namespace Sys2Proof.Machine

/-! ### A thread that leaves its slot (R299, R301) -/

@[simp] theorem Thread.settle_guest (y : Thread) (e : Rob) (c : Prop) [Decidable c] : (y.settle e c).guest = y.guest := by
  unfold Thread.settle
  split_ifs <;> rfl

/-- The thread of an instruction that completes: its context at its next instruction, its home, and whether it is a guest. -/
theorem finish_runs (u : State) (t : Nat) (v : Thread) (q : Req) (nx : Next) : ∃ y, (finish u t v q nx).thread? t = some y ∧
    y.ctx = advance v.ctx q.pair nx ∧ y.guest = v.guest ∧ y.home = v.home := by
  obtain ⟨w, n, -, ht⟩ := finish_threads u t v q nx Rob.none rfl rfl
  exact ⟨_, (ht t).trans (if_pos rfl), by simp, by simp [Thread.afterwards], by simp⟩

theorem quiet_modLaunch (s : State) (l : Nat) (f : Launch → Launch) : Quiet s (s.modLaunch l f) := ⟨⟨rfl, rfl, fun _ => rfl⟩, rfl⟩

theorem quiet_countSent (s : State) (c w l n : Nat) : Quiet s (s.countSent c w l n) :=
  (quiet_modLaunch _ _ _).trans (quiet_countFor _ _ _ _ _ _ _)

theorem quiet_dropSlot (s : State) (c slot : Nat) : Quiet s (s.dropSlot c slot) :=
  quiet_modCore s c fun x => foldl_setImp_migrants (fun x p => setBits (setBits (x.impView p) 14 1 0) 0 6 0) (x.positionsOf slot) x

section
variable (s : State) (t : Nat) (y : Thread)

/-- A thread that leaves takes nothing with it of memory, of what is in flight, or of the queues of migrants. -/
theorem depart_keeps : (s.depart t y).mem = s.mem ∧ (s.depart t y).flight = s.flight ∧
    ∀ c, ((s.depart t y).core c).migrants = (s.core c).migrants := by
  unfold State.depart
  split
  · have hq := quiet_dropSlot s (coreOf t) (slotOf t)
    exact ⟨by rw [State.modThread_mem]; exact hq.mem, by rw [State.modThread_flight]; rfl,
      fun c => by rw [State.modThread_core]; exact hq.migrants c⟩
  · exact ⟨by simp, by simp, fun c => by simp⟩

variable {s t y}

/-- At home the slot is held for the thread (R299). -/
theorem depart_home (hg : y.guest = false) :
    (s.depart t y).thread? t = (s.thread? t).map fun h => { h with away := some t, cause := some 9 } := by
  rw [State.depart, if_neg (ne_true_of_eq_false hg), State.thread?_modThread, if_pos rfl]

/-- A guest's slot is free (R299). -/
theorem depart_guest (hg : y.guest = true) (hh : y.home ≠ t) : mget (s.depart t y).threads t = none := by
  rw [State.depart, if_pos hg, State.modThread]
  have hd : mget (s.leaveGuest t).threads t = none := (mget_mdel _ _ _).trans (if_pos rfl)
  split
  · exact (mget_mput_ne _ _ hh.symm).trans hd
  · exact hd

end

/-- A thread that completes an instruction and leaves takes its context at the next instruction with it. -/
structure Leaves (u : State) (t : Nat) (w : Thread) (y : Thread) (x : State) : Prop where
  ctx : y.ctx = advance w.ctx false .seq
  mem : x.mem = u.mem
  flight : x.flight.still = u.flight.still
  migrants : ∀ c, (x.core c).migrants = (u.core c).migrants
  atHome : w.guest = false → ∃ z, x.thread? t = some z ∧ z.away = some t
  guest : w.guest = true → w.home ≠ t → mget x.threads t = none

theorem finish_leaves (u : State) (t : Nat) (w : Thread) {q : Req} (hq : q.pair = false) (c who l : Nat) :
    ∃ y, (finish u t w q .seq).thread? t = some y ∧
      Leaves u t w y (((finish u t w q .seq).countSent c who l 1).depart t y) := by
  obtain ⟨y, hy, hc, hg, hh⟩ := finish_runs u t w q .seq
  obtain ⟨-, hu⟩ := finish_spec u t w q .seq Rob.none rfl
  have hs := quiet_countSent (finish u t w q .seq) c who l 1
  obtain ⟨dm, df, dc⟩ := depart_keeps ((finish u t w q .seq).countSent c who l 1) t y
  refine ⟨y, hy, hq ▸ hc, dm.trans (hs.mem.trans hu.mem), ?_, fun k => ?_, fun h => ?_, fun h h' => ?_⟩
  · rw [df, countSent_flight]
    exact hu.flight
  · exact (dc k).trans ((hs.migrants k).trans (hu.core Core.migrants (fun _ => rfl) k))
  · exact ⟨_, (depart_home (hg.trans h)).trans (by rw [State.thread?_congr (State.countSent_threads _ _ _ _ _), hy]; rfl), rfl⟩
  · exact depart_guest (hg.trans h) (hh ▸ h')

/-! ### mig (R271, R299, R300) -/

/-- The thread that `mig` leaves behind or takes along: an attached member detaches. -/
def Thread.afterMig (v : Thread) : Thread := if v.attached then v.detach else v

@[simp] theorem Thread.afterMig_ctx (v : Thread) : v.afterMig.ctx = v.ctx := by unfold Thread.afterMig; split <;> rfl
@[simp] theorem Thread.afterMig_guest (v : Thread) : v.afterMig.guest = v.guest := by unfold Thread.afterMig; split <;> rfl
@[simp] theorem Thread.afterMig_home (v : Thread) : v.afterMig.home = v.home := by unfold Thread.afterMig; split <;> rfl

abbrev reqMig (a : BitVec 7) : Req := { reqA (.mig a) a with commit := true }

/-- What a `mig` that is not refused waits for is numbered below the wait of a leader for its members (R349). -/
theorem migHeld_lt {u : State} {t c k : Nat} {v : Thread} (h : u.migHeld t v c = some k) : k < 12 := by
  unfold State.migHeld State.departs at h
  split at h
  · obtain rfl := Option.some.inj h
    decide
  · rcases hr : u.releaseHeld v 4 with - | n
    · rw [hr] at h
      split_ifs at h <;> simp_all <;> omega
    · obtain rfl := releaseHeld_cause hr
      rw [hr] at h
      obtain rfl := Option.some.inj h
      decide

section
variable {a : BitVec 7} {s u : State} {t : Nat} {th v : Thread} (h : Starts (reqMig a) s t th u v)
include h

section
variable (hc : v.casts = true) (ha : u.attachedTo v ≠ [])
include hc ha

/-- R300: a leader waits until no member of its rank is attached. -/
theorem mig_leader_waits (hw : nbits (v.S a) 0 9 = coreOf t ∨ u.migRefused v (nbits (v.S a) 0 9) ≠ none ∨
    u.migHeld t v (nbits (v.S a) 0 9) = none) : Waits (.mig a) s t 12 u := by
  refine h.waits rfl ((if_pos (by simp [hc, ha])).trans ?_)
  rcases hw with hw | hw | hw
  · simp [hw]
  · simp [Option.isSome_iff_ne_none.mpr hw]
  · simp [hw]

theorem mig_leader_held {k : Nat} (ht : nbits (v.S a) 0 9 ≠ coreOf t) (hr : u.migRefused v (nbits (v.S a) 0 9) = none)
    (hk : u.migHeld t v (nbits (v.S a) 0 9) = some k) : k < 12 ∧ Waits (.mig a) s t k u :=
  ⟨migHeld_lt hk, h.waits rfl ((if_pos (by simp [hc, ha])).trans (by simp [ht, hr, hk]))⟩

end

section
variable (hl : ¬(v.casts && !(u.attachedTo v).isEmpty) = true)
include hl

theorem mig_here (ht : nbits (v.S a) 0 9 = coreOf t) : Completes (.mig a) s t (advance v.ctx false .seq) := by
  have hc := h.completes (i := .mig a) (y := v.afterMig) rfl ((if_neg hl).trans (if_pos ht))
  rwa [Thread.afterMig_ctx] at hc

section
variable (ht : nbits (v.S a) 0 9 ≠ coreOf t)
include ht

theorem mig_faults {r : Nat} (hr : u.migRefused v (nbits (v.S a) 0 9) = some r) :
    Faults (.mig a) s (reqMig a) u t v 0x0E (BitVec.ofNat 64 (nbits (v.S a) 0 9 + r * 2 ^ 16)) :=
  h.faults rfl ((if_neg hl).trans ((if_neg ht).trans (by rw [hr])))

theorem mig_waits {k : Nat} (hr : u.migRefused v (nbits (v.S a) 0 9) = none) (hk : u.migHeld t v (nbits (v.S a) 0 9) = some k) :
    Waits (.mig a) s t k u :=
  h.waits rfl ((if_neg hl).trans ((if_neg ht).trans (by rw [hr, hk])))

/-- R299: the thread leaves with its context at the next instruction. -/
theorem mig_leaves (hr : u.migRefused v (nbits (v.S a) 0 9) = none) (hk : u.migHeld t v (nbits (v.S a) 0 9) = none) :
    ∃ s' m, exec (.mig a) s = .next s' ∧ (s'.core (nbits (v.S a) 0 9)).migrants = (u.core (nbits (v.S a) 0 9)).migrants ++ [m] ∧
      m.thread.ctx = advance v.ctx false .seq ∧ m.home = v.home ∧ m.from_ = coreOf t ∧ s'.mem = s.mem ∧
      (v.guest = false → ∃ y, s'.thread? t = some y ∧ y.away = some t) ∧
      (v.guest = true → v.home ≠ t → mget s'.threads t = none) := by
  obtain ⟨y, hy, l⟩ := finish_leaves u t v.afterMig (q := reqMig a) rfl (coreOf t) v.who v.launch
  let m : Migrant := { home := v.home, from_ := coreOf t, thread := y }
  refine ⟨State.modCore _ (nbits (v.S a) 0 9) fun x => { x with migrants := x.migrants ++ [m] }, m,
    (h.runs (i := .mig a) rfl).trans ((if_neg hl).trans ((if_neg ht).trans (by rw [hr, hk]; dsimp only; erw [hy]; rfl))),
    (congrArg Core.migrants (State.core_modCore_self ..)).trans (congrArg (· ++ _) (l.migrants _)),
    v.afterMig_ctx ▸ l.ctx, rfl, rfl, l.mem.trans h.untouched.mem, fun hg => l.atHome (v.afterMig_guest.trans hg),
    fun hg hh => l.guest (v.afterMig_guest.trans hg) (v.afterMig_home.symm ▸ hh)⟩

end
end
end

/-- `mig` by what follows the thread, where it goes, and what holds it. -/
theorem migAlone {v : Thread} {u : State} (h : v.casts = false ∨ u.attachedTo v = []) : ¬(v.casts && !(u.attachedTo v).isEmpty) = true := by
  rcases h with h | h <;> simp [h]

/-! ### migret and migst (R301, R302) -/

abbrev reqMigret : Req := { req0 .migret with commit := true }

section
variable {s u : State} {t : Nat} {th v : Thread} (h : Starts reqMigret s t th u v)
include h

theorem migret_atHome (hg : v.guest = false) : Completes .migret s t (advance v.ctx false .seq) :=
  h.completes rfl (if_pos (by rw [hg]; rfl))

/-- R301: a guest's context is on its way home. -/
theorem migret_returns (hg : v.guest = true) (hh : v.home ≠ t) (hs : v.stOut = 0) (hc : v.coming = [])
    (hd : u.departs t v 4 (some (coreOf v.home)) = none) : ∃ s' r, exec .migret s = .next s' ∧ mget s'.threads t = none ∧
      s'.flight.returns = u.flight.returns ++ [r] ∧ r.thread.ctx = advance v.ctx false .seq ∧ s'.mem = s.mem := by
  obtain ⟨y, hy, l⟩ := finish_leaves u t v (q := reqMigret) rfl (coreOf t) v.who v.launch
  let x := ((finish u t v reqMigret .seq).countSent (coreOf t) v.who v.launch 1).depart t y
  let r : Return := { id := x.sched.nextId, core := coreOf t, thread := y }
  refine ⟨(x.modFlight fun f => { f with returns := f.returns ++ [r] }).newId, r, (h.runs (i := .migret) rfl).trans ((if_neg (by simp [hg])).trans ((if_neg (by simp [hs])).trans
    (by rw [hd]; dsimp only; rw [if_neg (by simp [hc])]; erw [hy]))), l.guest hg hh, ?_, l.ctx, l.mem.trans h.untouched.mem⟩
  have hr := congrArg Flight.returns l.flight
  exact congrArg (· ++ [r]) hr

end

/-- Settles O26: a thread that leaves has completed its instruction and takes its context at the next one along (`finish_leaves`); what
holds a `mig` besides its members is numbered below their wait (`migHeld_lt`). -/
theorem migrationResults : Obligations.MigrationResults :=
  ⟨rfl, fun a s t th h => ⟨fun hc ha => ⟨mig_leader_waits h.starts hc ha, fun _ => mig_leader_held h.starts hc ha⟩,
      fun hl => ⟨mig_here h.starts (migAlone hl), mig_leaves h.starts (migAlone hl), fun _ ht => mig_waits h.starts (migAlone hl) ht,
        fun _ ht => mig_faults h.starts (migAlone hl) ht⟩⟩,
    fun _ _ _ h => migret_atHome h.starts, fun _ _ _ h => migret_returns h.starts, fun _ _ _ _ _ h => h.starts.completes rfl rfl⟩

end Sys2Proof.Machine
end

/-! Tasks: `tself`, `spawn` and `dec` (R265, R266, R303, R304, R306). -/

section
namespace Sys2Proof.Machine

/-! ### spawn (R265, R303) -/

abbrev reqSpawn (d a b : BitVec 7) : Req := { reqDAB (.spawn d a b) d a b with commit := true, early := [.release 4] }

/-- What `spawn` does with a task that passes the checks: it joins the run list, or a counter is armed for it (R303). -/
def State.spawned (w : State) (t : Nat) (v : Thread) (q : Req) (d b : BitVec 7) (task : Task) : Out :=
  let home := taskHome task.record
  if v.S b = 0 then
    if 512 ≤ (w.core home).runList.length ∨ (w.core home).waitTasks ≠ [] then
      let s := w.refill home
      let me : RunWait := .spawn t v.ctx.pc
      if (s.core home).runList.length < 512 && ((s.core home).waitTasks.head?.getD me == me) then
        let s := (s.modCore home fun x => { x with runList := x.runList ++ [task], waitTasks := x.waitTasks.drop 1 }).refill home
        .next (finish s t (v.setS d (BitVec.ofNat 64 (2 ^ 63 + home))) q .seq)
      else if (s.core home).waitTasks.contains me then .next (hold s t 9)
      else .next (hold (s.modCore home fun x => { x with waitTasks := x.waitTasks ++ [me] }) t 9)
    else .next (finish (w.enlist task) t (v.setS d (BitVec.ofNat 64 (2 ^ 63 + home))) q .seq)
  else match (List.range 256).find? fun i => (mget (w.core home).counters i).isNone with
    | none => .next (hold w t 9)
    | some i =>
      let n : Dword := BitVec.ofNat 64 ((v.S b).toNat * 2 ^ 52 + task.addr.toNat % 2 ^ 52 + v.tenant)
      let s := w.modCore home fun x => { x with counters := mput x.counters i n, armed := mput x.armed i task }
      .next (finish s t (v.setS d (BitVec.ofNat 64 (i * 2 ^ 9 + home))) q .seq)

section
variable {d a b : BitVec 7} {s u x : State} {t : Nat} {th v : Thread} {l : Launch} {loc : Loc} (h : Starts (reqSpawn d a b) s t th u v)
include h

/-- R303: a record that can be read and passes the checks is spawned. -/
theorem exec_spawn (ha : (v.S a).toNat % 64 = 0) (hb : (v.S b).toNat ≤ 4095) (hl : u.launchOf v = some l) (h52 : (v.S a).toNat < 2 ^ 52)
    (hr : u.resolve t v (v.S a).toNat 64 0 = .ok loc x) (he : x.badLoc loc 64 = false)
    (hz : ∀ pa key blk, loc = .mem pa key blk → x.zeroing (pa / 64) = false)
    (hp : ∀ p off, loc = .peer p off → x.mute p = false ∧ x.peerAllows p off 64 0 = true)
    (hk : l.taskOk (BitVec.ofNat 512 (ofBytes (x.taskBytes loc).1)) = true)
    (hd : (x.taskBytes loc).2.departs t v 4 (some (taskHome (BitVec.ofNat 512 (ofBytes (x.taskBytes loc).1)))) = none) :
    exec (.spawn d a b) s = (x.taskBytes loc).2.spawned t v (reqSpawn d a b) d b
      { launch := v.launch, addr := v.S a, record := BitVec.ofNat 512 (ofBytes (x.taskBytes loc).1), root := false } := by
  refine (h.runs (i := .spawn d a b) rfl).trans ((if_neg (by simp [ha])).trans ((if_neg (not_lt.mpr hb)).trans ?_))
  have hu : x.unanswered loc = none := by
    cases loc with
    | peer p off => simp [State.unanswered, (hp p off rfl).1]
    | _ => rfl
  dsimp only
  rw [hl]
  dsimp only
  rw [if_neg (not_le.mpr h52), hr]
  dsimp only
  rw [he, hu]
  dsimp only
  rw [hk, hd]
  cases loc with
  | mem pa key blk => simp only [hz pa key blk rfl]; rfl
  | peer p off => simp only [(hp p off rfl).2]; rfl
  | _ => rfl

theorem spawn_misaligned (ha : (v.S a).toNat % 64 ≠ 0) : Faults (.spawn d a b) s (reqSpawn d a b) u t v 0x04 (v.S a) :=
  h.faults rfl (if_pos ha)

end

section
variable {w : State} {t : Nat} {v : Thread} {q : Req} {d b : BitVec 7} {task : Task}

/-- A task without dependences joins the run list of its home, where there is room and nothing waits. -/
theorem spawned_enlists (hb : v.S b = 0) (hr : (w.core (taskHome task.record)).runList.length < 512)
    (hw : (w.core (taskHome task.record)).waitTasks = []) :
    w.spawned t v q d b task = .next (finish (w.enlist task) t (v.setS d (BitVec.ofNat 64 (2 ^ 63 + taskHome task.record))) q .seq) :=
  (if_pos hb).trans (if_neg (by simp [hr, hw]))

/-- A task with dependences arms the lowest free counter of its home. -/
theorem spawned_arms {k : Nat} (hb : v.S b ≠ 0)
    (hk : ((List.range 256).find? fun i => (mget (w.core (taskHome task.record)).counters i).isNone) = some k) :
    w.spawned t v q d b task = .next (finish (w.modCore (taskHome task.record) fun x => { x with
        counters := mput x.counters k (BitVec.ofNat 64 ((v.S b).toNat * 2 ^ 52 + task.addr.toNat % 2 ^ 52 + v.tenant)),
        armed := mput x.armed k task }) t (v.setS d (BitVec.ofNat 64 (k * 2 ^ 9 + taskHome task.record))) q .seq) :=
  (if_neg hb).trans (by rw [hk])

end

/-! ### dec (R266, R304) -/

abbrev reqDec (a : BitVec 7) : Req := { reqA (.dec a) a with commit := true, early := [.release 4] }

theorem sendDec_decs (s : State) (who l tenant src core k : Nat) : ∃ p : Packet,
    (s.sendDec who l tenant src core k).flight.decs = s.flight.decs ++ [p] ∧ p.core = core ∧ p.k = k ∧ p.tenant = tenant := by
  rw [State.sendDec, countSent_flight, State.newId_flight, State.modFlight_flight]
  exact ⟨_, rfl, rfl, rfl, rfl⟩

/-- R304: a decrement is on its way once `dec` has completed. -/
theorem dec_sends {a : BitVec 7} {s u : State} {t : Nat} {th v : Thread} (h : Starts (reqDec a) s t th u v)
    (hd : u.departs t v 4 (some (nbits (v.S a) 0 9)) = none) :
    ∃ s' p, exec (.dec a) s = .next s' ∧ (s'.thread? t).map Thread.ctx = some (advance v.ctx false .seq) ∧ s'.mem = s.mem ∧
      s'.flight.decs = u.flight.decs ++ [p] ∧ p.core = nbits (v.S a) 0 9 ∧ p.k = nbits (v.S a) 9 8 ∧ p.tenant = v.tenant := by
  obtain ⟨s', hx, hc, hu⟩ := h.ends (i := .dec a) (y := v) rfl (by dsimp only; rw [hd])
  obtain ⟨p, hf, hp⟩ := sendDec_decs u v.who v.launch v.tenant (coreOf t) (nbits (v.S a) 0 9) (nbits (v.S a) 9 8)
  exact ⟨s', p, hx, hc, (hu.mem.trans (State.sendDec_mem ..)).trans h.untouched.mem, (congrArg Flight.decs hu.flight).trans hf, hp⟩

/-- Settles O27: a record that passes every check is spawned (`exec_spawn`), by whether it has dependences (`spawned_enlists`, `spawned_arms`). -/
theorem taskResults : Obligations.TaskResults := by
  refine ⟨fun d s t th h => h.starts.completes rfl rfl, fun _ _ _ => rfl, rfl, ?_, fun d a b s t th h => spawn_misaligned (h.starts [.release 4]),
    fun a s t th h => dec_sends (h.starts [.release 4])⟩
  intro d a b s t th l loc x q h u v ha hb hl h52 hr he hz hp w r hk hd
  have hx := exec_spawn (h.starts [.release 4]) ha hb hl h52 hr he hz hp hk hd
  exact ⟨fun h0 hrl hw => ends_of_exec (hx.trans (spawned_enlists h0 hrl hw)), fun k h0 hf => ends_of_exec (hx.trans (spawned_arms h0 hf))⟩

end Sys2Proof.Machine
end

/-! Commands of the copy engine and of the matrix unit as they are issued (R247, R281, R284 to R288, R290 to R293). -/

section
namespace Sys2Proof.Machine

/-! ### What the numbering of a command changes (R281) -/

/-- Every thread keeps its context. -/
def SameContexts (s s' : State) : Prop := ∀ t, (s'.thread? t).map Thread.ctx = (s.thread? t).map Thread.ctx

theorem SameContexts.trans {a b c : State} (h : SameContexts a b) (k : SameContexts b c) : SameContexts a c := fun t => (k t).trans (h t)

theorem sameContexts_of_threads {s s' : State} (h : s'.threads = s.threads) : SameContexts s s' :=
  fun t => congrArg _ (State.thread?_congr h t)

theorem sameContexts_modThread (s : State) (k : Nat) {f : Thread → Thread} (hf : ∀ x, (f x).ctx = x.ctx) : SameContexts s (s.modThread k f) := by
  intro t
  rw [State.thread?_modThread]
  split
  · next h =>
    subst h
    cases s.thread? t with
    | none => rfl
    | some x => exact congrArg some (hf x)
  · rfl

@[simp] theorem Thread.modCtx_ctx (x : Thread) (matrix : Bool) (f : Eng → Eng) : (x.modCtx matrix f).ctx = x.ctx := by
  unfold Thread.modCtx
  split <;> rfl

theorem sameContexts_modCtx (s : State) (home : Nat) (matrix : Bool) (f : Eng → Eng) : SameContexts s (s.modCtx home matrix f) := by
  unfold State.modCtx
  split
  · next hl =>
    obtain ⟨y, hy⟩ := Option.isSome_iff_exists.mp hl
    intro t
    rcases eq_or_ne t home with rfl | ht
    · simp [State.thread?, mget_mmod, hy]
    · simp [State.thread?, mget_mmod, ht]
  · split <;> exact sameContexts_of_threads rfl

theorem Thread.counted_congr {x y : Thread} (h : x.ctx = y.ctx) : x.counted.ctx = y.counted.ctx := by
  unfold Thread.counted
  rw [h]
  split
  · rfl
  · exact h

/-- The command's number is taken from the timeline of its context (R281, R345). -/
def State.numbered (u : State) (home : Nat) (matrix : Bool) : State :=
  u.modCtx home matrix fun e => { e with issued := (u.ctxOf home matrix).issued + 1 }

/-- One more command in flight, or the tile operations of one (R346). -/
def Thread.outgoing (matrix : Bool) (n : Nat) (x : Thread) : Thread :=
  if matrix then { x with mxOut := x.mxOut + n } else { x with cpOut := x.cpOut + 1 }

theorem Thread.outgoing_ctx (matrix : Bool) (n : Nat) (x : Thread) : (x.outgoing matrix n).ctx = x.ctx := by
  unfold Thread.outgoing
  split <;> rfl

/-! ### A command issues, is discarded, or is refused (R247, R281) -/

abbrev reqIssue (q : Req) (matrix : Bool) : Req := { q with access := true, commit := true, early := [.release 3, .queue matrix] }

section
variable {q : Req} {matrix : Bool} {tiles : Thread → Nat} {check : State → Thread → Refusal281}
  {put : State → Nat → Thread → Nat → State} {i : Instr} {s u : State} {t : Nat} {th v : Thread}
  (hi : ∀ s, exec i s = engIssue q matrix tiles check put s) (h : Starts (reqIssue q matrix) s t th u v)
  (hr : u.releaseHeld v 3 = none)
  (hb : ¬(!u.queueRoom (coreOf t) v.launch matrix ∨ (matrix ∧ 511 < (u.homeThread v).mxOut + tiles v) ∨ (!matrix ∧ 255 ≤ (u.homeThread v).cpOut)))
include hi h hr hb

omit hi hr hb in
/-- The thread goes on from where its instruction has found it. -/
theorem Starts.goesOn {w : State} (hw : SameContexts u w) : ((w.thread? t).getD v).counted.ctx = v.ctx := by
  obtain ⟨b, n, hu, rfl⟩ := h.live
  obtain ⟨x, hx, hc⟩ := Option.map_eq_some_iff.mp ((hw t).trans (congrArg _ hu))
  rw [hx]
  exact Thread.counted_congr hc

theorem engIssue_issues (hp : ∀ w n, (put w t v n).threads = w.threads) (hc : check u v = none)
    (hf : (u.ctxOf v.home matrix).failed = none) :
    Ends i s t (advance v.ctx q.pair .seq)
      (((put (u.numbered v.home matrix) t v ((u.ctxOf v.home matrix).issued + 1)).newId).modThread v.home (Thread.outgoing matrix (tiles v))) := by
  have hg := h.goesOn (w := ((put (u.numbered v.home matrix) t v ((u.ctxOf v.home matrix).issued + 1)).newId).modThread v.home
    (Thread.outgoing matrix (tiles v))) (((sameContexts_modCtx u v.home matrix _).trans (sameContexts_of_threads (hp _ _))).trans
      (sameContexts_modThread _ v.home fun x => Thread.outgoing_ctx matrix (tiles v) x))
  rw [← hg]
  refine ends_of_exec (q := reqIssue q matrix) ((h.runs (hi s)).trans ?_)
  refine (if_neg (by simp [hr])).trans ((if_neg hb).trans ?_)
  rw [hc]
  exact if_neg (by simp [hf])

theorem engIssue_discards (hc : check u v = none) (hf : (u.ctxOf v.home matrix).failed ≠ none) :
    Ends i s t (advance v.ctx q.pair .seq) (u.numbered v.home matrix) := by
  rw [← h.goesOn (sameContexts_modCtx u v.home matrix _)]
  refine ends_of_exec (q := reqIssue q matrix) ((h.runs (hi s)).trans ?_)
  refine (if_neg (by simp [hr])).trans ((if_neg hb).trans ?_)
  rw [hc]
  exact if_pos (Option.isSome_iff_ne_none.mpr hf)

theorem engIssue_refuses {code : Nat} {tv : Dword} (hc : check u v = some (code, tv)) : Faults i s q u t v code tv := by
  refine h.faults (hi s) ((if_neg (by simp [hr])).trans ((if_neg hb).trans ?_))
  rw [hc]
  rfl

end

/-! ### What is queued (R281) -/

section
variable (op : Nat) (a b c : Thread → Vec) (w : State) (t : Nat) (v : Thread) (n : Nat)

theorem putCopy_queues : ∃ m, ((putCopy op a b c w t v n).core (coreOf t)).copyQ = (w.core (coreOf t)).copyQ ++ [m] ∧ m.op = op ∧ m.a = a v ∧
    m.b = b v ∧ m.c = c v ∧ m.home = v.home ∧ m.launch = v.launch ∧ m.n = n ∧ m.started = false := by
  refine ⟨_, (congrArg Core.copyQ (State.core_modCore_self ..)).trans (congrArg (· ++ [_]) ?_), rfl, rfl, rfl, rfl, rfl, rfl, rfl, rfl⟩
  exact (sameEngines_ite (sameEngines_countSent _ _ _ _ _) (SameEngines.refl _)).copyQ _

theorem putMat_queues : ∃ m, ((putMat op a b c w t v n).core (coreOf t)).matQ = (w.core (coreOf t)).matQ ++ [m] ∧ m.op = op ∧ m.a = a v ∧
    m.b = b v ∧ m.c = c v ∧ m.home = v.home ∧ m.launch = v.launch ∧ m.n = n ∧ m.fmta = v.ctx.fmta ∧ m.fmtb = v.ctx.fmtb ∧ m.retired = 0 := by
  refine ⟨_, (congrArg Core.matQ (State.core_modCore_self ..)).trans (congrArg (· ++ [_]) ?_), rfl, rfl, rfl, rfl, rfl, rfl, rfl, rfl, rfl, rfl⟩
  exact (sameEngines_ite (sameEngines_countSent _ _ _ _ _) (SameEngines.refl _)).matQ _

theorem putCopy_keeps : (putCopy op a b c w t v n).threads = w.threads ∧ (putCopy op a b c w t v n).mem = w.mem := by
  unfold putCopy
  dsimp only
  split_ifs <;> simp

theorem putMat_keeps : (putMat op a b c w t v n).threads = w.threads ∧ (putMat op a b c w t v n).mem = w.mem := by
  unfold putMat
  dsimp only
  split_ifs <;> simp

end

/-! ### Commands of the copy engine and of the matrix unit -/

section
variable {i : Instr} {q : Req} {op : Nat} {a b c : Thread → Vec} {check : State → Thread → Refusal281}

theorem numbered_engines (u : State) (home : Nat) (matrix : Bool) : SameEngines u (u.numbered home matrix) := sameEngines_modCtx _ _ _ _

theorem copyIssues (hi : ∀ s, exec i s = copyIssue q op a b c check s) : CopyIssues i q op a b c check := by
  intro s t th req h u v hr hroom ho
  have hb : ¬((!u.queueRoom (coreOf t) v.launch false) = true ∨ ((false : Bool) = true ∧ 511 < (u.homeThread v).mxOut + 1) ∨
      (!false) = true ∧ 255 ≤ (u.homeThread v).cpOut) := by simp [hroom, ho]
  have hx : Starts (reqIssue q false) s t th u v := MayExecute.starts h _
  refine ⟨fun hc hf => ?_, fun hc hf => ?_, fun code tv hc => engIssue_refuses hi hx hr hb hc⟩
  · obtain ⟨s', he, hy, hu⟩ := engIssue_issues hi hx hr hb (fun w n => (putCopy_keeps op a b c w t v n).1) hc hf
    obtain ⟨m, hm, hs⟩ := putCopy_queues op a b c (u.numbered v.home false) t v ((u.ctxOf v.home false).issued + 1)
    refine ⟨s', m, he, hy, ?_, ?_, hs⟩
    · rw [hu.mem, State.modThread_mem]
      exact ((putCopy_keeps ..).2.trans (numbered_engines u v.home false).mem).trans hx.untouched.mem
    · rw [hu.core Core.copyQ (fun _ => rfl), State.modThread_core]
      exact hm.trans (congrArg (· ++ [m]) ((numbered_engines u v.home false).copyQ _))
  · obtain ⟨s', he, hy, hu⟩ := engIssue_discards hi hx hr hb hc hf
    exact ⟨s', he, hy, (hu.mem.trans (numbered_engines u v.home false).mem).trans hx.untouched.mem,
      (hu.core Core.copyQ (fun _ => rfl) _).trans ((numbered_engines u v.home false).copyQ _)⟩

theorem matrixIssues {tiles : Thread → Nat} (hi : ∀ s, exec i s = engIssue q true tiles check (putMat op a b c) s) :
    MatrixIssues i q op a b c tiles check := by
  intro s t th req h u v hr hroom ho
  have hb : ¬((!u.queueRoom (coreOf t) v.launch true) = true ∨ ((true : Bool) = true ∧ 511 < (u.homeThread v).mxOut + tiles v) ∨
      (!true) = true ∧ 255 ≤ (u.homeThread v).cpOut) := by simp [hroom, ho]
  have hx : Starts (reqIssue q true) s t th u v := MayExecute.starts h _
  refine ⟨fun hc hf => ?_, fun code tv hc => engIssue_refuses hi hx hr hb hc⟩
  obtain ⟨s', he, hy, hu⟩ := engIssue_issues hi hx hr hb (fun w n => (putMat_keeps op a b c w t v n).1) hc hf
  obtain ⟨m, hm, hs⟩ := putMat_queues op a b c (u.numbered v.home true) t v ((u.ctxOf v.home true).issued + 1)
  refine ⟨s', m, he, hy, ?_, ?_, hs⟩
  · rw [hu.mem, State.modThread_mem]
    exact ((putMat_keeps ..).2.trans (numbered_engines u v.home true).mem).trans hx.untouched.mem
  · rw [hu.core Core.matQ (fun _ => rfl), State.modThread_core]
    exact hm.trans (congrArg (· ++ [m]) ((numbered_engines u v.home true).matQ _))

end

/-- Settles O38: each command of the copy engine is one `copyIssue` (`copyIssues`). -/
theorem copyCommands : Obligations.CopyCommands :=
  ⟨fun _ _ => copyIssues fun _ => rfl, fun _ _ => copyIssues fun _ => rfl, fun _ _ _ => copyIssues fun _ => rfl,
    fun _ _ _ => copyIssues fun _ => rfl, fun _ _ _ => copyIssues fun _ => rfl, fun _ _ => copyIssues fun _ => rfl,
    fun _ _ _ => copyIssues fun _ => rfl, fun _ _ => copyIssues fun _ => rfl, fun _ _ _ => copyIssues fun _ => rfl,
    fun _ _ _ => copyIssues fun _ => rfl, fun _ _ _ => copyIssues fun _ => rfl⟩

/-- Settles O39: each command of the matrix unit is one `engIssue` that queues it with `putMat` (`matrixIssues`). -/
theorem matrixCommands : Obligations.MatrixCommands :=
  ⟨fun _ _ _ => matrixIssues fun _ => rfl, fun _ _ _ => matrixIssues fun _ => rfl, fun _ => matrixIssues fun _ => rfl,
    fun _ _ => matrixIssues fun _ => rfl⟩

end Sys2Proof.Machine
end

/-! Barriers: `arrive`, `await`, `arwt` and `bstat` (R328, R364). -/

section
namespace Sys2Proof.Machine

/-! ### The word of a barrier (R328) -/

section
variable {w : Dword}

/-- The arrival that reaches PARTIES completes the episode. -/
theorem barArrive_completes (h : nbits w 8 16 + 1 = nbits w 24 16) : barArrive w = setBits (setBits w 8 16 0) 0 8 (nbits w 0 8 + 1) := if_pos h

theorem barArrive_counts (h : nbits w 8 16 + 1 ≠ nbits w 24 16) : barArrive w = setBits w 8 16 (nbits w 8 16 + 1) := if_neg h

theorem nbits_episode (n : Nat) :
    nbits (setBits (setBits w 8 16 0) 0 8 n) 8 16 = 0 ∧ nbits (setBits (setBits w 8 16 0) 0 8 n) 0 8 = n % 256 ∧
    nbits (setBits (setBits w 8 16 0) 0 8 n) 24 16 = nbits w 24 16 ∧ nbits (setBits (setBits w 8 16 0) 0 8 n) 40 24 = nbits w 40 24 := by
  simp only [nbits, setBits, field, BitVec.toNat_ofNat]
  omega

theorem nbits_arrived (n : Nat) (h : n < 65536) :
    nbits (setBits w 8 16 n) 8 16 = n ∧ nbits (setBits w 8 16 n) 0 8 = nbits w 0 8 ∧
    nbits (setBits w 8 16 n) 24 16 = nbits w 24 16 ∧ nbits (setBits w 8 16 n) 40 24 = nbits w 40 24 := by
  simp only [nbits, setBits, field, BitVec.toNat_ofNat]
  omega

theorem barArrive_fields (h : nbits w 8 16 < nbits w 24 16) :
    (nbits w 8 16 + 1 = nbits w 24 16 → nbits (barArrive w) 8 16 = 0 ∧ nbits (barArrive w) 0 8 = (nbits w 0 8 + 1) % 256) ∧
    (nbits w 8 16 + 1 ≠ nbits w 24 16 → nbits (barArrive w) 8 16 = nbits w 8 16 + 1 ∧ nbits (barArrive w) 0 8 = nbits w 0 8) ∧
    nbits (barArrive w) 24 16 = nbits w 24 16 ∧ nbits (barArrive w) 40 24 = nbits w 40 24 := by
  by_cases hp : nbits w 8 16 + 1 = nbits w 24 16
  · obtain ⟨hc, he, hn, hs⟩ := nbits_episode (w := w) (nbits w 0 8 + 1)
    rw [barArrive_completes hp]
    exact ⟨fun _ => ⟨hc, he⟩, fun hn => absurd hp hn, hn, hs⟩
  · have : nbits w 24 16 < 65536 := Nat.mod_lt _ (by norm_num)
    obtain ⟨hc, he, hn, hs⟩ := nbits_arrived (w := w) (nbits w 8 16 + 1) (by omega)
    rw [barArrive_counts hp]
    exact ⟨fun hn => absurd hn hp, fun _ => ⟨hc, he⟩, hn, hs⟩

end

/-- A barrier reads as it was written. -/
theorem barrier_setBarrier (s : State) (die i : Nat) (w : Dword) : (s.setBarrier die i w).barrier die i = w := by
  unfold State.setBarrier State.barrier
  split_ifs
  · rw [State.die_modDie_self, mgetD_mputD, if_pos rfl]
  · rw [State.modTables, mgetD_mputD, if_pos rfl]

theorem Untouched.barrier {s s' : State} {t : Nat} (h : Untouched s s' t) (die i : Nat) : s'.barrier die i = s.barrier die i := by
  unfold State.barrier State.die
  rw [h.dies, h.tables]

theorem kept_setBarrier (s : State) (die i : Nat) (w : Dword) :
    (s.setBarrier die i w).threads = s.threads ∧ (s.setBarrier die i w).mem = s.mem := by
  unfold State.setBarrier
  split <;> exact ⟨rfl, rfl⟩

/-! ### The await part (R364) -/

/-- An instruction that has completed the thread `y` leaves it with the wait of `y`. -/
theorem complete_endsAs {i : Instr} {s e : State} {t : Nat} {y : Thread} {q : Req} (h : exec i s = .next (complete e t y q .seq)) :
    EndsAs i s t (advance y.ctx q.pair .seq) e fun z => z.wait = y.wait := by
  obtain ⟨-, hu⟩ := complete_spec e t y q .seq Rob.none rfl
  obtain ⟨x, n, -, ht⟩ := complete_threads e t y q .seq Rob.none rfl rfl
  exact ⟨_, _, h, (ht t).trans (if_pos rfl), by simp, by simp, hu⟩

theorem finish_endsAs {i : Instr} {s e : State} {t : Nat} {y : Thread} {q : Req} (h : exec i s = .next (finish e t y q .seq)) :
    EndsAs i s t (advance y.ctx q.pair .seq) e fun z => z.wait = y.wait := by
  obtain ⟨x, z, hx, hz, hc, hw, hu⟩ := complete_endsAs h
  exact ⟨x, z, hx, hz, hc, hw, (untouched_issuedBy e t y).trans hu⟩

section
variable {q : Req} {i : Instr} {s u : State} {t n e : Nat} {th v : Thread} {k : State → Nat → Thread → Out} {done : State → Thread → State}
  (h : Starts q s t th u v) (hi : exec i s = begin q s k) (hk : k u t v = awaitAt q u t v n e done)
include h hi hk

theorem await_faults {r : Nat} (hf : u.barFault t v n = some r) :
    Faults i s q (u.modThread t fun y => { y with wait := .none }) t v 0x10 (BitVec.ofNat 64 (n + r * 2 ^ 8)) := by
  obtain ⟨y, hu, hr, hc⟩ := h.stands
  refine h.faultsAt hi (hk.trans ?_) (y := { y with wait := .none }) ?_ hr hc
  · rw [awaitAt, hf]
  · rw [State.thread?_modThread, if_pos rfl, hu]
    rfl

section
variable (hf : u.barFault t v n = none)
include hf

theorem await_waits (ho : v.barOver n = none) (he : barEpisode (u.barrier (dieOf (coreOf t)) n) = e) :
    Waits i s t 8 (u.modThread t fun y => { y with bar := some { id := n, episode := e, freed := none } }) := by
  refine h.waits hi (hk.trans ?_)
  rw [awaitAt, hf]
  exact if_pos (by simp [State.barHolds, ho, he])

theorem await_passes (ho : v.barOver n ≠ none ∨ barEpisode (u.barrier (dieOf (coreOf t)) n) ≠ e) :
    exec i s = .next (done (u.acquire t v (barScope n)) { v with wait := .none }) := by
  refine (h.runs hi).trans (hk.trans ?_)
  rw [awaitAt, hf]
  refine if_neg ?_
  rcases ho with ho | ho
  · simp [State.barHolds, ho]
  · simp [State.barHolds, ho]

end
end

/-! ### arrive and await (R364) -/

abbrev reqArrive (d i : BitVec 7) : Req := { reqD (.arrive d i) d with legal := barrierOk i, commit := true }

section
variable {d i : BitVec 7} {s u : State} {t : Nat} {th v : Thread} (h : Starts (reqArrive d i) s t th u v)
include h

theorem arrive_joins (hm : u.barMine v (u.barrier (dieOf (coreOf t)) i.toNat) = true) (hd : u.departs t v (barScope i.toNat) none = none) :
    Ends (.arrive d i) s t (advance (v.setS d (BitVec.ofNat 64 (barEpisode (u.barrier (dieOf (coreOf t)) i.toNat)))).ctx false .seq)
      (u.setBarrier (dieOf (coreOf t)) i.toNat (barArrive (u.barrier (dieOf (coreOf t)) i.toNat))) :=
  h.ends rfl ((if_neg (by simp [hm])).trans (by rw [hd]))

theorem arrive_faults (hm : u.barMine v (u.barrier (dieOf (coreOf t)) i.toNat) = false) :
    Faults (.arrive d i) s (reqArrive d i) u t v 0x10 (BitVec.ofNat 64 i.toNat) :=
  h.faults rfl (if_pos (by rw [hm]; rfl))

end

abbrev reqAwait (a i : BitVec 7) : Req := { reqA (.await a i) a with legal := barrierOk i, commit := true }

section
variable {a i : BitVec 7} {s u : State} {t : Nat} {th v : Thread} (h : Starts (reqAwait a i) s t th u v)
include h

theorem await_barFault {r : Nat} (hf : u.barFault t v i.toNat = some r) :
    Faults (.await a i) s (reqAwait a i) (u.modThread t fun y => { y with wait := .none }) t v 0x10 (BitVec.ofNat 64 (i.toNat + r * 2 ^ 8)) :=
  await_faults h rfl (e := nbits (v.S a) 0 8) (done := fun s th => finish s t th (reqAwait a i) .seq) rfl hf

section
variable (hf : u.barFault t v i.toNat = none)
include hf

theorem await_held (ho : v.barOver i.toNat = none) (he : barEpisode (u.barrier (dieOf (coreOf t)) i.toNat) = nbits (v.S a) 0 8) :
    Waits (.await a i) s t 8 (u.modThread t fun y => { y with bar := some { id := i.toNat, episode := nbits (v.S a) 0 8, freed := none } }) :=
  await_waits h rfl (done := fun s th => finish s t th (reqAwait a i) .seq) rfl hf ho he

theorem await_goesOn (ho : v.barOver i.toNat ≠ none ∨ barEpisode (u.barrier (dieOf (coreOf t)) i.toNat) ≠ nbits (v.S a) 0 8) :
    EndsAs (.await a i) s t (advance v.ctx false .seq) (u.acquire t v (barScope i.toNat)) fun y => y.wait = .none :=
  finish_endsAs (y := { v with wait := .none }) (q := reqAwait a i)
    (await_passes h rfl (done := fun s th => finish s t th (reqAwait a i) .seq) rfl hf ho)

end
end

/-! ### arwt (R364) -/

abbrev reqArwt (d i : BitVec 7) : Req := { reqD (.arwt d i) d with legal := barrierOk i, commit := true }

section
variable {d i : BitVec 7} {s u : State} {t : Nat} {th v : Thread} (h : Starts (reqArwt d i) s t th u v)
include h

section
variable (ha : v.awaits = none)
include ha

theorem arwt_faults (hm : u.barMine v (u.barrier (dieOf (coreOf t)) i.toNat) = false) :
    Faults (.arwt d i) s (reqArwt d i) u t v 0x10 (BitVec.ofNat 64 i.toNat) :=
  h.faults rfl (by dsimp only; rw [ha]; exact if_pos (by rw [hm]; rfl))

section
variable (hm : u.barMine v (u.barrier (dieOf (coreOf t)) i.toNat) = true) (hd : u.departs t v (barScope i.toNat) none = none)
include hm hd

/-- Its arrival completes the episode: the await part is over at once. -/
theorem arwt_completes
    (he : barEpisode (barArrive (u.barrier (dieOf (coreOf t)) i.toNat)) ≠ barEpisode (u.barrier (dieOf (coreOf t)) i.toNat)) :
    Ends (.arwt d i) s t (advance (v.setS d (BitVec.ofNat 64 (barEpisode (u.barrier (dieOf (coreOf t)) i.toNat)))).ctx false .seq)
      ((u.setBarrier (dieOf (coreOf t)) i.toNat (barArrive (u.barrier (dieOf (coreOf t)) i.toNat))).acquire t v (barScope i.toNat)) := by
  refine h.ends rfl ?_
  dsimp only
  rw [ha]
  refine (if_neg (by simp [hm])).trans ?_
  rw [hd]
  exact if_neg he

/-- It has arrived and waits for the episode that it joined. -/
theorem arwt_arrives
    (he : barEpisode (barArrive (u.barrier (dieOf (coreOf t)) i.toNat)) = barEpisode (u.barrier (dieOf (coreOf t)) i.toNat)) :
    let w := u.barrier (dieOf (coreOf t)) i.toNat
    ∃ s' x y, exec (.arwt d i) s = .next s' ∧ u.thread? t = some x ∧ s'.thread? t = some y ∧
      y.ctx = (x.setS d (BitVec.ofNat 64 (barEpisode w))).ctx ∧ y.wait = .arwt (barEpisode w) x.ctx.pc ∧ y.cause = some 8 ∧
      s'.barrier (dieOf (coreOf t)) i.toNat = barArrive w ∧ s'.mem = s.mem := by
  intro w
  obtain ⟨b, n, hu, -⟩ := h.live
  let z := (u.setBarrier (dieOf (coreOf t)) i.toNat (barArrive w)).issuedBy t v
  let wdog := ((u.setBarrier (dieOf (coreOf t)) i.toNat (barArrive w)).core (coreOf t)).wdog
  have hz := untouched_issuedBy (u.setBarrier (dieOf (coreOf t)) i.toNat (barArrive w)) t v
  have hx : z.thread? t = some { th with ribbon := b, sent := n } := by
    rw [State.thread?_congr (State.issuedBy_threads _ t v), State.thread?_congr (kept_setBarrier u _ _ _).1, hu]
  have hy : (z.modThread t fun y => y.arrived d i.toNat (barEpisode w) wdog).thread? t =
      some (({ th with ribbon := b, sent := n } : Thread).arrived d i.toNat (barEpisode w) wdog) := by
    rw [State.thread?_modThread, if_pos rfl, hx]
    rfl
  refine ⟨_, _, _, ?_, hu, hy, rfl, rfl, rfl, ?_, ?_⟩
  · refine (h.runs (i := .arwt d i) rfl).trans ?_
    dsimp only
    rw [ha]
    refine (if_neg (by simp [hm])).trans ?_
    rw [hd]
    exact if_pos he
  · refine Eq.trans ?_ (barrier_setBarrier u (dieOf (coreOf t)) i.toNat (barArrive w))
    exact (hz.trans (untouched_modThread z t _)).barrier (dieOf (coreOf t)) i.toNat
  · rw [(hz.trans (untouched_modThread z t _)).mem, (kept_setBarrier u _ _ _).2]
    exact h.untouched.mem

end
end

section
variable {e : Nat} (ha : v.awaits = some e)
include ha

theorem arwt_await_faults {r : Nat} (hf : u.barFault t v i.toNat = some r) :
    Faults (.arwt d i) s (reqArwt d i) (u.modThread t fun y => { y with wait := .none }) t v 0x10 (BitVec.ofNat 64 (i.toNat + r * 2 ^ 8)) :=
  await_faults h rfl (e := e) (done := fun s th => complete s t th (reqArwt d i) .seq) (by dsimp only; rw [ha]) hf

section
variable (hf : u.barFault t v i.toNat = none)
include hf

theorem arwt_waits (ho : v.barOver i.toNat = none) (he : barEpisode (u.barrier (dieOf (coreOf t)) i.toNat) = e) :
    Waits (.arwt d i) s t 8 (u.modThread t fun y => { y with bar := some { id := i.toNat, episode := e, freed := none } }) :=
  await_waits h rfl (done := fun s th => complete s t th (reqArwt d i) .seq) (by dsimp only; rw [ha]) hf ho he

theorem arwt_passes (ho : v.barOver i.toNat ≠ none ∨ barEpisode (u.barrier (dieOf (coreOf t)) i.toNat) ≠ e) :
    EndsAs (.arwt d i) s t (advance v.ctx false .seq) (u.acquire t v (barScope i.toNat)) fun y => y.wait = .none :=
  complete_endsAs (y := { v with wait := .none }) (q := reqArwt d i)
    (await_passes h rfl (done := fun s th => complete s t th (reqArwt d i) .seq) (by dsimp only; rw [ha]) hf ho)

end
end
end

/-- Settles O23: an arrival moves the word as `barArrive_fields` says; `await` and the await part of `arwt` are one (`awaitAt`), which
goes on once the episode has moved. -/
theorem barrierResults : Obligations.BarrierResults :=
  ⟨fun w => barArrive_fields, fun d i s t th h => ⟨arrive_joins h.starts, arrive_faults h.starts⟩,
    fun a i s t th h => ⟨fun hf => ⟨await_goesOn h.starts hf, await_held h.starts hf⟩, fun r => await_barFault h.starts⟩,
    fun d i s t th h => ⟨fun ha hm hd => ⟨arwt_completes h.starts ha hm hd, arwt_arrives h.starts ha hm hd⟩, arwt_faults h.starts,
      fun e ha hf => ⟨arwt_passes h.starts ha hf, arwt_waits h.starts ha hf⟩, fun e r ha => arwt_await_faults h.starts ha⟩,
    fun d i s t th h => h.starts.completes rfl rfl⟩

end Sys2Proof.Machine
end

/-! Waits and timelines: `wait`, `tlwait`, `tlread` and `tlnext` (R359 to R363). -/

section
namespace Sys2Proof.Machine

/-! ### wait (R360) -/

/-- What a field of `wait` bounds is outstanding no more than it says. -/
def waitHolds (n : BitVec 4) (k : Nat) : Prop := n = 15 ∨ k ≤ n.toNat

theorem waitHolds_iff (n : BitVec 4) (k : Nat) : (n == 15 || k ≤ n.toNat) = true ↔ waitHolds n k := by simp [waitHolds]

theorem not_waitHolds_iff (n : BitVec 4) (k : Nat) : (!(n == 15 || k ≤ n.toNat)) = true ↔ ¬waitHolds n k := by
  rw [← waitHolds_iff, Bool.not_eq_true', Bool.not_eq_true]

section
variable {l st c m : BitVec 4} {s u : State} {t : Nat} {th v : Thread} (h : Starts (req0 (.wait l st c m)) s t th u v)
include h

theorem wait_loads (hl : ¬waitHolds l v.loads) : Waits (.wait l st c m) s t 4 u := h.waits rfl (if_pos ((not_waitHolds_iff ..).mpr hl))

section
variable (hl : waitHolds l v.loads)
include hl

theorem wait_stores (hs : ¬waitHolds st v.stores) : Waits (.wait l st c m) s t 5 u :=
  h.waits rfl ((if_neg fun hn => (not_waitHolds_iff ..).mp hn hl).trans (if_pos ((not_waitHolds_iff ..).mpr hs)))

section
variable (hs : waitHolds st v.stores)
include hs

theorem wait_engines (he : ¬(waitHolds c (u.homeThread v).cpOut ∧ waitHolds m (u.homeThread v).mxOut)) : Waits (.wait l st c m) s t 7 u := by
  refine h.waits rfl ((if_neg fun hn => (not_waitHolds_iff ..).mp hn hl).trans ((if_neg fun hn => (not_waitHolds_iff ..).mp hn hs).trans (if_pos ?_)))
  rw [Bool.or_eq_true, not_waitHolds_iff, not_waitHolds_iff]
  exact not_and_or.mp he

theorem wait_goesOn (hc : waitHolds c (u.homeThread v).cpOut) (hm : waitHolds m (u.homeThread v).mxOut) :
    Completes (.wait l st c m) s t (advance v.ctx false .seq) := by
  refine h.completes rfl ((if_neg fun hn => (not_waitHolds_iff ..).mp hn hl).trans
    ((if_neg fun hn => (not_waitHolds_iff ..).mp hn hs).trans (if_neg ?_)))
  rw [Bool.or_eq_true, not_waitHolds_iff, not_waitHolds_iff]
  exact fun he => he.elim (· hc) (· hm)

end
end
end

/-! ### The context that a register names (R361) -/

section
variable {q : Req} {i : Instr} {a : BitVec 7} {waits : Bool} {k : State → Nat → Thread → Nat → Bool → Out} {s u : State} {t : Nat}
  {th v : Thread} (h : Starts q s t th u v) (hi : exec i s = timeline q a waits s k)
include h hi

theorem timeline_runs {home : Nat} {m : Bool} (hc : contextOf v (v.S a) = some (home, m)) (ho : u.ownsContext t v home m waits = true) :
    exec i s = k u t v home m := by
  refine (h.runs hi).trans ?_
  rw [hc]
  exact if_pos ho

theorem timeline_faults (hn : ∀ home m, contextOf v (v.S a) = some (home, m) → u.ownsContext t v home m waits = false) :
    Faults i s q u t v 0x06 (v.S a) := by
  refine h.faults hi ?_
  rcases hc : contextOf v (v.S a) with - | ⟨home, m⟩
  · rfl
  · exact if_neg (by simp [hn home m hc])

end

/-! ### tlwait (R362) -/

/-- A change of a context leaves every thread where it stands. -/
theorem modCtx_thread {s : State} {t : Nat} {x : Thread} (h : s.thread? t = some x) (home : Nat) (m : Bool) (f : Eng → Eng) :
    ∃ y, (s.modCtx home m f).thread? t = some y ∧ y.ctx = x.ctx ∧ y.rob = x.rob := by
  unfold State.modCtx
  split
  · next hl =>
    obtain ⟨z, hz⟩ := Option.isSome_iff_exists.mp hl
    rcases eq_or_ne t home with rfl | ht
    · obtain rfl : z = x := by simpa [State.thread?, hz] using h
      refine ⟨z.modCtx m f, by simp [State.thread?, mget_mmod, hz], z.modCtx_ctx m f, ?_⟩
      unfold Thread.modCtx
      split <;> rfl
    · exact ⟨x, by simpa [State.thread?, mget_mmod, ht] using h, rfl, rfl⟩
  · split <;> exact ⟨x, h, rfl, rfl⟩

/-- The cause with which a context has failed at a number or before, and that number. -/
def Eng.failsBy (e : Eng) (n : Nat) : Bool := match e.failed with
  | some (f, _) => decide (f ≤ n)
  | none => false

section
variable {a b : BitVec 7} {s u : State} {t home : Nat} {m : Bool} {th v : Thread} (h : Starts (reqAB (.tlwait a b) a b) s t th u v)
  (hc : contextOf v (v.S a) = some (home, m)) (ho : u.ownsContext t v home m true = true)
include h hc ho

section
variable (hf : ∀ f c, (u.ctxOf home m).failed = some (f, c) → (v.S b).toNat < f)
include hf

omit h hc ho in
theorem not_failsBy : ¬(u.ctxOf home m).failsBy (v.S b).toNat = true := by
  unfold Eng.failsBy
  rcases hx : (u.ctxOf home m).failed with - | ⟨f, c⟩
  · simp
  · simp [hf f c hx]

theorem tlwait_waits (hn : (u.ctxOf home m).cnt < (v.S b).toNat) : Waits (.tlwait a b) s t 7 u :=
  waits_of_exec ((timeline_runs h rfl hc ho).trans ((if_neg (not_failsBy hf)).trans (if_pos hn)))

section
variable (hn : (v.S b).toNat ≤ (u.ctxOf home m).cnt)
include hn

theorem tlwait_goesOn (hh : home ≠ v.home) : Ends (.tlwait a b) s t (advance v.ctx false .seq) (u.acquire t v 4) :=
  ends_of_exec (q := reqAB (.tlwait a b) a b) ((timeline_runs h rfl hc ho).trans ((if_neg (not_failsBy hf)).trans
    ((if_neg (not_lt.mpr hn)).trans (if_neg (by simp [hh])))))

theorem tlwait_merges (hh : home = v.home) :
    Ends (.tlwait a b) s t (advance (v.orFlags ((u.ctxOf home m).flagsTo (v.mergedTo m) (v.S b).toNat)).ctx false .seq) (u.acquire t v 4) :=
  ends_with_entry (q := reqAB (.tlwait a b) a b) (r := { Rob.none with merge := some (m, (v.S b).toNat) }) rfl ((timeline_runs h rfl hc ho).trans ((if_neg (not_failsBy hf)).trans
    ((if_neg (not_lt.mpr hn)).trans (if_pos (by simp [hh])))))

end
end

/-- The context has failed at the number awaited or before: the fault names where and why, and the thread's own context starts anew. -/
theorem tlwait_faults {f c : Nat} (hf : (u.ctxOf home m).failed = some (f, c)) (hn : f ≤ (v.S b).toNat) (hr : v.rob = []) :
    exec (.tlwait a b) s = .next (takeFault (if home = v.home then u.modCtx home m Eng.reset else u) t 0x08 0 false
      (BitVec.ofNat 64 (f % 2 ^ 48 + c * 2 ^ 48)) v.ctx.pc) := by
  have hx : exec (.tlwait a b) s = raise (if home = v.home then u.modCtx home m Eng.reset else u) t (reqAB (.tlwait a b) a b) 0x08
      (BitVec.ofNat 64 (f % 2 ^ 48 + c * 2 ^ 48)) := by
    refine (timeline_runs h rfl hc ho).trans ?_
    simp only [hf, hn, hr, decide_true, if_true, List.isEmpty_nil, Bool.and_true, beq_iff_eq]
  obtain ⟨y, hy, hyr, hyc⟩ := h.stands
  obtain ⟨z, hz, hzc, hzr⟩ := modCtx_thread hy home m Eng.reset
  rw [hx]
  split
  · rw [raise_live hz, hzr, hzc, hyr, hyc, if_pos hr]
    rfl
  · rw [raise_live hy, hyr, hyc, if_pos hr]
    rfl

end

theorem tlwait_foreign {a b : BitVec 7} {s u : State} {t : Nat} {th v : Thread} (h : Starts (reqAB (.tlwait a b) a b) s t th u v)
    (hn : ∀ home m, contextOf v (v.S a) = some (home, m) → u.ownsContext t v home m true = false) :
    Faults (.tlwait a b) s (reqAB (.tlwait a b) a b) u t v 0x06 (v.S a) := timeline_faults h rfl hn

/-! ### tlread and tlnext (R363) -/

section
variable {d a : BitVec 7} {s u : State} {t home : Nat} {m : Bool} {th v : Thread}

theorem tlread_reads (h : Starts (reqDA (.tlread d a) d a) s t th u v) (hc : contextOf v (v.S a) = some (home, m))
    (ho : u.ownsContext t v home m false = true) :
    Completes (.tlread d a) s t (advance (v.setS d (BitVec.ofNat 64 (u.ctxOf home m).cnt)).ctx false .seq) :=
  h.untouched.trans_ends (ends_of_exec (q := reqDA (.tlread d a) d a) ((timeline_runs h rfl hc ho).trans rfl))

theorem tlnext_reads (h : Starts (reqDA (.tlnext d a) d a) s t th u v) (hc : contextOf v (v.S a) = some (home, m))
    (ho : u.ownsContext t v home m false = true) :
    Completes (.tlnext d a) s t (advance (v.setS d (BitVec.ofNat 64 ((u.ctxOf home m).issued + 1))).ctx false .seq) :=
  h.untouched.trans_ends (ends_of_exec (q := reqDA (.tlnext d a) d a) ((timeline_runs h rfl hc ho).trans rfl))

theorem tlread_faults (h : Starts (reqDA (.tlread d a) d a) s t th u v)
    (hn : ∀ home m, contextOf v (v.S a) = some (home, m) → u.ownsContext t v home m false = false) :
    Faults (.tlread d a) s (reqDA (.tlread d a) d a) u t v 0x06 (v.S a) := timeline_faults h rfl hn

theorem tlnext_faults (h : Starts (reqDA (.tlnext d a) d a) s t th u v)
    (hn : ∀ home m, contextOf v (v.S a) = some (home, m) → u.ownsContext t v home m false = false) :
    Faults (.tlnext d a) s (reqDA (.tlnext d a) d a) u t v 0x06 (v.S a) := timeline_faults h rfl hn

end

/-- Settles O22: `wait` by the first of its fields that holds it; an instruction of a timeline runs on the context that its register names
(`timeline_runs`), and faults where the launch has none there (`timeline_faults`). -/
theorem timelineResults : Obligations.TimelineResults :=
  ⟨fun _ _ _ _ _ _ _ h => ⟨wait_goesOn h.starts, wait_loads h.starts, wait_stores h.starts, wait_engines h.starts⟩,
    fun _ _ _ _ _ _ _ h => tlread_reads h.starts, fun _ _ _ _ _ _ _ h => tlnext_reads h.starts,
    fun _ _ _ _ _ _ _ h hc ho => ⟨fun hf => ⟨tlwait_goesOn h.starts hc ho hf, tlwait_merges h.starts hc ho hf,
      tlwait_waits h.starts hc ho hf⟩, fun _ _ => tlwait_faults h.starts hc ho⟩,
    fun _ _ _ _ _ h => tlread_faults h.starts, fun _ _ _ _ _ h => tlnext_faults h.starts, fun _ _ _ _ _ h => tlwait_foreign h.starts⟩

end Sys2Proof.Machine
end

/-! Table functions (R331), and the shape table: `shdef`, `shret` and `shget` (R322, R333 to R335). -/

section
namespace Sys2Proof.Machine

/-! ### A table function by its answer (R331) -/

@[simp] theorem acquire_setS (s : State) (t : Nat) (v : Thread) (n : BitVec 7) (w : Dword) (scope : Nat) :
    s.acquire t (v.setS n w) scope = s.acquire t v scope := rfl
@[simp] theorem acquire_setV (s : State) (t : Nat) (v : Thread) (n : BitVec 7) (w : Vec) (scope : Nat) :
    s.acquire t (v.setV n w) scope = s.acquire t v scope := rfl

abbrev reqTbl (q : Req) : Req := { q with commit := true, early := [.release 4, .edge none false] }

section
variable {q : Req} {i : Instr} {f : State → Nat → Thread → Tbl} {s u x : State} {t c code : Nat} {th v y : Thread} {tv : Dword}
  (h : Starts (reqTbl q) s t th u v) (hi : exec i s = tbl q s f) (hd : u.departs t v 4 none = none)
include h hi hd

theorem tbl_runs : exec i s = match f u t v with
    | .fault code v => raise u t q code v
    | .wait c s => .next (holdReply s t c)
    | .done s th => .next (finish (s.acquire t th 4) t th q .seq) := by
  refine (h.runs hi).trans ?_
  rw [hd] <;> rfl

/-- R331: the reply is an acquire. -/
theorem tbl_done (hf : f u t v = .done x y) (hq : q.pair = false := by rfl) (hy : x.acquire t y 4 = x.acquire t v 4 := by simp) :
    Ends i s t (advance y.ctx false .seq) (x.acquire t v 4) := by
  have hx := tbl_runs h hi hd
  rw [hf] at hx
  rw [← hq, ← hy]
  exact ends_of_exec hx

theorem tbl_faults (hf : f u t v = .fault code tv) : Faults i s q u t v code tv := by
  obtain ⟨y, hy, hr, hc⟩ := h.stands
  have hx := tbl_runs h hi hd
  rw [hf] at hx
  dsimp only at hx
  rwa [raise_live hy, hr, hc] at hx

theorem tbl_waits (hf : f u t v = .wait c x) : Waits i s t c (x.modThread t fun y => { y with reply := true }) := by
  have hx := tbl_runs h hi hd
  rw [hf] at hx
  exact waits_of_exec hx

end

/-! ### shdef (R333) -/

abbrev reqShdef (a b : BitVec 7) : Req :=
  { word := encodeNat (.shdef a b), regs := [a.toNat, b.toNat], reads := [b.toNat], writes := [a.toNat] }

theorem exec_shdef (a b : BitVec 7) (s : State) : exec (.shdef a b) s = execShdef a b s := rfl

section
variable {a b : BitVec 7} {s u : State} {t : Nat} {th v : Thread} (h : Starts (reqTbl (reqShdef a b)) s t th u v)
  (hd : u.departs t v 4 none = none)
include h hd

section
variable {x : Tenant} (hf : shapeFault (v.V b) = none) (hx : u.tenant? v.tenant = some x)
include hf hx

theorem shdef_defines {k : Nat} (hk : ((List.range 4096).find? fun k => nbits (u.shapeAt (x.shtb + 64 * k)) 96 8 == 0) = some k) :
    Ends (.shdef a b) s t (advance (v.setS a (BitVec.ofNat 64 (nbits (u.shapeAt (x.shtb + 64 * k)) 80 12 * 2 ^ 20 + k))).ctx false .seq)
      ((u.setShape (x.shtb + 64 * k) (setBits (setBits (v.V b) 80 16 (nbits (u.shapeAt (x.shtb + 64 * k)) 80 12)) 96 8 1)).acquire t v 4) :=
  tbl_done h ((exec_shdef a b s).trans rfl) hd (by dsimp only; rw [hf]; dsimp only; rw [hx]; dsimp only; rw [hk])

theorem shdef_full (hk : ((List.range 4096).find? fun k => nbits (u.shapeAt (x.shtb + 64 * k)) 96 8 == 0) = none) :
    Ends (.shdef a b) s t (advance (v.setS a 0).ctx false .seq) (u.acquire t v 4) :=
  tbl_done h ((exec_shdef a b s).trans rfl) hd (by dsimp only; rw [hf]; dsimp only; rw [hx]; dsimp only; rw [hk])

end

theorem shdef_faults {o : Nat} (hf : shapeFault (v.V b) = some o) :
    Faults (.shdef a b) s (reqShdef a b) u t v 0x06 (BitVec.ofNat 64 o) :=
  tbl_faults h ((exec_shdef a b s).trans rfl) hd (by dsimp only; rw [hf])

end

/-! ### shret and shget (R334, R335) -/

abbrev reqShret (b : BitVec 7) : Req := { word := encodeNat (.shret b), regs := [b.toNat], reads := [b.toNat] }

section
variable {b : BitVec 7} {s u : State} {t : Nat} {th v : Thread} (h : Starts (reqTbl (reqShret b)) s t th u v)
  (hd : u.departs t v 4 none = none)
include h hd

theorem shret_frees {p : Nat} {r : Vec} (hr : u.handle v (v.S b) = some (p, r)) :
    Ends (.shret b) s t (advance v.ctx false .seq)
      ((u.setShape p (setBits (setBits r 80 16 (if nbits r 80 12 = 4095 then 1 else nbits r 80 12 + 1)) 96 8 0)).acquire t v 4) :=
  tbl_done h rfl hd (by rw [hr])

theorem shret_faults (hr : u.handle v (v.S b) = none) : Faults (.shret b) s (reqShret b) u t v 0x09 (v.S b) :=
  tbl_faults h rfl hd (by rw [hr])

end

abbrev reqShget (a b : BitVec 7) : Req :=
  { word := encodeNat (.shget a b), regs := [a.toNat, b.toNat], reads := [b.toNat], writes := [a.toNat] }

section
variable {a b : BitVec 7} {s u : State} {t : Nat} {th v : Thread} (h : Starts (reqTbl (reqShget a b)) s t th u v)
  (hd : u.departs t v 4 none = none)
include h hd

theorem shget_reads {p : Nat} {r : Vec} (hr : u.handle v (v.S b) = some (p, r)) :
    Ends (.shget a b) s t (advance (v.setV a r).ctx false .seq) (u.acquire t v 4) :=
  tbl_done h rfl hd (by rw [hr])

theorem shget_faults (hr : u.handle v (v.S b) = none) : Faults (.shget a b) s (reqShget a b) u t v 0x09 (v.S b) :=
  tbl_faults h rfl hd (by rw [hr])

end

/-- Settles O41: each instruction is one `tbl`, by the answer of its table function (`tbl_done`, `tbl_faults`). -/
theorem shapeResults : Obligations.ShapeResults :=
  ⟨fun _ _ _ _ _ _ _ h hd hf hx => shdef_defines (h.starts _) hd hf hx, fun _ _ _ _ _ _ h hd hf hx => shdef_full (h.starts _) hd hf hx,
    fun _ _ _ _ _ _ h hd => shdef_faults (h.starts _) hd, fun _ _ _ _ _ _ h hd => shret_frees (h.starts _) hd,
    fun _ _ _ _ _ _ _ h hd => shget_reads (h.starts _) hd, fun _ _ _ _ h hd => shret_faults (h.starts _) hd,
    fun _ _ _ _ _ h hd => shget_faults (h.starts _) hd⟩

end Sys2Proof.Machine
end

/-! The block table: `blkmap`, `blkref`, `blkfree`, `blkmig` and `blkst` (R336 to R341). -/

section
namespace Sys2Proof.Machine

/-! ### blkmap (R337) -/

abbrev reqBlkmap (a b c : BitVec 7) : Req :=
  { word := encodeNat (.blkmap a b c), level := 1, regs := [a.toNat, b.toNat, c.toNat], reads := [b.toNat, c.toNat], writes := [a.toNat] }

section
variable {a b c : BitVec 7} {s u w : State} {t e p : Nat} {th v : Thread} (h : Starts (reqTbl (reqBlkmap a b c)) s t th u v)
  (hd : u.departs t v 4 none = none) (hz : nbits (v.S c) 14 50 = 0) (hk : u.ownsKey v.tenant (nbits (v.S c) 0 10) = true)
  (he : u.entryOf v.tenant (v.S b) = some e) (hw : blkWb (u.blk e) = false)
include h hd hz hk he hw

theorem blkmap_valid (hv : blkValid (u.blk e) = true) :
    Ends (.blkmap a b c) s t (advance (v.setS a 2).ctx false .seq) (u.acquire t v 4) :=
  tbl_done h rfl hd ((if_neg (by simp [hz, hk])).trans (by rw [he]; dsimp only; rw [hw, hv]; rfl))

theorem blkmap_exhausted (hv : blkValid (u.blk e) = false)
    (hp : u.popBlock (nbits (v.S c) 12 2) v.tenant (nbits (v.S c) 10 1) = none) :
    Ends (.blkmap a b c) s t (advance (v.setS a 1).ctx false .seq) (u.acquire t v 4) :=
  tbl_done h rfl hd ((if_neg (by simp [hz, hk])).trans (by rw [he]; dsimp only; rw [hw, hv, hp]; rfl))

theorem blkmap_maps (hv : blkValid (u.blk e) = false)
    (hp : u.popBlock (nbits (v.S c) 12 2) v.tenant (nbits (v.S c) 10 1) = some (p, w)) (hc : (v.S c).getLsbD 11 = false) :
    Ends (.blkmap a b c) s t (advance (v.setS a 0).ctx false .seq)
      (((w.setCount p 1).setBlk e (blkMake (nbits (v.S c) 10 1) 0 (nbits (v.S c) 0 10) p)).acquire t v 4) :=
  tbl_done h rfl hd ((if_neg (by simp [hz, hk])).trans (by rw [he]; dsimp only; rw [hw, hv, hp, hc]; rfl))

end

/-! ### blkref (R338) -/

abbrev reqBlkref (a b c : BitVec 7) : Req :=
  { word := encodeNat (.blkref a b c), level := 1, regs := [a.toNat, b.toNat, c.toNat], reads := [b.toNat, c.toNat], writes := [a.toNat] }

theorem blkref_shares {a b c : BitVec 7} {s u : State} {t ed es : Nat} {th v : Thread} (h : Starts (reqTbl (reqBlkref a b c)) s t th u v)
    (hd : u.departs t v 4 none = none) (hed : u.entryOf v.tenant (v.S b) = some ed) (hes : u.entryOf v.tenant (v.S c) = some es)
    (hwd : blkWb (u.blk ed) = false) (hws : blkWb (u.blk es) = false) (hvs : blkValid (u.blk es) = true) (hvd : blkValid (u.blk ed) = false)
    (hn : u.blkCount (blkBase (u.blk es)) < 65535) :
    Ends (.blkref a b c) s t (advance (v.setS a 0).ctx false .seq)
      ((((u.setCount (blkBase (u.blk es)) (u.blkCount (blkBase (u.blk es)) + 1)).setBlk es (setBits (u.blk es) 125 1 1)).setBlk ed
        (blkMake (blkTier (u.blk es)) 1 (blkKey (u.blk es)) (blkBase (u.blk es)))).acquire t v 4) := by
  refine tbl_done h rfl hd ?_
  dsimp only
  rw [hed, hes]
  exact (if_neg (by simp [hwd, hws])).trans ((if_neg (by simp [hvs])).trans ((if_neg (by simp [hvd])).trans (if_neg hn.ne)))

/-! ### blkfree (R339) -/

abbrev reqBlkfree (a b : BitVec 7) : Req :=
  { word := encodeNat (.blkfree a b), level := 1, regs := [a.toNat, b.toNat], reads := [b.toNat], writes := [a.toNat] }

section
variable {a b : BitVec 7} {s u : State} {t e : Nat} {th v : Thread} (h : Starts (reqTbl (reqBlkfree a b)) s t th u v)
  (hd : u.departs t v 4 none = none) (he : u.entryOf v.tenant (v.S b) = some e) (hw : blkWb (u.blk e) = false)
include h hd he hw

theorem blkfree_invalid (hv : blkValid (u.blk e) = false) :
    Ends (.blkfree a b) s t (advance (v.setS a 5).ctx false .seq) (u.acquire t v 4) := by
  refine tbl_done h rfl hd ?_
  dsimp only
  rw [he]
  exact (if_neg (by simp [hw])).trans (if_pos (by simp [hv]))

/-- A block with another reference keeps its place. -/
theorem blkfree_shared (hv : blkValid (u.blk e) = true) (hn : 1 < u.blkCount (blkBase (u.blk e))) :
    Ends (.blkfree a b) s t (advance (v.setS a 0).ctx false .seq)
      (((u.setBlk e (setBits (u.blk e) 127 1 0)).setCount (blkBase (u.blk e)) (u.blkCount (blkBase (u.blk e)) - 1)).acquire t v 4) := by
  refine tbl_done h rfl hd ?_
  dsimp only
  rw [he]
  refine (if_neg (by simp [hw])).trans ((if_neg (by simp [hv])).trans ((if_neg (by simp [hn.ne'])).trans ?_))
  rw [if_pos hn]

end

/-! ### blkmig (R340) -/

abbrev reqBlkmig (a b c : BitVec 7) : Req :=
  { word := encodeNat (.blkmig a b c), regs := [a.toNat, b.toNat, c.toNat], reads := [b.toNat, c.toNat], writes := [a.toNat] }

/-- The migration that a `blkmig` asks for, with the words of its registers (R340). -/
def migOf (id tenant e : Nat) (va ctl : Dword) : Mig :=
  { id := id, cow := false, entry := e, va := va.toNat, tenant := tenant, die := nbits ctl 32 2, tier := nbits ctl 34 1,
    tag := nbits ctl 0 32, state := .queued, newBlk := 0, oldBlk := 0, waiters := [] }

theorem acquire_keeps (s : State) (t : Nat) (v : Thread) (scope : Nat) : (s.acquire t v scope).dies = s.dies ∧ (s.acquire t v scope).mem = s.mem := by
  unfold State.acquire
  split
  · have hu := untouched_count (s.flashL1 (coreOf t)) t t v 0x26 1
    exact ⟨hu.dies, hu.mem⟩
  · exact ⟨rfl, rfl⟩

section
variable {a b c : BitVec 7} {s u : State} {t e : Nat} {th v : Thread} (h : Starts (reqTbl (reqBlkmig a b c)) s t th u v)
  (hd : u.departs t v 4 none = none) (hz : nbits (v.S c) 35 29 = 0) (he : u.entryOf v.tenant (v.S b) = some e)
  (hw : blkWb (u.blk e) = false) (hv : blkValid (u.blk e) = true) (hn : u.blkCount (blkBase (u.blk e)) ≤ 1)
  (hq : (u.die (dieOf (coreOf t))).migQ.length < 64)
include h hd hz he hw hv hn hq

theorem blkmig_ends : Ends (.blkmig a b c) s t (advance (v.setS a 0).ctx false .seq)
    ((u.newId.modDie (dieOf (coreOf t)) fun y => { y with migQ := y.migQ ++ [migOf u.sched.nextId v.tenant e (v.S b) (v.S c)] }).acquire t v 4) := by
  refine tbl_done h rfl hd ((if_neg (by simp [hz])).trans ?_)
  rw [he]
  exact (if_neg (by simp [hw])).trans ((if_neg (by simp [hv])).trans ((if_neg (not_lt.mpr hn)).trans (if_neg (not_le.mpr hq))))

theorem blkmig_queues : ∃ s' m, exec (.blkmig a b c) s = .next s' ∧
    (s'.thread? t).map Thread.ctx = some (advance (v.setS a 0).ctx false .seq) ∧ s'.mem = s.mem ∧
    (s'.die (dieOf (coreOf t))).migQ = (u.die (dieOf (coreOf t))).migQ ++ [m] ∧ m.entry = e ∧ m.tier = nbits (v.S c) 34 1 ∧
    m.die = nbits (v.S c) 32 2 ∧ m.state = .queued ∧ m.cow = false := by
  obtain ⟨s', hx, hc, hu⟩ := blkmig_ends h hd hz he hw hv hn hq
  obtain ⟨ad, am⟩ := acquire_keeps (u.newId.modDie (dieOf (coreOf t)) fun y =>
    { y with migQ := y.migQ ++ [migOf u.sched.nextId v.tenant e (v.S b) (v.S c)] }) t v 4
  refine ⟨s', migOf u.sched.nextId v.tenant e (v.S b) (v.S c), hx, hc, (hu.mem.trans am).trans h.untouched.mem, ?_, rfl, rfl, rfl, rfl, rfl⟩
  have hq : s'.die (dieOf (coreOf t)) = _ := congrArg (mgetD · (dieOf (coreOf t)) _) (hu.dies.trans ad)
  exact (congrArg Die.migQ (hq.trans (State.die_modDie_self ..))).trans rfl

end

/-! ### blkst (R341) -/

abbrev reqBlkst (a b : BitVec 7) : Req :=
  { word := encodeNat (.blkst a b), regs := [a.toNat, b.toNat], reads := [b.toNat], writes := [a.toNat] }

theorem blkst_reads {a b : BitVec 7} {s u : State} {t e : Nat} {th v : Thread} (h : Starts (reqTbl (reqBlkst a b)) s t th u v)
    (hd : u.departs t v 4 none = none) (he : u.entryOf v.tenant (v.S b) = some e) :
    Ends (.blkst a b) s t (advance (v.setV a (BitVec.ofNat 512
      ((setBits (u.blk e) 64 16 (if blkValid (u.blk e) then u.blkCount (blkBase (u.blk e)) else 0)).toNat +
       (u.freeList (freeKey (dieOf (coreOf t)) v.tenant 0)).length * 2 ^ 128 +
       (u.freeList (freeKey (dieOf (coreOf t)) v.tenant 1)).length * 2 ^ 160))).ctx false .seq) (u.acquire t v 4) :=
  tbl_done h rfl hd (by rw [he])

/-- Settles O42: each instruction is one `tbl`, by the answer of its table function (`tbl_done`). -/
theorem blockResults : Obligations.BlockResults :=
  ⟨fun _ _ _ _ _ _ _ h hd hz hk he hw => ⟨blkmap_valid (h.starts _) hd hz hk he hw, blkmap_exhausted (h.starts _) hd hz hk he hw,
      fun _ _ => blkmap_maps (h.starts _) hd hz hk he hw⟩,
    fun _ _ _ _ _ _ _ _ h hd hed hes => blkref_shares (h.starts _) hd hed hes,
    fun _ _ _ _ _ _ h hd he hw => ⟨blkfree_invalid (h.starts _) hd he hw, blkfree_shared (h.starts _) hd he hw⟩,
    fun _ _ _ _ _ _ _ h hd hz he hw => blkmig_queues (h.starts _) hd hz he hw,
    fun _ _ _ _ _ _ h hd => blkst_reads (h.starts _) hd⟩

end Sys2Proof.Machine
end

/-! `tlbinv`, `impset` and `bcfg` (R326, R342 to R344). -/

section
namespace Sys2Proof.Machine

/-! ### Positions (R326) -/

theorem impView_setImp (x : Core) (p q : Nat) (e : BitVec 16) : (x.setImp p e).impView q = if q = p then e else x.impView q := by
  unfold Core.impView Core.setImp
  split_ifs with h
  · rw [h, mget_mput_self]
    rfl
  · rw [mget_mput_ne _ _ h]

/-- A live thread's position is freed of PB, or nothing changes. -/
theorem keepPosition_view (s : State) (c slot q : Nat) :
    ((s.keepPosition c slot).core c).impView q = (s.core c).impView q ∨
      ((s.core c).impView q).getLsbD 13 = true ∧
        ((s.keepPosition c slot).core c).impView q = setBits ((s.core c).impView q) 13 1 0 := by
  unfold State.keepPosition
  cases hp : (s.core c).positionsOf slot with
  | nil => simp
  | cons p ps =>
    dsimp only
    split
    · next hb =>
      rw [State.core_modCore_self, impView_setImp]
      split
      · next hq =>
        subst hq
        simp only [Bool.and_eq_true, List.all_cons] at hb
        exact .inr ⟨hb.2.1, rfl⟩
      · exact .inl rfl
    · exact .inl rfl

/-! ### tlbinv (R342) -/

abbrev reqTlbinv (b c : BitVec 7) : Req :=
  { word := encodeNat (.tlbinv b c), level := 1, regs := [b.toNat, c.toNat], reads := [b.toNat, c.toNat] }

/-- The cached translations of a tenant that are not named (R342). -/
def tlbKept (tenant : Nat) (va ctl : Dword) (x : Tlb) : Bool := !x.named tenant va.toNat (pageSize (nbits ctl 0 3)) (ctl.getLsbD 8)

/-- The device without the translations that a `tlbinv` names (R342). -/
def State.invalidated (u : State) (tenant : Nat) (va ctl : Dword) : State :=
  { u with
    cores := u.cores.map fun (e : Nat × Core) => (e.1, { e.2 with tlb := e.2.tlb.filter (tlbKept tenant va ctl) }),
    clusters := u.clusters.map fun (e : Nat × Cluster) => (e.1, { e.2 with l2tlb := e.2.l2tlb.filter (tlbKept tenant va ctl) }) }

section
variable {b c : BitVec 7} {s u : State} {t : Nat} {th v : Thread} (h : Starts (reqTbl (reqTlbinv b c)) s t th u v)
  (hd : u.departs t v 4 none = none) (hz : nbits (v.S c) 10 54 = 0) (hz' : nbits (v.S c) 3 5 = 0) (hs : nbits (v.S c) 0 3 < 5)
include h hd hz hz' hs

theorem tlbinv_completes (hh : (v.S c).getLsbD 9 = false)
    (ha : (u.invalidated v.tenant (v.S b) (v.S c)).accessesOut v.tenant (v.S b).toNat (Nat.max (pageSize (nbits (v.S c) 0 3)) (pageSize 4))
      ((v.S c).getLsbD 8) = false) :
    Ends (.tlbinv b c) s t (advance v.ctx false .seq) ((u.invalidated v.tenant (v.S b) (v.S c)).acquire t v 4) :=
  tbl_done h rfl hd ((if_neg (by simp [hz, hz', hs])).trans ((if_neg (ne_true_of_eq_false ha)).trans (if_neg (ne_true_of_eq_false hh))))

theorem tlbinv_waits
    (ha : (u.invalidated v.tenant (v.S b) (v.S c)).accessesOut v.tenant (v.S b).toNat (Nat.max (pageSize (nbits (v.S c) 0 3)) (pageSize 4))
      ((v.S c).getLsbD 8) = true) :
    Waits (.tlbinv b c) s t 15 ((u.invalidated v.tenant (v.S b) (v.S c)).modThread t fun x => { x with reply := true }) :=
  tbl_waits h rfl hd ((if_neg (by simp [hz, hz', hs])).trans (if_pos ha))

end

/-! ### impset (R343) -/

abbrev reqImpset (b c : BitVec 7) : Req := { word := encodeNat (.impset b c), regs := [b.toNat, c.toNat], reads := [b.toNat, c.toNat] }

/-- Position `p` of a core takes the entry `e1`; the slot that had it keeps a position free of PB (R326, R343). -/
def State.reposition (u : State) (c p : Nat) (e1 : BitVec 16) : State :=
  (u.modCore c fun x => x.setImp p e1).keepPosition c (impSlot ((u.core c).impView p))

section
variable {b c : BitVec 7} {s u : State} {t : Nat} {th v : Thread} (h : Starts (reqTbl (reqImpset b c)) s t th u v)
  (hd : u.departs t v 4 none = none) (hb : nbits (v.S b) 6 58 = 0) (hc : nbits (v.S c) 6 2 = 0) (hc' : nbits (v.S c) 9 55 = 0)
include h hd hb hc hc'

theorem impset_faults (hf : u.impsetBad t v (nbits (v.S b) 0 6) (nbits (v.S c) 0 6) ((v.S c).getLsbD 8) = true) :
    Faults (.impset b c) s (reqImpset b c) u t v 0x06 (v.S b ||| v.S c <<< 8) :=
  tbl_faults h rfl hd ((if_neg (by simp [hb])).trans ((if_neg (by simp [hc, hc'])).trans (if_pos hf)))

section
variable (hf : u.impsetBad t v (nbits (v.S b) 0 6) (nbits (v.S c) 0 6) ((v.S c).getLsbD 8) = false)
include hf

theorem impset_gives (hs : (v.S c).getLsbD 8 = false) : Ends (.impset b c) s t (advance v.ctx false .seq)
    (((u.reposition (coreOf t) (nbits (v.S b) 0 6) (setBits (setBits ((u.core (coreOf t)).impView (nbits (v.S b) 0 6)) 14 1 1) 0 6
      (nbits (v.S c) 0 6))).keepPosition (coreOf t) (nbits (v.S c) 0 6)).acquire t v 4) := by
  refine tbl_done h rfl hd ((if_neg (by simp [hb])).trans ((if_neg (by simp [hc, hc'])).trans ((if_neg (ne_true_of_eq_false hf)).trans ?_)))
  rw [hs]
  rfl

theorem impset_frees (hs : (v.S c).getLsbD 8 = true) : Ends (.impset b c) s t (advance v.ctx false .seq)
    ((u.reposition (coreOf t) (nbits (v.S b) 0 6) (setBits (setBits ((u.core (coreOf t)).impView (nbits (v.S b) 0 6)) 14 1 0) 0 6 0)).acquire
      t v 4) := by
  refine tbl_done h rfl hd ((if_neg (by simp [hb])).trans ((if_neg (by simp [hc, hc'])).trans ((if_neg (ne_true_of_eq_false hf)).trans ?_)))
  rw [hs]
  rfl

end
end

/-! ### bcfg (R344) -/

abbrev reqBcfg (a b c : BitVec 7) : Req :=
  { word := encodeNat (.bcfg a b c), regs := [a.toNat, b.toNat, c.toNat], reads := [b.toNat, c.toNat], writes := [a.toNat] }

section
variable {a b c : BitVec 7} {s u : State} {t : Nat} {th v : Thread} (h : Starts (reqTbl (reqBcfg a b c)) s t th u v)
  (hd : u.departs t v 4 none = none) (hi : (v.S b).toNat ≤ 39) (hz : nbits (v.S c) 16 47 = 0)
include h hd hi hz

section
variable (hr : (v.S c).getLsbD 63 = false) (hp : 1 ≤ nbits (v.S c) 0 16) (hp' : nbits (v.S c) 0 16 ≤ 32768)
include hr hp hp'

theorem bcfg_configures (hw : (u.barrier (dieOf (coreOf t)) (v.S b).toNat).getLsbD 63 = false) :
    Ends (.bcfg a b c) s t (advance (v.setS a 0).ctx false .seq) ((u.setBarrier (dieOf (coreOf t)) (v.S b).toNat
      (BitVec.ofNat 64 (2 ^ 63 + u.barOwner v + nbits (v.S c) 0 16 * 2 ^ 24))).acquire t v 4) :=
  tbl_done h rfl hd ((if_neg (not_lt.mpr hi)).trans ((if_neg (by simp [hz, within, hp, hp'])).trans ((if_pos (by rw [hr]; rfl)).trans
    (if_neg (ne_true_of_eq_false hw)))))

theorem bcfg_busy (hw : (u.barrier (dieOf (coreOf t)) (v.S b).toNat).getLsbD 63 = true) :
    Ends (.bcfg a b c) s t (advance (v.setS a 2).ctx false .seq) (u.acquire t v 4) :=
  tbl_done h rfl hd ((if_neg (not_lt.mpr hi)).trans ((if_neg (by simp [hz, within, hp, hp'])).trans ((if_pos (by rw [hr]; rfl)).trans (if_pos hw))))

end

section
variable (hr : (v.S c).getLsbD 63 = true)
include hr

theorem bcfg_foreign (hm : u.barMine v (u.barrier (dieOf (coreOf t)) (v.S b).toNat) = false) :
    Faults (.bcfg a b c) s (reqBcfg a b c) u t v 0x10 (v.S b) := by
  have hf := tbl_faults (i := .bcfg a b c) h rfl hd (code := 0x10) (tv := BitVec.ofNat 64 (v.S b).toNat) ((if_neg (not_lt.mpr hi)).trans ((if_neg (by rw [hr]; simp [hz])).trans ((if_neg (by rw [hr]; decide)).trans
    (if_pos (by rw [hm]; rfl)))))
  rwa [BitVec.ofNat_toNat, BitVec.setWidth_eq] at hf

section
variable (hm : u.barMine v (u.barrier (dieOf (coreOf t)) (v.S b).toNat) = true)
include hm

theorem bcfg_arrived (hn : nbits (u.barrier (dieOf (coreOf t)) (v.S b).toNat) 8 16 ≠ 0) :
    Ends (.bcfg a b c) s t (advance (v.setS a 8).ctx false .seq) (u.acquire t v 4) :=
  tbl_done h rfl hd ((if_neg (not_lt.mpr hi)).trans ((if_neg (by rw [hr]; simp [hz])).trans ((if_neg (by rw [hr]; decide)).trans
    ((if_neg (by rw [hm]; decide)).trans (if_pos hn)))))

theorem bcfg_releases (hn : nbits (u.barrier (dieOf (coreOf t)) (v.S b).toNat) 8 16 = 0) :
    Ends (.bcfg a b c) s t (advance (v.setS a 0).ctx false .seq)
      (((u.setBarrier (dieOf (coreOf t)) (v.S b).toNat (setBits (u.barrier (dieOf (coreOf t)) (v.S b).toNat) 63 1 0)).releaseBar
        (dieOf (coreOf t)) (v.S b).toNat).acquire t v 4) :=
  tbl_done h rfl hd ((if_neg (not_lt.mpr hi)).trans ((if_neg (by rw [hr]; simp [hz])).trans ((if_neg (by rw [hr]; decide)).trans
    ((if_neg (by rw [hm]; decide)).trans (if_neg (not_not.mpr hn))))))

end
end
end

/-- Settles O43: `tlbinv`, `impset` and `bcfg` by the answers of their table functions (`tbl_done`, `tbl_waits`, `tbl_faults`), and the table of
positions as it reads after a change (`impView_setImp`, `keepPosition_view`). -/
theorem tableResults : Obligations.TableResults :=
  ⟨fun _ _ _ _ _ h hd hz hz' hs hh => ⟨tlbinv_completes (h.starts _) hd hz hz' hs hh, tlbinv_waits (h.starts _) hd hz hz' hs⟩,
    fun _ _ _ _ _ h hd hb hc hc' => ⟨fun hf => ⟨impset_gives (h.starts _) hd hb hc hc' hf, impset_frees (h.starts _) hd hb hc hc' hf⟩,
      impset_faults (h.starts _) hd hb hc hc'⟩,
    fun x p q e => ⟨(impView_setImp x p p e).trans (if_pos rfl), fun hq => (impView_setImp x p q e).trans (if_neg hq)⟩,
    fun s c slot q _ => keepPosition_view s c slot q,
    fun _ _ _ _ _ _ h hd hi hz => ⟨fun hr hp hp' => bcfg_configures (h.starts _) hd hi hz hr hp hp',
      fun hr hp hp' => bcfg_busy (h.starts _) hd hi hz hr hp hp', fun hr => bcfg_foreign (h.starts _) hd hi hz hr,
      fun hr hm => bcfg_arrived (h.starts _) hd hi hz hr hm, fun hr hm => bcfg_releases (h.starts _) hd hi hz hr hm⟩⟩

end Sys2Proof.Machine
end

/-! The machine level: `ptset`, `keyld`, `qsce`, `impw`, `tstop`, `tresume`, `sysret` and `dump` (R375, R377 to R381). -/

section
namespace Sys2Proof.Machine

/-! ### ptset and keyld (R377, R378) -/

abbrev reqPtset (d a b : BitVec 7) : Req := sysp (syspWord d a b 0) [d.toNat, a.toNat, b.toNat] [a.toNat, b.toNat] [d.toNat]

section
variable {d a b : BitVec 7} {s u : State} {t : Nat} {th v : Thread} (h : Starts (reqPtset d a b) s t th u v)
  (h0 : nbits (v.S a) 0 3 = 0) (h46 : nbits (v.S a) 46 2 = 0) (h54 : nbits (v.S a) 54 2 = 0) (h58 : nbits (v.S a) 58 4 = 0)
include h h0 h46 h54 h58

theorem ptset_refuses (hs : u.ptStatus (nbits (v.S a) 48 6) (nbits (v.S a) 3 43 * 8) (nbits (v.S a) 56 2) ((v.S a).getLsbD 62) (v.S b) ≠ 0) :
    Completes (.ptset d a b) s t (advance (v.setS d (BitVec.ofNat 64 (u.ptStatus (nbits (v.S a) 48 6) (nbits (v.S a) 3 43 * 8)
      (nbits (v.S a) 56 2) ((v.S a).getLsbD 62) (v.S b)))).ctx false .seq) :=
  h.completes rfl ((if_neg (by simp [h0, h46, h54, h58])).trans (if_pos hs))

theorem ptset_writes (hs : u.ptStatus (nbits (v.S a) 48 6) (nbits (v.S a) 3 43 * 8) (nbits (v.S a) 56 2) ((v.S a).getLsbD 62) (v.S b) = 0)
    (hg : (v.S a).getLsbD 62 = false) (hz : (v.S a).getLsbD 63 = false) :
    Ends (.ptset d a b) s t (advance (v.setS d 0).ctx false .seq) (u.modTables fun x =>
      { x with ptes := mput x.ptes (nbits (v.S a) 3 43 * 8) (ptNew (mgetD x.ptes (nbits (v.S a) 3 43 * 8) 0) (v.S b)) }) := by
  refine h.ends rfl ((if_neg (by simp [h0, h46, h54, h58])).trans ((if_neg (not_not.mpr hs)).trans ?_))
  rw [hg, hz]
  rfl

end

abbrev reqKeyld (d a b : BitVec 7) : Req := sysp (syspWord d a b 1) [d.toNat, a.toNat, b.toNat] [a.toNat, b.toNat] [d.toNat, b.toNat]

/-- The status of a `keyld` with the control `w`: 1 for a key that is loaded already, 2 for key 0 of another tenant than 0 (R378). -/
def State.keyStatus (u : State) (w : Dword) : Nat :=
  if (mget u.tables.keys (nbits w 0 10)).isSome && !w.getLsbD 63 then 1 else if nbits w 0 10 = 0 ∧ nbits w 16 6 ≠ 0 then 2 else 0

/-- A key is loaded, or cleared (R378). -/
def State.keyed (u : State) (w : Dword) (data : Vec) : State := u.modTables fun x =>
  { x with keys := if w.getLsbD 63 then mdel x.keys (nbits w 0 10) else mput x.keys (nbits w 0 10) { data := data, tenant := nbits w 16 6 } }

section
variable {d a b : BitVec 7} {s u : State} {t : Nat} {th v : Thread} (h : Starts (reqKeyld d a b) s t th u v)
  (h10 : nbits (v.S a) 10 6 = 0) (h22 : nbits (v.S a) 22 41 = 0)
include h h10 h22

theorem keyld_ends : Ends (.keyld d a b) s t (advance ((v.setS d (BitVec.ofNat 64 (u.keyStatus (v.S a)))).setV b 0).ctx false .seq)
    (if u.keyStatus (v.S a) ≠ 0 then u else u.keyed (v.S a) (v.V b)) :=
  h.ends rfl (if_neg (by simp [h10, h22]))

theorem keyld_refused {n : Nat} (hs : u.keyStatus (v.S a) = n) (hn : n ≠ 0) :
    Completes (.keyld d a b) s t (advance ((v.setS d (BitVec.ofNat 64 n)).setV b 0).ctx false .seq) := by
  have hk := keyld_ends h h10 h22
  rw [hs, if_pos hn] at hk
  exact h.untouched.trans_ends hk

theorem keyld_busy (hk : mget u.tables.keys (nbits (v.S a) 0 10) ≠ none) (hc : (v.S a).getLsbD 63 = false) :
    Completes (.keyld d a b) s t (advance ((v.setS d 1).setV b 0).ctx false .seq) :=
  keyld_refused h h10 h22 (if_pos (by rw [hc, Option.isSome_iff_ne_none.mpr hk]; rfl)) one_ne_zero

theorem keyld_reserved (hk : mget u.tables.keys (nbits (v.S a) 0 10) = none ∨ (v.S a).getLsbD 63 = true) (h0 : nbits (v.S a) 0 10 = 0)
    (hn : nbits (v.S a) 16 6 ≠ 0) : Completes (.keyld d a b) s t (advance ((v.setS d 2).setV b 0).ctx false .seq) := by
  refine keyld_refused h h10 h22 ((if_neg ?_).trans (if_pos ⟨h0, hn⟩)) two_ne_zero
  rcases hk with hk | hk <;> rw [hk] <;> simp

section
variable (h0 : nbits (v.S a) 0 10 = 0 → nbits (v.S a) 16 6 = 0)
include h0

theorem keyld_loads (hk : mget u.tables.keys (nbits (v.S a) 0 10) = none) (hc : (v.S a).getLsbD 63 = false) :
    Ends (.keyld d a b) s t (advance ((v.setS d 0).setV b 0).ctx false .seq) (u.modTables fun x =>
      { x with keys := mput x.keys (nbits (v.S a) 0 10) { data := v.V b, tenant := nbits (v.S a) 16 6 } }) := by
  have hs : u.keyStatus (v.S a) = 0 := (if_neg (by simp [hk])).trans (if_neg fun hn => hn.2 (h0 hn.1))
  have he := keyld_ends h h10 h22
  rw [hs, State.keyed, hc] at he
  exact he

theorem keyld_clears (hc : (v.S a).getLsbD 63 = true) :
    Ends (.keyld d a b) s t (advance ((v.setS d 0).setV b 0).ctx false .seq) (u.modTables fun x =>
      { x with keys := mdel x.keys (nbits (v.S a) 0 10) }) := by
  have hs : u.keyStatus (v.S a) = 0 := (if_neg (by rw [hc]; simp)).trans (if_neg fun hn => hn.2 (h0 hn.1))
  have he := keyld_ends h h10 h22
  rw [hs, State.keyed, hc] at he
  exact he

end
end

/-! ### qsce and impw (R379, R380) -/

abbrev reqQsce (d a : BitVec 7) : Req := sysp (syspWord d a 0 4) [d.toNat, a.toNat] [a.toNat] [d.toNat]

section
variable {d a : BitVec 7} {s u : State} {t : Nat} {th v : Thread} (h : Starts (reqQsce d a) s t th u v)
  (h2 : nbits (v.S a) 2 2 = 0) (h7 : nbits (v.S a) 7 1 = 0) (h9 : nbits (v.S a) 9 55 = 0)
include h h2 h7 h9

theorem qsce_lifts (hc : (v.S a).getLsbD 8 = true) : Ends (.qsce d a) s t (advance (v.setS d 0).ctx false .seq)
    (u.modRow (nbits (v.S a) 0 2 * 8 + nbits (v.S a) 4 3) fun x => { x with held := false }) :=
  h.ends rfl ((if_neg (by simp [h2, h7, h9])).trans (if_pos hc))

section
variable (hc : (v.S a).getLsbD 8 = false)
include hc

theorem qsce_holds (hb : (u.modRow (nbits (v.S a) 0 2 * 8 + nbits (v.S a) 4 3) fun x => { x with held := true }).rowBusy
      (nbits (v.S a) 0 2 * 8 + nbits (v.S a) 4 3) = false) : Ends (.qsce d a) s t (advance (v.setS d 0).ctx false .seq)
    (u.modRow (nbits (v.S a) 0 2 * 8 + nbits (v.S a) 4 3) fun x => { x with held := true }) :=
  h.ends rfl ((if_neg (by simp [h2, h7, h9])).trans ((if_neg (ne_true_of_eq_false hc)).trans (if_neg (ne_true_of_eq_false hb))))

theorem qsce_waits (hb : (u.modRow (nbits (v.S a) 0 2 * 8 + nbits (v.S a) 4 3) fun x => { x with held := true }).rowBusy
      (nbits (v.S a) 0 2 * 8 + nbits (v.S a) 4 3) = true) : Waits (.qsce d a) s t 15
    (u.modRow (nbits (v.S a) 0 2 * 8 + nbits (v.S a) 4 3) fun x => { x with held := true }) :=
  h.waits rfl ((if_neg (by simp [h2, h7, h9])).trans ((if_neg (ne_true_of_eq_false hc)).trans (if_pos hb)))

end
end

abbrev reqImpw (a b : BitVec 7) : Req := sysp (syspWord 0 a b 5) [a.toNat, b.toNat] [a.toNat, b.toNat] []

/-- The slot that had position `p` of core `c`, and slot `k`, keep a position free of PB in the state `x` (R326, R380). -/
def State.keepBoth (u : State) (c p k : Nat) (x : State) : State :=
  (x.keepPosition c (impSlot ((u.core c).impView p))).keepPosition c k

section
variable {a b : BitVec 7} {s u : State} {t : Nat} {th v : Thread} (h : Starts (reqImpw a b) s t th u v)
  (h9 : nbits (v.S a) 9 7 = 0) (h22 : nbits (v.S a) 22 42 = 0) (h16 : nbits (v.S b) 16 48 = 0)
include h h9 h22 h16

theorem impw_writes
    (hw : (u.modCore (nbits (v.S a) 0 9) fun x => x.setImp (nbits (v.S a) 16 6) (bits (v.S b) 0 16)).positionsLegal (nbits (v.S a) 0 9) = true) :
    Ends (.impw a b) s t (advance v.ctx false .seq) (u.keepBoth (nbits (v.S a) 0 9) (nbits (v.S a) 16 6) (nbits (v.S b) 0 6)
      (u.modCore (nbits (v.S a) 0 9) fun x => x.setImp (nbits (v.S a) 16 6) (bits (v.S b) 0 16))) := by
  refine h.ends rfl ((if_neg (by simp [h9, h22])).trans ((if_neg (not_not.mpr h16)).trans ?_))
  dsimp only
  rw [if_pos hw]
  rfl

theorem impw_refuses
    (hw : (u.modCore (nbits (v.S a) 0 9) fun x => x.setImp (nbits (v.S a) 16 6) (bits (v.S b) 0 16)).positionsLegal (nbits (v.S a) 0 9) = false) :
    Ends (.impw a b) s t (advance v.ctx false .seq) (u.keepBoth (nbits (v.S a) 0 9) (nbits (v.S a) 16 6) (nbits (v.S b) 0 6) u) := by
  refine h.ends rfl ((if_neg (by simp [h9, h22])).trans ((if_neg (not_not.mpr h16)).trans ?_))
  dsimp only
  rw [if_neg (ne_true_of_eq_false hw)]
  rfl

end

/-! ### sysret and dump (R375, R380, R381) -/

abbrev reqSysret : Req := { sysp (syspWord 0 0 0 2) [] [] [] with flow := true }

/-- States that differ in one thread alone do so when a core's run of the machine level has ended in both. -/
theorem Untouched.endMrun {s s' : State} {t : Nat} (h : Untouched s s' t) (c : Nat) :
    Untouched (s.modCore c fun x => { x with mrun := false }) (s'.modCore c fun x => { x with mrun := false }) t :=
  { h with
    cores := fun d => by
      have hd := h.cores d
      simp only [State.core_modCore]
      split
      · next e => subst e; exact congrArg (fun x : Core => { x with mrun := false }) hd
      · exact hd }

section
variable {s u : State} {t : Nat} {th v : Thread} (h : Starts reqSysret s t th u v)
include h

theorem sysret_returns (hm : (u.core (coreOf t)).mrun = true) :
    Ends .sysret s t { v.ctx with pc := wordAligned (u.core (coreOf t)).mepc } (u.modCore (coreOf t) fun x => { x with mrun := false }) := by
  obtain ⟨hc, hu⟩ := finish_spec u t v reqSysret (.to (wordAligned (u.core (coreOf t)).mepc)) Rob.none rfl
  exact ⟨_, (h.runs (i := .sysret) rfl).trans (if_neg (by rw [hm]; decide)), hc, hu.endMrun (coreOf t)⟩

theorem sysret_outside (hm : (u.core (coreOf t)).mrun = false) :
    Faults .sysret s reqSysret u t v 0x01 (BitVec.ofNat 64 (syspWord 0 0 0 2)) :=
  h.faults rfl (if_pos (by rw [hm]; rfl))

end

abbrev reqDump : Req := sysp (syspWord 0 0 0 3) [] [] []

theorem fatalError_posted (s : State) (c k cause : Nat) : (fatalError s c k cause).host.posted = s.host.posted := rfl

theorem dump_stops {s u : State} {t : Nat} {th v : Thread} (h : Starts reqDump s t th u v) :
    ∃ s' w, exec .dump s = .next s' ∧ s'.host.phase = .stopping (coreOf t) (slotOf t) (Config.dumpCause 0).toNat ∧ s'.sched.issue = false ∧
      s'.mem = s.mem ∧ s'.tables = s.tables ∧ s'.host.posted = s.host.posted ∧
      (s'.core (coreOf t)).mq = (u.core (coreOf t)).mq ++ [w] ∧ nbits w.1 0 8 = (Config.dumpCause 0).toNat % 256 := by
  obtain ⟨-, hu⟩ := finish_spec u t v reqDump .seq Rob.none rfl
  have hs := h.untouched.trans hu
  obtain ⟨w, hp, hi, -, hm, he, hq, hw⟩ := fatalError_stops (finish u t v reqDump .seq) (coreOf t) (slotOf t) (Config.dumpCause 0).toNat
  refine ⟨_, w, h.runs (i := .dump) rfl, hp, hi, hm.trans hs.mem, (congrArg State.tables he).trans hs.tables, ?_, ?_, hw⟩
  · exact (fatalError_posted ..).trans (congrArg HostIf.posted hs.host)
  · rw [hq, hu.core Core.mq fun _ => rfl]

/-! ### tstop and tresume (R380) -/

@[simp] theorem Thread.settle_away (y : Thread) (e : Rob) (c : Prop) [Decidable c] : (y.settle e c).away = y.away := by
  unfold Thread.settle
  split_ifs <;> rfl

@[simp] theorem Thread.counted_away (x : Thread) : x.counted.away = x.away := by unfold Thread.counted; split <;> rfl

/-- The thread that completes an instruction stays where it is. -/
theorem finish_away (u : State) (t : Nat) (v : Thread) (q : Req) (nx : Next) :
    ∃ y, (finish u t v q nx).thread? t = some y ∧ y.away = v.away := by
  obtain ⟨w, n, -, ht⟩ := finish_threads u t v q nx Rob.none rfl rfl
  exact ⟨_, (ht t).trans (if_pos rfl), by simp [Thread.afterwards]⟩

/-- Any other thread stays where it is, and keeps on. -/
theorem finish_beside {u : State} {t k : Nat} {v x : Thread} {q : Req} {nx : Next} (hk : k ≠ t) (hx : u.thread? k = some x) :
    ∃ y, (finish u t v q nx).thread? k = some y ∧ y.away = x.away ∧ y.ending = x.ending := by
  obtain ⟨w, n, hw, ht⟩ := finish_threads u t v q nx Rob.none rfl rfl
  obtain ⟨g, hg, e⟩ := hw.2 k
  obtain ⟨r, m, hr⟩ := hg x
  refine ⟨g x, ?_, ?_⟩
  · rw [ht, if_neg hk, e, State.thread?_congr (State.issuedBy_threads u t v), hx]
    rfl
  · rw [hr]
    exact ⟨rfl, rfl⟩

/-- The slot where a thread of a user slot runs. -/
theorem runsFor_eq (s : State) (c : Nat) {slot : Nat} (hl : slot < 64) (h : slot ≠ 63) :
    s.runsFor c slot = (s.thread? (c * 64 + slot)).map fun y => y.away.getD (c * 64 + slot) := by
  have hs : slotOf (c * 64 + slot) ≠ 63 := by unfold slotOf; omega
  unfold State.runsFor State.thread?
  rw [if_neg h]
  cases mget s.threads (c * 64 + slot) with
  | none => rw [if_neg fun hn => hs hn.1]; rfl
  | some y => rfl

/-- The thread of a user slot still runs where it ran once an instruction has completed. -/
theorem Starts.runsFor {q : Req} {s u : State} {t c slot : Nat} {th v y : Thread} (h : Starts q s t th u v)
    (hy : mget u.threads (c * 64 + slot) = some y) (hl : slot < 64) (hs : slot ≠ 63) (nx : Next) :
    (finish u t v q nx).runsFor c slot = some (y.away.getD (c * 64 + slot)) := by
  have hu : u.thread? (c * 64 + slot) = some y := by rw [State.thread?, hy]
  rw [runsFor_eq _ _ hl hs]
  by_cases ht : c * 64 + slot = t
  · obtain ⟨z, hz, ha⟩ := finish_away u t v q nx
    obtain ⟨b, n, hb, rfl⟩ := h.live
    rw [ht] at hu ⊢
    rw [hz, Option.map_some, ha, Thread.counted_away, Option.some.inj (hu.symm.trans hb)]
  · obtain ⟨z, hz, ha, -⟩ := finish_beside (v := v) (q := q) (nx := nx) ht hu
    rw [hz, Option.map_some, ha]

section
variable (s : State) (k : Nat) (on : Bool) (f : Thread → Thread)

theorem stopSlots_keeps : (s.stopSlots k on).threads = s.threads ∧ (s.stopSlots k on).mem = s.mem := by
  unfold State.stopSlots
  split
  · exact ⟨rfl, rfl⟩
  · dsimp only
    split <;> exact ⟨rfl, rfl⟩

theorem modRunning_standing {x : Thread} (hx : s.thread? k = some x) (ha : x.away ≠ some k) : s.modRunning k f = s.modThread k f := by
  rw [State.modRunning, hx]
  exact if_neg ha

theorem modRunning_moving {x : Thread} (hx : s.thread? k = some x) (ha : x.away = some k) : s.modRunning k f = s.modMoving k f := by
  rw [State.modRunning, hx]
  exact if_pos ha

/-- A core's migrants of a home slot are changed (R380). -/
def Core.reroute (x : Core) : Core :=
  { x with migrants := x.migrants.map fun m => if m.home = k then { m with thread := f m.thread } else m }

/-- Between two cores, every context of the home slot is changed. -/
theorem modMoving_migrants {P : Thread → Prop} (hf : ∀ x, P (f x)) (c : Nat) (m : Migrant) (hm : m ∈ ((s.modMoving k f).core c).migrants)
    (hk : m.home = k) : P m.thread := by
  have hc : (s.modMoving k f).core c = ((mget s.cores c).map (Core.reroute k f)).getD Core.reset :=
    congrArg (Option.getD · Core.reset) (mget_mapValues s.cores (Core.reroute k f) c)
  rw [hc] at hm
  cases hx : mget s.cores c with
  | none => rw [hx] at hm; cases hm
  | some x =>
    rw [hx] at hm
    obtain ⟨m', -, rfl⟩ := List.mem_map.mp hm
    by_cases h : m'.home = k
    · rw [if_pos h]
      exact hf _
    · rw [if_neg h] at hk
      exact absurd hk h

theorem modMoving_returns {P : Thread → Prop} (hf : ∀ x, P (f x)) (r : Return) (hr : r ∈ (s.modMoving k f).flight.returns)
    (hk : r.thread.home = k) : P r.thread := by
  obtain ⟨r', -, rfl⟩ := List.mem_map.mp hr
  by_cases h : r'.thread.home = k
  · rw [if_pos h]
    exact hf _
  · rw [if_neg h] at hk
    exact absurd hk h

/-- A thread that is not to end is not ended. -/
theorem endNow_goesOn {x : Thread} (hx : s.thread? k = some x) (he : x.ending = false) : s.endNow k = s := by
  rw [State.endNow, hx]
  exact if_neg (by simp [he])

end

@[simp] theorem Thread.stop_stopped (x : Thread) (e : Bool) : (x.stop e).stopped = true := by
  unfold Thread.stop
  split <;> rfl

@[simp] theorem Thread.stop_ending (x : Thread) : (x.stop false).ending = x.ending := by
  unfold Thread.stop
  split
  · simp
  · dsimp only
    split <;> simp [Thread.discard]

section
variable {s u : State} {t k : Nat} {th v y : Thread} {q : Req}

/-- What `tstop` does once its own instruction has completed (R380). -/
def State.stopRunning (w : State) (k : Nat) (e : Bool) : State :=
  let s := match w.thread? k with | some y => w.count k y 0x04 y.rob.length | none => w
  ((s.stopSlots k true).modRunning k fun y => y.stop e).endNow k

/-- The state in which the thread of slot `k` is about to be stopped: its discarded instructions are counted and its positions are stopped. -/
theorem stopRunning_eq {w : State} {x : Thread} (hx : w.thread? k = some x) (e : Bool) :
    ∃ z : State, w.stopRunning k e = (z.modRunning k fun y => y.stop e).endNow k ∧ z.threads = w.threads ∧ z.mem = w.mem := by
  obtain ⟨ht, hm⟩ := stopSlots_keeps (w.count k x 0x04 x.rob.length) k true
  refine ⟨(w.count k x 0x04 x.rob.length).stopSlots k true, ?_, ht.trans (State.count_threads ..), hm.trans ?_⟩
  · rw [State.stopRunning, hx]
  · exact (untouched_count w k k x 0x04 x.rob.length).mem

theorem stopRunning_standing {w : State} {x : Thread} (hx : w.thread? k = some x) (he : x.ending = false) (ha : x.away ≠ some k) :
    (w.stopRunning k false).thread? k = some (x.stop false) ∧ (w.stopRunning k false).mem = w.mem ∧
      ∀ j, j ≠ k → (w.stopRunning k false).thread? j = w.thread? j := by
  obtain ⟨z, hz, ht, hm⟩ := stopRunning_eq hx false
  have hzx : z.thread? k = some x := (State.thread?_congr ht k).trans hx
  have hs : (z.modThread k fun y => y.stop false).thread? k = some (x.stop false) := by
    rw [State.thread?_modThread, if_pos rfl, hzx]
    rfl
  rw [hz, modRunning_standing z k _ hzx ha, endNow_goesOn _ k hs (by simpa using he)]
  refine ⟨hs, (State.modThread_mem ..).trans hm, fun j hj => ?_⟩
  rw [State.thread?_modThread, if_neg hj, State.thread?_congr ht]

theorem stopRunning_moving {w : State} {x : Thread} (hx : w.thread? k = some x) (he : x.ending = false) (ha : x.away = some k) :
    (w.stopRunning k false).mem = w.mem ∧ (w.stopRunning k false).threads = w.threads ∧
      (∀ c, ∀ m ∈ ((w.stopRunning k false).core c).migrants, m.home = k → m.thread.stopped = true) ∧
      ∀ r ∈ (w.stopRunning k false).flight.returns, r.thread.home = k → r.thread.stopped = true := by
  obtain ⟨z, hz, ht, hm⟩ := stopRunning_eq hx false
  have hzx : z.thread? k = some x := (State.thread?_congr ht k).trans hx
  have hs : (z.modMoving k fun y => y.stop false).thread? k = some x := (State.thread?_congr rfl k).trans hzx
  rw [hz, modRunning_moving z k _ hzx ha, endNow_goesOn _ k hs he]
  exact ⟨hm, ht, fun c => modMoving_migrants z k _ (P := fun y => y.stopped = true) (fun y => y.stop_stopped false) c,
    modMoving_returns z k _ (P := fun y => y.stopped = true) fun y => y.stop_stopped false⟩

end

abbrev reqTstop (a b : BitVec 7) : Req := sysp (syspWord 0 a b 6) [a.toNat, b.toNat] [a.toNat, b.toNat] []

section
variable {a b : BitVec 7} {s u : State} {t k : Nat} {th v y : Thread} (h : Starts (reqTstop a b) s t th u v)
  (h9 : nbits (v.S a) 9 7 = 0) (h22 : nbits (v.S a) 22 42 = 0) (hb : v.S b = 0)
  (hy : mget u.threads (nbits (v.S a) 0 9 * 64 + nbits (v.S a) 16 6) = some y) (hs : nbits (v.S a) 16 6 ≠ 63)
  (hk : k = y.away.getD (nbits (v.S a) 0 9 * 64 + nbits (v.S a) 16 6))
include h h9 h22 hb hy hs hk

theorem exec_tstop : exec (.tstop a b) s = .next ((finish u t v (reqTstop a b) .seq).stopRunning k false) := by
  have hr := h.runsFor hy (Nat.mod_lt _ (by norm_num)) hs .seq
  rw [← hk] at hr
  refine (h.runs (i := .tstop a b) rfl).trans ((if_neg (by simp [h9, h22])).trans ((if_neg (by rw [hb]; decide)).trans ?_))
  rw [hb]
  dsimp only
  erw [hr]
  rfl

section
variable (hkt : k ≠ t) {x : Thread} (hx : u.thread? k = some x) (he : x.ending = false)
include hkt hx he

theorem tstop_standing (ha : x.away ≠ some k) : ∃ s' z, exec (.tstop a b) s = .next s' ∧ s'.thread? k = some z ∧ z.stopped = true ∧
    s'.mem = s.mem ∧ (s'.thread? t).map Thread.ctx = some (advance v.ctx false .seq) := by
  obtain ⟨z, hz, hza, hze⟩ := finish_beside (v := v) (q := reqTstop a b) (nx := .seq) hkt hx
  obtain ⟨hc, hu⟩ := finish_spec u t v (reqTstop a b) .seq Rob.none rfl
  obtain ⟨hst, hm, ho⟩ := stopRunning_standing hz (hze.trans he) (hza ▸ ha)
  exact ⟨_, _, exec_tstop h h9 h22 hb hy hs hk, hst, by simp, (hm.trans hu.mem).trans h.untouched.mem, by rw [ho t hkt.symm, hc]; rfl⟩

theorem tstop_moving (ha : x.away = some k) : ∃ s', exec (.tstop a b) s = .next s' ∧ s'.mem = s.mem ∧
    (s'.thread? t).map Thread.ctx = some (advance v.ctx false .seq) ∧
    (∀ c, ∀ m ∈ (s'.core c).migrants, m.home = k → m.thread.stopped = true) ∧
    ∀ r ∈ s'.flight.returns, r.thread.home = k → r.thread.stopped = true := by
  obtain ⟨z, hz, hza, hze⟩ := finish_beside (v := v) (q := reqTstop a b) (nx := .seq) hkt hx
  obtain ⟨hc, hu⟩ := finish_spec u t v (reqTstop a b) .seq Rob.none rfl
  obtain ⟨hm, ht, hmig, hret⟩ := stopRunning_moving hz (hze.trans he) (hza.trans ha)
  exact ⟨_, exec_tstop h h9 h22 hb hy hs hk, (hm.trans hu.mem).trans h.untouched.mem,
    by rw [State.thread?_congr ht, hc]; rfl, hmig, hret⟩

end
end

abbrev reqTresume (a : BitVec 7) : Req := sysp (syspWord 0 a 0 7) [a.toNat] [a.toNat] []

/-- A stopped thread that goes on, its watchdog anew (R376, R380). -/
def Thread.resumed (wdog : Nat) (y : Thread) : Thread := { y with stopped := y.ending, bkSkip := true, wdog := wdog, idle := 0 }

theorem tresume_goesOn {a : BitVec 7} {s u : State} {t k : Nat} {th v x y : Thread} (h : Starts (reqTresume a) s t th u v)
    (h9 : nbits (v.S a) 9 7 = 0) (h22 : nbits (v.S a) 22 42 = 0)
    (hy : mget u.threads (nbits (v.S a) 0 9 * 64 + nbits (v.S a) 16 6) = some y) (hs : nbits (v.S a) 16 6 ≠ 63)
    (hk : k = y.away.getD (nbits (v.S a) 0 9 * 64 + nbits (v.S a) 16 6)) (hkt : k ≠ t) (hx : u.thread? k = some x)
    (he : x.ending = false) (ha : x.away ≠ some k) : ∃ s' z, exec (.tresume a) s = .next s' ∧ s'.thread? k = some z ∧
      z.stopped = false ∧ z.bkSkip = true ∧ s'.mem = s.mem ∧ (s'.thread? t).map Thread.ctx = some (advance v.ctx false .seq) := by
  have hr := h.runsFor hy (Nat.mod_lt _ (by norm_num)) hs .seq
  rw [← hk] at hr
  obtain ⟨z, hz, hza, hze⟩ := finish_beside (v := v) (q := reqTresume a) (nx := .seq) hkt hx
  obtain ⟨hc, hu⟩ := finish_spec u t v (reqTresume a) .seq Rob.none rfl
  obtain ⟨ht, hm⟩ := stopSlots_keeps (finish u t v (reqTresume a) .seq) k false
  let w := (finish u t v (reqTresume a) .seq).stopSlots k false
  let wdog := ((finish u t v (reqTresume a) .seq).core (coreOf k)).wdog
  have hw : w.thread? k = some z := (State.thread?_congr ht k).trans hz
  have hr' : w.modRunning k (Thread.resumed wdog) = w.modThread k (Thread.resumed wdog) := modRunning_standing w k _ hw (hza ▸ ha)
  refine ⟨w.modThread k (Thread.resumed wdog), z.resumed wdog, ?_, ?_, hze.trans he, rfl, ?_, ?_⟩
  · refine (h.runs (i := .tresume a) rfl).trans ((if_neg (by simp [h9, h22])).trans ?_)
    rw [← hr']
    dsimp only
    erw [hr]
    rfl
  · rw [State.thread?_modThread, if_pos rfl, hw]
    rfl
  · exact ((State.modThread_mem ..).trans (hm.trans hu.mem)).trans h.untouched.mem
  · rw [State.thread?_modThread, if_neg hkt.symm, State.thread?_congr ht, hc]
    rfl

/-- Settles O44: each instruction by the checks of its control; a `tstop` or `tresume` acts on the thread where it stands once its own
instruction has completed (`Starts.runsFor`, `stopRunning_standing`), or on the contexts that are between two cores (`stopRunning_moving`). -/
theorem machineResults : Obligations.MachineResults := by
  refine ⟨fun _ _ _ _ _ _ h h0 h46 h54 h58 => ⟨ptset_refuses h.starts h0 h46 h54 h58, ptset_writes h.starts h0 h46 h54 h58⟩,
    fun _ _ _ _ _ _ h h10 h22 => ⟨fun hk h0 => keyld_loads h.starts h10 h22 h0 hk, keyld_busy h.starts h10 h22,
      fun h0 => keyld_clears h.starts h10 h22 h0, keyld_reserved h.starts h10 h22⟩,
    fun _ _ _ _ _ h h2 h7 h9 => ⟨qsce_lifts h.starts h2 h7 h9, qsce_holds h.starts h2 h7 h9, qsce_waits h.starts h2 h7 h9⟩,
    fun _ _ _ _ _ h h9 h22 h16 => ⟨impw_writes h.starts h9 h22 h16, impw_refuses h.starts h9 h22 h16⟩, ?_, ?_,
    fun _ _ _ h => sysret_returns h.starts, fun _ _ _ h => sysret_outside h.starts, fun _ _ _ h => dump_stops h.starts⟩
  · intro a b s t th k y q h u v h9 h22 hb hy hs hk hkt hl he
    obtain ⟨x, hx⟩ := Option.isSome_iff_exists.mp hl
    rw [hx]
    exact ⟨fun ha => tstop_standing h.starts h9 h22 hb hy hs hk hkt hx (he x hx) ha,
      fun ha => tstop_moving h.starts h9 h22 hb hy hs hk hkt hx (he x hx) ha⟩
  · intro a s t th k y q h u v h9 h22 hy hs hk hkt hl he ha
    obtain ⟨x, hx⟩ := Option.isSome_iff_exists.mp hl
    rw [hx] at ha
    exact tresume_goesOn h.starts h9 h22 hy hs hk hkt hx (he x hx) ha

end Sys2Proof.Machine
end

/-! A device that does not run (R381, R389). -/

section
namespace Sys2Proof.Machine

section
variable {s : State}

theorem stepAlone_halted (hr : s.host.phase ≠ .running) (hs : ∀ c k x, s.host.phase ≠ .stopping c k x) : stepAlone s = .next s := by
  unfold stepAlone
  split
  · next h => exact absurd h (hs _ _ _)
  · exact if_pos (by simp [hr])

/-- An event that the phase does not take is dropped from the list of what is to happen (R389). -/
theorem stepOnce_untaken {i : Instr} {rest : List Instr} (ha : s.sched.agenda = i :: rest)
    (hi : isEvent i = true → s.host.phase.takes i = false) : stepOnce s = .next { s with sched := { s.sched with agenda := rest } } := by
  unfold stepOnce
  rw [ha]
  refine if_neg ?_
  cases he : isEvent i with
  | false => simp
  | true => simp [hi he]

/-- The list of what is to happen may only get shorter. -/
theorem State.dormant.drop {rest : List Instr} (h : s.dormant) (hr : ∀ i ∈ rest, i ∈ s.sched.agenda) :
    State.dormant { s with sched := { s.sched with agenda := rest } } := by
  obtain ⟨hp, hs, ha⟩ := h
  exact ⟨hp, hs, fun i hi => ha i (hr i hi)⟩

end

/-- Settles O60: by what is to happen next: nothing (`stepAlone_halted`), or something that the phase does not take (`stepOnce_untaken`). -/
theorem dormantStays : Obligations.DormantStays := by
  intro s s' h hx
  obtain ⟨hp, hs, ha⟩ := id h
  cases hl : s.sched.agenda with
  | nil =>
    have he : step s = .next s := by
      rw [step, stepOnce, hl]
      exact stepAlone_halted hp hs
    obtain rfl : s = s' := Host.Outcome.next.inj (he.symm.trans hx)
    exact ⟨h, rfl⟩
  | cons i rest =>
    have he := stepOnce_untaken hl (ha i (by rw [hl]; exact List.mem_cons_self))
    obtain rfl := Host.Outcome.next.inj (he.symm.trans hx)
    exact ⟨h.drop fun j hj => by rw [hl]; exact List.mem_cons_of_mem i hj, rfl⟩

end Sys2Proof.Machine
end

/-! What management and peers do: exports, windows, tenants, the report, the checkpoint, and the accesses through exports (R203, R327, R329,
R387, R388, R390, R395). -/

section
namespace Sys2Proof.Machine

/-! ### Maps from which entries have gone -/

/-- What a filter takes out under a key is gone. -/
theorem mget_filter_none {α : Type} {m : Map α} {p : Nat × α → Bool} {k : Nat} (h : ∀ v, p (k, v) = false) : mget (m.filter p) k = none := by
  induction m with
  | nil => rfl
  | cons e rest ih =>
    obtain ⟨j, v⟩ := e
    by_cases hk : k = j
    · subst hk
      rw [List.filter_cons_of_neg (by simp [h v]), ih]
    · by_cases hp : p (j, v) = true
      · rw [List.filter_cons_of_pos hp, mget, if_neg hk, ih]
      · rw [List.filter_cons_of_neg hp, ih]

theorem mget_mdel_self {α : Type} (m : Map α) (k : Nat) : mget (mdel m k) k = none := by rw [mget_mdel, if_pos rfl]

/-! ### Exports and windows (R387, R388) -/

section
variable {s : State} {x : Nat} (hm : s.managed = true)
include hm

theorem exportCfg_sets {remote tenant base units key : Nat} {perm : BitVec 3} {k : Key} (hx : x < 256) (hk : mget s.tables.keys key = some k)
    (ht : k.tenant = tenant) (hb : base % 65536 = 0) :
    ∃ s', exec (.exportCfg x true remote tenant base units perm key) s = .next s' ∧ OnlyHost s s' ∧
      mget s'.host.exports x = some { remote := remote, tenant := tenant, base := base, units := units, perm := perm, key := key } := by
  refine ⟨_, (if_neg (by simp [hm, hx])).trans ((if_neg (by decide)).trans (if_neg ?_)), rfl, mget_mput_self _ _ _⟩
  rw [hk]
  simp [ht, hb]

theorem exportCfg_revokes {remote tenant base units key : Nat} {perm : BitVec 3} (hx : x < 256) :
    ∃ s', exec (.exportCfg x false remote tenant base units perm key) s = .next s' ∧ OnlyHost s s' ∧ mget s'.host.exports x = none :=
  ⟨_, (if_neg (by simp [hm, hx])).trans (if_pos rfl), rfl, mget_mdel_self _ _⟩

theorem peerWindow_opens {tenant dest : Nat} {remote : RemoteExport} (hx : x < 16) :
    ∃ s', exec (.peerWindow x true tenant dest remote) s = .next s' ∧ OnlyHost s s' ∧
      mget s'.host.windows x = some { tenant := tenant, dest := dest, remote := remote.number, units := remote.units, perm := remote.perm } :=
  ⟨_, (if_neg (by simp [hm, hx])).trans (if_neg (by decide)), rfl, mget_mput_self _ _ _⟩

theorem peerWindow_closes {tenant dest : Nat} {remote : RemoteExport} (hx : x < 16) :
    ∃ s', exec (.peerWindow x false tenant dest remote) s = .next s' ∧ OnlyHost s s' ∧ mget s'.host.windows x = none :=
  ⟨_, (if_neg (by simp [hm, hx])).trans (if_pos rfl), rfl, mget_mdel_self _ _⟩

end

/-! ### Tenants (R327, R329, R333) -/

/-- A power of 2 below the width is read as itself. -/
theorem toNat_ofNat_twoPow {w i : Nat} (h : i < w) : (BitVec.ofNat w (2 ^ i)).toNat = 2 ^ i :=
  (BitVec.toNat_ofNat _ _).trans (Nat.mod_eq_of_lt (Nat.pow_lt_pow_right one_lt_two h))

/-- A record that no entry holds is at STATE 0 and GEN 1 (R333). -/
theorem freshShape_fields : nbits freshShape 96 8 = 0 ∧ nbits freshShape 80 12 = 1 := by
  rw [nbits, nbits, freshShape, toNat_ofNat_twoPow (by norm_num)]
  norm_num

theorem shapeAt_absent {s : State} {a : Nat} (h : mget s.tables.shapes a = none) : s.shapeAt a = freshShape := by
  rw [State.shapeAt, mgetD, h]
  rfl

/-- The shape records that a valid entry leaves: a tenant that is created finds none in its table (R333). -/
def keepsShape (old : Option Tenant) (new : Tenant) (e : Nat × Vec) : Bool :=
  old.isSome || decide (e.1 < new.shtb) || decide (new.shtb + 262144 ≤ e.1)

theorem keepsShape_created (new : Tenant) {j : Nat} (hj : j < 4096) (v : Vec) : keepsShape none new (new.shtb + 64 * j, v) = false := by
  simp only [keepsShape, Option.isSome_none, Bool.false_or, Bool.or_eq_false_iff, decide_eq_false_iff_not]
  omega

section
variable {s : State} {n : Nat} {e : BitVec 512}

theorem tenantTableChange_resident (hl : s.hasLaunch n = true) : exec (.tenantTableChange n e) s = .next s :=
  if_pos (by simp [hl])

variable (hm : s.managed = true) (hn : n < 64) (hl : s.hasLaunch n = false)
include hm hn hl

theorem tenantChange_admitted : ¬ (!s.managed || !tenantOk n || s.hasLaunch n) = true := by simp [hm, hl, tenantOk, hn]

theorem tenantTableChange_sets {k : Key} (hv : nbits e 272 1 = 1) (hk : mget s.tables.keys (nbits e 256 16) = some k) (ht : k.tenant = n) :
    ∃ s', exec (.tenantTableChange n e) s = .next s' ∧ OnlyTables s s' ∧ s'.tenant? n = some (Tenant.set (s.tenant? n) e) ∧
      (s.tenant? n = none → ∀ j < 4096, nbits (s'.shapeAt ((Tenant.set none e).shtb + 64 * j)) 96 8 = 0 ∧
        nbits (s'.shapeAt ((Tenant.set none e).shtb + 64 * j)) 80 12 = 1) := by
  let new := Tenant.set (s.tenant? n) e
  refine ⟨s.modTables fun y => { y with tenants := mput y.tenants n new, shapes := y.shapes.filter (keepsShape (s.tenant? n) new) },
    (if_neg (tenantChange_admitted hm hn hl)).trans ((if_neg (by simp [hv])).trans (if_neg ?_)), rfl, mget_mput_self _ _ _, ?_⟩
  · simp [hk, ht]
  · intro hnew j hj
    have hgone : mget (s.tables.shapes.filter (keepsShape (s.tenant? n) new)) ((Tenant.set none e).shtb + 64 * j) = none := by
      dsimp only [new]
      rw [hnew]
      exact mget_filter_none (keepsShape_created _ hj)
    rw [shapeAt_absent hgone]
    exact freshShape_fields

omit hm hn hl in
/-- Removing a tenant closes its regions (R329). -/
theorem removeTenant_closes {x : Tenant} {g : Nat} {r : Region} (hr : mget (s.removeTenant n x).regions g = some r) (ht : r.tenant = n) :
    r.closing = true := by
  have hmap := mget_mapEach s.regions (fun _ r => if r.tenant = n then { r with closing := true } else r)
    (g := fun e => if e.2.tenant = n then (e.1, { e.2 with closing := true }) else e) (fun e => by dsimp only; split <;> rfl) g
  obtain ⟨r0, -, rfl⟩ := Option.map_eq_some_iff.mp (hmap.symm.trans hr)
  split at ht
  · next h => rw [if_pos h]
  · next h => exact absurd ht h

theorem tenantTableChange_removes {x : Tenant} (hv : nbits e 272 1 = 0) (hx : s.tenant? n = some x) :
    ∃ s', exec (.tenantTableChange n e) s = .next s' ∧ s'.tenant? n = none ∧ s'.mem = s.mem ∧
      ∀ g r, mget s'.regions g = some r → r.tenant = n → r.closing = true := by
  refine ⟨s.removeTenant n x, (if_neg (tenantChange_admitted hm hn hl)).trans ((if_pos hv).trans ?_), mget_mdel_self _ _, rfl,
    fun g r => removeTenant_closes⟩
  rw [hx]

end

/-! ### The report (R390) -/

theorem attestationReport_posts {s : State} {nonce : BitVec 256} (hm : s.managed = true) (he : s.egress s.manager = true) :
    ∃ s', exec (.attestationReport nonce) s = .next s' ∧ s'.mem = s.mem ∧ s'.threads = s.threads ∧
      let digests : BitVec 1024 := sha512 (storedBytes s.host.record.stored) ++ sha512 (storedBytes s.host.image)
      s'.host.posted = s.host.posted ++ [.report digests nonce (BitVec.ofNat 64 s.now) Config.serial
        (Config.signature s.host.record.key digests nonce (BitVec.ofNat 64 s.now) Config.serial)] := by
  have hp (p : Posted) : s.timed.post s.manager p = s.timed.modHost fun h => { h with posted := h.posted ++ [p] } := post_listed p he
  exact ⟨_, (if_neg (by simp [hm])).trans (congrArg Host.Outcome.next (hp _)), rfl, rfl, rfl⟩

/-! ### The checkpoint (R395) -/

/-- A line that is written back changes its channel, and of the rest only counters. -/
theorem kept_writeBack (s : State) (line : Nat) : Kept s (s.writeBack line) := by
  unfold State.writeBack
  split
  · have hc : Kept s { s with chan := { cells := s.chan.cells.filter (fun e => e.1 / 64 != line), tags := mdel s.chan.tags line } } :=
      ⟨rfl, rfl, rfl, rfl, rfl, rfl, rfl, rfl, rfl⟩
    exact hc.trans ((kept_modDie _ _ _).trans (kept_countDie _ _ _ _))
  · exact .refl s

theorem kept_writeBackAll (s : State) : Kept s s.writeBackAll :=
  kept_foldl _ (fun s d => kept_foldl _ kept_writeBack (s.die d).l2dirty s) (List.range 4) s

section
variable {s : State} {tag : BitVec 64} {live : Bool} {targets : List Nat}

theorem checkpoint_unlisted (h : targets.all s.egress = false) : exec (.checkpoint tag live targets) s = .next s :=
  if_pos (by simp [h])

variable (hm : s.managed = true) (hc : s.host.ckpt = none) (hn : targets ≠ []) (hl : targets.length ≤ 16) (he : targets.all s.egress = true)
include hm hc hn hl he

theorem checkpoint_admitted :
    ¬ (!s.managed || s.host.ckpt.isSome || targets.isEmpty || decide (16 < targets.length) || !targets.all s.egress) = true := by
  simp only [hm, hc, he, List.isEmpty_eq_false_iff.mpr hn, decide_eq_false (Nat.not_lt.mpr hl)]
  decide

theorem checkpoint_quiesces : ∃ s', exec (.checkpoint tag false targets) s = .next s' ∧
    s'.host.ckpt = some { tag := tag, live := false, targets := targets } ∧ s'.host.quiesced = true ∧ s'.work.paused = true ∧
    s'.mem = s.mem ∧ s'.threads = s.threads :=
  ⟨_, if_neg (checkpoint_admitted hm hc hn hl he), rfl, Bool.or_true _, rfl, rfl, rfl⟩

theorem checkpoint_writesBack : ∃ s', exec (.checkpoint tag true targets) s = .next s' ∧
    s'.host.ckpt = some { tag := tag, live := true, targets := targets } ∧ s'.host.quiesced = s.host.quiesced ∧ s'.work = s.work ∧
    s'.mem = s.mem ∧ s'.threads = s.threads := by
  let u := s.modHost fun h => { h with ckpt := some { tag := tag, live := true, targets := targets }, quiesced := h.quiesced || !true }
  have hk := kept_writeBackAll u
  refine ⟨u.writeBackAll, if_neg (checkpoint_admitted hm hc hn hl he), ?_, ?_, hk.work, hk.mem, hk.threads⟩
  · rw [hk.host]
    rfl
  · rw [hk.host]
    exact Bool.or_false _

end

/-- Packets whose addresses the device record lists leave, one after the other (R391). -/
theorem foldl_posts {dest : Posted → Nat} {s : State} {ps : List Posted} (h : ∀ p ∈ ps, s.egress (dest p) = true) :
    ps.foldl (fun s p => s.post (dest p) p) s = s.modHost fun x => { x with posted := x.posted ++ ps } := by
  induction ps generalizing s with
  | nil => simp [State.modHost]
  | cons p ps ih =>
    rw [List.foldl_cons, ih fun q hq => ((sends_post s _ p).egress _).trans (h q (List.mem_cons_of_mem p hq)),
      post_listed p (h p List.mem_cons_self)]
    simp [State.modHost]

/-- Where a packet of a checkpoint goes (R395). -/
def lineDest (p : Posted) : Nat := match p with | .line d _ _ => d | .blank d _ _ => d | _ => 0

/-- Every packet of a checkpoint goes to one of its targets (R395). -/
theorem lineDest_ckptLines {s : State} {targets : List Nat} (hn : targets ≠ []) {p : Posted} (hp : p ∈ s.ckptLines targets) :
    lineDest p ∈ targets := by
  have ht (line : Nat) : targets.getD (line % targets.length) 0 ∈ targets := by
    rw [List.getD_eq_getElem _ _ (Nat.mod_lt _ (List.length_pos_iff.mpr hn))]
    exact List.getElem_mem _
  rw [State.ckptLines, List.mem_append, List.mem_map, List.mem_map] at hp
  obtain ⟨e, -, rfl⟩ | ⟨g, -, rfl⟩ := hp
  · exact ht _
  · exact ht _

/-- The reply over management, which binds no tenant, goes to the session's other end (R383, R385). -/
theorem replyTo_management {s : State} {n k : Nat} {x : Session} (hx : mget s.host.sessions n = some x) (ht : x.tenants = []) :
    s.replyTo n k = x.remote := by
  unfold State.replyTo
  rw [hx]
  simp [ht]

/-- The session of the management endpoint (R383). -/
def State.managerSession (s : State) : Nat := match s.host.sessions.find? fun e => e.2.endpoint == 3 with | some e => e.1 | none => 0

/-- A live checkpoint ends by its lines leaving, and the reply after them. -/
theorem checkpointReply_live {s : State} {k : Ckpt} (hk : s.host.ckpt = some k) (hl : k.live = true) : exec .checkpointReply s =
    let w := (s.ckptLines k.targets).foldl (fun s p => s.post (lineDest p) p) s.tick
    .next ((w.modHost fun h => { h with ckpt := none }).reply w.managerSession nobody k.tag
      ((Config.freeWord s.sched.fresh).toNat % 2 ^ 16) 0) := by
  change execCheckpointReply s = _
  unfold execCheckpointReply
  rw [hk]
  dsimp only
  rw [if_neg (by simp [hl]), if_pos hl]
  rfl

theorem checkpointReply_answers {s : State} {k : Ckpt} {n : Nat} {x : Session} (hk : s.host.ckpt = some k) (hl : k.live = true)
    (hn : k.targets ≠ []) (he : k.targets.all s.egress = true)
    (hf : s.host.sessions.find? (fun e => e.2.endpoint == 3) = some (n, x)) (hx : mget s.host.sessions n = some x) (ht : x.tenants = [])
    (hr : s.egress x.remote = true) :
    ∃ s' kind, exec .checkpointReply s = .next s' ∧ s'.host.ckpt = none ∧ s'.host.posted = s.host.posted ++ s.ckptLines k.targets ++
      [.reply n x.remote (framed 2 (BitVec.ofNat 256 (k.tag.toNat + kind * 2 ^ 64)))] ∧ s'.mem = s.mem ∧ s'.threads = s.threads := by
  let kind := (Config.freeWord s.sched.fresh).toNat % 2 ^ 16
  let p : Posted := .reply n x.remote (framed 2 (BitVec.ofNat 256 (k.tag.toNat + kind * 2 ^ 64)))
  let u := (s.tick.modHost fun h => { h with posted := h.posted ++ s.ckptLines k.targets }).modHost fun h => { h with ckpt := none }
  have hlines : (s.ckptLines k.targets).foldl (fun s p => s.post (lineDest p) p) s.tick =
      s.tick.modHost fun h => { h with posted := h.posted ++ s.ckptLines k.targets } :=
    foldl_posts fun p hp => List.all_eq_true.mp he _ (lineDest_ckptLines hn hp)
  have hreply : u.reply n nobody k.tag kind 0 = u.modHost fun h => { h with posted := h.posted ++ [p] } := by
    have hd : u.replyTo n nobody = x.remote := replyTo_management hx ht
    unfold State.reply
    rw [hd, Nat.zero_mul, Nat.add_zero]
    exact post_listed _ hr
  refine ⟨u.modHost fun h => { h with posted := h.posted ++ [p] }, kind, ?_, rfl, rfl, rfl, rfl⟩
  have hsess : s.managerSession = n := by rw [State.managerSession, hf]
  rw [checkpointReply_live hk hl]
  dsimp only
  rw [hlines]
  refine Eq.trans ?_ (congrArg Host.Outcome.next hreply)
  exact congrArg (fun m => Host.Outcome.next (u.reply m nobody k.tag kind 0)) hsess

theorem checkpointReply_waits {s : State} {k : Ckpt} (hk : s.host.ckpt = some k) (hl : k.live = false) (hq : s.quiet = false) :
    exec .checkpointReply s = .next s := by
  change execCheckpointReply s = _
  unfold execCheckpointReply
  rw [hk]
  exact if_pos (by simp [hl, hq])

theorem checkpointResume_resumes {s : State} (hm : s.managed = true) (hc : s.host.ckpt = none) : exec .checkpointResume s =
    .next { s with host := { s.host with quiesced := false }, work := { s.work with paused := false } } :=
  if_neg (by simp [hm, hc])

/-! ### Accesses through exports (R203, R387) -/

theorem performWrite_host (s : State) (tid d key : Nat) (ws : List (Nat × Byte)) : (s.performWrite tid d key ws).host = s.host := by
  cases ws with
  | nil => rfl
  | cons w ws =>
    have h := (written_spec s d key w.1 (w :: ws)).host
    rw [performWrite_cons]
    generalize s.written d key w.1 (w :: ws) = u at h
    dsimp only
    split
    · exact h
    · exact h

theorem kept_dropRdc (s : State) (d line : Nat) : Kept s (s.dropRdc d line) := (kept_modDie _ _ _).trans (kept_countDie _ _ _ _)

theorem invalsOf_host (s : State) (tag : Nat) : (s.invalsOf tag).host = s.host := by
  have h := kept_foldl (fun s (i : Inval) => i.dies.foldl (fun s d => s.dropRdc d i.line) s)
    (fun s i => kept_foldl _ (fun s d => kept_dropRdc s d i.line) i.dies s) (s.flight.invals.filter fun i => i.tid == tag) s
  unfold State.invalsOf
  exact h.host

/-- A write of a peer through one of the exports: its bytes at their home, and the invalidations that it causes (R203). -/
def State.exportWrite (s : State) (key pa : Nat) (bs : List Byte) : State := (s.performWrite nobody 4 key (place pa bs)).engInvals nobody

theorem exportWrite_mem (s : State) (key pa : Nat) (bs : List Byte) :
    (s.exportWrite key pa bs).mem = s.mem.puts (s.keyData key) (place pa bs) :=
  (invalsOf_mem _ _).trans (performWrite_spec s nobody 4 key _).1

theorem exportWrite_host (s : State) (key pa : Nat) (bs : List Byte) : (s.exportWrite key pa bs).host = s.host :=
  (invalsOf_host _ _).trans (performWrite_host s nobody 4 key _)

/-- What an access through one of the exports does at the home of its bytes (R203, R387). -/
def State.exportDone (s : State) (key pa op n : Nat) (data : BitVec 512) : State :=
  if op = 0 then s
  else if op = 1 then s.exportWrite key pa (bytesOf data.toNat n)
  else s.exportWrite key pa (bytesOf (atomNew (op - 2) n (ofBytes (s.homeBytes pa n key)) (nbits data 0 64) (nbits data 64 64)) n)

theorem exportDone_host (s : State) (key pa op n : Nat) (data : BitVec 512) : (s.exportDone key pa op n data).host = s.host := by
  unfold State.exportDone
  split
  · rfl
  · split
    · exact exportWrite_host _ _ _ _
    · exact exportWrite_host _ _ _ _

/-- What memory is then: as it was, with the bytes written, or with those that the atomic makes of what it held (R237, R387). -/
theorem exportDone_mem (s : State) (key pa op n : Nat) (data : BitVec 512) :
    (op = 0 → (s.exportDone key pa op n data).mem = s.mem) ∧
    (op = 1 → (s.exportDone key pa op n data).mem = s.mem.puts (s.keyData key) (place pa (bytesOf data.toNat n))) ∧
    (2 ≤ op → (s.exportDone key pa op n data).mem = s.mem.puts (s.keyData key) (place pa
      (bytesOf (atomNew (op - 2) n (ofBytes (s.homeBytes pa n key)) (nbits data 0 64) (nbits data 64 64)) n))) := by
  refine ⟨fun h => ?_, fun h => ?_, fun h => ?_⟩
  · rw [State.exportDone, if_pos h]
  · rw [State.exportDone, if_neg (by omega), if_pos h, exportWrite_mem]
  · rw [State.exportDone, if_neg (by omega), if_neg (by omega), exportWrite_mem]

theorem Kept.homeBytes {s s' : State} (h : Kept s s') (pa n key : Nat) : s'.homeBytes pa n key = s.homeBytes pa n key := by
  rw [State.homeBytes, h.mem, h.keyData, State.homeBytes]

section
variable {s : State} {x remote off op n : Nat} {data : BitVec 512} {e : Export} (hp : s.host.phase = .running) (h1 : 1 ≤ n)
  (h64 : off % 64 + n ≤ 64) (hx : mget s.host.exports x = some e)
include hp h1 h64 hx

/-- An access of at most a line, the number being one of the exports that are set up, by the checks that it meets. -/
theorem exec_exportAccess : exec (.exportAccess x remote off op n data) s =
    let pa := s.movedTo (e.base + off)
    if !s.exportBound remote e.tenant || !e.allows remote off op n || !s.keyValid e.key || !(isHbm pa || isLpddr pa) || (op != 1 && s.badAt pa n) then
      .next (s.post remote (.access remote false 0))
    else if s.zeroing (pa / 64) then
      .next (s.modHost fun h => { h with waiting := h.waiting ++ [(none, .exportAccess x remote off op n data)] })
    else .next (((s.homeTraffic e.tenant pa).exportDone e.key pa op n data).post remote
      (.access remote true (BitVec.ofNat 512 (ofBytes (s.homeBytes pa n e.key))))) := by
  change execExportAccess x remote off op n data s = _
  unfold execExportAccess
  rw [if_neg (by simp [hp]; omega), hx]
  dsimp only [State.exportDone, State.exportWrite, State.homeAtomic]
  split_ifs <;> rfl

theorem exportAccess_refused (h : e.allows remote off op n = false ∨ s.exportBound remote e.tenant = false) :
    exec (.exportAccess x remote off op n data) s = .next (s.post remote (.access remote false 0)) := by
  refine (exec_exportAccess hp h1 h64 hx).trans (if_pos ?_)
  obtain h | h := h
  · simp [h]
  · simp [h]

theorem exportAccess_performed (ha : e.allows remote off op n = true) (hb : s.exportBound remote e.tenant = true)
    (he : s.egress remote = true) (hk : s.keyValid e.key = true)
    (ht : (isHbm (s.movedTo (e.base + off)) || isLpddr (s.movedTo (e.base + off))) = true)
    (hbad : op = 1 ∨ s.badAt (s.movedTo (e.base + off)) n = false) (hz : s.zeroing (s.movedTo (e.base + off) / 64) = false) :
    let pa := s.movedTo (e.base + off)
    ∃ s', exec (.exportAccess x remote off op n data) s = .next s' ∧
      s'.host.posted = s.host.posted ++ [.access remote true (BitVec.ofNat 512 (ofBytes (s.homeBytes pa n e.key)))] ∧
      (op = 0 → s'.mem = s.mem) ∧
      (op = 1 → s'.mem = s.mem.puts (s.keyData e.key) (place pa (bytesOf data.toNat n))) ∧
      (2 ≤ op → s'.mem = s.mem.puts (s.keyData e.key) (place pa
        (bytesOf (atomNew (op - 2) n (ofBytes (s.homeBytes pa n e.key)) (nbits data 0 64) (nbits data 64 64)) n))) := by
  intro pa
  let p : Posted := .access remote true (BitVec.ofNat 512 (ofBytes (s.homeBytes pa n e.key)))
  have hc : ¬ (!s.exportBound remote e.tenant || !e.allows remote off op n || !s.keyValid e.key || !(isHbm pa || isLpddr pa) ||
      (op != 1 && s.badAt pa n)) = true := by
    have hbad : (op != 1 && s.badAt pa n) = false := by
      obtain h | h := hbad
      · simp [h]
      · rw [h, Bool.and_false]
    rw [hb, ha, hk, ht, hbad]
    decide
  have kt := kept_homeTraffic s e.tenant pa
  let u := (s.homeTraffic e.tenant pa).exportDone e.key pa op n data
  have hh : u.host = s.host := (exportDone_host _ _ _ _ _ _).trans kt.host
  have hm := exportDone_mem (s.homeTraffic e.tenant pa) e.key pa op n data
  rw [kt.mem, kt.keyData, kt.homeBytes] at hm
  have hs := (sends_post u remote p).mem
  refine ⟨u.post remote p, ?_, ?_, fun h => hs.trans (hm.1 h), fun h => hs.trans (hm.2.1 h), fun h => hs.trans (hm.2.2 h)⟩
  · exact (exec_exportAccess hp h1 h64 hx).trans ((if_neg hc).trans (if_neg (by simp [hz])))
  · have hu : u.egress remote = true := (congrArg (fun h : HostIf => h.record.dests.contains remote) hh).trans he
    rw [post_listed p hu]
    exact congrArg (fun h : HostIf => h.posted ++ [p]) hh

end

/-- Settles O48: each event by its checks; the lines of a checkpoint all leave (`foldl_posts`), since each goes to a target that the device
record lists, and an access through one of the exports is its write or atomic at the home (`State.exportDone`) and the answer. -/
theorem hostEvents : Obligations.HostEvents := by
  refine ⟨fun _ _ _ _ _ _ _ _ _ hm hx hk ht hb => exportCfg_sets hm hx hk ht hb,
    fun _ _ _ _ _ _ _ _ hm hx => exportCfg_revokes hm hx,
    fun _ _ _ _ _ hm hx => ⟨peerWindow_opens hm hx, peerWindow_closes hm hx⟩,
    fun _ _ _ _ hm hn hl hv hk ht => tenantTableChange_sets hm hn hl hv hk ht,
    fun _ _ _ _ hm hn hl hv hx => tenantTableChange_removes hm hn hl hv hx,
    fun _ _ _ hl => tenantTableChange_resident hl,
    fun _ _ hm he => attestationReport_posts hm he,
    fun _ _ _ hm hc hn hl he => checkpoint_quiesces hm hc hn hl he,
    fun _ _ _ hm hc hn hl he => checkpoint_writesBack hm hc hn hl he,
    fun _ _ _ _ h => checkpoint_unlisted h,
    fun _ _ _ _ hk hl hn he hf hx ht hr => checkpointReply_answers hk hl hn he hf hx ht hr,
    fun _ _ hk hl hq => checkpointReply_waits hk hl hq,
    fun _ hm hc => checkpointResume_resumes hm hc,
    fun _ _ _ _ _ _ _ _ hp h1 h64 hx => ⟨exportAccess_refused hp h1 h64 hx,
      fun ha hb he hk ht hbad hz => exportAccess_performed hp h1 h64 hx ha hb he hk ht hbad hz⟩⟩

end Sys2Proof.Machine
end
